-- ==== Sys2Proof/Word.lean ====
section
/-! DEFINITION. The word types of the model: the widths that the manual itself names. -/
namespace Sys2Proof

/-- One byte. -/
abbrev Byte := BitVec 8
/-- A 64-bit word: a general register, a setup register, an instruction word. -/
abbrev Word := BitVec 64
/-- A device coordinate (R10): block in [11:8], pod in [7:4], slot in [3:0]. -/
abbrev Coord := BitVec 12
/-- A core number (R16). -/
abbrev CoreId := Fin 128
/-- A cluster number (R16). -/
abbrev ClusterId := Fin 4
/-- A context number (R30). -/
abbrev Ctx := Fin 64
/-- A work ring (R195). -/
abbrev RingId := Fin 1024
/-- An event ring: 0 to 63 belong to contexts, 64 is the device's (R222). -/
abbrev EvtRing := Fin 65
/-- A descriptor index (R195). -/
abbrev Index := BitVec 32
/-- An optical engine (R226); 8 is the BX-7411. -/
abbrev EngineId := Fin 9
/-- A light source module (R230). -/
abbrev ModuleId := Fin 8
/-- A fiber pair F (R226). -/
abbrev FiberId := Fin 64
/-- A channel c = 16 F + 8 direction + line (R251). -/
abbrev ChanId := Fin 1024
/-- A physical LPDDR6 channel (R178). -/
abbrev PhysChan := Fin 104
/-- A front port (R333). -/
abbrev PortId := Fin 2
/-- A clock island (R394). -/
abbrev IslandId := Fin 148

end Sys2Proof
end

