-- ==== Sys2Proof/Syntax.lean ====
section
/-! DEFINITION. The commands that the block takes, one constructor per row of the opcode table, and their operands. -/
namespace Sys2Proof

/-- The four words of a broad instruction, lowest address first (R83, R93). -/
structure BroadWords where
  w0 : Word
  w1 : Word
  w2 : Word
  w3 : Word
  deriving DecidableEq, Repr

/-- Who makes an access to the setup window or to a doorbell page (R200, R441). -/
inductive Source where
  /-- The management port. -/
  | mgmt
  /-- A Ranger core of this device. -/
  | ranger
  /-- A descriptor of ring n with SYSTEM = 1. -/
  | sys (n : RingId)
  /-- A peer's Ranger, through MGT MREAD and MWRITE. -/
  | peer (c : Coord)
  /-- Any agent that acts for a context. -/
  | agent (x : Ctx)
  /-- A core running a launch. -/
  | core (k : CoreId)
  deriving DecidableEq, Repr

/-- A packet: four header words, PLEN payload bytes, and the CRC-32C sent after them (R260, R261). -/
structure Packet where
  w0 : Word
  w1 : Word
  w2 : Word
  w3 : Word
  payload : List Byte
  pcrc : BitVec 32
  deriving DecidableEq, Repr

/-- A flit: control field, 320 payload bytes, link CRC (R253). -/
structure Flit where
  ctl : BitVec 128
  payload : List Byte
  crc : BitVec 32
  deriving DecidableEq, Repr

/-- A flit as a channel receives it, with the number of symbols of its codeword that were wrong (R254). -/
structure Received where
  flit : Flit
  symErrs : Nat
  deriving DecidableEq, Repr

/-- What a background read finds in a unit (R175, R176). -/
inductive EccFinding where
  | clean
  | correctable
  | uncorrectable
  deriving DecidableEq, Repr

/-- What a relock sweep meets (R241). -/
inductive SweepEvent where
  /-- Bit w: line w carries light, as the receive side reports. -/
  | settled (lit : BitVec 8)
  | crossing (line : BitVec 3) (heater : BitVec 16)
  | failed
  deriving DecidableEq, Repr

/-- A light source module is removed, or seated and answers the write that follows or not (R233). -/
inductive Seating where
  | removed
  | seated (acked : Bool)
  deriving DecidableEq, Repr

structure PtpMessage where
  bytes : List Byte
  deriving DecidableEq, Repr

structure RtpPacket where
  bytes : List Byte
  deriving DecidableEq, Repr

/-- A key of the recent table (R352): the request's source, its endpoint and its CLIENT_TAG. -/
structure ExrKey where
  addr : BitVec 128
  port : BitVec 16
  endpoint : Byte
  ctag : Word
  deriving DecidableEq, Repr

structure TcpConn where
  addr : BitVec 128
  port : BitVec 16
  deriving DecidableEq, Repr

inductive HangEngine where
  | core (k : CoreId)
  | dma (e : Fin 16)
  | device (cls : Fin 4)
  deriving DecidableEq, Repr

inductive FsCause where
  | shutdown
  | bulkLow
  | railLow
  | noPair
  | watchdog
  deriving DecidableEq, Repr

inductive DumpUnit where
  | core (k : CoreId)
  | cluster (c : ClusterId)
  | other (n : Fin 32)
  deriving DecidableEq, Repr

/-- The end of a boot step (R416): whether its work succeeded; the units it leaves out, by their number in the step (islands, cores,
clusters, physical channels, engines, ports); for step 7, the column groups of each core that passed. -/
structure BootReport where
  step : Fin 20
  ok : Bool
  units : List Nat
  cols : List (BitVec 32)
  deriving DecidableEq, Repr


/-- A command. Each constructor is one row of the opcode table, in the table's order. -/
inductive Instr where
  /-- R8. A write to a setup register that has no behaviour of its own takes effect according to the access type of each field. -/
  | setupWrite (src : Source) (size : Nat) (off : BitVec 24) (v : Word)
  /-- R446. Writing 1 to IDENT_LOCK.SETUP_LOCK makes every RWL field read-only until device reset. -/
  | setupLock (src : Source)
  /-- R63. Once the core is free, it starts a launch: it sets its registers and trap state, clears tiles, tray and cache when the context changed, and begins fetching. -/
  | coreLaunch (k : CoreId)
  /-- R69. Integer add of two registers, wrapping at 64 bits. -/
  | add (k : CoreId) (w : Word)
  /-- R69. Integer subtract of two registers, wrapping at 64 bits. -/
  | sub (k : CoreId) (w : Word)
  /-- R69. Bitwise AND of two registers. -/
  | and (k : CoreId) (w : Word)
  /-- R69. Bitwise OR of two registers. -/
  | or (k : CoreId) (w : Word)
  /-- R69. Bitwise XOR of two registers. -/
  | xor (k : CoreId) (w : Word)
  /-- R69. Logical left shift by the low 6 bits of the shift amount. -/
  | sll (k : CoreId) (w : Word)
  /-- R69. Logical right shift by the low 6 bits of the shift amount. -/
  | srl (k : CoreId) (w : Word)
  /-- R69. Arithmetic right shift by the low 6 bits of the shift amount. -/
  | sra (k : CoreId) (w : Word)
  /-- R69. Integer multiply, keeping the low 64 bits. -/
  | mul (k : CoreId) (w : Word)
  /-- R104. Writes bits [127:64] of the signed 128-bit product. -/
  | mulhs (k : CoreId) (w : Word)
  /-- R104. Writes bits [127:64] of the unsigned 128-bit product. -/
  | mulhu (k : CoreId) (w : Word)
  /-- R69. Signed division rounding toward zero, with the defined results for a zero divisor and for overflow. -/
  | divs (k : CoreId) (w : Word)
  /-- R69. Unsigned division, with the defined result for a zero divisor. -/
  | divu (k : CoreId) (w : Word)
  /-- R69. Signed remainder that takes the sign of the dividend. -/
  | rems (k : CoreId) (w : Word)
  /-- R69. Unsigned remainder. -/
  | remu (k : CoreId) (w : Word)
  /-- R103. Signed minimum of two registers. -/
  | min (k : CoreId) (w : Word)
  /-- R103. Signed maximum of two registers. -/
  | max (k : CoreId) (w : Word)
  /-- R103. Unsigned minimum of two registers. -/
  | minu (k : CoreId) (w : Word)
  /-- R103. Unsigned maximum of two registers. -/
  | maxu (k : CoreId) (w : Word)
  /-- R104. ADD with a sign-extended imm32 in place of rs2. -/
  | addi (k : CoreId) (w : Word)
  /-- R104. SUB with the immediate operand. -/
  | subi (k : CoreId) (w : Word)
  /-- R104. AND with the immediate operand. -/
  | andi (k : CoreId) (w : Word)
  /-- R104. OR with the immediate operand. -/
  | ori (k : CoreId) (w : Word)
  /-- R104. XOR with the immediate operand. -/
  | xori (k : CoreId) (w : Word)
  /-- R104. SLL with the immediate operand. -/
  | slli (k : CoreId) (w : Word)
  /-- R104. SRL with the immediate operand. -/
  | srli (k : CoreId) (w : Word)
  /-- R104. SRA with the immediate operand. -/
  | srai (k : CoreId) (w : Word)
  /-- R104. MUL with the immediate operand. -/
  | muli (k : CoreId) (w : Word)
  /-- R104. MULHS with the immediate operand. -/
  | mulhsi (k : CoreId) (w : Word)
  /-- R104. MULHU with the immediate operand, read as unsigned. -/
  | mulhui (k : CoreId) (w : Word)
  /-- R104. DIVS with the immediate operand. -/
  | divsi (k : CoreId) (w : Word)
  /-- R104. DIVU with the immediate operand, read as unsigned. -/
  | divui (k : CoreId) (w : Word)
  /-- R104. REMS with the immediate operand. -/
  | remsi (k : CoreId) (w : Word)
  /-- R104. REMU with the immediate operand, read as unsigned. -/
  | remui (k : CoreId) (w : Word)
  /-- R104. MIN with the immediate operand. -/
  | mini (k : CoreId) (w : Word)
  /-- R104. MAX with the immediate operand. -/
  | maxi (k : CoreId) (w : Word)
  /-- R104. MINU with the immediate operand, read as unsigned. -/
  | minui (k : CoreId) (w : Word)
  /-- R104. MAXU with the immediate operand, read as unsigned. -/
  | maxui (k : CoreId) (w : Word)
  /-- R104. Writes rd = (imm32 << 32) | low 32 bits of rs1. -/
  | insh (k : CoreId) (w : Word)
  /-- R104. Writes pd = 1 when rs1 equals the immediate. -/
  | cmpeqi (k : CoreId) (w : Word)
  /-- R104. Writes pd = 1 when rs1 differs from the immediate. -/
  | cmpnei (k : CoreId) (w : Word)
  /-- R104. Signed less-than compare against the immediate, into pd. -/
  | cmplti (k : CoreId) (w : Word)
  /-- R104. Unsigned less-than compare against the immediate, into pd. -/
  | cmpltui (k : CoreId) (w : Word)
  /-- R104. Signed greater-or-equal compare against the immediate, into pd. -/
  | cmpgei (k : CoreId) (w : Word)
  /-- R104. Unsigned greater-or-equal compare against the immediate, into pd. -/
  | cmpgeui (k : CoreId) (w : Word)
  /-- R72. Scalar load of 1 to 8 bytes: it decodes and checks the address, may use the far-read cache, and writes rd when the data returns. -/
  | ld (k : CoreId) (w : Word)
  /-- R72. Scalar store of 1 to 8 bytes, ordered per destination under R73, that invalidates overlapping far-read lines. -/
  | st (k : CoreId) (w : Word)
  /-- R104. Scalar atomic add on an aligned 8-byte word; waits for the reply and writes rd and pd. -/
  | aadd (k : CoreId) (w : Word)
  /-- R104. Scalar atomic signed minimum. -/
  | amin (k : CoreId) (w : Word)
  /-- R104. Scalar atomic signed maximum. -/
  | amax (k : CoreId) (w : Word)
  /-- R104. Scalar atomic AND. -/
  | aand (k : CoreId) (w : Word)
  /-- R104. Scalar atomic OR. -/
  | aor (k : CoreId) (w : Word)
  /-- R104. Scalar atomic XOR. -/
  | axor (k : CoreId) (w : Word)
  /-- R104. Scalar atomic swap. -/
  | aswap (k : CoreId) (w : Word)
  /-- R104. Scalar atomic compare-and-swap on 8 bytes. -/
  | acas (k : CoreId) (w : Word)
  /-- R104. Scalar atomic compare-and-swap on an aligned 16-byte unit, using register pairs. -/
  | acas2 (k : CoreId) (w : Word)
  /-- R104. Scalar atomic FP32 add on an aligned 4-byte word; not order-reproducible. -/
  | afadd (k : CoreId) (w : Word)
  /-- R104. PC-relative branch that writes the link register. -/
  | bra (k : CoreId) (w : Word)
  /-- R104. Indirect jump to rs1 + imm32 that writes the link register. -/
  | jmpr (k : CoreId) (w : Word)
  /-- R104. Register equality compare into pd. -/
  | cmpeq (k : CoreId) (w : Word)
  /-- R104. Register inequality compare into pd. -/
  | cmpne (k : CoreId) (w : Word)
  /-- R104. Signed less-than register compare into pd. -/
  | cmplt (k : CoreId) (w : Word)
  /-- R104. Unsigned less-than register compare into pd. -/
  | cmpltu (k : CoreId) (w : Word)
  /-- R104. Signed greater-or-equal register compare into pd. -/
  | cmpge (k : CoreId) (w : Word)
  /-- R104. Unsigned greater-or-equal register compare into pd. -/
  | cmpgeu (k : CoreId) (w : Word)
  /-- R104. FP32 equality compare into pd; 0 on NaN; sets no flag. -/
  | fcmpeq (k : CoreId) (w : Word)
  /-- R104. FP32 less-than compare into pd; NaN gives 0 and sets NV. -/
  | fcmplt (k : CoreId) (w : Word)
  /-- R104. FP32 less-or-equal compare into pd; NaN gives 0 and sets NV. -/
  | fcmple (k : CoreId) (w : Word)
  /-- R104. Writes pd = 1 exactly when either FP32 operand is NaN. -/
  | fcmpun (k : CoreId) (w : Word)
  /-- R104. Predicate AND. -/
  | pand (k : CoreId) (w : Word)
  /-- R104. Predicate OR. -/
  | por (k : CoreId) (w : Word)
  /-- R104. Predicate XOR. -/
  | pxor (k : CoreId) (w : Word)
  /-- R104. Predicate AND NOT. -/
  | pandn (k : CoreId) (w : Word)
  /-- R104. Writes pd = (rs1 != 0). -/
  | pmovg (k : CoreId) (w : Word)
  /-- R70. FP32 add rounded once, setting the sticky flags. -/
  | fadd (k : CoreId) (w : Word)
  /-- R70. FP32 subtract rounded once. -/
  | fsub (k : CoreId) (w : Word)
  /-- R70. FP32 multiply rounded once. -/
  | fmul (k : CoreId) (w : Word)
  /-- R70. FP32 divide rounded once. -/
  | fdiv (k : CoreId) (w : Word)
  /-- R70. FP32 square root rounded once. -/
  | fsqrt (k : CoreId) (w : Word)
  /-- R70. FP32 fused multiply-add into rd, rounded once. -/
  | ffma (k : CoreId) (w : Word)
  /-- R70. FP32 minimum under R58. -/
  | fmin (k : CoreId) (w : Word)
  /-- R70. FP32 maximum under R58. -/
  | fmax (k : CoreId) (w : Word)
  /-- R70. FP32 absolute value by sign manipulation. -/
  | fabs (k : CoreId) (w : Word)
  /-- R70. FP32 negation by sign manipulation. -/
  | fneg (k : CoreId) (w : Word)
  /-- R70. Truncating FP32 to signed 64-bit conversion, saturating. -/
  | cvtF2i (k : CoreId) (w : Word)
  /-- R70. Round-to-nearest FP32 to signed 64-bit conversion, saturating. -/
  | cvtF2in (k : CoreId) (w : Word)
  /-- R70. Signed 64-bit to FP32 conversion. -/
  | cvtI2f (k : CoreId) (w : Word)
  /-- R70. FP32 to BF16 conversion under R43. -/
  | cvtF2bf (k : CoreId) (w : Word)
  /-- R70. FP32 to FP16 conversion under R43. -/
  | cvtF2h (k : CoreId) (w : Word)
  /-- R70. Exact BF16 to FP32 conversion. -/
  | cvtBf2f (k : CoreId) (w : Word)
  /-- R70. Exact FP16 to FP32 conversion. -/
  | cvtH2f (k : CoreId) (w : Word)
  /-- R91. Copies a system register to rd. -/
  | mfs (k : CoreId) (w : Word)
  /-- R91. Copies rs1 to a system register under its access type. -/
  | mts (k : CoreId) (w : Word)
  /-- R75. Later accesses to the own device wait until earlier ones there have been performed. -/
  | fenceLocal (k : CoreId) (w : Word)
  /-- R75. Later accesses wait until every earlier access has left the core for its destination's order. -/
  | fenceIssue (k : CoreId) (w : Word)
  /-- R104. Raises the SOFTWARE trap with imm12. -/
  | trap (k : CoreId) (w : Word)
  /-- R79. Clears trap_active, continues at SYS_EPC and delivers pending imprecise faults. -/
  | rte (k : CoreId) (w : Word)
  /-- R82. Begins waiting for broad instructions, accesses and remote writes of the launch to complete. -/
  | halt (k : CoreId) (w : Word)
  /-- R82. When the HALT wait ends, the core completes the launch with OK, or delivers a pending fault or BROAD_FAULT. -/
  | haltDone (k : CoreId)
  /-- R77. Checks the address, then waits with the clock gated until the 8-byte value differs or the count runs out. -/
  | waitv (k : CoreId) (w : Word)
  /-- R77. A read made during the wait finds a changed value (p7 = 1) or fails (LOAD_FAULT), and the wait ends. -/
  | waitvWake (k : CoreId)
  /-- R77. The WAITV cycle count runs out and p7 = 0 is written. -/
  | waitvCountExpired (k : CoreId)
  /-- R86. Waits until no more than imm12 broad instructions are outstanding. -/
  | bwait (k : CoreId) (w : Word)
  /-- R103. Scalar no-operation. -/
  | nop (k : CoreId) (w : Word)
  /-- R107. Issues a broad copy of memory rows into a tile span, optionally through the transpose engine. -/
  | tload (k : CoreId) (b : BroadWords)
  /-- R107. Issues a broad copy of a tile span to memory rows. -/
  | tstore (k : CoreId) (b : BroadWords)
  /-- R109. Issues a broad memory-to-memory row copy, optionally transposed. -/
  | xmov (k : CoreId) (b : BroadWords)
  /-- R110. Issues a broad matrix multiply-accumulate into an accumulator bank. -/
  | mma (k : CoreId) (b : BroadWords)
  /-- R111. Issues a broad convolution with walked input addresses into an accumulator bank. -/
  | conv (k : CoreId) (b : BroadWords)
  /-- R112. Issues a conversion of an accumulator rectangle to a tile span or to memory, optionally clearing it. -/
  | aflush (k : CoreId) (b : BroadWords)
  /-- R114. Issues an elementwise lane operation selected by EOP. -/
  | ewise (k : CoreId) (b : BroadWords)
  /-- R115. Issues the evaluation of a ROM or slot special function on every element. -/
  | sfn (k : CoreId) (b : BroadWords)
  /-- R116. Issues a per-row reduction of the kind that KIND selects. -/
  | rowstat (k : CoreId) (b : BroadWords)
  /-- R166. Issues a softmax pass that updates the running maximum and sum. -/
  | smax1 (k : CoreId) (b : BroadWords)
  /-- R167. Issues the softmax output pass, exp(t - max) / sum. -/
  | smax2 (k : CoreId) (b : BroadWords)
  /-- R166. Issues a single-pass correcting softmax chunk that writes outputs and a correction factor. -/
  | smaxc (k : CoreId) (b : BroadWords)
  /-- R164. Issues a layer or RMS normalisation of each row. -/
  | norm (k : CoreId) (b : BroadWords)
  /-- R119. Issues quantisation to a narrow or MX format. -/
  | qnt (k : CoreId) (b : BroadWords)
  /-- R120. Issues dequantisation to FP32, BF16 or FP16. -/
  | dqnt (k : CoreId) (b : BroadWords)
  /-- R121. Issues a copy of tile elements into the member's streamed collective contribution. -/
  | csend (k : CoreId) (b : BroadWords)
  /-- R122. Issues a wait for a collective's completion or, speculatively, for its result bytes. -/
  | cwait (k : CoreId) (b : BroadWords)
  /-- R122. TIMEOUT_US runs out and CWAIT retires with TIMEOUT. -/
  | cwaitTimeout (k : CoreId)
  /-- R123. Issues a wait until the core's writes to one or all destinations are acknowledged in both epochs. -/
  | headcount (k : CoreId) (b : BroadWords)
  /-- R124. Joins a cluster barrier and waits for the count to be reached. -/
  | sync (k : CoreId) (b : BroadWords)
  /-- R124. A barrier arrival times out and is withdrawn, and SYNC retires with TIMEOUT. -/
  | syncTimeout (k : CoreId)
  /-- R125. Issues the invalidation of far-read cache lines, all of them or a range. -/
  | farinv (k : CoreId) (b : BroadWords)
  /-- R126. Issues a flip of the step-table bank or of special-function slots. -/
  | tblsel (k : CoreId) (b : BroadWords)
  /-- R98. When its unit is free, the sequencer starts a queued broad instruction: it reads the header and runs checks 1 to 6. -/
  | broadStart (k : CoreId)
  /-- R85. A broad instruction retires in order with its status; a failure discards the queued instructions and raises BROAD_FAULT. -/
  | broadRetire (k : CoreId)
  /-- R149. At the next instruction boundary the shadow step-table or slot bank becomes active, or the TBLSEL is refused. -/
  | bankFlip (k : CoreId)
  /-- R176. A background read of a memory unit corrects or poisons it under R175. -/
  | patrolScrub (unit : Nat) (found : EccFinding)
  /-- R186. An LPDDR6 access that waited for tokens is tested again against the context's bucket. -/
  | regulatorRetest (x : Ctx) (die : Fin 2) (dt : Nat)
  /-- R185. An LPDDR6 channel that fails in service is fenced, and its outstanding accesses are answered. -/
  | channelFailed (pc : PhysChan)
  /-- R185. A free spare channel leaves self-refresh and recalibrates, and MEM_CHMAP is updated. -/
  | spareRecalibrated (pc : PhysChan)
  /-- R185. The spare has been written as zero with POISON set; the channel is unfenced and DEGRADED is posted. -/
  | spareFillDone (pc : PhysChan)
  /-- R187. Every 1 ms, each package's temperature is read and its throttle level set. -/
  | pkgTempRead (p : Fin 26) (t : BitVec 8)
  /-- R190. Setting MEM_DIRTY_CTRL.ENABLE starts dirty tracking and clears the active bitmap. -/
  | memDirtyEnable (src : Source)
  /-- R191. Writing 1 to MEM_DIRTY_CTRL.SWAP freezes the bitmap, activates a cleared one and starts writing the frozen one. -/
  | swap (src : Source)
  /-- R191. The frozen bitmap becomes visible in LPDDR6, or FAULT is set, and BUSY clears. -/
  | dirtyBitmapWritten
  /-- R193. A write to MEM_CH_LB.MODE sets PHY loop-back and clears ERRORS, or is ignored. -/
  | loopbackMode (src : Source) (pc : PhysChan) (mode : BitVec 2)
  /-- R196. Setting RING_CFG.ENABLE checks the configuration and enables the ring or sets CFG_ERR. -/
  | ringEnable (src : Source) (n : RingId) (v : Word)
  /-- R221. Clearing RING_CFG.ENABLE stops the ring from starting descriptors. -/
  | ringDisable (src : Source) (n : RingId) (v : Word)
  /-- R199. A doorbell store advances the producer index, is ignored, or is rejected. -/
  | doorbell (src : Source) (n : RingId) (off : BitVec 12) (size : Nat) (v : Word)
  /-- R200. A 64-bit load from a doorbell page returns the ring number and pidx. -/
  | doorbellRead (n : RingId) (off : BitVec 12) (size : Nat)
  /-- R214. A due slot is read and, when its SEQ matches, started within the INFLIGHT, BARRIER and STOP_ON_ERROR limits. -/
  | descriptorStart (n : RingId)
  /-- R202. A slot whose SEQ differs is read again at intervals of at most 1 µs. -/
  | seqRecheck (n : RingId)
  /-- R202. A SEQ mismatch outlasts SEQ_WAIT_US, and the descriptor completes with TIMEOUT. -/
  | seqWaitTimeout (n : RingId)
  /-- R218. A descriptor's work ends, and its completion posts in ring order once its writes are visible. -/
  | descriptorFinish (n : RingId)
  /-- R220. Writing 1 to RING_FLAGS.FAULTED retries the held completion write and resumes the ring. -/
  | ringFaultedRetry (src : Source) (n : RingId)
  /-- R219. Writing 1 to RING_FLAGS.STOPPED lets the next descriptor run normally. -/
  | ringStoppedClear (src : Source) (n : RingId)
  /-- R225. Setting RING_EVT_CFG.ENABLE checks k and both alignments before enabling the event ring. -/
  | evtRingEnable (src : Source) (e : EvtRing) (v : Word)
  /-- R224. Every PERIOD_US, a Lantern record is written into each enabled event ring that asks for one. -/
  | lantern
  /-- R224. Writing RING_LANTERN.PERIOD_US begins a new first period, or stops Lantern records with 0. -/
  | lanternPeriodWrite (src : Source) (us : BitVec 32)
  /-- R205. The NOP descriptor completes with OK. -/
  | nopDesc (n : RingId) (i : Index)
  /-- R205. The WAIT descriptor polls a word until a masked condition holds, as a barrier. -/
  | wait (n : RingId) (i : Index)
  /-- R205. WAIT reads its word again at intervals of at most 1 µs and completes when the condition holds or a read fails. -/
  | waitPoll (n : RingId) (i : Index)
  /-- R205. WAIT completes with TIMEOUT when TIMEOUT_US runs out. -/
  | waitTimeout (n : RingId) (i : Index)
  /-- R205. The WRITE descriptor stores one single-copy-atomic 8-byte value, as a barrier. -/
  | write (n : RingId) (i : Index)
  /-- R206. The LAUNCH descriptor waits for the core to be free and starts a program in the ring's context. -/
  | launch (n : RingId) (i : Index)
  /-- R207. The PROGRAM_LOAD descriptor copies bytes into the instruction memory of a core that is not running. -/
  | programLoad (n : RingId) (i : Index)
  /-- R208. The STEP_LOAD descriptor waits until no instruction is bound to the shadow bank, then writes it. -/
  | stepLoad (n : RingId) (i : Index)
  /-- R130. Validation of a written shadow step-table bank ends, and the bank is accepted or the load fails with TABLE_REJECTED. -/
  | stepTableValidated (k : CoreId)
  /-- R209. The SFN_LOAD descriptor writes special-function tables into the shadow banks of the named slots. -/
  | sfnLoad (n : RingId) (i : Index)
  /-- R157. The 262,144-cycle check of a slot table ends, and the table is accepted with its backward step recorded, or rejected. -/
  | sfnTableChecked (k : CoreId) (slot : Fin 16)
  /-- R210. The COPY descriptor moves rows of bytes through a DMA engine. -/
  | copy (n : RingId) (i : Index)
  /-- R211. The FILL descriptor writes an 8-byte pattern over a range. -/
  | fill (n : RingId) (i : Index)
  /-- R212. The PUT descriptor sends bytes as fabric messages, with an optional notify store. -/
  | put (n : RingId) (i : Index)
  /-- R212. The GET descriptor fetches bytes from any device as fabric messages. -/
  | get (n : RingId) (i : Index)
  /-- R234. 10 µs after a self-naming DEVICE_FAULT or fail-safe, every LASER_EN is driven low. -/
  | laserShutdown
  /-- R233. LSM_ALERT_N asserts, and the device reads the module STATUS over the sideband. -/
  | lsmAlert (m : ModuleId) (status : Option (BitVec 16))
  /-- R233. LSM_PRSNT_N changes as a module is seated or removed. -/
  | lsmPresenceChange (m : ModuleId) (present : Seating)
  /-- R250. A write to OPTIC_LSM_CTRL.ENABLE allows LASER_EN or holds it low; re-enabling reads ID and checks powers. -/
  | opticLsmEnable (src : Source) (m : ModuleId) (enable : Bool) (id : Option (BitVec 16)) (powersOk : BitVec 8)
  /-- R236. Each lit channel sends an idle flit at least once every 16 µs. -/
  | idleFlitTimer (c : ChanId)
  /-- R237. A fiber direction in service loses all light, reads STATE 0 and posts INFO. -/
  | lightLost (f : FiberId)
  /-- R238. Every 10 µs, each ring's lock loop adjusts its heater. -/
  | lockLoopUpdate (c : ChanId) (heater : BitVec 16)
  /-- R239. The line monitor finds a missing or doubled ring tone, and the affected channels leave the map for relock. -/
  | lineMonitor (f : FiberId) (tones : List (BitVec 8))
  /-- R240. A calibration pass starts when PERIOD_MS has passed and the previous pass has ended. -/
  | calPassStart (e : EngineId)
  /-- R251. Writing 1 to OPTIC_ENG_CTRL.CAL_NOW starts a calibration pass now. -/
  | calNow (src : Source) (e : EngineId)
  /-- R242. A channel's calibration scan ends, a setpoint is chosen, or the channel goes to a relock sweep. -/
  | calScanDone (c : ChanId) (setpoint : Option (BitVec 16))
  /-- R242. At the end of each 1 ms window, a channel whose corrected symbols exceed SER_LIMIT is calibrated next. -/
  | serWindow (c : ChanId) (corrected : Nat)
  /-- R244. A relock sweep's heater settles or ramps and the ring locks at the right crossing, or the attempt fails. -/
  | sweepStep (c : ChanId) (ev : SweepEvent)
  /-- R245. A line falls below 50 % of its calibrated power; its rings freeze and its channel leaves every map. -/
  | linePowerLow (m : ModuleId) (line : Fin 8)
  /-- R246. The tunable spare settles on the failed line, the failed laser is turned off and the spare is turned on. -/
  | spareSettled (m : ModuleId) (settled : Bool)
  /-- R246. Frozen rings reacquire on the spare's light, or go to relock, and channel w returns to the maps. -/
  | ringsReacquired (m : ModuleId) (fibers : BitVec 8)
  /-- R248. A fiber pair failed, or short of channels for 1 s, gets a spare requested and SUBST_REQUEST posted. -/
  | substPolicy (f : FiberId)
  /-- R248. After 60 s of full health, the substitution is released, traffic moves back and INFO is posted. -/
  | substReleased (x : Fin 3)
  /-- R249. Writing 1 to OPTIC_ENG_CTRL.QUIESCE checks the topology and begins quiescing the engine, or is refused. -/
  | quiesce (src : Source) (e : EngineId) (force : Bool)
  /-- R249. The engine's replay buffers drain, its transmitters go dark and its socket is unpowered (STATE 4). -/
  | quiesceDone (e : EngineId)
  /-- R250. Writing 0 to QUIESCE powers the socket, checks the part, and begins sweep and calibration. -/
  | engineBringUp (src : Source) (e : EngineId) (part : BitVec 16)
  /-- R250. Bring-up ends, links train, ports return by epoch flip and STATE reads 2. -/
  | engineUp (e : EngineId) (fibers : BitVec 8)
  /-- R256. A data flit is received: its FEC, CRC and indices are checked, it is put in SEQ order, or a gap is answered with NAK. -/
  | dataFlit (c : ChanId) (f : Flit) (symErrs : Nat)
  /-- R258. An idle flit is received: its indices, ACK, credits and map-change announcements are processed. -/
  | idleFlit (c : ChanId) (f : Received)
  /-- R258. A CRC-valid FENCED_IDLE flit makes the receiver treat the link as fenced. -/
  | fencedIdle (c : ChanId) (f : Received)
  /-- R255. A training flit advances the channel's link-up phases and index confirmation. -/
  | trainingFlit (c : ChanId) (f : Received)
  /-- R255. An alignment block is received and its markers counted toward block lock or loss of lock. -/
  | alignmentBlock (c : ChanId) (blk : BitVec 2880)
  /-- R243. A MISMATCH control flit makes the far end look for the stray tone and relock, or answer TX_OK. -/
  | mismatch (c : ChanId) (f : Received)
  /-- R243. A TX_OK answer makes the receiver relock its own receive ring. -/
  | txOk (c : ChanId) (f : Received)
  /-- R259. A QUIESCE control flit makes the far end record the pair as quiesced (STATE 3). -/
  | quiesceNotice (c : ChanId) (f : Received)
  /-- R259. A CAL_QUALITY control flit delivers receiver quality figures for calibration. -/
  | calQuality (c : ChanId) (f : Received)
  /-- R259. An ANSWER control flit stops the repetition of the control flit it answers. -/
  | answer (c : ChanId) (f : Received)
  /-- R259. An unanswered control flit is sent again every 2 µs, up to 8 sends. -/
  | controlResend (f : FiberId) (ctrl : Byte)
  /-- R257. ACK has not advanced for 100 µs with data unacknowledged, so the link resets and retrains. -/
  | linkAckTimeout (nb : Coord)
  /-- R257. A reset link carries data again within 1 ms, and replay resumes from the first unacknowledged flit. -/
  | linkResume (nb : Coord)
  /-- R257. A reset link does not recover within 1 ms; it fails and its unacknowledged packets are answered RETRY_EXHAUSTED. -/
  | linkFail (nb : Coord)
  /-- R269. A whole packet at a hop is routed by its epoch's table, ejected, or discarded as misrouted or failing HCHK. -/
  | packetForward (nb : Coord) (p : Packet)
  /-- R272. A held packet is sent once credits for all of its units arrive from the receiving pool. -/
  | creditSend (nb : Coord)
  /-- R281. A packet held for a dark or fenced next hop through LINK_HOLD_US is dropped and answered EPOCH. -/
  | linkHoldTimeout (nb : Coord)
  /-- R274. A request is injected once its window, byte limit and reply reservation allow. -/
  | packetInject (cls : Fin 5) (d : Coord)
  /-- R263. A LOAD request at its destination is checked in TAG order, performed, and answered with RDATA. -/
  | reqLoad (p : Packet)
  /-- R263. A STORE request at its destination is checked, performed in TAG order, and answered with ACK. -/
  | reqStore (p : Packet)
  /-- R296. An atomic add request at its target is applied in TAG order or answered from the dedup cache. -/
  | reqAadd (p : Packet)
  /-- R296. An atomic signed-minimum request at its target. -/
  | reqAmin (p : Packet)
  /-- R296. An atomic signed-maximum request at its target. -/
  | reqAmax (p : Packet)
  /-- R296. An atomic AND request at its target. -/
  | reqAand (p : Packet)
  /-- R296. An atomic OR request at its target. -/
  | reqAor (p : Packet)
  /-- R296. An atomic XOR request at its target. -/
  | reqAxor (p : Packet)
  /-- R296. An atomic swap request at its target. -/
  | reqAswap (p : Packet)
  /-- R296. An 8-byte compare-and-swap request at its target. -/
  | reqAcas (p : Packet)
  /-- R296. A 16-byte compare-and-swap request at its target. -/
  | reqAcas2 (p : Packet)
  /-- R296. An FP32 atomic add request at its target, applied in arrival order. -/
  | reqAfadd (p : Packet)
  /-- R291. A DRAIN packet is answered after earlier requests, or, as a hole drain, poisons the listed ranges and reseats the expected TAG. -/
  | drain (p : Packet)
  /-- R303. A KIND 0 REPUBLISH request writes replica bytes at a member when its sender is the home. -/
  | republishData (p : Packet)
  /-- R303. A KIND 1 REPUBLISH notice invalidates matching far-read lines in every core, then answers. -/
  | republishNotice (p : Packet)
  /-- R263. A PUT message at its destination is decoded, written and answered with ACK. -/
  | msgPut (p : Packet)
  /-- R263. A GET message at its source device is read and answered with RDATA, possibly compressed. -/
  | msgGet (p : Packet)
  /-- R263. A NOTIFY message stores an 8-byte value after its PUT, possibly ringing a doorbell. -/
  | notify (p : Packet)
  /-- R263. An MGT MREAD performs a 64-bit setup read for a peer's Ranger and returns the value. -/
  | mread (p : Packet)
  /-- R263. An MGT MWRITE performs a 64-bit setup write for a peer's Ranger. -/
  | mwrite (p : Packet)
  /-- R338. An MGT TIME request is latched with t2, and the reply carries t2, t3, STATE and DEPTH. -/
  | timeRequest (p : Packet) (t2 t3 : Word)
  /-- R263. An RDATA reply at the source delivers load, GET, atomic or TIME data, fills the far-read cache, or reports a failure. -/
  | rdata (p : Packet) (t4 : Word)
  /-- R263. An ACK reply at the source retires a write from its window, its reservation and the Headcount counts, and adjusts the window. -/
  | rspAck (p : Packet)
  /-- R282. A request with no reply after REQ_TIMEOUT_US is retransmitted in TAG order, or fails for good after E2E_RETRIES. -/
  | reqTimeout (cls : Fin 5) (d : Coord)
  /-- R295. A dedup entry older than HOLD_US leaves the cache. -/
  | dedupExpire (src : Coord) (tag : BitVec 16)
  /-- R268. Writing ROUTE_TBL_CTRL.LOAD reads a topology table into the shadow version, or is refused. -/
  | routeTblLoad (src : Source)
  /-- R268. The check of a loaded topology table ends, and the shadow is accepted or LOAD_ERR set with ERR_OFFSET. -/
  | routeTblChecked
  /-- R278. Writing ROUTE_TBL_CTRL.FLIP activates the shadow version, sends DRAINs and holds new-epoch requests; without a ready shadow it posts INFO. -/
  | flip (src : Source)
  /-- R278. DRAIN_US after a flip, the superseded version is retired and DRAINING clears. -/
  | epochRetire
  /-- R288. Writing FAB_RT_CTRL.LOAD reads and checks the region tables of one or all contexts. -/
  | fabRtLoad (src : Source) (v : Word)
  /-- R288. The region-table load ends, the table is accepted or the context is shut out, and BUSY clears. -/
  | fabRtLoadDone
  /-- R301. Setting FAB_REPL_CFG.VALID checks and declares a replica set, or sets REPL_ERR. -/
  | replDeclare (src : Source) (set : Fin 64) (v : Word)
  /-- R303. Once the set's earlier republish has completed, the home starts a republish PUT. -/
  | republishStart (n : RingId) (i : Index)
  /-- R309. The ROLLCALL descriptor checks the list, reserves buffers and sends JOIN to rank 0. -/
  | rollcall (n : RingId) (i : Index)
  /-- R309. Rank 0 records a JOIN and, when all ranks have joined, sends READY or MISMATCH. -/
  | join (p : Packet)
  /-- R309. A member receiving READY records ALG and SMALL_MAX and completes ROLLCALL with OK. -/
  | ready (p : Packet)
  /-- R309. A member receiving MISMATCH releases its reservation and completes with FORMAT. -/
  | rollcallMismatch (p : Packet)
  /-- R309. TIMEOUT_US passes before READY or MISMATCH, and the member releases its reservation with TIMEOUT. -/
  | rollcallTimeout (n : RingId) (i : Index)
  /-- R316. The COLLECTIVE descriptor is checked and, by sequence, run at once, held, or completed with COLL_ORDER. -/
  | collective (n : RingId) (i : Index)
  /-- R317. A held collective becomes current when NEXT_SEQ reaches it; its grants are issued and held checks acted on. -/
  | collectiveCurrent (h : Fin 256)
  /-- R318. A grant lets a member send CDATA within the granted bytes, or, with mismatched parameters, gives COLL_ORDER. -/
  | grant (p : Packet)
  /-- R320. A collective chunk is stored, combined as a tree node when its sibling is present, and forwarded. -/
  | cdata (p : Packet)
  /-- R322. A collective ACK confirms the chunks of a node below an offset. -/
  | collAck (p : Packet)
  /-- R322. A chunk with no ACK within REQ_TIMEOUT_US is sent again, or its member is declared lost after the last retry. -/
  | chunkResend (h : Fin 256) (j : Nat)
  /-- R322. A LOST notice sets the group LOST and completes its current collective with MEMBER_LOST. -/
  | lost (p : Packet)
  /-- R316. A FAIL notice completes the sequence with COLL_DIGEST or COLL_ORDER. -/
  | fail (p : Packet)
  /-- R325. A digest TALLY is compared with the digest of the bytes stored. -/
  | tallyDigest (p : Packet)
  /-- R326. A verdict travels up or down the tree; at each member it completes the collective with OK or COLL_DIGEST and poisons DST on failure. -/
  | tallyVerdict (p : Packet)
  /-- R322. The current collective has not completed TIMEOUT_MS after it started, and the member is declared lost. -/
  | collTimeout (h : Fin 256)
  /-- R312. The DISBAND descriptor waits for the group's started collectives, then releases the reservations and the handle. -/
  | disband (n : RingId) (i : Index)
  /-- R334. A received Ethernet frame is checked for size, FCS, destination and VLAN, and discarded and counted or passed up. -/
  | frameRx (port : PortId) (frame : List Byte)
  /-- R335. An ARP request or IPv6 neighbour solicitation for a port's own address is answered. -/
  | arpRequest (port : PortId) (frame : List Byte)
  /-- R335. An ICMP echo request is answered, up to 1,000 per second per port. -/
  | icmpEcho (port : PortId) (frame : List Byte)
  /-- R335. An IGMPv3 or MLDv2 query is answered with reports for the joined groups. -/
  | igmpQuery (port : PortId) (frame : List Byte)
  /-- R337. A Sync or Follow_Up from the master is timestamped and used to measure the offset. -/
  | ptpSync (port : PortId) (msg : PtpMessage) (t2 : Word)
  /-- R337. A Delay_Resp completes a delay measurement, and the correction is applied under R336. -/
  | ptpDelayResp (port : PortId) (msg : PtpMessage)
  /-- R337. An Announce feeds the best master clock algorithm. -/
  | ptpAnnounce (port : PortId) (msg : PtpMessage)
  /-- R339. 3 s without an Announce from the chosen master enters HOLDOVER and posts DEGRADED. -/
  | announceTimeout
  /-- R338. Every 1 ms a TIME request is sent upstream; 16 unanswered in a row enter HOLDOVER. -/
  | fabricTimeTick (t1 : Word)
  /-- R344. A flow packet is checked, placed in an open frame or opens one, writes its pixel elements and marks the bitmap. -/
  | videoPacket (port : PortId) (pkt : RtpPacket) (rxNs : Word)
  /-- R347. A frame reaches its close time and closes, INCOMPLETE when packets are missing. -/
  | frameTimeout (flow : Fin 128)
  /-- R340. The FLOW_OPEN descriptor checks a flow record, joins the group and starts taking packets. -/
  | flowOpen (n : RingId) (i : Index)
  /-- R340. The FLOW_CLOSE descriptor closes open frames, posts their records and leaves the group. -/
  | flowClose (n : RingId) (i : Index)
  /-- R352. An EXR request datagram is checked, deduplicated, copied to a slot and posted as a descriptor, or rejected. -/
  | exrDatagram (port : PortId) (src : BitVec 128) (srcPort : BitVec 16) (data : List Byte)
  /-- R352. When a posted EXR descriptor completes, the engine sends REPLY from the reply slot and frees both slots. -/
  | exrReply (n : RingId) (i : Index)
  /-- R352. A recent-table key is removed 1 s after it was stored. -/
  | exrKeyExpire (key : ExrKey)
  /-- R350. Setting FRONT_EXR_CFG.ENABLE reads and checks the endpoint table and templates, or sets ERR. -/
  | exrEnable (src : Source) (v : Word)
  /-- R351. Clearing FRONT_EXR_CFG.ENABLE stops taking datagrams and drains the posted requests. -/
  | exrDisable (src : Source) (v : Word)
  /-- R353. A TCP segment of a connection that Ranger opened is taken for the NVMe/TCP host. -/
  | nvmeTcpSegment (port : PortId) (conn : TcpConn) (data : List Byte)
  /-- R333. A front port's Ethernet link goes up or down. -/
  | portLinkChange (port : PortId) (up : Bool)
  /-- R354. Writing FRONT_CTRL.QUIESCE for a port stops frames, closes flows, drains EXR, closes NVMe and stops PTP; clearing it returns the port. -/
  | portQuiesce (src : Source) (v : BitVec 2)
  /-- R354. Pending EXR replies end or 100 ms pass, and QDONE is set. -/
  | portQuiesceDone (port : PortId)
  /-- R363. The SNAP_CAPTURE descriptor harvests dirty bits and copies pending granules to the keeper image. -/
  | snapCapture (n : RingId) (i : Index)
  /-- R366. The SNAP_RESTORE descriptor writes a complete image into the plan's ranges, checking granule digests. -/
  | snapRestore (n : RingId) (i : Index)
  /-- R367. The SNAP_DIGEST descriptor computes a plan's state digest in place and optionally compares it. -/
  | snapDigest (n : RingId) (i : Index)
  /-- R373. The SNAP_SHADOW descriptor sets the context's mirroring role as source, shadow or stop. -/
  | snapShadow (n : RingId) (i : Index)
  /-- R372. The SNAP_SALVAGE_QUERY descriptor reads a failed device's Hamper headers by salvage. -/
  | snapSalvageQuery (n : RingId) (i : Index)
  /-- R362. Setting SNAP_CFG.ENABLE gives the snapshot engine ownership of dirty tracking. -/
  | snapEnable (src : Source) (v : Word)
  /-- R361. The engine starts copying the newest complete layer-1 generation into Hamper. -/
  | layer2Cascade (x : Ctx)
  /-- R361. After SHARED_PERIOD_S, the engine starts copying the newest layer-2 generation to the shared store. -/
  | layer3Cascade (x : Ctx)
  /-- R361. A cascade ends, its image completes or fails, and its pending bitmap clears. -/
  | cascadeDone (x : Ctx) (layer : Fin 4) (ok : Bool)
  /-- R368. interval_s passes since the newest OK capture; DUE is set and one INFO event posted. -/
  | snapshotDue (x : Ctx)
  /-- R368. Each whole second in which a LAUNCH of the context runs counts in RUN_S. -/
  | runSecond (x : Ctx)
  /-- R372. A faulted device that has finished its dump relights engines 0 to 3 and serves salvage. -/
  | salvageEnter
  /-- R372. An MGT SALVAGE request returns Hamper image bytes or headers. -/
  | salvage (p : Packet)
  /-- R386. An MGT ABORT is recorded, acted on for the matching context and forwarded, or dropped as a repeat. -/
  | abort (p : Packet)
  /-- R385. Writing ERR_ABORT.GO originates an abort of a context and floods it. -/
  | errAbort (src : Source) (v : Word)
  /-- R387. Writing 1 to ERR_CTX.ABORTED clears the abort once DRAINING is 0 and posts ABORT_CLEARED. -/
  | abortClear (src : Source) (x : Ctx)
  /-- R383. A core reset request fences the core's domain. -/
  | resetCore (src : Source) (k : CoreId)
  /-- R383. A cluster reset request fences the cluster's domain. -/
  | resetCluster (src : Source) (c : ClusterId)
  /-- R384. A device reset request resets the whole device and runs boot again. -/
  | resetDevice (src : Source)
  /-- R382. An optical-engine reset is handled as a forced quiesce and bring-up. -/
  | resetOptic (src : Source) (e : EngineId)
  /-- R382. An LPDDR6 channel reset is handled as a channel failure. -/
  | resetChannel (src : Source) (pc : PhysChan)
  /-- R383. Requests addressed to the fenced domain before the fence have been performed or answered FENCED. -/
  | fenceDrained
  /-- R391. A dump reads the domain's sections over debug ports into LPDDR6 and Hamper, using shadows for units that do not answer. -/
  | dump (deaf : List DumpUnit)
  /-- R391. A dump ends and the logic reset of the domain begins. -/
  | dumpDone
  /-- R383. The logic reset completes, reference tables are reloaded, the domain is unfenced and suspect replay starts. -/
  | domainResetDone
  /-- R389. One suspect's held descriptors run again; completion shows it innocent, and a second hang marks it guilty. -/
  | suspectReplay (x : Ctx) (hung : Bool)
  /-- R388. An engine's progress counter has not moved for HANG_US, so its domain is reset or DEVICE_HANG posted. -/
  | hangDetect (e : HangEngine)
  /-- R390. Every SHADOW_MS the shadow reader copies each unit's dump sections into the shadow store. -/
  | shadowRead (deaf : List DumpUnit)
  /-- R381. A fail-safe cause stops all outputs at once, records LAST_FS_CAUSE and leads to lasers off and a device reset. -/
  | failsafeEnter (cause : FsCause)
  /-- R381. 100 ms without a Ranger heartbeat expires the watchdog and causes fail-safe 0x05. -/
  | rangerWatchdog
  /-- R380. A Ranger pair whose cores disagree is removed, its work moved, and the event posted. -/
  | lockstepPair (pair : Fin 4)
  /-- R400. Every 10 µs Thermos updates each island's estimate, thresholds and rate-of-rise demand. -/
  | thermosUpdate (p : List Nat)
  /-- R400. Every 1 ms each island's diode corrects its Thermos offset and is checked for shutdown. -/
  | diodeSample (t : List Int)
  /-- R401. Every 1 ms the TH inputs are read and their effects on plate, LPDDR and flash applied. -/
  | thermistorRead (r : List (Option Int))
  /-- R402. After Throttle clears, the island's demand falls by 1 every 100 µs. -/
  | throttleDecay (j : IslandId)
  /-- R402. Every 1 ms the warning ceiling falls or rises by 25 MHz, and the fixed-island cut applies. -/
  | warningCeilingTick
  /-- R405. Every 10 µs P_IN is sampled and the fast power limiter's demand adjusted. -/
  | powerSample (watts mv : Nat)
  /-- R404. Every 100 µs the power policy sets the core PLL cap from the mean power. -/
  | powerPolicy
  /-- R398. When L has held at 2 or more for 1 µs, the island moves its divider and withdraws its pauses. -/
  | dividerMove (j : IslandId)
  /-- R396. Every 1 µs an island's PLL moves 25 MHz toward its target, ending any pause demand of a sag cap. -/
  | pllStep (j : IslandId)
  /-- R407. BULK_SENSE below a threshold after the glitch filter latches the stage and starts its actions. -/
  | supplyStageEnter (stage : Fin 6) (mv : Nat) (rail : Bool)
  /-- R408. Bulk above threshold + 1 V for RECOVER_MS leaves the top stage, undoing its actions. -/
  | supplyStageLeave (mv : Nat)
  /-- R408. LPDDR6 leaves self-refresh on leaving stage 4, and the clearing notice is sent. -/
  | selfRefreshExit
  /-- R409. An MGT BROWNOUT notice is latched and PEER_BROWNOUT posted. -/
  | brownout (p : Packet)
  /-- R410. A rail dip over 4 % stretches the island's clock period by 25 %. -/
  | droopDip (k : CoreId)
  /-- R410. 1 µs after the dip ends, the clock period is restored. -/
  | droopRestore (k : CoreId)
  /-- R432. 10 ms after RESET_N is high and a standby supply is present, the standby domain leaves reset and boot step 1 begins. -/
  | standbyRelease
  /-- R432. 10 ms after VBULK reaches 44 V, the other islands are released and the comparators armed. -/
  | bulkRelease
  /-- R416. A boot step's work ends, its STEP record is written and the dependent steps begin. -/
  | bootStepDone (r : BootReport)
  /-- R450. A UCIe adjacency trains, the manifests are exchanged and checked, and capabilities negotiated or the adjacency left down. -/
  | adjacencyUp (a : Fin 8) (trained : Bool) (manA manB : List Byte)
  /-- R433. RESET_N held low for 1 µs resets the whole device with reset cause 3. -/
  | resetNAssert
  /-- R423. BOOT_UPD_CTRL GO with KIND 0 checks an image and writes it into the idle slot. -/
  | updateFirmware (src : Source) (len : BitVec 32)
  /-- R423. GO with KIND 1 checks a configuration copy and writes it over the older copy. -/
  | updateConfig (src : Source) (len : BitVec 32)
  /-- R423. GO with KIND 2 checks and writes the optical calibration tables. -/
  | updateCalibration (src : Source) (len : BitVec 32)
  /-- R424. BOOT_UPD_CTRL.SWITCH moves Ranger to the other slot's image without a reset, or is refused with FENCED. -/
  | switch (src : Source)
  /-- R424. New firmware does not lead within 50 ms; the old image resumes and the switch ends with TIMEOUT. -/
  | switchTimeout
  /-- R425. Presence command that fuses a key digest into a blank slot. -/
  | keyInstall (src : Source) (permit : Bool) (arg : List Byte)
  /-- R425. Presence command that blows a key slot's revoke fuse. -/
  | keyRevoke (src : Source) (permit : Bool) (arg : List Byte)
  /-- R425. Presence command that opens the debug network to the management port. -/
  | debugUnlock (src : Source) (permit : Bool) (arg : List Byte)
  /-- R425. Presence command that records an image digest admitted below the SVN floor. -/
  | downgrade (src : Source) (permit : Bool) (arg : List Byte)
  /-- R425. Presence command that blows owner fuse bits. -/
  | fuseProgram (src : Source) (permit : Bool) (arg : List Byte)
  /-- R425. Presence command that erases configuration, Trail log and Hamper, then resets. -/
  | factoryReset (src : Source) (permit : Bool) (arg : List Byte)
  /-- R425. Presence command that clears SEAL_OPEN while the loop is closed. -/
  | sealClear (src : Source) (permit : Bool) (arg : List Byte)
  /-- R426. A debounced press of PRESENCE_N opens an awaiting window for 300 s and runs the pending command. -/
  | presencePress
  /-- R426. A window with no press within 60 s, or an open window after 300 s, closes, refusing any pending command. -/
  | presenceWindowExpire
  /-- R427. Every 10 ms the seal loop is sampled; an open loop sets SEAL_OPEN, appends SEAL and closes the window. -/
  | sealSample (isOpen : Bool)
  /-- R435. Management-port READ returns a setup register value with Ranger's authority. -/
  | mgmtRead (off : BitVec 24)
  /-- R435. Management-port WRITE performs a setup write with Ranger's authority. -/
  | mgmtWrite (off : BitVec 24) (v : Word)
  /-- R435. Management-port TRAIL returns one Trail log record. -/
  | mgmtTrail (pos : BitVec 32)
  /-- R435. Management-port UPD_CHECK streams and checks an image and keeps its digest. -/
  | updCheck (img : List Byte)
  /-- R435. Management-port UPD_WRITE writes a checked image, configuration or calibration data. -/
  | updWrite (kind : Byte) (data : List Byte)
  /-- R435. Management-port PRESENCE submits a presence command with its inline argument block. -/
  | mgmtPresence (code : Byte) (permit : Bool) (arg : List Byte)
  /-- R435. 600 s after an UPD_CHECK, its digest is no longer usable by UPD_WRITE. -/
  | updCheckExpire
  /-- R423. An update's write and read-back to NOR end; STATUS is set, the slot state is marked, an UPDATE record is appended and PHASE returns to 0. -/
  | updateDone (ok : Bool)
  /-- R424. New firmware leads and sends its first heartbeat, the former leading pair is reloaded, PREF is set to the new slot and an UPDATE record is written. -/
  | switchDone
  /-- R431. VBULK crossing 40 V, or VSTBY entering or leaving its range, moves the standby domain between VBULK and VSTBY, or leaves it unsupplied. -/
  | standbySourceChange (vbulk vstby : Nat)
  deriving DecidableEq, Repr

end Sys2Proof
end

