-- ==== Sys2Proof/Decode.lean ====
section
/-! DEFINITION. The commands that words spell by the opcode table's bits. Every row of the table gives no bits at all (its list of
fields is empty), so no word spells a command. -/
namespace Sys2Proof

/-- The command of a word: the table gives no row any bits. -/
def decodeTableWord (_nbits _w : Nat) : Option Instr := none

end Sys2Proof
end

