-- ==== Sys2Proof/Machine/Float.lean ====
section
/-! DEFINITION. Number formats, rounding, conversions and exact sums (R35 to R55, R58). Every value is
exact until one explicit rounding. -/
namespace Sys2Proof.Machine

/-- The value of an encoding: a NaN, an infinity, or exactly plus or minus `m * 2^e` (zeros keep their sign). -/
inductive Fv where
  | nan
  | inf (neg : Bool)
  | fin (neg : Bool) (m : Nat) (e : Int)
  deriving DecidableEq, Repr

/-- A floating-point element format of R35. `ieee`: the top exponent holds infinities and NaNs. `nanTop`: only the
all-ones code is a NaN (E4M3). -/
structure Fmt where
  eb : Nat
  mb : Nat
  bias : Int
  ieee : Bool
  nanTop : Bool
  deriving DecidableEq, Repr

def Fmt.fp32 : Fmt := ⟨8, 23, 127, true, false⟩
def Fmt.bf16 : Fmt := ⟨8, 7, 127, true, false⟩
def Fmt.fp16 : Fmt := ⟨5, 10, 15, true, false⟩
def Fmt.e4m3 : Fmt := ⟨4, 3, 7, false, true⟩
def Fmt.e5m2 : Fmt := ⟨5, 2, 15, true, false⟩
def Fmt.e2m3 : Fmt := ⟨2, 3, 1, false, false⟩
def Fmt.e3m2 : Fmt := ⟨3, 2, 3, false, false⟩
def Fmt.e2m1 : Fmt := ⟨2, 1, 1, false, false⟩

/-- Width of an encoding in bits. -/
def Fmt.width (f : Fmt) : Nat := 1 + f.eb + f.mb
/-- Exponent of the smallest normal value. -/
def Fmt.emin (f : Fmt) : Int := 1 - f.bias
/-- The magnitude code of the largest finite value (R35). -/
def Fmt.maxCode (f : Fmt) : Nat :=
  if f.ieee then (2 ^ f.eb - 1) * 2 ^ f.mb - 1
  else if f.nanTop then 2 ^ (f.eb + f.mb) - 2
  else 2 ^ (f.eb + f.mb) - 1
/-- The magnitude code of infinity, where the format has one. -/
def Fmt.infCode (f : Fmt) : Nat := (2 ^ f.eb - 1) * 2 ^ f.mb
/-- The code a NaN is written as: the canonical quiet NaN of R37, or +0 where the format has none (R43). -/
def Fmt.nanCode (f : Fmt) : Nat :=
  if f.ieee then f.infCode + 2 ^ (f.mb - 1) else if f.nanTop then 2 ^ (f.eb + f.mb) - 1 else 0

/-- The value of an encoding (R35). -/
def Fmt.decode (f : Fmt) (code : Nat) : Fv :=
  let neg := (code / 2 ^ (f.eb + f.mb)) % 2 == 1
  let e := (code / 2 ^ f.mb) % 2 ^ f.eb
  let m := code % 2 ^ f.mb
  if f.ieee && e == 2 ^ f.eb - 1 then (if m == 0 then .inf neg else .nan)
  else if f.nanTop && e == 2 ^ f.eb - 1 && m == 2 ^ f.mb - 1 then .nan
  else if e == 0 then .fin neg m (f.emin - f.mb)
  else .fin neg (m + 2 ^ f.mb) ((e : Int) - f.bias - f.mb)

/-- How a rounding chooses between two neighbours: R42 (nearest even), toward zero, or R44 with the 32-bit draw. -/
inductive Rnd where
  | nearest
  | zero
  | stoch (r : BitVec 32)
  deriving DecidableEq, Repr

/-- Round the non-negative rational `n / d` to an integer. -/
def roundNat (rnd : Rnd) (n d : Nat) : Nat :=
  let t := n / d
  let r := n % d
  match rnd with
  | .nearest => if d < 2 * r || (2 * r == d && t % 2 == 1) then t + 1 else t
  | .zero => t
  | .stoch x => if x.toNat < r * 2 ^ 32 / d then t + 1 else t

/-- floor(log2(n / d)) for positive n and d. -/
def log2Ratio (n d : Nat) : Int :=
  let k : Int := (Nat.log2 n : Int) - Nat.log2 d
  let small := if 0 ≤ k then n < d * 2 ^ k.toNat else n * 2 ^ (-k).toNat < d
  if small then k - 1 else k

/-- The magnitude `n / d * 2^e` in units of `2^q`, as a fraction of naturals. -/
def inUnits (n d : Nat) (e q : Int) : Nat × Nat :=
  if q ≤ e then (n * 2 ^ (e - q).toNat, d) else (n, d * 2 ^ (q - e).toNat)

/-- The result of rounding a positive magnitude: its code (not yet limited to the format's range), whether it is inexact, and
whether it is tiny after rounding (R71). -/
structure Rounded where
  code : Nat
  inexact : Bool
  tiny : Bool
  deriving DecidableEq, Repr

/-- Round the magnitude `n / d * 2^e` to format `f` as if its exponent range had no top. -/
def Fmt.roundMag (f : Fmt) (rnd : Rnd) (n d : Nat) (e : Int) : Rounded :=
  if n == 0 then ⟨0, false, false⟩
  else
    let lg := log2Ratio n d + e
    let q := max f.emin lg - f.mb
    let (a, b) := inUnits n d e q
    let t := roundNat rnd a b
    let (a', b') := inUnits n d e (lg - f.mb)
    let t' := roundNat rnd a' b'
    ⟨((q + f.mb + f.bias - 1).toNat) * 2 ^ f.mb + t, a % b != 0,
      lg < f.emin && !(lg + 1 == f.emin && t' == 2 ^ (f.mb + 1))⟩

/-- The exception flags of R71, in the bit places of SYS_FPFLAGS: NV 0, DZ 1, OF 2, UF 3, NX 4. -/
abbrev FpFlags := BitVec 5
def flagNV : FpFlags := 1
def flagDZ : FpFlags := 2
def flagOF : FpFlags := 4
def flagUF : FpFlags := 8
def flagNX : FpFlags := 16

/-- Put the sign into an encoding. -/
def Fmt.sign (f : Fmt) (neg : Bool) (code : Nat) : Nat :=
  if neg then code + 2 ^ (f.eb + f.mb) else code

/-- What a magnitude above the largest finite value, or an infinity, is written as (R43). -/
def Fmt.overflow (f : Fmt) (sat : Bool) : Nat :=
  if f.ieee && !(sat && decide (f = Fmt.e5m2)) then f.infCode else f.maxCode

/-- Round the exact value `±n/d*2^e` to `f` and encode it under R43, with the flags of R71. -/
def Fmt.ratio (f : Fmt) (rnd : Rnd) (sat neg : Bool) (n d : Nat) (e : Int) : Nat × FpFlags :=
  let r := f.roundMag rnd n d e
  if f.maxCode < r.code then (f.sign neg (f.overflow sat), flagOF ||| flagNX)
  else (f.sign neg r.code,
    (if r.inexact then flagNX else 0) ||| (if r.inexact && r.tiny then flagUF else 0))

/-- Convert a value to format `f` (R42, R43, R44), with the flags of R71. -/
def Fmt.convertFlags (f : Fmt) (rnd : Rnd) (sat : Bool) : Fv → Nat × FpFlags
  | .nan => (f.nanCode, 0)
  | .inf neg => (f.sign neg (f.overflow sat), 0)
  | .fin neg m e => f.ratio rnd sat neg m 1 e

/-- Convert a value to format `f` (R42, R43, R44). -/
def Fmt.convert (f : Fmt) (rnd : Rnd) (sat : Bool) (v : Fv) : Nat := (f.convertFlags rnd sat v).1

/-- The sign of a value, NaN counting as positive. -/
def Fv.neg : Fv → Bool
  | .nan => false
  | .inf n => n
  | .fin n _ _ => n

def Fv.isNan : Fv → Bool
  | .nan => true
  | _ => false

def Fv.isInf : Fv → Bool
  | .inf _ => true
  | _ => false

def Fv.isZero : Fv → Bool
  | .fin _ m _ => m == 0
  | _ => false

/-- Negation by sign manipulation; a NaN stays the NaN. -/
def Fv.negate : Fv → Fv
  | .nan => .nan
  | .inf n => .inf (!n)
  | .fin n m e => .fin (!n) m e

def Fv.abs : Fv → Fv
  | .nan => .nan
  | .inf _ => .inf false
  | .fin _ m e => .fin false m e

/-- An exact integer as a value. -/
def Fv.ofInt (i : Int) : Fv := .fin (decide (i < 0)) i.natAbs 0

/-- A finite dyadic from a signed significand; zero is +0. -/
def Fv.ofDyadic (m e : Int) : Fv := .fin (decide (m < 0)) m.natAbs e

/-- Signed significand. -/
def sgn (neg : Bool) (m : Nat) : Int := if neg then -(m : Int) else m

/-- The exact sum of two values (IEEE 754 zero and infinity rules under R42). -/
def Fv.add : Fv → Fv → Fv
  | .nan, _ => .nan
  | _, .nan => .nan
  | .inf a, .inf b => if a == b then .inf a else .nan
  | .inf a, .fin _ _ _ => .inf a
  | .fin _ _ _, .inf b => .inf b
  | .fin a m e, .fin b n f =>
    if m == 0 && n == 0 then .fin (a && b) 0 0
    else
      let g := min e f
      .ofDyadic (sgn a m * 2 ^ (e - g).toNat + sgn b n * 2 ^ (f - g).toNat) g

def Fv.sub (x y : Fv) : Fv := x.add y.negate

/-- The exact product of two values; zero times infinity is NaN (R50). -/
def Fv.mul : Fv → Fv → Fv
  | .nan, _ => .nan
  | _, .nan => .nan
  | .inf a, .inf b => .inf (a != b)
  | .inf a, .fin b n _ => if n == 0 then .nan else .inf (a != b)
  | .fin a m _, .inf b => if m == 0 then .nan else .inf (a != b)
  | .fin a m e, .fin b n f => .fin (a != b) (m * n) (e + f)

/-- Multiply by a power of two, exactly. -/
def Fv.scale (k : Int) : Fv → Fv
  | .fin a m e => .fin a m (e + k)
  | v => v

/-- Exact order of two values that are not NaN: is x < y ? -/
def Fv.lt : Fv → Fv → Bool
  | .nan, _ => false
  | _, .nan => false
  | .inf a, .inf b => a && !b
  | .inf a, .fin _ _ _ => a
  | .fin _ _ _, .inf b => !b
  | .fin a m e, .fin b n f =>
    let g := min e f
    decide (sgn a m * 2 ^ (e - g).toNat < sgn b n * 2 ^ (f - g).toNat)

/-- Quiet equality: +0 equals -0. -/
def Fv.eqv (x y : Fv) : Bool := !x.isNan && !y.isNan && !x.lt y && !y.lt x

/-- The minimum of R58. -/
def Fv.min (x y : Fv) : Fv :=
  if x.isNan || y.isNan then .nan
  else if x.lt y then x else if y.lt x then y else if x.neg then x else y

/-- The maximum of R58. -/
def Fv.max (x y : Fv) : Fv :=
  if x.isNan || y.isNan then .nan
  else if x.lt y then y else if y.lt x then x else if x.neg then y else x

/-- A running exact sum of products: R50's cases and the exact dyadic total. -/
structure ExactSum where
  nan : Bool := false
  posInf : Bool := false
  negInf : Bool := false
  allNegZero : Bool := true
  m : Int := 0
  e : Int := 0
  deriving DecidableEq, Repr

def ExactSum.addTerm (s : ExactSum) : Fv → ExactSum
  | .nan => { s with nan := true, allNegZero := false }
  | .inf true => { s with negInf := true, allNegZero := false }
  | .inf false => { s with posInf := true, allNegZero := false }
  | .fin n m e =>
    let g := min s.e e
    { s with allNegZero := s.allNegZero && (n && m == 0)
             m := s.m * 2 ^ (s.e - g).toNat + sgn n m * 2 ^ (e - g).toNat
             e := g }

def ExactSum.value (s : ExactSum) : Fv :=
  if s.nan || (s.posInf && s.negInf) then .nan
  else if s.posInf then .inf false
  else if s.negInf then .inf true
  else if s.m == 0 then .fin s.allNegZero 0 0
  else .ofDyadic s.m s.e

/-- The exact sum of a block's products (R49, R50). -/
def exactSum (l : List Fv) : Fv := (l.foldl ExactSum.addTerm {}).value

/-! ### FP32 -/

abbrev F32 := BitVec 32
def f32 (x : F32) : Fv := Fmt.fp32.decode x.toNat
/-- round_fp32 of an exact value, with flags. -/
def toF32Flags (v : Fv) : F32 × FpFlags :=
  let r := Fmt.fp32.convertFlags .nearest false v
  (BitVec.ofNat 32 r.1, r.2)
/-- round_fp32 of an exact value (R42). -/
def toF32 (v : Fv) : F32 := (toF32Flags v).1
def f32NaN : F32 := 0x7FC00000
def f32One : F32 := 0x3F800000
def f32NegZero : F32 := 0x80000000
def f32NegInf : F32 := 0xFF800000
def f32PosInf : F32 := 0x7F800000
def f32Add (a b : F32) : F32 := toF32 ((f32 a).add (f32 b))
def f32Sub (a b : F32) : F32 := toF32 ((f32 a).sub (f32 b))
def f32Mul (a b : F32) : F32 := toF32 ((f32 a).mul (f32 b))
def f32Fma (a b c : F32) : F32 := toF32 (((f32 a).mul (f32 b)).add (f32 c))
def f32Max (a b : F32) : F32 := toF32 ((f32 a).max (f32 b))
def f32Min (a b : F32) : F32 := toF32 ((f32 a).min (f32 b))

/-- The quotient of two values rounded once, with flags (R70, R71). -/
def divFlags (f : Fmt) (x y : Fv) : Nat × FpFlags :=
  match x, y with
  | .nan, _ => (f.nanCode, 0)
  | _, .nan => (f.nanCode, 0)
  | .inf _, .inf _ => (f.nanCode, flagNV)
  | .inf a, .fin b _ _ => (f.sign (a != b) f.infCode, 0)
  | .fin a _ _, .inf b => (f.sign (a != b) 0, 0)
  | .fin a m e, .fin b n g =>
    if n == 0 then (if m == 0 then (f.nanCode, flagNV) else (f.sign (a != b) f.infCode, flagDZ))
    else f.ratio .nearest false (a != b) m n (e - g)

def f32Div (a b : F32) : F32 := BitVec.ofNat 32 (divFlags Fmt.fp32 (f32 a) (f32 b)).1

/-- The integer square root, one binary digit a step. -/
def isqrtFrom (n : Nat) : Nat → Nat → Nat
  | 0, r => r
  | k + 1, r => if (r + 2 ^ k) * (r + 2 ^ k) ≤ n then isqrtFrom n k (r + 2 ^ k) else isqrtFrom n k r

/-- floor(sqrt n). -/
def isqrt (n : Nat) : Nat := isqrtFrom n (Nat.log2 n / 2 + 1) 0

/-- A finite square root with a sticky bit: 64 bits of the root, doubled, with 1 added when it is inexact. -/
def sqrtSticky (m : Nat) (e : Int) : Nat × Int :=
  let e' := if e % 2 == 0 then e else e - 1
  let m' := if e % 2 == 0 then m else 2 * m
  let w := m' * 2 ^ 128
  let r := isqrt w
  (2 * r + (if r * r == w then 0 else 1), e' / 2 - 65)

/-- The square root rounded once, with flags. -/
def sqrtFlags (f : Fmt) : Fv → Nat × FpFlags
  | .nan => (f.nanCode, 0)
  | .inf true => (f.nanCode, flagNV)
  | .inf false => (f.infCode, 0)
  | .fin neg m e =>
    if m == 0 then (f.sign neg 0, 0)
    else if neg then (f.nanCode, flagNV)
    else f.ratio .nearest false false (sqrtSticky m e).1 1 (sqrtSticky m e).2

/-- Round a value to an integer and limit it to [lo, hi]; NaN gives 0 (R43, R70). The Bool says the input was NaN or outside
the range after rounding, the second that the result differs from the input. -/
def toIntSat (rnd : Rnd) (lo hi : Int) : Fv → Int × Bool × Bool
  | .nan => (0, true, true)
  | .inf neg => (if neg then lo else hi, true, true)
  | .fin neg m e =>
    let (a, b) := inUnits m 1 e 0
    let t := sgn neg (roundNat rnd a b)
    if t < lo then (lo, true, true) else if hi < t then (hi, true, true) else (t, false, a % b != 0)

/-! ### Element formats of R95 -/

/-- An element format code of R95, MX forms aside. -/
inductive Elt where
  | f (fmt : Fmt)
  | int (bits : Nat)
  deriving DecidableEq, Repr

/-- The element format of a plain code [3:0] of R95. -/
def eltOf (code : Nat) : Option Elt :=
  match code with
  | 0 => some (.f .fp32)
  | 1 => some (.f .bf16)
  | 2 => some (.f .fp16)
  | 3 => some (.f .e4m3)
  | 4 => some (.f .e5m2)
  | 5 => some (.f .e2m3)
  | 6 => some (.f .e3m2)
  | 7 => some (.f .e2m1)
  | 8 => some (.int 8)
  | 9 => some (.int 4)
  | 10 => some (.int 32)
  | _ => none

def Elt.bits : Elt → Nat
  | .f g => g.width
  | .int n => n

/-- The two's complement value of the low `n` bits. -/
def signedOf (n code : Nat) : Int :=
  let c := code % 2 ^ n
  if 2 * c < 2 ^ n then c else (c : Int) - 2 ^ n

def Elt.decode : Elt → Nat → Fv
  | .f g, c => g.decode c
  | .int n, c => .ofInt (signedOf n c)

/-- Convert a value to an element format under R43 (integers saturate). -/
def Elt.convert (el : Elt) (rnd : Rnd) (sat : Bool) (v : Fv) : Nat :=
  match el with
  | .f g => g.convert rnd sat v
  | .int n =>
    let i := (toIntSat rnd (-(2 ^ (n - 1) : Int)) (2 ^ (n - 1) - 1) v).1
    (BitVec.ofInt n i).toNat

/-- The value of an E8M0 scale as an exponent; none for 0xFF (R35, R39). -/
def e8m0 (code : Nat) : Option Int := if code == 255 then none else some ((code : Int) - 127)

/-- Exponent of the largest normal of an element format (R41). -/
def Elt.emax : Elt → Int
  | .int _ => 0
  | .f g => (g.maxCode / 2 ^ g.mb : Nat) - g.bias

/-- The magnitude of a finite value as a dyadic; zero for NaN and infinities. -/
def Fv.finMag : Fv → Nat × Int
  | .fin _ m e => (m, e)
  | _ => (0, 0)

/-- The scale code that R41 derives for a block. -/
def mxScale (el : Elt) (block : List Fv) : Nat :=
  if block.any (fun v => v.isNan || v.isInf) then 255
  else
    let amax := block.foldl (fun a v => if a.lt v.abs then v.abs else a) (Fv.fin false 0 0)
    let (m, e) := amax.finMag
    if m == 0 then 0
    else ((max (-127) (min 127 ((Nat.log2 m : Int) + e - el.emax))) + 127).toNat

/-! ### Stochastic rounding -/

/-- The draw of R45. -/
def srDraw (job step : BitVec 32) (stream idx : Word) : BitVec 32 :=
  let h : Word := (job.setWidth 64 <<< 32) ||| step.setWidth 64
  let rnd := fun (x : Word) (i : Nat) =>
    let x := x ^^^ h ^^^ (stream * BitVec.ofNat 64 (i + 1))
    let x := x * 0xA3C59AC30B5F1E27
    let x := x ^^^ (x >>> 29)
    let x := x * 0x6E81D4B93C27F0A5
    x ^^^ (x >>> 32)
  (rnd (rnd (rnd (rnd idx 0) 1) 2) 3).setWidth 32

/-! ### The tree of R57 -/

/-- The canonical tree over operands in a fixed order: each list is cut after its first ceil(n/2) operands. `fuel` is at least
the list's length. -/
def treeFold {α : Type} (op : α → α → α) (d : α) : Nat → List α → α
  | 0, l => l.headD d
  | n + 1, l =>
    match l with
    | [] => d
    | [x] => x
    | l => let h := (l.length + 1) / 2
           op (treeFold op d n (l.take h)) (treeFold op d n (l.drop h))

/-- The function tree of R57. -/
def tree {α : Type} (op : α → α → α) (d : α) (l : List α) : α := treeFold op d l.length l

end Sys2Proof.Machine
end

