-- ==== Sys2Proof/Config.lean ====
section
/-! DEFINITION. The free values: what the spec leaves open. None has a body, so nothing can be proved of its value. -/
namespace Sys2Proof.Config

/-- A fresh open value, applied to the counter `State.freeCtr` (log entry 1). -/
opaque freeValue : Nat → Word
/-- The module serial number, fused (R448). -/
opaque serial : Word
/-- The 48-bit detail word of an event that names several things: R379 lists them and gives no layout (event code, the things). -/
opaque detail : Nat → List Nat → BitVec 48
/-- The polynomial value that a ROM special function's segments give at a reduced point, limited by the bounds of R160 and the order of
R162 where it is used (function number, the point (i, j) as 65,536 i + j or finer). -/
opaque romCandidate : Nat → Nat → BitVec 32
/-- A coefficient word of reference table `slot`: R161 and R162 fix the kind and what the table's values keep, not the coefficients
(`RefTablesKeep` of Safety.lean says it). -/
opaque refCoef : Nat → Nat → BitVec 32
/-- The state that a channel's PRBS31 sequence starts from (R255 gives the polynomial, not the start). -/
opaque prbsSeed : Nat → BitVec 31
/-- Does the signature of this image verify under the key with this digest (R414)? -/
opaque verify : List Byte → List Byte → Bool
/-- Address (low 128 bits) and TCP port of a target of the shared store, which no register gives (R353). -/
opaque target : Nat → BitVec 144
/-- A 32-byte record of an in-flight item in a dump, whose layout R392 leaves open (section, the numbers that the item holds). -/
opaque dumpRecord : Nat → List Nat → BitVec 256
/-- r (°C/W) and tau (ms) of each island, fused at test (R400). -/
opaque islandR : Nat → Rat
opaque islandTau : Nat → Rat
/-- Static power (W) of an island at an estimated temperature: fused and scaled in a way R403 leaves open. -/
opaque islandStatic : Nat → Rat → Rat
/-- Clock of an island that no register sets, in MHz (R394). -/
opaque fixedClock : Nat → Nat

end Sys2Proof.Config
end

