-- ==== Sys2Proof/Machine/Maps.lean ====
section
/-! DEFINITION. Sparse tables: a list of (key, value) pairs with strictly rising keys and no
entry equal to what an unlisted key reads as, so that equal tables are equal lists. Memory, tile registers,
accumulators, setup registers and every other indexed store of the device is one of these. -/
namespace Sys2Proof.Maps

/-- What key `k` reads as; `d` is the value of every unlisted key. -/
def get {β : Type} (d : β) : List (Nat × β) → Nat → β
  | [], _ => d
  | e :: m, k => if e.1 = k then e.2 else get d m k

/-- Key `k` becomes unlisted. -/
def erase {β : Type} (m : List (Nat × β)) (k : Nat) : List (Nat × β) :=
  m.filter (fun e => e.1 ≠ k)

/-- Put the pair (k, v) in front of the first larger key. -/
def place {β : Type} (k : Nat) (v : β) : List (Nat × β) → List (Nat × β)
  | [] => [(k, v)]
  | e :: m => if k < e.1 then (k, v) :: e :: m else e :: place k v m

/-- List `v` at key `k`. -/
def set {β : Type} (m : List (Nat × β)) (k : Nat) (v : β) : List (Nat × β) := place k v (erase m k)

/-- Write `v` at key `k`, keeping the canonical form: what an unlisted key reads as is not listed. -/
def put {β : Type} [DecidableEq β] (d : β) (m : List (Nat × β)) (k : Nat) (v : β) : List (Nat × β) :=
  if v = d then erase m k else set m k v

/-- Every key from `lo` up to but not including `hi` becomes unlisted. -/
def clear {β : Type} (m : List (Nat × β)) (lo hi : Nat) : List (Nat × β) :=
  m.filter (fun e => e.1 < lo || hi ≤ e.1)

/-- Keys rise strictly from `lo` on. -/
def rising {β : Type} (lo : Nat) : List (Nat × β) → Bool
  | [] => true
  | e :: m => decide (lo ≤ e.1) && rising (e.1 + 1) m

/-- The canonical form: rising keys, and no entry that an unlisted key reads as. -/
def wf {β : Type} [DecidableEq β] (d : β) (m : List (Nat × β)) : Bool :=
  rising 0 m && m.all (fun e => e.2 ≠ d)

/-- Membership in a set of keys. -/
def mem (s : List Nat) (k : Nat) : Bool := s.contains k

/-- Add a key to a rising list of keys. -/
def add : List Nat → Nat → List Nat
  | [], k => [k]
  | a :: s, k => if k = a then a :: s else if k < a then k :: a :: s else a :: add s k

/-- Remove a key from a list of keys. -/
def del (s : List Nat) (k : Nat) : List Nat := s.filter (fun a => a ≠ k)

end Sys2Proof.Maps
end

