-- ==== Sys2Proof/Machine/RegTable.lean ====
section
/-! DEFINITION. The setup window's registers (R92, R150, R171, R194, R225, R251, R283, R305, R332, R355, R375, R393,
R412, R428, R448): for each, its offset in the window (R444 and the index of the map), its fields with their access types (R8) and
the values they take at a device reset (R445). A field the reset column marks boot, link-up, kept, fused or restored reads 0 here. -/
namespace Sys2Proof.Machine

/-- A bit range [hi:lo]. -/
structure Field where
  hi : Nat
  lo : Nat
  deriving DecidableEq, Repr

/-- Access types of R8. `rwOff`: RW only while the register's own unit reads ENABLE (or VALID) = 0. -/
inductive Access where
  | ro
  | rw
  | wo
  | w1c
  | w1s
  | rwl
  | rwOff
  deriving DecidableEq, Repr

/-- A field, its access type and its reset value. -/
structure FieldRow where
  fld : Field
  acc : Access
  reset : Nat
  deriving DecidableEq, Repr

/-- The registers of the window, by name. -/
inductive RegName where
  | CLUSTER_CORE_ID
  | CLUSTER_CORE_GEOM
  | CLUSTER_CORE_STATE
  | CLUSTER_CORE_LASTTRAP
  | CLUSTER_CORE_LASTADDR
  | CLUSTER_STB_STATE
  | CLUSTER_SEQ_PAUSE
  | CLUSTER_SEQ_ZGATE
  | CLUSTER_SFN_SLOT
  | CLUSTER_SFN_BACKSTEP
  | MEM_STATUS
  | MEM_SPARE_CTRL
  | MEM_DIRTY_CTRL
  | MEM_DIRTY_BASE
  | MEM_DIRTY_STATUS
  | MEM_THERM_CFG
  | MEM_SCRUB_CFG
  | MEM_CHMAP
  | MEM_CH_STATE
  | MEM_CH_LB
  | MEM_PKG_TEMP
  | MEM_CTX
  | RING_CTX_JOB
  | RING_CTX_SR_BASE
  | RING_LANTERN
  | RING_BASE
  | RING_CPL
  | RING_CFG
  | RING_STATE
  | RING_FLAGS
  | RING_EVT_BASE
  | RING_EVT_CIDX_ADDR
  | RING_EVT_CFG
  | RING_EVT_STATE
  | OPTIC_CAL_CFG
  | OPTIC_SUBST_CFG
  | OPTIC_ENG_CTRL
  | OPTIC_ENG_STATE
  | OPTIC_LSM_CTRL
  | OPTIC_LSM_STATE
  | OPTIC_SUBST
  | OPTIC_FIB_STATE
  | OPTIC_CH_STATE
  | ROUTE_CFG
  | ROUTE_WIN_CFG
  | ROUTE_TBL_SRC
  | ROUTE_TBL_CTRL
  | ROUTE_TBL_STATE
  | ROUTE_DISCARDS
  | ROUTE_FIB_CNT
  | FAB_RT_BASE
  | FAB_RT_CTRL
  | FAB_RT_STATUS
  | FAB_RT_VALID
  | FAB_DEDUP_CFG
  | FAB_DEDUP_STATE
  | FAB_HOLE_STATE
  | FAB_REPL_CFG
  | FAB_REPL_BASE
  | FAB_REPL_LEN
  | FAB_REPL_MEMBERS
  | COLL_CFG
  | COLL_BUF_BASE
  | COLL_BUF_SIZE
  | COLL_STATUS
  | COLL_COUNTS
  | COLL_GRP_ID
  | COLL_GRP_STATE
  | COLL_GRP_BUF
  | FRONT_CTRL
  | FRONT_TIME_CFG
  | FRONT_TIME_STATE
  | FRONT_EXR_CFG
  | FRONT_EXR_TABLE
  | FRONT_EXR_STATE
  | FRONT_PORT_CFG
  | FRONT_PORT_IP4
  | FRONT_PORT_IP6_HI
  | FRONT_PORT_IP6_LO
  | FRONT_PORT_STATE
  | FRONT_FLOW_STATE
  | SNAP_CFG
  | SNAP_WORK_BASE
  | SNAP_SHADOW_STATE
  | SNAP_KEEP
  | SNAP_KEEP_RANGE
  | SNAP_CTX_GEN
  | POLICY_SNAP_CFG
  | POLICY_SNAP_STATE
  | POLICY_STRAG_CFG
  | POLICY_STRAG_STATE
  | ERR_STATUS
  | ERR_RESET_CTRL
  | ERR_RESET_STATE
  | ERR_HANG_CFG
  | ERR_DUMP_CFG
  | ERR_DUMP_BASE
  | ERR_DUMP_STATE
  | ERR_ABORT
  | ERR_CTX
  | CLKPWR_POWER
  | CLKPWR_SHED
  | CLKPWR_ISL_FREQ
  | CLKPWR_ISL_STATE
  | THERM_CFG
  | THERM_TH_CFG
  | THERM_TH
  | THERM_ISL
  | POLICY_PWR_CFG
  | POLICY_THERM_CFG
  | POLICY_SHED_CFG
  | BOOT_STATE
  | BOOT_CFG
  | BOOT_UPD_SRC
  | BOOT_UPD_CTRL
  | BOOT_UPD_STATE
  | BOOT_IMG
  | PRES_REQ
  | PRES_STATE
  | IDENT_VENDOR
  | IDENT_PART
  | IDENT_SILICON_REV
  | IDENT_SERIAL
  | IDENT_LOCK
  | IDENT_RESOURCES
  | IDENT_DIE_STATE
  | IDENT_MANIFEST
  deriving DecidableEq, Repr

def regNames0 : List RegName :=
  [.CLUSTER_CORE_ID, .CLUSTER_CORE_GEOM, .CLUSTER_CORE_STATE, .CLUSTER_CORE_LASTTRAP, .CLUSTER_CORE_LASTADDR, .CLUSTER_STB_STATE, .CLUSTER_SEQ_PAUSE, .CLUSTER_SEQ_ZGATE, .CLUSTER_SFN_SLOT, .CLUSTER_SFN_BACKSTEP, .MEM_STATUS, .MEM_SPARE_CTRL, .MEM_DIRTY_CTRL, .MEM_DIRTY_BASE, .MEM_DIRTY_STATUS, .MEM_THERM_CFG, .MEM_SCRUB_CFG, .MEM_CHMAP, .MEM_CH_STATE, .MEM_CH_LB, .MEM_PKG_TEMP, .MEM_CTX, .RING_CTX_JOB, .RING_CTX_SR_BASE, .RING_LANTERN, .RING_BASE, .RING_CPL, .RING_CFG, .RING_STATE, .RING_FLAGS, .RING_EVT_BASE, .RING_EVT_CIDX_ADDR]

def regNames1 : List RegName :=
  [.RING_EVT_CFG, .RING_EVT_STATE, .OPTIC_CAL_CFG, .OPTIC_SUBST_CFG, .OPTIC_ENG_CTRL, .OPTIC_ENG_STATE, .OPTIC_LSM_CTRL, .OPTIC_LSM_STATE, .OPTIC_SUBST, .OPTIC_FIB_STATE, .OPTIC_CH_STATE, .ROUTE_CFG, .ROUTE_WIN_CFG, .ROUTE_TBL_SRC, .ROUTE_TBL_CTRL, .ROUTE_TBL_STATE, .ROUTE_DISCARDS, .ROUTE_FIB_CNT, .FAB_RT_BASE, .FAB_RT_CTRL, .FAB_RT_STATUS, .FAB_RT_VALID, .FAB_DEDUP_CFG, .FAB_DEDUP_STATE, .FAB_HOLE_STATE, .FAB_REPL_CFG, .FAB_REPL_BASE, .FAB_REPL_LEN, .FAB_REPL_MEMBERS, .COLL_CFG, .COLL_BUF_BASE, .COLL_BUF_SIZE]

def regNames2 : List RegName :=
  [.COLL_STATUS, .COLL_COUNTS, .COLL_GRP_ID, .COLL_GRP_STATE, .COLL_GRP_BUF, .FRONT_CTRL, .FRONT_TIME_CFG, .FRONT_TIME_STATE, .FRONT_EXR_CFG, .FRONT_EXR_TABLE, .FRONT_EXR_STATE, .FRONT_PORT_CFG, .FRONT_PORT_IP4, .FRONT_PORT_IP6_HI, .FRONT_PORT_IP6_LO, .FRONT_PORT_STATE, .FRONT_FLOW_STATE, .SNAP_CFG, .SNAP_WORK_BASE, .SNAP_SHADOW_STATE, .SNAP_KEEP, .SNAP_KEEP_RANGE, .SNAP_CTX_GEN, .POLICY_SNAP_CFG, .POLICY_SNAP_STATE, .POLICY_STRAG_CFG, .POLICY_STRAG_STATE, .ERR_STATUS, .ERR_RESET_CTRL, .ERR_RESET_STATE, .ERR_HANG_CFG, .ERR_DUMP_CFG]

def regNames3 : List RegName :=
  [.ERR_DUMP_BASE, .ERR_DUMP_STATE, .ERR_ABORT, .ERR_CTX, .CLKPWR_POWER, .CLKPWR_SHED, .CLKPWR_ISL_FREQ, .CLKPWR_ISL_STATE, .THERM_CFG, .THERM_TH_CFG, .THERM_TH, .THERM_ISL, .POLICY_PWR_CFG, .POLICY_THERM_CFG, .POLICY_SHED_CFG, .BOOT_STATE, .BOOT_CFG, .BOOT_UPD_SRC, .BOOT_UPD_CTRL, .BOOT_UPD_STATE, .BOOT_IMG, .PRES_REQ, .PRES_STATE, .IDENT_VENDOR, .IDENT_PART, .IDENT_SILICON_REV, .IDENT_SERIAL, .IDENT_LOCK, .IDENT_RESOURCES, .IDENT_DIE_STATE, .IDENT_MANIFEST]

/-- Every register. -/
def regNames : List RegName := regNames0 ++ regNames1 ++ regNames2 ++ regNames3

/-- Window offset of the first instance of a register. -/
def RegName.base : RegName → Nat
  | .CLUSTER_CORE_ID => 0x100000
  | .CLUSTER_CORE_GEOM => 0x100008
  | .CLUSTER_CORE_STATE => 0x100010
  | .CLUSTER_CORE_LASTTRAP => 0x100018
  | .CLUSTER_CORE_LASTADDR => 0x100020
  | .CLUSTER_STB_STATE => 0x120000
  | .CLUSTER_SEQ_PAUSE => 0x120100
  | .CLUSTER_SEQ_ZGATE => 0x120200
  | .CLUSTER_SFN_SLOT => 0x121000
  | .CLUSTER_SFN_BACKSTEP => 0x122000
  | .MEM_STATUS => 0x200000
  | .MEM_SPARE_CTRL => 0x200008
  | .MEM_DIRTY_CTRL => 0x200010
  | .MEM_DIRTY_BASE => 0x200018
  | .MEM_DIRTY_STATUS => 0x200020
  | .MEM_THERM_CFG => 0x200028
  | .MEM_SCRUB_CFG => 0x200030
  | .MEM_CHMAP => 0x201000
  | .MEM_CH_STATE => 0x202000
  | .MEM_CH_LB => 0x203000
  | .MEM_PKG_TEMP => 0x204000
  | .MEM_CTX => 0x205000
  | .RING_CTX_JOB => 0x500000
  | .RING_CTX_SR_BASE => 0x500008
  | .RING_LANTERN => 0x500800
  | .RING_BASE => 0x510000
  | .RING_CPL => 0x510008
  | .RING_CFG => 0x510010
  | .RING_STATE => 0x510018
  | .RING_FLAGS => 0x510020
  | .RING_EVT_BASE => 0x520000
  | .RING_EVT_CIDX_ADDR => 0x520010
  | .RING_EVT_CFG => 0x520008
  | .RING_EVT_STATE => 0x520018
  | .OPTIC_CAL_CFG => 0x300000
  | .OPTIC_SUBST_CFG => 0x300008
  | .OPTIC_ENG_CTRL => 0x300100
  | .OPTIC_ENG_STATE => 0x300200
  | .OPTIC_LSM_CTRL => 0x300300
  | .OPTIC_LSM_STATE => 0x300400
  | .OPTIC_SUBST => 0x300500
  | .OPTIC_FIB_STATE => 0x301000
  | .OPTIC_CH_STATE => 0x302000
  | .ROUTE_CFG => 0x400000
  | .ROUTE_WIN_CFG => 0x400008
  | .ROUTE_TBL_SRC => 0x400010
  | .ROUTE_TBL_CTRL => 0x400018
  | .ROUTE_TBL_STATE => 0x400020
  | .ROUTE_DISCARDS => 0x400028
  | .ROUTE_FIB_CNT => 0x401000
  | .FAB_RT_BASE => 0x50000
  | .FAB_RT_CTRL => 0x50008
  | .FAB_RT_STATUS => 0x50010
  | .FAB_RT_VALID => 0x50018
  | .FAB_DEDUP_CFG => 0x50020
  | .FAB_DEDUP_STATE => 0x50028
  | .FAB_HOLE_STATE => 0x50030
  | .FAB_REPL_CFG => 0x51000
  | .FAB_REPL_BASE => 0x51008
  | .FAB_REPL_LEN => 0x51010
  | .FAB_REPL_MEMBERS => 0x51018
  | .COLL_CFG => 0x600000
  | .COLL_BUF_BASE => 0x600008
  | .COLL_BUF_SIZE => 0x600010
  | .COLL_STATUS => 0x600018
  | .COLL_COUNTS => 0x600020
  | .COLL_GRP_ID => 0x601000
  | .COLL_GRP_STATE => 0x601008
  | .COLL_GRP_BUF => 0x601010
  | .FRONT_CTRL => 0x700000
  | .FRONT_TIME_CFG => 0x700008
  | .FRONT_TIME_STATE => 0x700010
  | .FRONT_EXR_CFG => 0x700018
  | .FRONT_EXR_TABLE => 0x700020
  | .FRONT_EXR_STATE => 0x700028
  | .FRONT_PORT_CFG => 0x700100
  | .FRONT_PORT_IP4 => 0x700108
  | .FRONT_PORT_IP6_HI => 0x700110
  | .FRONT_PORT_IP6_LO => 0x700118
  | .FRONT_PORT_STATE => 0x700120
  | .FRONT_FLOW_STATE => 0x701000
  | .SNAP_CFG => 0x60000
  | .SNAP_WORK_BASE => 0x60008
  | .SNAP_SHADOW_STATE => 0x60010
  | .SNAP_KEEP => 0x61000
  | .SNAP_KEEP_RANGE => 0x61008
  | .SNAP_CTX_GEN => 0x62000
  | .POLICY_SNAP_CFG => 0x904000
  | .POLICY_SNAP_STATE => 0x904100
  | .POLICY_STRAG_CFG => 0x905000
  | .POLICY_STRAG_STATE => 0x905100
  | .ERR_STATUS => 0x800000
  | .ERR_RESET_CTRL => 0x800008
  | .ERR_RESET_STATE => 0x800010
  | .ERR_HANG_CFG => 0x800018
  | .ERR_DUMP_CFG => 0x800020
  | .ERR_DUMP_BASE => 0x800028
  | .ERR_DUMP_STATE => 0x800030
  | .ERR_ABORT => 0x800038
  | .ERR_CTX => 0x801000
  | .CLKPWR_POWER => 0x30000
  | .CLKPWR_SHED => 0x30008
  | .CLKPWR_ISL_FREQ => 0x31000
  | .CLKPWR_ISL_STATE => 0x32000
  | .THERM_CFG => 0x40000
  | .THERM_TH_CFG => 0x40008
  | .THERM_TH => 0x40100
  | .THERM_ISL => 0x41000
  | .POLICY_PWR_CFG => 0x901000
  | .POLICY_THERM_CFG => 0x902000
  | .POLICY_SHED_CFG => 0x903000
  | .BOOT_STATE => 0x10000
  | .BOOT_CFG => 0x10008
  | .BOOT_UPD_SRC => 0x10010
  | .BOOT_UPD_CTRL => 0x10018
  | .BOOT_UPD_STATE => 0x10020
  | .BOOT_IMG => 0x10030
  | .PRES_REQ => 0x20000
  | .PRES_STATE => 0x20008
  | .IDENT_VENDOR => 0x0
  | .IDENT_PART => 0x8
  | .IDENT_SILICON_REV => 0x10
  | .IDENT_SERIAL => 0x18
  | .IDENT_LOCK => 0x20
  | .IDENT_RESOURCES => 0x28
  | .IDENT_DIE_STATE => 0x100
  | .IDENT_MANIFEST => 0x1000

/-- The (stride, count) pairs of an indexed register, largest stride first. -/
def RegName.dims : RegName → List (Nat × Nat)
  | .CLUSTER_CORE_ID => [(0x40000, 4), (0x1000, 32)]
  | .CLUSTER_CORE_GEOM => [(0x40000, 4), (0x1000, 32)]
  | .CLUSTER_CORE_STATE => [(0x40000, 4), (0x1000, 32)]
  | .CLUSTER_CORE_LASTTRAP => [(0x40000, 4), (0x1000, 32)]
  | .CLUSTER_CORE_LASTADDR => [(0x40000, 4), (0x1000, 32)]
  | .CLUSTER_STB_STATE => [(0x40000, 4), (0x8, 32)]
  | .CLUSTER_SEQ_PAUSE => [(0x40000, 4), (0x8, 32)]
  | .CLUSTER_SEQ_ZGATE => [(0x40000, 4), (0x8, 32)]
  | .CLUSTER_SFN_SLOT => [(0x40000, 4), (0x80, 32), (0x8, 16)]
  | .CLUSTER_SFN_BACKSTEP => [(0x40000, 4), (0x80, 32), (0x8, 16)]
  | .MEM_STATUS => []
  | .MEM_SPARE_CTRL => []
  | .MEM_DIRTY_CTRL => []
  | .MEM_DIRTY_BASE => []
  | .MEM_DIRTY_STATUS => []
  | .MEM_THERM_CFG => []
  | .MEM_SCRUB_CFG => []
  | .MEM_CHMAP => [(0x8, 96)]
  | .MEM_CH_STATE => [(0x8, 104)]
  | .MEM_CH_LB => [(0x8, 104)]
  | .MEM_PKG_TEMP => [(0x8, 26)]
  | .MEM_CTX => [(0x8, 64)]
  | .RING_CTX_JOB => [(0x10, 64)]
  | .RING_CTX_SR_BASE => [(0x10, 64)]
  | .RING_LANTERN => []
  | .RING_BASE => [(0x40, 1024)]
  | .RING_CPL => [(0x40, 1024)]
  | .RING_CFG => [(0x40, 1024)]
  | .RING_STATE => [(0x40, 1024)]
  | .RING_FLAGS => [(0x40, 1024)]
  | .RING_EVT_BASE => [(0x20, 65)]
  | .RING_EVT_CIDX_ADDR => [(0x20, 65)]
  | .RING_EVT_CFG => [(0x20, 65)]
  | .RING_EVT_STATE => [(0x20, 65)]
  | .OPTIC_CAL_CFG => []
  | .OPTIC_SUBST_CFG => []
  | .OPTIC_ENG_CTRL => [(0x8, 9)]
  | .OPTIC_ENG_STATE => [(0x8, 9)]
  | .OPTIC_LSM_CTRL => [(0x8, 8)]
  | .OPTIC_LSM_STATE => [(0x8, 8)]
  | .OPTIC_SUBST => [(0x8, 3)]
  | .OPTIC_FIB_STATE => [(0x8, 64)]
  | .OPTIC_CH_STATE => [(0x8, 1024)]
  | .ROUTE_CFG => []
  | .ROUTE_WIN_CFG => []
  | .ROUTE_TBL_SRC => []
  | .ROUTE_TBL_CTRL => []
  | .ROUTE_TBL_STATE => []
  | .ROUTE_DISCARDS => []
  | .ROUTE_FIB_CNT => [(0x8, 64)]
  | .FAB_RT_BASE => []
  | .FAB_RT_CTRL => []
  | .FAB_RT_STATUS => []
  | .FAB_RT_VALID => []
  | .FAB_DEDUP_CFG => []
  | .FAB_DEDUP_STATE => []
  | .FAB_HOLE_STATE => []
  | .FAB_REPL_CFG => [(0x40, 64)]
  | .FAB_REPL_BASE => [(0x40, 64)]
  | .FAB_REPL_LEN => [(0x40, 64)]
  | .FAB_REPL_MEMBERS => [(0x40, 64), (0x8, 4)]
  | .COLL_CFG => []
  | .COLL_BUF_BASE => []
  | .COLL_BUF_SIZE => []
  | .COLL_STATUS => []
  | .COLL_COUNTS => []
  | .COLL_GRP_ID => [(0x20, 256)]
  | .COLL_GRP_STATE => [(0x20, 256)]
  | .COLL_GRP_BUF => [(0x20, 256)]
  | .FRONT_CTRL => []
  | .FRONT_TIME_CFG => []
  | .FRONT_TIME_STATE => []
  | .FRONT_EXR_CFG => []
  | .FRONT_EXR_TABLE => []
  | .FRONT_EXR_STATE => []
  | .FRONT_PORT_CFG => [(0x40, 2)]
  | .FRONT_PORT_IP4 => [(0x40, 2)]
  | .FRONT_PORT_IP6_HI => [(0x40, 2)]
  | .FRONT_PORT_IP6_LO => [(0x40, 2)]
  | .FRONT_PORT_STATE => [(0x40, 2)]
  | .FRONT_FLOW_STATE => [(0x8, 128)]
  | .SNAP_CFG => []
  | .SNAP_WORK_BASE => []
  | .SNAP_SHADOW_STATE => []
  | .SNAP_KEEP => [(0x10, 16)]
  | .SNAP_KEEP_RANGE => [(0x10, 16)]
  | .SNAP_CTX_GEN => [(0x8, 64)]
  | .POLICY_SNAP_CFG => []
  | .POLICY_SNAP_STATE => [(0x8, 64)]
  | .POLICY_STRAG_CFG => []
  | .POLICY_STRAG_STATE => [(0x8, 64)]
  | .ERR_STATUS => []
  | .ERR_RESET_CTRL => []
  | .ERR_RESET_STATE => []
  | .ERR_HANG_CFG => []
  | .ERR_DUMP_CFG => []
  | .ERR_DUMP_BASE => []
  | .ERR_DUMP_STATE => []
  | .ERR_ABORT => []
  | .ERR_CTX => [(0x8, 64)]
  | .CLKPWR_POWER => []
  | .CLKPWR_SHED => []
  | .CLKPWR_ISL_FREQ => [(0x8, 132)]
  | .CLKPWR_ISL_STATE => [(0x8, 148)]
  | .THERM_CFG => []
  | .THERM_TH_CFG => []
  | .THERM_TH => [(0x8, 4)]
  | .THERM_ISL => [(0x8, 148)]
  | .POLICY_PWR_CFG => []
  | .POLICY_THERM_CFG => []
  | .POLICY_SHED_CFG => []
  | .BOOT_STATE => []
  | .BOOT_CFG => []
  | .BOOT_UPD_SRC => []
  | .BOOT_UPD_CTRL => []
  | .BOOT_UPD_STATE => []
  | .BOOT_IMG => [(0x8, 2)]
  | .PRES_REQ => []
  | .PRES_STATE => []
  | .IDENT_VENDOR => []
  | .IDENT_PART => []
  | .IDENT_SILICON_REV => []
  | .IDENT_SERIAL => []
  | .IDENT_LOCK => []
  | .IDENT_RESOURCES => []
  | .IDENT_DIE_STATE => [(0x8, 6)]
  | .IDENT_MANIFEST => [(0x100, 6), (0x8, 32)]

/-- The defined fields of a register, most significant first; every other bit is reserved. -/
def RegName.fields : RegName → List FieldRow
  | .CLUSTER_CORE_ID => [⟨⟨13, 7⟩, .ro, 0⟩, ⟨⟨6, 5⟩, .ro, 0⟩, ⟨⟨4, 0⟩, .ro, 0⟩]
  | .CLUSTER_CORE_GEOM => [⟨⟨48, 48⟩, .ro, 0⟩, ⟨⟨47, 40⟩, .ro, 0⟩, ⟨⟨31, 0⟩, .ro, 0⟩]
  | .CLUSTER_CORE_STATE => [⟨⟨49, 32⟩, .ro, 0⟩, ⟨⟨13, 8⟩, .ro, 0⟩, ⟨⟨2, 0⟩, .ro, 0⟩]
  | .CLUSTER_CORE_LASTTRAP => [⟨⟨47, 40⟩, .ro, 0⟩, ⟨⟨39, 32⟩, .ro, 0⟩, ⟨⟨17, 0⟩, .ro, 0⟩]
  | .CLUSTER_CORE_LASTADDR => [⟨⟨63, 0⟩, .ro, 0⟩]
  | .CLUSTER_STB_STATE => [⟨⟨31, 16⟩, .ro, 0⟩, ⟨⟨11, 8⟩, .ro, 0⟩, ⟨⟨4, 4⟩, .ro, 0⟩, ⟨⟨3, 3⟩, .ro, 0⟩, ⟨⟨2, 2⟩, .ro, 0⟩, ⟨⟨0, 0⟩, .ro, 0⟩]
  | .CLUSTER_SEQ_PAUSE => [⟨⟨63, 0⟩, .ro, 0⟩]
  | .CLUSTER_SEQ_ZGATE => [⟨⟨63, 0⟩, .ro, 0⟩]
  | .CLUSTER_SFN_SLOT => [⟨⟨47, 40⟩, .ro, 0⟩, ⟨⟨39, 24⟩, .ro, 0⟩, ⟨⟨23, 23⟩, .ro, 0⟩, ⟨⟨22, 16⟩, .ro, 127⟩, ⟨⟨15, 8⟩, .ro, 0⟩, ⟨⟨5, 4⟩, .ro, 0⟩, ⟨⟨3, 3⟩, .ro, 0⟩, ⟨⟨2, 2⟩, .ro, 0⟩, ⟨⟨1, 1⟩, .ro, 0⟩, ⟨⟨0, 0⟩, .ro, 0⟩]
  | .CLUSTER_SFN_BACKSTEP => [⟨⟨31, 0⟩, .ro, 0⟩]
  | .MEM_STATUS => [⟨⟨15, 8⟩, .ro, 0⟩, ⟨⟨7, 4⟩, .ro, 0⟩, ⟨⟨0, 0⟩, .ro, 0⟩]
  | .MEM_SPARE_CTRL => [⟨⟨0, 0⟩, .rw, 0⟩]
  | .MEM_DIRTY_CTRL => [⟨⟨1, 1⟩, .rw, 0⟩, ⟨⟨0, 0⟩, .w1s, 0⟩]
  | .MEM_DIRTY_BASE => [⟨⟨47, 12⟩, .rw, 0⟩]
  | .MEM_DIRTY_STATUS => [⟨⟨63, 32⟩, .ro, 0⟩, ⟨⟨2, 2⟩, .w1c, 0⟩, ⟨⟨1, 1⟩, .w1c, 0⟩, ⟨⟨0, 0⟩, .ro, 0⟩]
  | .MEM_THERM_CFG => [⟨⟨31, 24⟩, .rwl, 105⟩, ⟨⟨23, 16⟩, .rwl, 95⟩, ⟨⟨15, 8⟩, .rwl, 85⟩, ⟨⟨7, 0⟩, .rwl, 3⟩]
  | .MEM_SCRUB_CFG => [⟨⟨32, 32⟩, .rw, 1⟩, ⟨⟨31, 16⟩, .rw, 60⟩, ⟨⟨15, 0⟩, .rw, 24⟩]
  | .MEM_CHMAP => [⟨⟨6, 0⟩, .ro, 0⟩]
  | .MEM_CH_STATE => [⟨⟨63, 40⟩, .ro, 0⟩, ⟨⟨39, 24⟩, .ro, 0⟩, ⟨⟨9, 8⟩, .ro, 0⟩, ⟨⟨2, 0⟩, .ro, 0⟩]
  | .MEM_CH_LB => [⟨⟨63, 32⟩, .ro, 0⟩, ⟨⟨1, 0⟩, .rw, 0⟩]
  | .MEM_PKG_TEMP => [⟨⟨9, 8⟩, .ro, 0⟩, ⟨⟨7, 0⟩, .ro, 0⟩]
  | .MEM_CTX => [⟨⟨63, 63⟩, .rw, 0⟩, ⟨⟨62, 62⟩, .rw, 1⟩, ⟨⟨61, 61⟩, .rw, 0⟩, ⟨⟨44, 32⟩, .rw, 0⟩, ⟨⟨15, 0⟩, .rw, 0⟩]
  | .RING_CTX_JOB => [⟨⟨31, 0⟩, .rw, 0⟩]
  | .RING_CTX_SR_BASE => [⟨⟨30, 0⟩, .rw, 0⟩]
  | .RING_LANTERN => [⟨⟨31, 0⟩, .rw, 1000⟩]
  | .RING_BASE => [⟨⟨63, 0⟩, .rwOff, 0⟩]
  | .RING_CPL => [⟨⟨63, 0⟩, .rwOff, 0⟩]
  | .RING_CFG => [⟨⟨63, 63⟩, .rw, 0⟩, ⟨⟨62, 62⟩, .rwOff, 0⟩, ⟨⟨61, 61⟩, .rwOff, 0⟩, ⟨⟨57, 52⟩, .rwOff, 0⟩, ⟨⟨51, 48⟩, .rwOff, 0⟩, ⟨⟨43, 40⟩, .rwOff, 0⟩, ⟨⟨39, 35⟩, .rwOff, 4⟩, ⟨⟨34, 30⟩, .rwOff, 1⟩, ⟨⟨29, 16⟩, .rwOff, 100⟩]
  | .RING_STATE => [⟨⟨63, 32⟩, .rwOff, 0⟩, ⟨⟨31, 0⟩, .rwOff, 0⟩]
  | .RING_FLAGS => [⟨⟨63, 48⟩, .ro, 0⟩, ⟨⟨3, 3⟩, .w1c, 0⟩, ⟨⟨2, 2⟩, .w1c, 0⟩, ⟨⟨1, 1⟩, .w1c, 0⟩, ⟨⟨0, 0⟩, .w1c, 0⟩]
  | .RING_EVT_BASE => [⟨⟨63, 0⟩, .rwOff, 0⟩]
  | .RING_EVT_CIDX_ADDR => [⟨⟨63, 0⟩, .rwOff, 0⟩]
  | .RING_EVT_CFG => [⟨⟨63, 63⟩, .rw, 0⟩, ⟨⟨62, 62⟩, .rw, 0⟩, ⟨⟨39, 35⟩, .rwOff, 4⟩]
  | .RING_EVT_STATE => [⟨⟨63, 32⟩, .rwOff, 0⟩, ⟨⟨31, 16⟩, .ro, 0⟩, ⟨⟨0, 0⟩, .w1c, 0⟩]
  | .OPTIC_CAL_CFG => [⟨⟨32, 32⟩, .rw, 1⟩, ⟨⟨31, 16⟩, .rw, 256⟩, ⟨⟨15, 0⟩, .rw, 10000⟩]
  | .OPTIC_SUBST_CFG => [⟨⟨8, 8⟩, .rw, 1⟩, ⟨⟨3, 0⟩, .rw, 6⟩]
  | .OPTIC_ENG_CTRL => [⟨⟨2, 2⟩, .rw, 0⟩, ⟨⟨1, 1⟩, .rw, 0⟩, ⟨⟨0, 0⟩, .w1s, 0⟩]
  | .OPTIC_ENG_STATE => [⟨⟨63, 48⟩, .ro, 0⟩, ⟨⟨47, 32⟩, .ro, 0⟩, ⟨⟨31, 24⟩, .ro, 0⟩, ⟨⟨16, 16⟩, .w1c, 0⟩, ⟨⟨15, 8⟩, .ro, 0⟩, ⟨⟨3, 0⟩, .ro, 0⟩]
  | .OPTIC_LSM_CTRL => [⟨⟨0, 0⟩, .rw, 1⟩]
  | .OPTIC_LSM_STATE => [⟨⟨31, 24⟩, .ro, 0⟩, ⟨⟨23, 16⟩, .ro, 0⟩, ⟨⟨11, 11⟩, .ro, 0⟩, ⟨⟨10, 8⟩, .ro, 0⟩, ⟨⟨7, 7⟩, .ro, 0⟩, ⟨⟨6, 6⟩, .ro, 0⟩, ⟨⟨5, 5⟩, .ro, 0⟩, ⟨⟨2, 0⟩, .ro, 0⟩]
  | .OPTIC_SUBST => [⟨⟨63, 63⟩, .ro, 0⟩, ⟨⟨62, 62⟩, .ro, 0⟩, ⟨⟨61, 61⟩, .rw, 0⟩, ⟨⟨43, 32⟩, .ro, 0⟩, ⟨⟨5, 0⟩, .ro, 0⟩]
  | .OPTIC_FIB_STATE => [⟨⟨63, 58⟩, .ro, 0⟩, ⟨⟨55, 44⟩, .ro, 0⟩, ⟨⟨39, 32⟩, .ro, 0⟩, ⟨⟨31, 24⟩, .ro, 0⟩, ⟨⟨3, 0⟩, .ro, 0⟩]
  | .OPTIC_CH_STATE => [⟨⟨63, 48⟩, .ro, 0⟩, ⟨⟨47, 32⟩, .ro, 0⟩, ⟨⟨31, 16⟩, .ro, 0⟩, ⟨⟨9, 8⟩, .ro, 0⟩, ⟨⟨3, 0⟩, .ro, 0⟩]
  | .ROUTE_CFG => [⟨⟨63, 63⟩, .rw, 1⟩, ⟨⟨47, 32⟩, .rwl, 500⟩, ⟨⟨31, 20⟩, .rw, 200⟩, ⟨⟨19, 16⟩, .rw, 3⟩, ⟨⟨15, 0⟩, .rw, 1000⟩]
  | .ROUTE_WIN_CFG => [⟨⟨40, 40⟩, .rw, 1⟩, ⟨⟨39, 32⟩, .rw, 64⟩, ⟨⟨21, 12⟩, .rw, 512⟩]
  | .ROUTE_TBL_SRC => [⟨⟨63, 0⟩, .rw, 0⟩]
  | .ROUTE_TBL_CTRL => [⟨⟨1, 1⟩, .w1s, 0⟩, ⟨⟨0, 0⟩, .w1s, 0⟩]
  | .ROUTE_TBL_STATE => [⟨⟨63, 52⟩, .ro, 0⟩, ⟨⟨51, 20⟩, .ro, 0⟩, ⟨⟨19, 9⟩, .ro, 0⟩, ⟨⟨7, 7⟩, .w1c, 0⟩, ⟨⟨6, 6⟩, .ro, 0⟩, ⟨⟨5, 5⟩, .ro, 0⟩, ⟨⟨4, 4⟩, .ro, 0⟩, ⟨⟨3, 3⟩, .ro, 0⟩, ⟨⟨0, 0⟩, .ro, 0⟩]
  | .ROUTE_DISCARDS => [⟨⟨63, 48⟩, .ro, 0⟩, ⟨⟨47, 32⟩, .ro, 0⟩, ⟨⟨31, 16⟩, .ro, 0⟩, ⟨⟨15, 0⟩, .ro, 0⟩]
  | .ROUTE_FIB_CNT => [⟨⟨63, 40⟩, .ro, 0⟩, ⟨⟨39, 24⟩, .ro, 0⟩, ⟨⟨23, 8⟩, .ro, 0⟩, ⟨⟨7, 0⟩, .ro, 0⟩]
  | .FAB_RT_BASE => [⟨⟨47, 23⟩, .rwl, 0⟩]
  | .FAB_RT_CTRL => [⟨⟨8, 8⟩, .w1s, 0⟩, ⟨⟨7, 7⟩, .rw, 0⟩, ⟨⟨5, 0⟩, .rw, 0⟩]
  | .FAB_RT_STATUS => [⟨⟨63, 32⟩, .ro, 0⟩, ⟨⟨8, 8⟩, .w1c, 0⟩, ⟨⟨7, 7⟩, .w1c, 0⟩, ⟨⟨6, 6⟩, .ro, 0⟩, ⟨⟨5, 0⟩, .ro, 0⟩]
  | .FAB_RT_VALID => [⟨⟨63, 0⟩, .ro, 0⟩]
  | .FAB_DEDUP_CFG => [⟨⟨15, 0⟩, .rw, 5000⟩]
  | .FAB_DEDUP_STATE => [⟨⟨42, 32⟩, .ro, 0⟩, ⟨⟨31, 16⟩, .ro, 0⟩, ⟨⟨15, 0⟩, .ro, 0⟩]
  | .FAB_HOLE_STATE => [⟨⟨63, 56⟩, .ro, 0⟩, ⟨⟨55, 44⟩, .ro, 0⟩, ⟨⟨43, 32⟩, .ro, 0⟩, ⟨⟨31, 0⟩, .ro, 0⟩]
  | .FAB_REPL_CFG => [⟨⟨63, 63⟩, .rw, 0⟩, ⟨⟨55, 54⟩, .rwOff, 0⟩, ⟨⟨53, 48⟩, .rwOff, 0⟩, ⟨⟨4, 0⟩, .rwOff, 0⟩]
  | .FAB_REPL_BASE => [⟨⟨47, 12⟩, .rwOff, 0⟩]
  | .FAB_REPL_LEN => [⟨⟨29, 0⟩, .rwOff, 0⟩]
  | .FAB_REPL_MEMBERS => [⟨⟨59, 0⟩, .rwOff, 0⟩]
  | .COLL_CFG => [⟨⟨33, 32⟩, .rw, 0⟩, ⟨⟨31, 0⟩, .rw, 65536⟩]
  | .COLL_BUF_BASE => [⟨⟨63, 0⟩, .rwl, 0⟩]
  | .COLL_BUF_SIZE => [⟨⟨19, 0⟩, .rwl, 0⟩]
  | .COLL_STATUS => [⟨⟨40, 32⟩, .ro, 0⟩, ⟨⟨19, 0⟩, .ro, 0⟩]
  | .COLL_COUNTS => [⟨⟨63, 48⟩, .ro, 0⟩, ⟨⟨47, 32⟩, .ro, 0⟩, ⟨⟨31, 16⟩, .ro, 0⟩, ⟨⟨15, 0⟩, .ro, 0⟩]
  | .COLL_GRP_ID => [⟨⟨63, 32⟩, .ro, 0⟩, ⟨⟨28, 16⟩, .ro, 0⟩, ⟨⟨11, 0⟩, .ro, 0⟩]
  | .COLL_GRP_STATE => [⟨⟨63, 32⟩, .ro, 0⟩, ⟨⟨15, 12⟩, .ro, 0⟩, ⟨⟨11, 10⟩, .ro, 0⟩, ⟨⟨2, 0⟩, .ro, 0⟩]
  | .COLL_GRP_BUF => [⟨⟨63, 32⟩, .ro, 0⟩, ⟨⟨31, 16⟩, .ro, 0⟩, ⟨⟨15, 0⟩, .ro, 0⟩]
  | .FRONT_CTRL => [⟨⟨3, 2⟩, .ro, 0⟩, ⟨⟨1, 0⟩, .rw, 0⟩]
  | .FRONT_TIME_CFG => [⟨⟨63, 52⟩, .rw, 0⟩, ⟨⟨39, 32⟩, .rw, 127⟩, ⟨⟨1, 0⟩, .rw, 0⟩]
  | .FRONT_TIME_STATE => [⟨⟨63, 32⟩, .ro, 0⟩, ⟨⟨15, 12⟩, .ro, 0⟩, ⟨⟨8, 8⟩, .ro, 0⟩, ⟨⟨2, 0⟩, .ro, 0⟩]
  | .FRONT_EXR_CFG => [⟨⟨63, 63⟩, .rw, 0⟩, ⟨⟨15, 0⟩, .rwOff, 0⟩]
  | .FRONT_EXR_TABLE => [⟨⟨63, 0⟩, .rwOff, 0⟩]
  | .FRONT_EXR_STATE => [⟨⟨63, 63⟩, .w1c, 0⟩, ⟨⟨48, 48⟩, .ro, 0⟩, ⟨⟨47, 32⟩, .ro, 0⟩, ⟨⟨31, 0⟩, .ro, 0⟩]
  | .FRONT_PORT_CFG => [⟨⟨63, 63⟩, .rw, 0⟩, ⟨⟨62, 62⟩, .rw, 0⟩, ⟨⟨59, 48⟩, .rw, 0⟩, ⟨⟨47, 0⟩, .rw, 0⟩]
  | .FRONT_PORT_IP4 => [⟨⟨47, 40⟩, .rw, 0⟩, ⟨⟨39, 32⟩, .rw, 0⟩, ⟨⟨31, 0⟩, .rw, 0⟩]
  | .FRONT_PORT_IP6_HI => [⟨⟨63, 0⟩, .rw, 0⟩]
  | .FRONT_PORT_IP6_LO => [⟨⟨63, 0⟩, .rw, 0⟩]
  | .FRONT_PORT_STATE => [⟨⟨63, 48⟩, .ro, 0⟩, ⟨⟨47, 32⟩, .ro, 0⟩, ⟨⟨0, 0⟩, .ro, 0⟩]
  | .FRONT_FLOW_STATE => [⟨⟨63, 48⟩, .ro, 0⟩, ⟨⟨47, 32⟩, .ro, 0⟩, ⟨⟨31, 16⟩, .ro, 0⟩, ⟨⟨15, 8⟩, .ro, 0⟩, ⟨⟨1, 0⟩, .ro, 0⟩]
  | .SNAP_CFG => [⟨⟨63, 63⟩, .rw, 0⟩, ⟨⟨62, 62⟩, .rwl, 1⟩, ⟨⟨31, 0⟩, .rw, 3600⟩]
  | .SNAP_WORK_BASE => [⟨⟨47, 21⟩, .rwl, 0⟩]
  | .SNAP_SHADOW_STATE => [⟨⟨63, 48⟩, .ro, 0⟩, ⟨⟨47, 32⟩, .ro, 0⟩, ⟨⟨31, 2⟩, .ro, 0⟩, ⟨⟨1, 0⟩, .ro, 2⟩]
  | .SNAP_KEEP => [⟨⟨63, 63⟩, .rw, 0⟩, ⟨⟨17, 12⟩, .rw, 0⟩, ⟨⟨11, 0⟩, .rw, 0⟩]
  | .SNAP_KEEP_RANGE => [⟨⟨63, 42⟩, .rw, 0⟩, ⟨⟨20, 0⟩, .rw, 0⟩]
  | .SNAP_CTX_GEN => [⟨⟨63, 32⟩, .ro, 0⟩, ⟨⟨31, 0⟩, .ro, 0⟩]
  | .POLICY_SNAP_CFG => [⟨⟨63, 48⟩, .rw, 3600⟩, ⟨⟨47, 32⟩, .rw, 60⟩, ⟨⟨31, 16⟩, .rw, 0⟩, ⟨⟨15, 0⟩, .rw, 24⟩]
  | .POLICY_SNAP_STATE => [⟨⟨63, 63⟩, .ro, 0⟩, ⟨⟨62, 48⟩, .ro, 0⟩, ⟨⟨47, 32⟩, .ro, 0⟩, ⟨⟨31, 16⟩, .ro, 0⟩, ⟨⟨15, 0⟩, .ro, 0⟩]
  | .POLICY_STRAG_CFG => [⟨⟨63, 63⟩, .rw, 1⟩, ⟨⟨62, 56⟩, .rw, 10⟩, ⟨⟨55, 48⟩, .rw, 32⟩, ⟨⟨47, 40⟩, .rw, 64⟩, ⟨⟨31, 0⟩, .rw, 0⟩]
  | .POLICY_STRAG_STATE => [⟨⟨63, 63⟩, .ro, 0⟩, ⟨⟨62, 32⟩, .ro, 0⟩, ⟨⟨30, 0⟩, .ro, 0⟩]
  | .ERR_STATUS => [⟨⟨63, 56⟩, .ro, 0⟩, ⟨⟨51, 48⟩, .ro, 15⟩, ⟨⟨15, 8⟩, .ro, 0⟩, ⟨⟨1, 1⟩, .ro, 0⟩, ⟨⟨0, 0⟩, .ro, 0⟩]
  | .ERR_RESET_CTRL => [⟨⟨40, 40⟩, .w1s, 0⟩, ⟨⟨39, 39⟩, .rw, 1⟩, ⟨⟨34, 32⟩, .rw, 0⟩, ⟨⟨7, 0⟩, .rw, 0⟩]
  | .ERR_RESET_STATE => [⟨⟨63, 48⟩, .ro, 0⟩, ⟨⟨2, 0⟩, .ro, 0⟩]
  | .ERR_HANG_CFG => [⟨⟨63, 63⟩, .rw, 1⟩, ⟨⟨62, 62⟩, .rw, 1⟩, ⟨⟨31, 0⟩, .rw, 1000000⟩]
  | .ERR_DUMP_CFG => [⟨⟨63, 63⟩, .rw, 0⟩, ⟨⟨62, 62⟩, .rw, 1⟩, ⟨⟨47, 32⟩, .rw, 100⟩]
  | .ERR_DUMP_BASE => [⟨⟨47, 21⟩, .rwl, 0⟩]
  | .ERR_DUMP_STATE => [⟨⟨63, 32⟩, .ro, 0⟩, ⟨⟨31, 28⟩, .ro, 0⟩, ⟨⟨27, 16⟩, .ro, 0⟩, ⟨⟨2, 2⟩, .ro, 0⟩, ⟨⟨1, 1⟩, .ro, 0⟩, ⟨⟨0, 0⟩, .ro, 0⟩]
  | .ERR_ABORT => [⟨⟨48, 48⟩, .wo, 0⟩, ⟨⟨37, 32⟩, .wo, 0⟩, ⟨⟨31, 0⟩, .wo, 0⟩]
  | .ERR_CTX => [⟨⟨63, 63⟩, .w1c, 0⟩, ⟨⟨62, 62⟩, .rw, 1⟩, ⟨⟨61, 61⟩, .rw, 1⟩, ⟨⟨60, 60⟩, .ro, 0⟩, ⟨⟨47, 32⟩, .ro, 0⟩, ⟨⟨31, 16⟩, .ro, 0⟩]
  | .CLKPWR_POWER => [⟨⟨63, 48⟩, .ro, 0⟩, ⟨⟨47, 32⟩, .ro, 0⟩, ⟨⟨31, 16⟩, .ro, 0⟩]
  | .CLKPWR_SHED => [⟨⟨63, 48⟩, .ro, 0⟩, ⟨⟨2, 0⟩, .ro, 0⟩]
  | .CLKPWR_ISL_FREQ => [⟨⟨6, 0⟩, .rw, 64⟩]
  | .CLKPWR_ISL_STATE => [⟨⟨63, 48⟩, .ro, 0⟩, ⟨⟨43, 40⟩, .ro, 0⟩, ⟨⟨35, 32⟩, .ro, 0⟩, ⟨⟨7, 7⟩, .ro, 0⟩, ⟨⟨6, 6⟩, .ro, 0⟩, ⟨⟨5, 5⟩, .ro, 0⟩, ⟨⟨4, 4⟩, .ro, 0⟩, ⟨⟨3, 3⟩, .ro, 0⟩, ⟨⟨2, 2⟩, .ro, 0⟩]
  | .THERM_CFG => [⟨⟨63, 56⟩, .rwl, 110⟩, ⟨⟨55, 48⟩, .rwl, 100⟩, ⟨⟨47, 40⟩, .rwl, 95⟩, ⟨⟨39, 32⟩, .rwl, 95⟩, ⟨⟨31, 24⟩, .rwl, 90⟩, ⟨⟨23, 16⟩, .rwl, 8⟩, ⟨⟨15, 8⟩, .rwl, 60⟩]
  | .THERM_TH_CFG => [⟨⟨63, 56⟩, .rwl, 95⟩, ⟨⟨55, 48⟩, .rwl, 70⟩]
  | .THERM_TH => [⟨⟨31, 31⟩, .ro, 0⟩, ⟨⟨15, 0⟩, .ro, 0⟩]
  | .THERM_ISL => [⟨⟨63, 48⟩, .ro, 0⟩, ⟨⟨47, 32⟩, .ro, 0⟩, ⟨⟨31, 16⟩, .ro, 0⟩, ⟨⟨2, 2⟩, .ro, 0⟩, ⟨⟨1, 1⟩, .ro, 0⟩]
  | .POLICY_PWR_CFG => [⟨⟨47, 32⟩, .rw, 2000⟩, ⟨⟨31, 16⟩, .rw, 40⟩, ⟨⟨6, 0⟩, .rw, 0⟩]
  | .POLICY_THERM_CFG => [⟨⟨63, 63⟩, .rw, 1⟩, ⟨⟨15, 8⟩, .rw, 10⟩]
  | .POLICY_SHED_CFG => [⟨⟨63, 56⟩, .rw, 90⟩, ⟨⟨55, 48⟩, .rw, 60⟩, ⟨⟨47, 32⟩, .rw, 10⟩, ⟨⟨2, 0⟩, .rw, 0⟩]
  | .BOOT_STATE => [⟨⟨63, 32⟩, .ro, 0⟩, ⟨⟨27, 24⟩, .ro, 0⟩, ⟨⟨23, 23⟩, .ro, 0⟩, ⟨⟨22, 22⟩, .ro, 0⟩, ⟨⟨21, 21⟩, .ro, 0⟩, ⟨⟨20, 20⟩, .ro, 0⟩, ⟨⟨15, 1⟩, .ro, 0⟩]
  | .BOOT_CFG => [⟨⟨8, 8⟩, .rw, 0⟩, ⟨⟨0, 0⟩, .rw, 0⟩]
  | .BOOT_UPD_SRC => [⟨⟨63, 0⟩, .rw, 0⟩]
  | .BOOT_UPD_CTRL => [⟨⟨63, 63⟩, .w1s, 0⟩, ⟨⟨62, 62⟩, .w1s, 0⟩, ⟨⟨35, 32⟩, .rw, 0⟩, ⟨⟨31, 0⟩, .rw, 0⟩]
  | .BOOT_UPD_STATE => [⟨⟨15, 8⟩, .ro, 0⟩, ⟨⟨2, 0⟩, .ro, 0⟩]
  | .BOOT_IMG => [⟨⟨63, 32⟩, .ro, 0⟩, ⟨⟨23, 16⟩, .ro, 0⟩, ⟨⟨15, 8⟩, .ro, 0⟩, ⟨⟨1, 0⟩, .ro, 0⟩]
  | .PRES_REQ => [⟨⟨63, 56⟩, .wo, 0⟩, ⟨⟨47, 0⟩, .wo, 0⟩]
  | .PRES_STATE => [⟨⟨63, 52⟩, .ro, 0⟩, ⟨⟨51, 50⟩, .ro, 0⟩, ⟨⟨49, 41⟩, .ro, 0⟩, ⟨⟨31, 24⟩, .ro, 0⟩, ⟨⟨23, 16⟩, .ro, 0⟩, ⟨⟨3, 3⟩, .ro, 0⟩, ⟨⟨2, 2⟩, .ro, 0⟩, ⟨⟨1, 0⟩, .ro, 0⟩]
  | .IDENT_VENDOR => [⟨⟨31, 0⟩, .ro, 1112887894⟩]
  | .IDENT_PART => [⟨⟨31, 16⟩, .ro, 29728⟩, ⟨⟨15, 8⟩, .ro, 226⟩]
  | .IDENT_SILICON_REV => [⟨⟨15, 0⟩, .ro, 161⟩]
  | .IDENT_SERIAL => [⟨⟨63, 0⟩, .ro, 0⟩]
  | .IDENT_LOCK => [⟨⟨63, 32⟩, .ro, 0⟩, ⟨⟨0, 0⟩, .w1s, 0⟩]
  | .IDENT_RESOURCES => [⟨⟨63, 56⟩, .ro, 0⟩, ⟨⟨55, 52⟩, .ro, 0⟩, ⟨⟨47, 39⟩, .ro, 0⟩, ⟨⟨31, 16⟩, .ro, 0⟩]
  | .IDENT_DIE_STATE => [⟨⟨63, 32⟩, .ro, 0⟩, ⟨⟨31, 16⟩, .ro, 0⟩, ⟨⟨15, 12⟩, .ro, 0⟩, ⟨⟨3, 0⟩, .ro, 0⟩]
  | .IDENT_MANIFEST => [⟨⟨63, 0⟩, .ro, 0⟩]

/-- The fields of one register of an array. MEMBER of the last FAB_REPL_MEMBERS word holds one member, [59:12] being reserved there
(R305); FREQ of a cluster network is RO (R412). -/
def RegName.fieldsAt (r : RegName) (is : List Nat) : List FieldRow :=
  match r with
  | .FAB_REPL_MEMBERS => if (is.drop 1).headD 0 = 3 then [⟨⟨11, 0⟩, .rwOff, 0⟩] else r.fields
  | .CLKPWR_ISL_FREQ => if is.headD 0 < 128 then r.fields else [⟨⟨6, 0⟩, .ro, 80⟩]
  | _ => r.fields

namespace Reg

def CLUSTER_CORE_ID (i j : Nat) : Nat := 0x100000 + 0x40000 * i + 0x1000 * j
def CLUSTER_CORE_ID_CORE : Field := ⟨13, 7⟩
def CLUSTER_CORE_ID_CLUSTER : Field := ⟨6, 5⟩
def CLUSTER_CORE_ID_INDEX : Field := ⟨4, 0⟩
def CLUSTER_CORE_GEOM (i j : Nat) : Nat := 0x100008 + 0x40000 * i + 0x1000 * j
def CLUSTER_CORE_GEOM_RETIRED : Field := ⟨48, 48⟩
def CLUSTER_CORE_GEOM_CORE_WIDTH : Field := ⟨47, 40⟩
def CLUSTER_CORE_GEOM_COLGROUP_EN : Field := ⟨31, 0⟩
def CLUSTER_CORE_STATE (i j : Nat) : Nat := 0x100010 + 0x40000 * i + 0x1000 * j
def CLUSTER_CORE_STATE_PC : Field := ⟨49, 32⟩
def CLUSTER_CORE_STATE_CTX : Field := ⟨13, 8⟩
def CLUSTER_CORE_STATE_RUNSTATE : Field := ⟨2, 0⟩
def CLUSTER_CORE_LASTTRAP (i j : Nat) : Nat := 0x100018 + 0x40000 * i + 0x1000 * j
def CLUSTER_CORE_LASTTRAP_TSTATUS : Field := ⟨47, 40⟩
def CLUSTER_CORE_LASTTRAP_CAUSE : Field := ⟨39, 32⟩
def CLUSTER_CORE_LASTTRAP_TINST : Field := ⟨17, 0⟩
def CLUSTER_CORE_LASTADDR (i j : Nat) : Nat := 0x100020 + 0x40000 * i + 0x1000 * j
def CLUSTER_CORE_LASTADDR_BADADDR : Field := ⟨63, 0⟩
def CLUSTER_STB_STATE (i j : Nat) : Nat := 0x120000 + 0x40000 * i + 0x8 * j
def CLUSTER_STB_STATE_GEN : Field := ⟨31, 16⟩
def CLUSTER_STB_STATE_OLD_BOUND : Field := ⟨11, 8⟩
def CLUSTER_STB_STATE_LOADING : Field := ⟨4, 4⟩
def CLUSTER_STB_STATE_SHADOW_READY : Field := ⟨3, 3⟩
def CLUSTER_STB_STATE_ACTIVE_VALID : Field := ⟨2, 2⟩
def CLUSTER_STB_STATE_ACTIVE : Field := ⟨0, 0⟩
def CLUSTER_SEQ_PAUSE (i j : Nat) : Nat := 0x120100 + 0x40000 * i + 0x8 * j
def CLUSTER_SEQ_PAUSE_PAUSE_CYCLES : Field := ⟨63, 0⟩
def CLUSTER_SEQ_ZGATE (i j : Nat) : Nat := 0x120200 + 0x40000 * i + 0x8 * j
def CLUSTER_SEQ_ZGATE_GATED_KPROD : Field := ⟨63, 0⟩
def CLUSTER_SFN_SLOT (i j l : Nat) : Nat := 0x121000 + 0x40000 * i + 0x80 * j + 0x8 * l
def CLUSTER_SFN_SLOT_BACK_SEG : Field := ⟨47, 40⟩
def CLUSTER_SFN_SLOT_BACK_J : Field := ⟨39, 24⟩
def CLUSTER_SFN_SLOT_BACK_END : Field := ⟨23, 23⟩
def CLUSTER_SFN_SLOT_OWNER : Field := ⟨22, 16⟩
def CLUSTER_SFN_SLOT_GEN : Field := ⟨15, 8⟩
def CLUSTER_SFN_SLOT_SHADOW_MONO : Field := ⟨5, 4⟩
def CLUSTER_SFN_SLOT_LOADING : Field := ⟨3, 3⟩
def CLUSTER_SFN_SLOT_SHADOW_READY : Field := ⟨2, 2⟩
def CLUSTER_SFN_SLOT_ACTIVE_VALID : Field := ⟨1, 1⟩
def CLUSTER_SFN_SLOT_ACTIVE : Field := ⟨0, 0⟩
def CLUSTER_SFN_BACKSTEP (i j l : Nat) : Nat := 0x122000 + 0x40000 * i + 0x80 * j + 0x8 * l
def CLUSTER_SFN_BACKSTEP_BACKSTEP : Field := ⟨31, 0⟩
def MEM_STATUS : Nat := 0x200000
def MEM_STATUS_FAILED : Field := ⟨15, 8⟩
def MEM_STATUS_SPARES_FREE : Field := ⟨7, 4⟩
def MEM_STATUS_LPDDR_UP : Field := ⟨0, 0⟩
def MEM_SPARE_CTRL : Nat := 0x200008
def MEM_SPARE_CTRL_RETRY_NEXT : Field := ⟨0, 0⟩
def MEM_DIRTY_CTRL : Nat := 0x200010
def MEM_DIRTY_CTRL_ENABLE : Field := ⟨1, 1⟩
def MEM_DIRTY_CTRL_SWAP : Field := ⟨0, 0⟩
def MEM_DIRTY_BASE : Nat := 0x200018
def MEM_DIRTY_BASE_BASE : Field := ⟨47, 12⟩
def MEM_DIRTY_STATUS : Nat := 0x200020
def MEM_DIRTY_STATUS_SWAPS : Field := ⟨63, 32⟩
def MEM_DIRTY_STATUS_OVERRUN : Field := ⟨2, 2⟩
def MEM_DIRTY_STATUS_FAULT : Field := ⟨1, 1⟩
def MEM_DIRTY_STATUS_BUSY : Field := ⟨0, 0⟩
def MEM_THERM_CFG : Nat := 0x200028
def MEM_THERM_CFG_T3 : Field := ⟨31, 24⟩
def MEM_THERM_CFG_T2 : Field := ⟨23, 16⟩
def MEM_THERM_CFG_T1 : Field := ⟨15, 8⟩
def MEM_THERM_CFG_HYST : Field := ⟨7, 0⟩
def MEM_SCRUB_CFG : Nat := 0x200030
def MEM_SCRUB_CFG_ENABLE : Field := ⟨32, 32⟩
def MEM_SCRUB_CFG_SRAM_MIN : Field := ⟨31, 16⟩
def MEM_SCRUB_CFG_LPDDR_H : Field := ⟨15, 0⟩
def MEM_CHMAP (i : Nat) : Nat := 0x201000 + 0x8 * i
def MEM_CHMAP_PHYS : Field := ⟨6, 0⟩
def MEM_CH_STATE (i : Nat) : Nat := 0x202000 + 0x8 * i
def MEM_CH_STATE_CE : Field := ⟨63, 40⟩
def MEM_CH_STATE_UE : Field := ⟨39, 24⟩
def MEM_CH_STATE_THROTTLE : Field := ⟨9, 8⟩
def MEM_CH_STATE_STATE : Field := ⟨2, 0⟩
def MEM_CH_LB (i : Nat) : Nat := 0x203000 + 0x8 * i
def MEM_CH_LB_ERRORS : Field := ⟨63, 32⟩
def MEM_CH_LB_MODE : Field := ⟨1, 0⟩
def MEM_PKG_TEMP (i : Nat) : Nat := 0x204000 + 0x8 * i
def MEM_PKG_TEMP_LEVEL : Field := ⟨9, 8⟩
def MEM_PKG_TEMP_TEMP : Field := ⟨7, 0⟩
def MEM_CTX (i : Nat) : Nat := 0x205000 + 0x8 * i
def MEM_CTX_ENABLE : Field := ⟨63, 63⟩
def MEM_CTX_BORROW : Field := ⟨62, 62⟩
def MEM_CTX_COMPRESS : Field := ⟨61, 61⟩
def MEM_CTX_RATE : Field := ⟨44, 32⟩
def MEM_CTX_DEPTH : Field := ⟨15, 0⟩
def RING_CTX_JOB (i : Nat) : Nat := 0x500000 + 0x10 * i
def RING_CTX_JOB_JOB : Field := ⟨31, 0⟩
def RING_CTX_SR_BASE (i : Nat) : Nat := 0x500008 + 0x10 * i
def RING_CTX_SR_BASE_SR_BASE : Field := ⟨30, 0⟩
def RING_LANTERN : Nat := 0x500800
def RING_LANTERN_PERIOD_US : Field := ⟨31, 0⟩
def RING_BASE (i : Nat) : Nat := 0x510000 + 0x40 * i
def RING_BASE_ADDR : Field := ⟨63, 0⟩
def RING_CPL (i : Nat) : Nat := 0x510008 + 0x40 * i
def RING_CPL_ADDR : Field := ⟨63, 0⟩
def RING_CFG (i : Nat) : Nat := 0x510010 + 0x40 * i
def RING_CFG_ENABLE : Field := ⟨63, 63⟩
def RING_CFG_STOP_ON_ERROR : Field := ⟨62, 62⟩
def RING_CFG_SYSTEM : Field := ⟨61, 61⟩
def RING_CFG_CTX : Field := ⟨57, 52⟩
def RING_CFG_CLASS : Field := ⟨51, 48⟩
def RING_CFG_ENGINE : Field := ⟨43, 40⟩
def RING_CFG_LOG2SIZE : Field := ⟨39, 35⟩
def RING_CFG_INFLIGHT : Field := ⟨34, 30⟩
def RING_CFG_SEQ_WAIT_US : Field := ⟨29, 16⟩
def RING_STATE (i : Nat) : Nat := 0x510018 + 0x40 * i
def RING_STATE_PIDX : Field := ⟨63, 32⟩
def RING_STATE_CIDX : Field := ⟨31, 0⟩
def RING_FLAGS (i : Nat) : Nat := 0x510020 + 0x40 * i
def RING_FLAGS_DB_REJECTS : Field := ⟨63, 48⟩
def RING_FLAGS_DB_REJECT : Field := ⟨3, 3⟩
def RING_FLAGS_CFG_ERR : Field := ⟨2, 2⟩
def RING_FLAGS_FAULTED : Field := ⟨1, 1⟩
def RING_FLAGS_STOPPED : Field := ⟨0, 0⟩
def RING_EVT_BASE (i : Nat) : Nat := 0x520000 + 0x20 * i
def RING_EVT_BASE_ADDR : Field := ⟨63, 0⟩
def RING_EVT_CIDX_ADDR (i : Nat) : Nat := 0x520010 + 0x20 * i
def RING_EVT_CIDX_ADDR_ADDR : Field := ⟨63, 0⟩
def RING_EVT_CFG (i : Nat) : Nat := 0x520008 + 0x20 * i
def RING_EVT_CFG_ENABLE : Field := ⟨63, 63⟩
def RING_EVT_CFG_LANTERN : Field := ⟨62, 62⟩
def RING_EVT_CFG_LOG2SIZE : Field := ⟨39, 35⟩
def RING_EVT_STATE (i : Nat) : Nat := 0x520018 + 0x20 * i
def RING_EVT_STATE_NEXT : Field := ⟨63, 32⟩
def RING_EVT_STATE_DROPPED : Field := ⟨31, 16⟩
def RING_EVT_STATE_OVERFLOW : Field := ⟨0, 0⟩
def OPTIC_CAL_CFG : Nat := 0x300000
def OPTIC_CAL_CFG_ENABLE : Field := ⟨32, 32⟩
def OPTIC_CAL_CFG_SER_LIMIT : Field := ⟨31, 16⟩
def OPTIC_CAL_CFG_PERIOD_MS : Field := ⟨15, 0⟩
def OPTIC_SUBST_CFG : Nat := 0x300008
def OPTIC_SUBST_CFG_AUTO : Field := ⟨8, 8⟩
def OPTIC_SUBST_CFG_MIN_CH : Field := ⟨3, 0⟩
def OPTIC_ENG_CTRL (i : Nat) : Nat := 0x300100 + 0x8 * i
def OPTIC_ENG_CTRL_FORCE : Field := ⟨2, 2⟩
def OPTIC_ENG_CTRL_QUIESCE : Field := ⟨1, 1⟩
def OPTIC_ENG_CTRL_CAL_NOW : Field := ⟨0, 0⟩
def OPTIC_ENG_STATE (i : Nat) : Nat := 0x300200 + 0x8 * i
def OPTIC_ENG_STATE_PART : Field := ⟨63, 48⟩
def OPTIC_ENG_STATE_CAL_PASSES : Field := ⟨47, 32⟩
def OPTIC_ENG_STATE_CAL_SKIPS : Field := ⟨31, 24⟩
def OPTIC_ENG_STATE_QUIESCE_REFUSED : Field := ⟨16, 16⟩
def OPTIC_ENG_STATE_FIB_UP : Field := ⟨15, 8⟩
def OPTIC_ENG_STATE_STATE : Field := ⟨3, 0⟩
def OPTIC_LSM_CTRL (i : Nat) : Nat := 0x300300 + 0x8 * i
def OPTIC_LSM_CTRL_ENABLE : Field := ⟨0, 0⟩
def OPTIC_LSM_STATE (i : Nat) : Nat := 0x300400 + 0x8 * i
def OPTIC_LSM_STATE_LINE_LIT : Field := ⟨31, 24⟩
def OPTIC_LSM_STATE_LASER_FAULT : Field := ⟨23, 16⟩
def OPTIC_LSM_STATE_SPARE_USED : Field := ⟨11, 11⟩
def OPTIC_LSM_STATE_SPARE_LINE : Field := ⟨10, 8⟩
def OPTIC_LSM_STATE_SPARE_FAULT : Field := ⟨7, 7⟩
def OPTIC_LSM_STATE_LASER_EN : Field := ⟨6, 6⟩
def OPTIC_LSM_STATE_PRESENT : Field := ⟨5, 5⟩
def OPTIC_LSM_STATE_STATE : Field := ⟨2, 0⟩
def OPTIC_SUBST (i : Nat) : Nat := 0x300500 + 0x8 * i
def OPTIC_SUBST_ACTIVE : Field := ⟨63, 63⟩
def OPTIC_SUBST_REQUESTED : Field := ⟨62, 62⟩
def OPTIC_SUBST_PIN : Field := ⟨61, 61⟩
def OPTIC_SUBST_FAR_COORD : Field := ⟨43, 32⟩
def OPTIC_SUBST_FIBER : Field := ⟨5, 0⟩
def OPTIC_FIB_STATE (i : Nat) : Nat := 0x301000 + 0x8 * i
def OPTIC_FIB_STATE_FAR_FIBER : Field := ⟨63, 58⟩
def OPTIC_FIB_STATE_FAR_COORD : Field := ⟨55, 44⟩
def OPTIC_FIB_STATE_TX_MAP : Field := ⟨39, 32⟩
def OPTIC_FIB_STATE_RX_MAP : Field := ⟨31, 24⟩
def OPTIC_FIB_STATE_STATE : Field := ⟨3, 0⟩
def OPTIC_CH_STATE (i : Nat) : Nat := 0x302000 + 0x8 * i
def OPTIC_CH_STATE_HEATER : Field := ⟨63, 48⟩
def OPTIC_CH_STATE_RELOCKS : Field := ⟨47, 32⟩
def OPTIC_CH_STATE_MISMATCHES : Field := ⟨31, 16⟩
def OPTIC_CH_STATE_TONES : Field := ⟨9, 8⟩
def OPTIC_CH_STATE_STATE : Field := ⟨3, 0⟩
def ROUTE_CFG : Nat := 0x400000
def ROUTE_CFG_FCOMP : Field := ⟨63, 63⟩
def ROUTE_CFG_DRAIN_US : Field := ⟨47, 32⟩
def ROUTE_CFG_LINK_HOLD_US : Field := ⟨31, 20⟩
def ROUTE_CFG_E2E_RETRIES : Field := ⟨19, 16⟩
def ROUTE_CFG_REQ_TIMEOUT_US : Field := ⟨15, 0⟩
def ROUTE_WIN_CFG : Nat := 0x400008
def ROUTE_WIN_CFG_THROTTLE : Field := ⟨40, 40⟩
def ROUTE_WIN_CFG_MAXREQ : Field := ⟨39, 32⟩
def ROUTE_WIN_CFG_MAXKIB : Field := ⟨21, 12⟩
def ROUTE_TBL_SRC : Nat := 0x400010
def ROUTE_TBL_SRC_ADDR : Field := ⟨63, 0⟩
def ROUTE_TBL_CTRL : Nat := 0x400018
def ROUTE_TBL_CTRL_FLIP : Field := ⟨1, 1⟩
def ROUTE_TBL_CTRL_LOAD : Field := ⟨0, 0⟩
def ROUTE_TBL_STATE : Nat := 0x400020
def ROUTE_TBL_STATE_SELF : Field := ⟨63, 52⟩
def ROUTE_TBL_STATE_JOBTAG : Field := ⟨51, 20⟩
def ROUTE_TBL_STATE_ERR_OFFSET : Field := ⟨19, 9⟩
def ROUTE_TBL_STATE_LOAD_ERR : Field := ⟨7, 7⟩
def ROUTE_TBL_STATE_LOADING : Field := ⟨6, 6⟩
def ROUTE_TBL_STATE_DRAINING : Field := ⟨5, 5⟩
def ROUTE_TBL_STATE_SHADOW_READY : Field := ⟨4, 4⟩
def ROUTE_TBL_STATE_ACTIVE_VALID : Field := ⟨3, 3⟩
def ROUTE_TBL_STATE_ACTIVE : Field := ⟨0, 0⟩
def ROUTE_DISCARDS : Nat := 0x400028
def ROUTE_DISCARDS_MISROUTE : Field := ⟨63, 48⟩
def ROUTE_DISCARDS_EPOCH_DISC : Field := ⟨47, 32⟩
def ROUTE_DISCARDS_HCHK_FAIL : Field := ⟨31, 16⟩
def ROUTE_DISCARDS_PCRC_FAIL : Field := ⟨15, 0⟩
def ROUTE_FIB_CNT (i : Nat) : Nat := 0x401000 + 0x8 * i
def ROUTE_FIB_CNT_FEC_CORR : Field := ⟨63, 40⟩
def ROUTE_FIB_CNT_FLIT_BAD : Field := ⟨39, 24⟩
def ROUTE_FIB_CNT_REPLAYS : Field := ⟨23, 8⟩
def ROUTE_FIB_CNT_RESETS : Field := ⟨7, 0⟩
def FAB_RT_BASE : Nat := 0x50000
def FAB_RT_BASE_BASE : Field := ⟨47, 23⟩
def FAB_RT_CTRL : Nat := 0x50008
def FAB_RT_CTRL_LOAD : Field := ⟨8, 8⟩
def FAB_RT_CTRL_ALL : Field := ⟨7, 7⟩
def FAB_RT_CTRL_CTX : Field := ⟨5, 0⟩
def FAB_RT_STATUS : Nat := 0x50010
def FAB_RT_STATUS_DENIED : Field := ⟨63, 32⟩
def FAB_RT_STATUS_REPL_ERR : Field := ⟨8, 8⟩
def FAB_RT_STATUS_ERR : Field := ⟨7, 7⟩
def FAB_RT_STATUS_BUSY : Field := ⟨6, 6⟩
def FAB_RT_STATUS_ERR_CTX : Field := ⟨5, 0⟩
def FAB_RT_VALID : Nat := 0x50018
def FAB_RT_VALID_VALID : Field := ⟨63, 0⟩
def FAB_DEDUP_CFG : Nat := 0x50020
def FAB_DEDUP_CFG_HOLD_US : Field := ⟨15, 0⟩
def FAB_DEDUP_STATE : Nat := 0x50028
def FAB_DEDUP_STATE_SOURCES : Field := ⟨42, 32⟩
def FAB_DEDUP_STATE_UNKNOWN : Field := ⟨31, 16⟩
def FAB_DEDUP_STATE_HITS : Field := ⟨15, 0⟩
def FAB_HOLE_STATE : Nat := 0x50030
def FAB_HOLE_STATE_BROKEN : Field := ⟨63, 56⟩
def FAB_HOLE_STATE_SENT : Field := ⟨55, 44⟩
def FAB_HOLE_STATE_RECEIVED : Field := ⟨43, 32⟩
def FAB_HOLE_STATE_UNITS_POISONED : Field := ⟨31, 0⟩
def FAB_REPL_CFG (i : Nat) : Nat := 0x51000 + 0x40 * i
def FAB_REPL_CFG_VALID : Field := ⟨63, 63⟩
def FAB_REPL_CFG_SCOPE : Field := ⟨55, 54⟩
def FAB_REPL_CFG_CTX : Field := ⟨53, 48⟩
def FAB_REPL_CFG_COUNT : Field := ⟨4, 0⟩
def FAB_REPL_BASE (i : Nat) : Nat := 0x51008 + 0x40 * i
def FAB_REPL_BASE_BASE : Field := ⟨47, 12⟩
def FAB_REPL_LEN (i : Nat) : Nat := 0x51010 + 0x40 * i
def FAB_REPL_LEN_LEN : Field := ⟨29, 0⟩
def FAB_REPL_MEMBERS (i j : Nat) : Nat := 0x51018 + 0x40 * i + 0x8 * j
def FAB_REPL_MEMBERS_MEMBER : Field := ⟨59, 0⟩
def COLL_CFG : Nat := 0x600000
def COLL_CFG_ALG : Field := ⟨33, 32⟩
def COLL_CFG_SMALL_MAX : Field := ⟨31, 0⟩
def COLL_BUF_BASE : Nat := 0x600008
def COLL_BUF_BASE_ADDR : Field := ⟨63, 0⟩
def COLL_BUF_SIZE : Nat := 0x600010
def COLL_BUF_SIZE_UNITS : Field := ⟨19, 0⟩
def COLL_STATUS : Nat := 0x600018
def COLL_STATUS_ACTIVE : Field := ⟨40, 32⟩
def COLL_STATUS_FREE : Field := ⟨19, 0⟩
def COLL_COUNTS : Nat := 0x600020
def COLL_COUNTS_DIGEST_FAIL : Field := ⟨63, 48⟩
def COLL_COUNTS_ORDER_FAIL : Field := ⟨47, 32⟩
def COLL_COUNTS_LOST : Field := ⟨31, 16⟩
def COLL_COUNTS_RESENDS : Field := ⟨15, 0⟩
def COLL_GRP_ID (i : Nat) : Nat := 0x601000 + 0x20 * i
def COLL_GRP_ID_GID : Field := ⟨63, 32⟩
def COLL_GRP_ID_COUNT : Field := ⟨28, 16⟩
def COLL_GRP_ID_RANK : Field := ⟨11, 0⟩
def COLL_GRP_STATE (i : Nat) : Nat := 0x601008 + 0x20 * i
def COLL_GRP_STATE_NEXT_SEQ : Field := ⟨63, 32⟩
def COLL_GRP_STATE_WEIGHT : Field := ⟨15, 12⟩
def COLL_GRP_STATE_ALG : Field := ⟨11, 10⟩
def COLL_GRP_STATE_STATE : Field := ⟨2, 0⟩
def COLL_GRP_BUF (i : Nat) : Nat := 0x601010 + 0x20 * i
def COLL_GRP_BUF_SMALL_MAX : Field := ⟨63, 32⟩
def COLL_GRP_BUF_SBUF : Field := ⟨31, 16⟩
def COLL_GRP_BUF_RXBUF : Field := ⟨15, 0⟩
def FRONT_CTRL : Nat := 0x700000
def FRONT_CTRL_QDONE : Field := ⟨3, 2⟩
def FRONT_CTRL_QUIESCE : Field := ⟨1, 0⟩
def FRONT_TIME_CFG : Nat := 0x700008
def FRONT_TIME_CFG_UP_COORD : Field := ⟨63, 52⟩
def FRONT_TIME_CFG_DOMAIN : Field := ⟨39, 32⟩
def FRONT_TIME_CFG_SOURCE : Field := ⟨1, 0⟩
def FRONT_TIME_STATE : Nat := 0x700010
def FRONT_TIME_STATE_OFFSET_NS : Field := ⟨63, 32⟩
def FRONT_TIME_STATE_DEPTH : Field := ⟨15, 12⟩
def FRONT_TIME_STATE_PORT : Field := ⟨8, 8⟩
def FRONT_TIME_STATE_STATE : Field := ⟨2, 0⟩
def FRONT_EXR_CFG : Nat := 0x700018
def FRONT_EXR_CFG_ENABLE : Field := ⟨63, 63⟩
def FRONT_EXR_CFG_UDP_PORT : Field := ⟨15, 0⟩
def FRONT_EXR_TABLE : Nat := 0x700020
def FRONT_EXR_TABLE_ADDR : Field := ⟨63, 0⟩
def FRONT_EXR_STATE : Nat := 0x700028
def FRONT_EXR_STATE_ERR : Field := ⟨63, 63⟩
def FRONT_EXR_STATE_DRAINING : Field := ⟨48, 48⟩
def FRONT_EXR_STATE_REJECTS : Field := ⟨47, 32⟩
def FRONT_EXR_STATE_REQUESTS : Field := ⟨31, 0⟩
def FRONT_PORT_CFG (i : Nat) : Nat := 0x700100 + 0x40 * i
def FRONT_PORT_CFG_ENABLE : Field := ⟨63, 63⟩
def FRONT_PORT_CFG_VLAN_EN : Field := ⟨62, 62⟩
def FRONT_PORT_CFG_VID : Field := ⟨59, 48⟩
def FRONT_PORT_CFG_MAC : Field := ⟨47, 0⟩
def FRONT_PORT_IP4 (i : Nat) : Nat := 0x700108 + 0x40 * i
def FRONT_PORT_IP4_PREFIX6 : Field := ⟨47, 40⟩
def FRONT_PORT_IP4_PREFIX4 : Field := ⟨39, 32⟩
def FRONT_PORT_IP4_ADDR : Field := ⟨31, 0⟩
def FRONT_PORT_IP6_HI (i : Nat) : Nat := 0x700110 + 0x40 * i
def FRONT_PORT_IP6_HI_ADDR : Field := ⟨63, 0⟩
def FRONT_PORT_IP6_LO (i : Nat) : Nat := 0x700118 + 0x40 * i
def FRONT_PORT_IP6_LO_ADDR : Field := ⟨63, 0⟩
def FRONT_PORT_STATE (i : Nat) : Nat := 0x700120 + 0x40 * i
def FRONT_PORT_STATE_DISCARDS : Field := ⟨63, 48⟩
def FRONT_PORT_STATE_FCS_ERR : Field := ⟨47, 32⟩
def FRONT_PORT_STATE_LINK : Field := ⟨0, 0⟩
def FRONT_FLOW_STATE (i : Nat) : Nat := 0x701000 + 0x8 * i
def FRONT_FLOW_STATE_LATE : Field := ⟨63, 48⟩
def FRONT_FLOW_STATE_DROPPED_FRAMES : Field := ⟨47, 32⟩
def FRONT_FLOW_STATE_INCOMPLETE : Field := ⟨31, 16⟩
def FRONT_FLOW_STATE_BAD : Field := ⟨15, 8⟩
def FRONT_FLOW_STATE_STATE : Field := ⟨1, 0⟩
def SNAP_CFG : Nat := 0x60000
def SNAP_CFG_ENABLE : Field := ⟨63, 63⟩
def SNAP_CFG_SALVAGE_EN : Field := ⟨62, 62⟩
def SNAP_CFG_SHARED_PERIOD_S : Field := ⟨31, 0⟩
def SNAP_WORK_BASE : Nat := 0x60008
def SNAP_WORK_BASE_BASE : Field := ⟨47, 21⟩
def SNAP_SHADOW_STATE : Nat := 0x60010
def SNAP_SHADOW_STATE_PEER : Field := ⟨63, 48⟩
def SNAP_SHADOW_STATE_MISMATCH : Field := ⟨47, 32⟩
def SNAP_SHADOW_STATE_MATCH : Field := ⟨31, 2⟩
def SNAP_SHADOW_STATE_ROLE : Field := ⟨1, 0⟩
def SNAP_KEEP (i : Nat) : Nat := 0x61000 + 0x10 * i
def SNAP_KEEP_VALID : Field := ⟨63, 63⟩
def SNAP_KEEP_CTX : Field := ⟨17, 12⟩
def SNAP_KEEP_OWNER : Field := ⟨11, 0⟩
def SNAP_KEEP_RANGE (i : Nat) : Nat := 0x61008 + 0x10 * i
def SNAP_KEEP_RANGE_SIZE : Field := ⟨63, 42⟩
def SNAP_KEEP_RANGE_BASE : Field := ⟨20, 0⟩
def SNAP_CTX_GEN (i : Nat) : Nat := 0x62000 + 0x8 * i
def SNAP_CTX_GEN_GEN_L1 : Field := ⟨63, 32⟩
def SNAP_CTX_GEN_GEN_L2 : Field := ⟨31, 0⟩
def POLICY_SNAP_CFG : Nat := 0x904000
def POLICY_SNAP_CFG_T_MAX_S : Field := ⟨63, 48⟩
def POLICY_SNAP_CFG_T_MIN_S : Field := ⟨47, 32⟩
def POLICY_SNAP_CFG_PIN_S : Field := ⟨31, 16⟩
def POLICY_SNAP_CFG_M_PRIOR_H : Field := ⟨15, 0⟩
def POLICY_SNAP_STATE (i : Nat) : Nat := 0x904100 + 0x8 * i
def POLICY_SNAP_STATE_DUE : Field := ⟨63, 63⟩
def POLICY_SNAP_STATE_FAILS : Field := ⟨62, 48⟩
def POLICY_SNAP_STATE_C_DS : Field := ⟨47, 32⟩
def POLICY_SNAP_STATE_INTERVAL_S : Field := ⟨31, 16⟩
def POLICY_SNAP_STATE_RUN_H : Field := ⟨15, 0⟩
def POLICY_STRAG_CFG : Nat := 0x905000
def POLICY_STRAG_CFG_ENABLE : Field := ⟨63, 63⟩
def POLICY_STRAG_CFG_SLOW_PCT : Field := ⟨62, 56⟩
def POLICY_STRAG_CFG_HOLD_STEPS : Field := ⟨55, 48⟩
def POLICY_STRAG_CFG_BASE_STEPS : Field := ⟨47, 40⟩
def POLICY_STRAG_CFG_REF_US : Field := ⟨31, 0⟩
def POLICY_STRAG_STATE (i : Nat) : Nat := 0x905100 + 0x8 * i
def POLICY_STRAG_STATE_SLOW : Field := ⟨63, 63⟩
def POLICY_STRAG_STATE_E_US : Field := ⟨62, 32⟩
def POLICY_STRAG_STATE_B_US : Field := ⟨30, 0⟩
def ERR_STATUS : Nat := 0x800000
def ERR_STATUS_LAST_FS_CAUSE : Field := ⟨63, 56⟩
def ERR_STATUS_PAIRS : Field := ⟨51, 48⟩
def ERR_STATUS_DEVICE_FAULTS : Field := ⟨15, 8⟩
def ERR_STATUS_SALVAGE : Field := ⟨1, 1⟩
def ERR_STATUS_FAULTED : Field := ⟨0, 0⟩
def ERR_RESET_CTRL : Nat := 0x800008
def ERR_RESET_CTRL_GO : Field := ⟨40, 40⟩
def ERR_RESET_CTRL_DUMP : Field := ⟨39, 39⟩
def ERR_RESET_CTRL_KIND : Field := ⟨34, 32⟩
def ERR_RESET_CTRL_INDEX : Field := ⟨7, 0⟩
def ERR_RESET_STATE : Nat := 0x800010
def ERR_RESET_STATE_RESETS : Field := ⟨63, 48⟩
def ERR_RESET_STATE_PHASE : Field := ⟨2, 0⟩
def ERR_HANG_CFG : Nat := 0x800018
def ERR_HANG_CFG_ENABLE : Field := ⟨63, 63⟩
def ERR_HANG_CFG_REPLAY_EN : Field := ⟨62, 62⟩
def ERR_HANG_CFG_HANG_US : Field := ⟨31, 0⟩
def ERR_DUMP_CFG : Nat := 0x800020
def ERR_DUMP_CFG_TILES : Field := ⟨63, 63⟩
def ERR_DUMP_CFG_HAMPER : Field := ⟨62, 62⟩
def ERR_DUMP_CFG_SHADOW_MS : Field := ⟨47, 32⟩
def ERR_DUMP_BASE : Nat := 0x800028
def ERR_DUMP_BASE_BASE : Field := ⟨47, 21⟩
def ERR_DUMP_STATE : Nat := 0x800030
def ERR_DUMP_STATE_DUMPS : Field := ⟨63, 32⟩
def ERR_DUMP_STATE_SLOT : Field := ⟨31, 28⟩
def ERR_DUMP_STATE_UNREACHABLE : Field := ⟨27, 16⟩
def ERR_DUMP_STATE_TRUNC : Field := ⟨2, 2⟩
def ERR_DUMP_STATE_VALID : Field := ⟨1, 1⟩
def ERR_DUMP_STATE_BUSY : Field := ⟨0, 0⟩
def ERR_ABORT : Nat := 0x800038
def ERR_ABORT_GO : Field := ⟨48, 48⟩
def ERR_ABORT_CTX : Field := ⟨37, 32⟩
def ERR_ABORT_STEP : Field := ⟨31, 0⟩
def ERR_CTX (i : Nat) : Nat := 0x801000 + 0x8 * i
def ERR_CTX_ABORTED : Field := ⟨63, 63⟩
def ERR_CTX_AUTO_ABORT : Field := ⟨62, 62⟩
def ERR_CTX_REPLAY : Field := ⟨61, 61⟩
def ERR_CTX_DRAINING : Field := ⟨60, 60⟩
def ERR_CTX_ABORTS : Field := ⟨47, 32⟩
def ERR_CTX_GUILTY : Field := ⟨31, 16⟩
def CLKPWR_POWER : Nat := 0x30000
def CLKPWR_POWER_BULK_MV : Field := ⟨63, 48⟩
def CLKPWR_POWER_P_IN_W : Field := ⟨47, 32⟩
def CLKPWR_POWER_P_1MS_W : Field := ⟨31, 16⟩
def CLKPWR_SHED : Nat := 0x30008
def CLKPWR_SHED_ENTRIES : Field := ⟨63, 48⟩
def CLKPWR_SHED_STAGE : Field := ⟨2, 0⟩
def CLKPWR_ISL_FREQ (i : Nat) : Nat := 0x31000 + 0x8 * i
def CLKPWR_ISL_FREQ_FREQ : Field := ⟨6, 0⟩
def CLKPWR_ISL_STATE (i : Nat) : Nat := 0x32000 + 0x8 * i
def CLKPWR_ISL_STATE_F_EFF_MHZ : Field := ⟨63, 48⟩
def CLKPWR_ISL_STATE_DIV_N : Field := ⟨43, 40⟩
def CLKPWR_ISL_STATE_LEVEL : Field := ⟨35, 32⟩
def CLKPWR_ISL_STATE_SRC_SHED : Field := ⟨7, 7⟩
def CLKPWR_ISL_STATE_SRC_POWER : Field := ⟨6, 6⟩
def CLKPWR_ISL_STATE_SRC_RISE : Field := ⟨5, 5⟩
def CLKPWR_ISL_STATE_SRC_THRESH : Field := ⟨4, 4⟩
def CLKPWR_ISL_STATE_GATED : Field := ⟨3, 3⟩
def CLKPWR_ISL_STATE_STRETCH : Field := ⟨2, 2⟩
def THERM_CFG : Nat := 0x40000
def THERM_CFG_SHUTDOWN : Field := ⟨63, 56⟩
def THERM_CFG_THROTTLE_SET : Field := ⟨55, 48⟩
def THERM_CFG_THROTTLE_CLR : Field := ⟨47, 40⟩
def THERM_CFG_WARN_SET : Field := ⟨39, 32⟩
def THERM_CFG_WARN_CLR : Field := ⟨31, 24⟩
def THERM_CFG_RISE_LIMIT : Field := ⟨23, 16⟩
def THERM_CFG_PLATE_FALLBACK : Field := ⟨15, 8⟩
def THERM_TH_CFG : Nat := 0x40008
def THERM_TH_CFG_LPDDR_LIMIT : Field := ⟨63, 56⟩
def THERM_TH_CFG_FLASH_LIMIT : Field := ⟨55, 48⟩
def THERM_TH (i : Nat) : Nat := 0x40100 + 0x8 * i
def THERM_TH_FAULT : Field := ⟨31, 31⟩
def THERM_TH_TEMP : Field := ⟨15, 0⟩
def THERM_ISL (i : Nat) : Nat := 0x41000 + 0x8 * i
def THERM_ISL_T_EST : Field := ⟨63, 48⟩
def THERM_ISL_T_DIODE : Field := ⟨47, 32⟩
def THERM_ISL_RISE : Field := ⟨31, 16⟩
def THERM_ISL_THROTTLE : Field := ⟨2, 2⟩
def THERM_ISL_WARN : Field := ⟨1, 1⟩
def POLICY_PWR_CFG : Nat := 0x901000
def POLICY_PWR_CFG_CAP_W : Field := ⟨47, 32⟩
def POLICY_PWR_CFG_HYST_W : Field := ⟨31, 16⟩
def POLICY_PWR_CFG_PIN_FREQ : Field := ⟨6, 0⟩
def POLICY_THERM_CFG : Nat := 0x902000
def POLICY_THERM_CFG_WARN_ACT : Field := ⟨63, 63⟩
def POLICY_THERM_CFG_EDGE_CUT_PCT : Field := ⟨15, 8⟩
def POLICY_SHED_CFG : Nat := 0x903000
def POLICY_SHED_CFG_CAP1_PCT : Field := ⟨63, 56⟩
def POLICY_SHED_CFG_CAP2_PCT : Field := ⟨55, 48⟩
def POLICY_SHED_CFG_RECOVER_MS : Field := ⟨47, 32⟩
def POLICY_SHED_CFG_PIN_STAGE : Field := ⟨2, 0⟩
def BOOT_STATE : Nat := 0x10000
def BOOT_STATE_START : Field := ⟨63, 32⟩
def BOOT_STATE_STEP : Field := ⟨27, 24⟩
def BOOT_STATE_DONE : Field := ⟨23, 23⟩
def BOOT_STATE_RECOVERY : Field := ⟨22, 22⟩
def BOOT_STATE_TRAIL_FAULT : Field := ⟨21, 21⟩
def BOOT_STATE_IMAGE : Field := ⟨20, 20⟩
def BOOT_STATE_ALT : Field := ⟨15, 1⟩
def BOOT_CFG : Nat := 0x10008
def BOOT_CFG_RETRY_STEPS : Field := ⟨8, 8⟩
def BOOT_CFG_PREF : Field := ⟨0, 0⟩
def BOOT_UPD_SRC : Nat := 0x10010
def BOOT_UPD_SRC_ADDR : Field := ⟨63, 0⟩
def BOOT_UPD_CTRL : Nat := 0x10018
def BOOT_UPD_CTRL_GO : Field := ⟨63, 63⟩
def BOOT_UPD_CTRL_SWITCH : Field := ⟨62, 62⟩
def BOOT_UPD_CTRL_KIND : Field := ⟨35, 32⟩
def BOOT_UPD_CTRL_LENGTH : Field := ⟨31, 0⟩
def BOOT_UPD_STATE : Nat := 0x10020
def BOOT_UPD_STATE_STATUS : Field := ⟨15, 8⟩
def BOOT_UPD_STATE_PHASE : Field := ⟨2, 0⟩
def BOOT_IMG (i : Nat) : Nat := 0x10030 + 0x8 * i
def BOOT_IMG_VERSION : Field := ⟨63, 32⟩
def BOOT_IMG_SVN : Field := ⟨23, 16⟩
def BOOT_IMG_FLOOR : Field := ⟨15, 8⟩
def BOOT_IMG_STATE : Field := ⟨1, 0⟩
def PRES_REQ : Nat := 0x20000
def PRES_REQ_CODE : Field := ⟨63, 56⟩
def PRES_REQ_ARG : Field := ⟨47, 0⟩
def PRES_STATE : Nat := 0x20008
def PRES_STATE_OWNER : Field := ⟨63, 52⟩
def PRES_STATE_OWNER_KIND : Field := ⟨51, 50⟩
def PRES_STATE_REMAIN_S : Field := ⟨49, 41⟩
def PRES_STATE_PENDING : Field := ⟨31, 24⟩
def PRES_STATE_STATUS : Field := ⟨23, 16⟩
def PRES_STATE_JUMPER : Field := ⟨3, 3⟩
def PRES_STATE_SEAL_OPEN : Field := ⟨2, 2⟩
def PRES_STATE_WINDOW : Field := ⟨1, 0⟩
def IDENT_VENDOR : Nat := 0x0
def IDENT_VENDOR_VENDOR : Field := ⟨31, 0⟩
def IDENT_PART : Nat := 0x8
def IDENT_PART_PART : Field := ⟨31, 16⟩
def IDENT_PART_FAMILY : Field := ⟨15, 8⟩
def IDENT_SILICON_REV : Nat := 0x10
def IDENT_SILICON_REV_REV : Field := ⟨15, 0⟩
def IDENT_SERIAL : Nat := 0x18
def IDENT_SERIAL_SERIAL : Field := ⟨63, 0⟩
def IDENT_LOCK : Nat := 0x20
def IDENT_LOCK_LOCKED_WRITES : Field := ⟨63, 32⟩
def IDENT_LOCK_SETUP_LOCK : Field := ⟨0, 0⟩
def IDENT_RESOURCES : Nat := 0x28
def IDENT_RESOURCES_CORES_UP : Field := ⟨63, 56⟩
def IDENT_RESOURCES_CLUSTERS_UP : Field := ⟨55, 52⟩
def IDENT_RESOURCES_ENGINES_UP : Field := ⟨47, 39⟩
def IDENT_RESOURCES_LPDDR_GIB : Field := ⟨31, 16⟩
def IDENT_DIE_STATE (i : Nat) : Nat := 0x100 + 0x8 * i
def IDENT_DIE_STATE_CAPS : Field := ⟨63, 32⟩
def IDENT_DIE_STATE_NOC_VER : Field := ⟨31, 16⟩
def IDENT_DIE_STATE_ADJ_UP : Field := ⟨15, 12⟩
def IDENT_DIE_STATE_STATE : Field := ⟨3, 0⟩
def IDENT_MANIFEST (i j : Nat) : Nat := 0x1000 + 0x100 * i + 0x8 * j
def IDENT_MANIFEST_WORD : Field := ⟨63, 0⟩

end Reg

end Sys2Proof.Machine
end

