-- ==== Sys2Proof/Machine/State.lean ====
section
/-! DEFINITION. Everything the device holds, as plain data, and the state right after reset. -/
namespace Sys2Proof.Machine

/-- Why the machine stops with a fault. Nothing in this model does: every command answers a next state (safe). -/
inductive Fault where
  /-- Raised by no command; kept so that the type is closed and inhabited (safe). -/
  | none
  deriving DecidableEq, Repr

/-- Why a command has no meaning. -/
inductive Refusal where
  /-- Raised by the dispatch for a row that has no meaning yet (safe). -/
  | notModelled (mnemonic : String)
  deriving DecidableEq, Repr

/-- Status codes, in the order of their encodings (R376). -/
inductive Status where
  | ok
  | bound
  | perm
  | format
  | poison
  | timeout
  | aborted
  | fenced
  | atomicUnknown
  | collOrder
  | collDigest
  | memberLost
  | incomplete
  | epoch
  | retryExhausted
  | memUncorrectable
  | throttled
  | tableRejected
  deriving DecidableEq, Repr

/-! ### Cores -/

/-- RUNSTATE of a core (R92). -/
inductive RunState where
  | idle
  | running
  | waiting
  | halted
  | trapHalted
  | fenced
  | retired
  deriving DecidableEq, Repr

/-- What a core in RUNSTATE 2 waits in (R92). -/
inductive CoreWait where
  | none
  | waitv
  | bwait
  | halt
  deriving DecidableEq, Repr

/-- One trap: its cause and status, the instruction it belongs to, its bad address (R78). -/
structure Trap where
  cause : Byte
  status : Status
  tinst : BitVec 18
  bad : Word
  deriving DecidableEq, Repr

/-- The descriptor that a launch belongs to, and the context it runs for (R63, R206). -/
structure Launch where
  ring : RingId
  idx : Index
  ctx : Ctx
  deriving DecidableEq, Repr

/-- Progress of a queued broad instruction (R85, R142). -/
inductive BPhase where
  | queued
  | started
  | finished
  deriving DecidableEq, Repr

/-- A broad instruction in the queue, with the register values and banks bound at issue (R83, R127). -/
structure Broad where
  id : Nat
  addr : BitVec 18
  w : BroadWords
  ga : Word
  gb : Word
  gc : Word
  gd : Word
  stbBank : Bool
  sfnBank : BitVec 16
  /-- Slots whose bound bank was accepted at issue (R127, R151). -/
  sfnOk : BitVec 16
  phase : BPhase
  status : Status
  /-- Remote reads not yet answered. -/
  left : Nat
  /-- Bytes read from memory so far, by their position in the rows read. -/
  buf : List (Nat × Byte)
  /-- The lowest position whose read failed. -/
  failPos : Option Nat
  /-- The bytes that its local writes replaced, for loads with OVL = 1 (R84). -/
  undo : List Host.Cell
  /-- Started, but its steps are held until the bytes that an earlier instruction waits for are here (R101, R142). -/
  due : Bool
  /-- The pause cycles that the PAUSE fields of the steps it ran ask for; none while it has run no step (R148). -/
  pauses : Option Nat
  deriving DecidableEq, Repr

/-- A line of the far-read cache, most recently used first in its list (R76). -/
structure Line where
  coord : Coord
  base : Nat
  data : List Byte
  deriving DecidableEq, Repr

/-- One bank of step-table memory (R128): entries (unlisted: empty), accepted mark, header indices. -/
structure StbBank where
  entries : List (Nat × BitVec 128)
  accepted : Bool
  headers : List Nat
  deriving DecidableEq, Repr

/-- One bank of a special-function slot (R151, R155, R170): 784 words of 32 bits (unlisted: 0), acceptance, loader
(0 to 63 a context, 64 Ranger, 127 none). -/
structure SfnBank where
  words : List (Nat × BitVec 32)
  accepted : Bool
  owner : Nat
  deriving DecidableEq, Repr

/-- A special-function slot with its record of the last successful check (R158, R171). -/
structure SfnSlot where
  bank0 : SfnBank
  bank1 : SfnBank
  active : Bool
  gen : Byte
  loading : Bool
  flip : Bool
  backStep : BitVec 32
  backSeg : Byte
  backJ : BitVec 16
  backEnd : Bool
  deriving DecidableEq, Repr

/-- A flip of banks to be made at the next instruction boundary (R126, R149, R169): the TBLSEL's queue id, or the load descriptor
(ring, index), that asked for it. -/
structure Flip where
  stb : Bool
  slots : BitVec 16
  tblsel : Option Nat
  load : Option (RingId × Index)
  deriving DecidableEq, Repr

/-- A failed broad write that no HEADCOUNT has reported (R123). -/
structure BwFail where
  dst : Coord
  status : Status
  addr : Word
  deriving DecidableEq, Repr

/-- A Porly core (R61). Tile bytes are keyed 32768 tile + 256 row + byte, accumulator elements 16384 bank + 128 row + column,
instruction words by word number. -/
structure Core where
  g : Vector Word 32
  p : BitVec 8
  pc : BitVec 18
  run : RunState
  wait : CoreWait
  launch : Option Launch
  ctx : Ctx
  job : BitVec 32
  step : BitVec 32
  prevCtx : Option Ctx
  tvec : Word
  epc : BitVec 18
  tinst : BitVec 18
  cause : Byte
  tstatus : Byte
  badaddr : Word
  trapActive : Bool
  pendingTraps : List Trap
  /-- A trap-halt waits for the broad instructions already issued (R81). -/
  halting : Option Trap
  bdiscard : BitVec 4
  fpflags : BitVec 5
  lastTrap : Option Trap
  colgroups : BitVec 32
  tiles : List (Nat × Byte)
  acc : List (Nat × BitVec 32)
  imem : List (Nat × Word)
  stb0 : StbBank
  stb1 : StbBank
  stbActive : Bool
  stbGen : BitVec 16
  stbLoading : Bool
  sfn : Vector SfnSlot 16
  flips : List Flip
  cache : List Line
  queue : List Broad
  nextId : Nat
  bwFail : List BwFail
  pauseCycles : Word
  gated : Nat
  deriving DecidableEq, Repr

/-- An empty step-table bank. -/
def StbBank.empty : StbBank := ⟨[], false, []⟩
/-- An empty slot bank. -/
def SfnBank.empty : SfnBank := ⟨[], false, 127⟩
/-- A slot after core reset (R169). -/
def SfnSlot.reset : SfnSlot := ⟨SfnBank.empty, SfnBank.empty, false, 0, false, false, 0, 0, 0, false⟩

/-- A core after device reset. The spec gives no value to most of these; every one it leaves open is zero here
(log entry 2). -/
def Core.reset : Core :=
  { g := Vector.replicate 32 0, p := 1, pc := 0, run := .idle, wait := .none, launch := none, ctx := 0, job := 0, step := 0
    prevCtx := none, tvec := 0, epc := 0, tinst := 0, cause := 0, tstatus := 0, badaddr := 0, trapActive := false
    pendingTraps := [], halting := none, bdiscard := 0, fpflags := 0, lastTrap := none, colgroups := 0, tiles := [], acc := []
    imem := [], stb0 := .empty, stb1 := .empty, stbActive := false, stbGen := 0, stbLoading := false
    sfn := Vector.replicate 16 .reset, flips := [], cache := [], queue := [], nextId := 0, bwFail := [], pauseCycles := 0
    gated := 0 }

/-- A cluster barrier (R124): idle when nobody has arrived. -/
structure Barrier where
  cluster : ClusterId
  num : Nat
  count : Nat
  ctx : Ctx
  arrived : List CoreId
  deriving DecidableEq, Repr

/-! ### Rings -/

/-- Progress of a started descriptor (R214, R218). -/
inductive DPhase where
  /-- Started; its work has not begun or is still to be done by its row's command. -/
  | started
  /-- Its requests are out, or it waits for something of its own. -/
  | working
  /-- Its status is decided; writes of its own that are out are still to be answered (R217). -/
  | stopping
  /-- Its status is decided; its completion waits for its place in ring order. -/
  | done
  /-- Its completion is on its way to another device (R217). -/
  | posting
  deriving DecidableEq, Repr

/-- A descriptor from its start to its completion (R203, R214 to R218, R389). -/
structure Desc where
  ring : RingId
  idx : Index
  /-- The eight 64-bit words of its slot. -/
  words : List Word
  /-- TYPE as its completion reports it; 0 when the slot could not be read. -/
  typ : Byte
  phase : DPhase
  status : Status
  r0 : Word
  r1 : BitVec 32
  /-- Requests still unanswered. -/
  left : Nat
  /-- Lowest stream position that failed so far (R213). -/
  failPos : Option Nat
  /-- Bytes collected from remote reads, by stream position. -/
  buf : List (Nat × Byte)
  /-- Whole pieces collected from remote reads, by stream position. -/
  parts : List (Nat × List Byte)
  /-- Held as a suspect of a hang (R389). -/
  held : Bool
  /-- Aborted because its ring was STOPPED (R219). -/
  barred : Bool
  /-- What the type counts for itself: WAIT's last word, a CORE load's next slot. -/
  aux : Word
  deriving DecidableEq, Repr

/-- A descriptor fetch that waits for its SEQ or for a remote read (R202): the bytes last read, and whether a read is out. -/
structure Fetch where
  ring : RingId
  idx : Index
  words : List Word
  reading : Bool
  deriving DecidableEq, Repr

/-- A completion write that failed (R220). -/
structure HeldCpl where
  ring : RingId
  record : List Byte
  deriving DecidableEq, Repr

/-- An event as posted (R379). -/
structure Event where
  code : BitVec 16
  detail : BitVec 48
  ring : BitVec 16
  status : Status
  d0 : Word
  d1 : BitVec 32
  ctx : Option Ctx
  deriving DecidableEq, Repr

/-- What a record of an event ring is made from: an event, or a Lantern period's device time and count (R215, R224). -/
inductive RecSrc where
  | event (e : Event)
  | lantern (time count : Word)
  deriving DecidableEq, Repr

/-- What the straggler policy keeps for a context (R374): the open step and its first start in ns, the step times before the
baseline, the baseline in ns, E = e / 16^k in ns, the steps in a row above the limit. -/
structure Strag where
  step : Option (BitVec 32 × Word)
  times : List Nat
  base : Option Nat
  e : Int
  k : Nat
  above : Nat
  deriving DecidableEq, Repr

def Strag.none : Strag := ⟨Option.none, [], Option.none, 0, 0, 0⟩

/-- An EXR request that is posted as a descriptor (R352): its slot, endpoint, port, client, the writes to other devices that its posting
waits for with the first status that is not `OK` (R31), and its completion once posted. -/
structure ExrReq where
  ring : RingId
  idx : Index
  slot : Nat
  endpoint : Nat
  port : PortId
  mac : BitVec 48
  addr : BitVec 128
  sport : BitVec 16
  ctag : Word
  left : Nat
  fail : Option Status
  cpl : Option (Status × Word × BitVec 32)
  deriving DecidableEq, Repr

/-! ### Boot -/

/-- The fuses (R414, R425): key slots (digest and revoked), blown bits of the floor, owner fuses, device identity held elsewhere. -/
structure Fuses where
  keys : List (Nat × List Byte)
  revoked : List Nat
  floor : Nat
  owner : BitVec 256
  deriving DecidableEq, Repr

/-- A record of the Trail log (R420): its place in the log, in records of 256 bytes, and its bytes. -/
structure TrailRec where
  place : Nat
  bytes : List Byte
  deriving DecidableEq, Repr

/-! ### Resets, dumps -/

/-- A domain reset in progress (R382, R383, R389). `phase` is that of ERR_RESET_STATE. -/
structure Reset where
  /-- 0 a core, 1 a cluster. -/
  kind : Nat
  index : Nat
  dump : Bool
  /-- The event code or 0 that the dump's header names. -/
  cause : Nat
  /-- It follows a hang: what ran on the domain is held. -/
  hang : Bool
  phase : Nat
  /-- The suspect whose held descriptors run now. -/
  turn : Option Ctx
  /-- The suspect whose replay hung, while the domain is reset again. -/
  again : Option Ctx
  guilty : List Nat
  deriving DecidableEq, Repr

/-- A dump asked for (R391): reset kind, index, cause. -/
structure DumpReq where
  kind : Nat
  index : Nat
  cause : Nat
  deriving DecidableEq, Repr

/-- A section copied by the shadow reader (R390). -/
structure Shadow where
  kind : Nat
  unit : Nat
  bytes : List Byte
  time : Word
  deriving DecidableEq, Repr

/-! ### Fabric requests -/

/-- Whom the answer of a request goes to. -/
inductive Owner where
  | nobody
  | load (k : CoreId) (rd : BitVec 5) (addr : Word) (size : Nat) (sext : Bool) (tinst : BitVec 18)
  | far (k : CoreId) (rd : BitVec 5) (addr : Word) (size : Nat) (sext : Bool) (tinst : BitVec 18) (install : Bool)
  | store (k : CoreId) (addr : Word) (tinst : BitVec 18)
  | atomic (k : CoreId) (rd : BitVec 5) (pd : BitVec 3) (addr : Word) (tinst : BitVec 18) (wide : Bool)
  | broadRead (k : CoreId) (id : Nat) (pos : Nat)
  | broadWrite (k : CoreId) (id : Nat) (addr : Word)
  | desc (n : RingId) (i : Index) (pos : Nat)
  | fetch (n : RingId) (i : Index)
  | cpl (n : RingId) (record : List Byte)
  | evt (e : EvtRing)
  | evtWord (e : EvtRing)
  | topo
  | drain
  | hole
  | time (t1 : Word)
  | deskData (n : RingId) (i : Index) (member : Nat)
  | notice (n : RingId) (i : Index)
  | snap (x : Ctx) (pos : Nat)
  | exr (n : RingId) (i : Index)
  deriving DecidableEq, Repr

/-- A request of class REQ (0), MSG (3) or MGT (4), waiting or outstanding (R274, R282, R284). -/
structure Req where
  cls : Nat
  dst : Coord
  op : Nat
  agent : Nat
  ctx : Ctx
  addr : Nat
  operand : Word
  rlen : Nat
  payload : List Byte
  gmask : BitVec 2
  cmp : Bool
  owner : Owner
  tag : BitVec 16
  epoch : Bool
  retries : Nat
  last : Option Status
  deriving DecidableEq, Repr

/-- The state of the pair (class, destination) at the source (R278, R282, R290, R293, R384). -/
structure Pair where
  next : BitVec 16
  /-- The first request of the pair since reset is preceded by a hole drain (R384). -/
  seeded : Bool
  /-- New requests are held behind an unanswered DRAIN. -/
  hold : Bool
  /-- New requests are held behind an unanswered hole drain. -/
  hole : Bool
  broken : Bool
  /-- The hole drain of a broken pair, to be sent again at the next flip (R293). -/
  drain : Option Req
  deriving DecidableEq, Repr

def Pair.reset : Pair := ⟨0, false, false, false, false, none⟩

/-- The window toward one destination (R276). -/
structure Window where
  w : Nat
  good : Nat
  since : Nat
  deriving DecidableEq, Repr

/-- An entry of the dedup cache (R295), its time of application counted in ns. -/
structure Dedup where
  src : Coord
  ctx : Ctx
  tag : BitVec 16
  op : Nat
  addr : Nat
  status : Status
  old : List Byte
  /-- Device time at which it was performed, in ns. -/
  time : Nat
  deriving DecidableEq, Repr

/-- A topology table version (R267, R277): its 416 words of 32 bits (unlisted: 0). -/
structure Topo where
  words : List (Nat × BitVec 32)
  accepted : Bool
  retired : Bool
  deriving DecidableEq, Repr

def Topo.empty : Topo := ⟨[], false, false⟩

/-- An accepted region entry (R287). -/
structure Region where
  repl : Bool
  scope : BitVec 2
  rd : Bool
  wr : Bool
  at_ : Bool
  base : Nat
  limit : Nat
  deriving DecidableEq, Repr

/-- A packet held by this device for a next hop (R272, R281). -/
structure Held where
  nb : Coord
  pkt : Packet
  /-- The neighbour it came from and the packet as it came, whose pool it still holds. -/
  via : Option (Coord × Packet)
  deriving DecidableEq, Repr

/-- A packet at its destination, and the neighbour whose link it came over; none when this device sent it to itself. -/
structure Arrival where
  via : Option Coord
  pkt : Packet
  deriving DecidableEq, Repr

/-- The fabric unit (R252 to R305). -/
structure Fabric where
  waiting : List Req
  outst : List Req
  pairs : List (Nat × Pair)
  /-- Next expected TAG of each (class, source) that has one. -/
  expected : List (Nat × BitVec 16)
  /-- Statuses answered to the last requests of each (class, source), newest first, for their duplicates (R282). -/
  answered : List (Nat × List (BitVec 16 × Status))
  windows : List (Nat × Window)
  dedup : List Dedup
  topo0 : Topo
  topo1 : Topo
  /-- The table being loaded, its bytes collected by offset. -/
  loading : List (Nat × Byte)
  /-- Whether a load failed in reading its table. -/
  loadFail : Option Status
  /-- R384: a table has been flipped since reset, so DATA may be sent. -/
  flipped : Bool
  regions : List (Nat × List Region)
  /-- The accepted tables of the load in progress (R288): contexts it covers. -/
  regionLoad : List Nat
  /-- Contexts shut out or accepted once the load ends. -/
  regionNew : List (Nat × Option (List Region))
  held : List Held
  /-- Packets that the links have delivered whole, each with the neighbour it came from, waiting for their route. -/
  inbox : List (Coord × Packet)
  /-- Packets at their destination that have not been handled: they hold their pool, if they came over a link (R273). -/
  arrived : List Arrival
  deriving DecidableEq, Repr

def Fabric.reset : Fabric :=
  { waiting := [], outst := [], pairs := [], expected := [], answered := [], windows := [], dedup := [], topo0 := .empty, topo1 := .empty
    loading := [], loadFail := none, flipped := false, regions := [], regionLoad := [], regionNew := [], held := []
    inbox := [], arrived := [] }

/-- What the device has sent or driven, oldest first: the model's own record of its outputs. -/
inductive Output where
  | packet (nb : Coord) (p : Packet)
  | flit (c : ChanId) (f : Flit)
  | frame (port : PortId) (bytes : List Byte)
  | mgmt (bytes : List Byte)
  | answer (s : Status) (v : Word)
  /-- An alignment block (R255). -/
  | block (c : ChanId) (b : BitVec 2880)
  /-- A sideband write to module `m` (R233). -/
  | sideband (m : ModuleId) (reg : Byte) (v : BitVec 16)
  /-- Contact `i` of a group is driven. -/
  | pin (name : String) (i level : Nat)
  deriving DecidableEq, Repr

/-! ### Links -/

/-- A control flit that the far end has not answered (R259). -/
structure Ctrl where
  fiber : FiberId
  op : Byte
  payload : List Byte
  sends : Nat
  deriving DecidableEq, Repr

/-- The link to one neighbour (R252 to R259, R272). -/
structure Link where
  nb : Coord
  /-- Retraining after a reset (R257). -/
  resetting : Bool
  /-- The SEQ of the next data flit sent. -/
  txSeq : BitVec 24
  /-- Data flits that ACK has not passed, oldest first. -/
  replay : List Flit
  /-- Times the oldest of them has been replayed. -/
  replays : Nat
  /-- The SEQ of the next data flit taken. -/
  rxSeq : BitVec 24
  /-- Bytes received in order of a packet that is not yet whole, and the units it still lacks. -/
  part : List Byte
  lacks : Nat
  /-- A gap has been answered with NAK, and the flit it lacks is not here yet (R256). -/
  nak : Bool
  /-- The deskew buffer: data flits that arrived ahead of their place, with their channels (R252, R255). -/
  early : List (Nat × Flit)
  /-- Packets that the far end has not acknowledged whole, with the SEQ after their last flit (R281). -/
  unacked : List (BitVec 24 × Packet)
  /-- The link has carried data since the device reset (R255). -/
  met : Bool
  /-- The round robin of COL, REQ and MSG (R273). -/
  turn : Nat
  /-- Bytes that each group with COL packets held for this link may still send in its turn (R324). -/
  deficit : List (Nat × Nat)
  /-- Units of each pool held at the far end for packets of this device, by pool. -/
  used : List (Nat × Nat)
  /-- Credits to return, by pool. -/
  owed : List (Nat × Nat)
  ctrl : List Ctrl
  /-- Data flits dealt, for the round robin over channels. -/
  dealt : Nat
  deriving DecidableEq, Repr

def Link.reset (nb : Coord) : Link :=
  { nb := nb, resetting := false, txSeq := 0, replay := [], replays := 0, rxSeq := 0, part := [], lacks := 0, nak := false, early := []
    unacked := [], met := false, turn := 0, deficit := [], used := [], owed := [], ctrl := [], dealt := 0 }
/-! ### Groups and collectives -/

/-- A flow of bytes between two members for one collective (R320, R321): a node value, a piece of the result, or copied data. `start` and
`elems` count the elements it covers; for copied data, the bytes. -/
structure Edge where
  src : Nat
  dst : Nat
  stage : Nat
  first : Nat
  count : Nat
  start : Nat
  elems : Nat
  deriving DecidableEq, Repr

/-- A flow that arrives: bytes granted so far, the bytes here by position, the digest its sender gave (R318, R322, R325). -/
structure InFlow where
  edge : Edge
  granted : Nat
  data : List (Nat × Byte)
  digest : Option Word
  deriving DecidableEq, Repr

/-- A flow that leaves: bytes granted, bytes sent, whether its digest has gone. -/
structure OutFlow where
  edge : Edge
  granted : Nat
  sent : Nat
  tallied : Bool
  deriving DecidableEq, Repr

/-- A node value that another owner computes too, whose digests are exchanged (R325). -/
structure Peer where
  rank : Nat
  stage : Nat
  told : Bool
  digest : Option Word
  deriving DecidableEq, Repr

/-- A collective at this member (R313): its descriptor, its parameters, its flows. -/
structure Coll where
  ring : RingId
  idx : Index
  seq : BitVec 32
  kind : Nat
  redop : Nat
  fmt : Nat
  stream : Bool
  lossy : Bool
  sround : Bool
  score : Nat
  srcAt : Nat
  dstAt : Nat
  resid : Nat
  len : Nat
  root : Nat
  job : BitVec 32
  step : BitVec 32
  /-- The outcome of the checks at start (R316). -/
  check : Status
  /-- Bytes of the own contribution, by position. -/
  own : List (Nat × Byte)
  /-- Element and scale codes of a lossy contribution (R329). -/
  qcodes : List Byte
  scales : List Byte
  ins : List InFlow
  outs : List OutFlow
  peers : List Peer
  /-- Bytes of the own result written to DST, and the first failure of such a write (R326). -/
  stored : Nat
  wfail : Option Status
  /-- Verdicts of the members below in the tree, and whether the own has gone up (R325). -/
  votes : List (Nat × Bool)
  voted : Bool
  /-- The status that CWAIT sees (R316, R326). -/
  cwait : Status
  deriving DecidableEq, Repr

/-- A COL packet that may have to be sent again (R322), and how often it has been. -/
structure Sent where
  pkt : Packet
  tries : Nat
  deriving DecidableEq, Repr

/-- A JOIN that this device has received as rank 0 (R309). -/
structure Join where
  gid : BitVec 32
  src : Coord
  rank : Nat
  digest : Word
  start : BitVec 32
  mode : Nat
  deriving DecidableEq, Repr

/-- A group on this device (R306 to R318). -/
structure Group where
  handle : Nat
  /-- The context of its ROLLCALL's ring, none for Ranger's. -/
  ctx : Option Ctx
  gid : BitVec 32
  rank : Nat
  weight : Nat
  /-- Device and place of each rank. -/
  members : List (Coord × Coord)
  rxbuf : Nat
  sbuf : Nat
  alg : Nat
  smallMax : Nat
  /-- STATE of COLL_GRP_STATE (R332). -/
  state : Nat
  nextSeq : BitVec 32
  /-- The ROLLCALL in progress: its descriptor, MODE, START_SEQ, list digest and list; STATE before it. -/
  forming : Option (RingId × Index)
  mode : Nat
  start : BitVec 32
  digest : Word
  newMembers : List (Coord × Coord)
  before : Nat
  cur : Option Coll
  held : List Coll
  /-- Collectives completed, newest first. -/
  past : List Coll
  /-- Packets for a sequence that is not current yet. -/
  early : List Packet
  sent : List Sent
  disband : Option (RingId × Index)
  deriving DecidableEq, Repr

/-! ### Front ports -/

/-- What a front port has accepted and not yet handled (R334, R335). -/
inductive Rx where
  /-- An ARP request or a neighbour solicitation for an own address, as a frame without FCS. -/
  | resolve (frame : List Byte)
  | echo (frame : List Byte)
  | query (frame : List Byte)
  | ptp (msg : List Byte)
  /-- An IP packet for the group of an open flow. -/
  | video (packet : List Byte)
  /-- An EXR datagram, with the MAC address it came from. -/
  | exr (mac : BitVec 48) (src : BitVec 128) (sport : BitVec 16) (data : List Byte)
  | tcp (conn : TcpConn) (data : List Byte)
  deriving DecidableEq, Repr

/-- A PTP master that a port hears (R337): its port identity, the bytes that order masters, its steps removed. -/
structure Master where
  port : PortId
  ident : List Byte
  data : List Byte
  steps : Nat
  deriving DecidableEq, Repr

/-- A Sync whose measurement is under way (R337): its sequence, its t1 once known, its t2, the correction it carried; sequence and t3
of the Delay_Req that followed. -/
structure PtpSync where
  seq : BitVec 16
  t1 : Option Int
  t2 : Word
  corr : Int
  dseq : Option (BitVec 16)
  t3 : Word
  deriving DecidableEq, Repr

/-- A frame of a flow, open or closed and waiting for its record's turn (R346 to R348). -/
structure Frame where
  ts : BitVec 32
  idx : BitVec 32
  firstSeq : BitVec 32
  firstNs : Word
  lastNs : Word
  /-- Extended sequence numbers taken, newest first. -/
  taken : List (BitVec 32)
  marker : Option (BitVec 32)
  pixels : Nat
  closed : Bool
  status : Status
  deriving DecidableEq, Repr

/-- An open flow (R340 to R348): its ring's context, none for Ranger; its record; its frames, oldest first; the newest timestamp that
it has opened, the next frame index, the marker of the frame opened last. -/
structure Flow where
  num : Nat
  ctx : Option Ctx
  rec_ : List Byte
  frames : List Frame
  newest : Option (BitVec 32)
  next : BitVec 32
  mark : Option (BitVec 32)
  deriving DecidableEq, Repr

/-- An endpoint as the enable read it: its entry and its template (R350). -/
structure Endpoint where
  entry : List Byte
  template : List Byte
  deriving DecidableEq, Repr

/-- A key of the recent table (R352): where its reply goes and comes from, the completion it was answered with, whether its slot has been
used again. -/
structure Recent where
  key : ExrKey
  port : PortId
  mac : BitVec 48
  slot : Nat
  reply : Option (Status × Word × BitVec 32)
  reused : Bool
  deriving DecidableEq, Repr

/-- A TCP connection that Ranger has opened (R353), and the bytes it has brought. -/
structure Conn where
  port : PortId
  peer : TcpConn
  got : List Byte
  deriving DecidableEq, Repr

/-- What the front ports hold beside their registers (R333 to R354). -/
structure Front where
  rx : List (PortId × Rx)
  flows : List Flow
  masters : List Master
  chosen : Option (PortId × List Byte)
  sync : Option PtpSync
  dseq : BitVec 16
  /-- TIME requests in a row without an applicable reply (R339). -/
  misses : Nat
  /-- Echo requests answered in the current second, by port: the second and the count (R335). -/
  echoes : List (Nat × (Nat × Nat))
  endpoints : List (Nat × Endpoint)
  recent : List Recent
  conns : List Conn
  /-- Nanoseconds since the slew last moved device time (R336). -/
  slewAge : Nat
  deriving DecidableEq, Repr

def Endpoint.none : Endpoint := ⟨[], []⟩

def Front.reset : Front :=
  { rx := [], flows := [], masters := [], chosen := none, sync := none, dseq := 0, misses := 0, echoes := [], endpoints := [], recent := []
    conns := [], slewAge := 0 }

/-! ### Snapshots -/

/-- A cascade in progress (R361): the image it reads and the one it writes, the header of what it copies, the granules it copies, its
requests unanswered, its first failure. -/
structure Cascade where
  src : Nat
  dst : Nat
  header : List Byte
  todo : List Nat
  left : Nat
  fail : Option Status
  deriving DecidableEq, Repr

/-- What the snapshot engine knows of a context (R356 to R368). Images 0 and 1 are those of layer 1, 2 and 3 of layer 2, 4 and 5 of layer 3. -/
structure SnapCtx where
  /-- The plan captured last, with its keep list. -/
  plan : List Byte
  list : List (Nat × Nat)
  /-- Headers of the complete images, by image. -/
  hdrs : List (Nat × List Byte)
  /-- Images that have completed since ENABLE was last set. -/
  fresh : List Nat
  /-- Images being written, with the bits harvested since it began. -/
  since : List (Nat × List Nat)
  layer2 : Option Cascade
  layer3 : Option Cascade
  runS : Nat
  fails : Nat
  /-- C as n / 4^k ns (R368). -/
  cost : Option (Nat × Nat)
  /-- Start of the newest `OK` capture. -/
  last : Option Word
  /-- Device time at which the last layer-3 cascade started (R361). -/
  third : Option Word
  deriving DecidableEq, Repr

def SnapCtx.reset : SnapCtx :=
  { plan := [], list := [], hdrs := [], fresh := [], since := [], layer2 := none, layer3 := none, runS := 0, fails := 0
    cost := none, last := none, third := none }

/-- What a source tells its shadow of a completed collective (R373). -/
structure Verdict where
  gid : BitVec 32
  seq : BitVec 32
  status : Status
  digest : Word
  deriving DecidableEq, Repr

/-- The snapshot engine (R356 to R373). -/
structure Snap where
  ctxs : List (Nat × SnapCtx)
  /-- Bytes of the shared store as this device has left them, by target * 2^56 + byte; an unlisted byte is 0. -/
  store : List (Nat × Byte)
  /-- The context that SNAP_SHADOW mirrors. -/
  mirror : Option Ctx
  /-- What the source has told of collectives that have not completed here. -/
  told : List Verdict
  /-- In salvage state (R372). -/
  salvage : Bool
  deriving DecidableEq, Repr

def Snap.reset : Snap := { ctxs := [], store := [], mirror := none, told := [], salvage := false }

/-! ### Power, heat and supply -/

/-- A clock island (R394 to R403): the Thermos estimate, the offset and the predicted rise in °C and °C per ms, the power last measured in
W; its demands; the warning ceiling and the PLL in 25 MHz units; the divider n; the level that stands and the level up to which the
divider stands in for pauses. -/
structure Island where
  tHat : Rat
  off : Rat
  rise : Rat
  p : Rat
  /-- Throttle's demand, and the rate-of-rise limiter's. -/
  thresh : Nat
  riseD : Nat
  ceiling : Nat
  pll : Nat
  n : Nat
  lvl : Nat
  covered : Nat
  stretch : Bool
  deriving DecidableEq, Repr

/-- An island at reset: its PLL at its reset frequency, no ceiling (log entries 2 and 26). -/
def Island.reset (j : Nat) : Island :=
  { tHat := 0, off := 0, rise := 0, p := 0, thresh := 0, riseD := 0, ceiling := 80, pll := if j < 128 then 64 else 80, n := 0, lvl := 0
    covered := 0, stretch := false }

/-- Power, heat and supply (R394 to R412). -/
structure Power where
  islands : List (Nat × Island)
  /-- The fast power limiter's demand on every core island (R405). -/
  fast : Nat
  /-- The power policy's cap in 25 MHz units (R404). -/
  fPwr : Nat
  /-- The last samples of P_IN in W, newest first, up to 1 ms of them. -/
  samples : List Nat
  /-- The cut for a fixed island at Throttle, in percent (R402). -/
  cut : Nat
  /-- The stage that the comparators have latched (R407). -/
  measured : Nat
  /-- Levels that TH1 and TH2 hold the LPDDR6 packages at, and the level of each package by its own readout (R187, R401). -/
  west : Nat
  east : Nat
  pkg : List (Nat × Nat)
  /-- TH3 holds Hamper writes (R401). -/
  flash : Bool
  deriving DecidableEq, Repr

def Power.reset : Power :=
  { islands := [], fast := 0, fPwr := 80, samples := [], cut := 0, measured := 0, west := 0, east := 0, pkg := [], flash := false }

/-! ### Boot, updates, presence -/

/-- An update that is being written (R423, R435): KIND, slot or copy, VERSION or GEN, the data; whether the management port sent it. -/
structure Update where
  kind : Nat
  target : Nat
  version : Nat
  data : List Byte
  mgmt : Bool
  deriving DecidableEq, Repr

/-- What the boot, the updates and presence hold beside their registers (R413 to R436, R450, R451). -/
structure Boot where
  /-- The standby domain has left reset; the other islands have. -/
  started : Bool
  bulk : Bool
  /-- What the standby domain draws from: 0 nothing, 1 VBULK, 2 VSTBY (R431). -/
  source : Nat
  /-- Steps in progress and steps that have ended. -/
  running : List Nat
  ended : List Nat
  /-- Firmware slots still to be tried, first to be tried first (R419). -/
  slots : List Nat
  /-- RETRY_STEPS was set for this start. -/
  retry : Bool
  /-- No firmware: only ROM answers (R419). -/
  rom : Bool
  upd : Option Update
  /-- Length and digest of the image that UPD_CHECK passed (R435). -/
  checked : Option (Nat × List Byte)
  /-- The pending presence command's argument block; the device time at which the window ends (R426). -/
  arg : List Byte
  winEnd : Word
  /-- The seal loop read open at the last sample; PERMIT_N was fitted at the last one. -/
  loopOpen : Bool
  permit : Bool
  /-- The debug network is open to the management port (R425). -/
  debug : Bool
  /-- Outcome of each adjacency that has come up or failed: 1 up, 2 negotiation failed, 3 training failed (R450); oldest first. -/
  adj : List (Nat × Nat)
  /-- The configuration copy in force; the islands that stay in reset (R415, R416). -/
  copy : Option Nat
  out : List Nat
  deriving DecidableEq, Repr

def Boot.reset : Boot :=
  { started := false, bulk := false, source := 0, running := [], ended := [], slots := [], retry := false, rom := false
    upd := none, checked := none, arg := [], winEnd := 0, loopOpen := false, permit := false, debug := false, adj := [], copy := none, out := [] }


/-! ### Optics -/

/-- A relock sweep (R244). `phase`: 0 waiting or deferred, 1 settling at the heater's minimum, 2 ramping, 3 locked and to be confirmed. -/
structure Sweep where
  ch : Nat
  phase : Nat
  count : Nat
  tries : Nat
  deriving DecidableEq, Repr

/-- A calibration pass of an engine (R240 to R242): the channels still to be tried, each with whether this is its second try; the
channel that is out and whether its scan has ended; whether a pass is running. -/
structure Pass where
  todo : List (Nat × Bool)
  cur : Option (Nat × Bool)
  running : Bool
  deriving DecidableEq, Repr

def Pass.none : Pass := ⟨[], Option.none, false⟩

/-- What the optical edge holds beside its registers (R226 to R259). Channels are numbered as OPTIC_CH_STATE. -/
structure Optics where
  passes : List (Nat × Pass)
  /-- Channels that SER_LIMIT puts ahead of the pass order, and the device time at which each was last put there (R242). -/
  urgent : List Nat
  urgentAt : List (Nat × Nat)
  sweeps : List Sweep
  /-- Channels whose ring's heater is frozen (R245). -/
  frozen : List Nat
  /-- Consecutive CRC-valid flits with matching indices, by receive channel, up to 64. -/
  confirm : List (Nat × Nat)
  /-- Blocks in a row with both markers, up to 3, and blocks in a row without, by receive channel; channels with block lock (R255). -/
  good : List (Nat × Nat)
  bad : List (Nat × Nat)
  locked : List Nat
  /-- BCOUNT of the last good block, by receive channel: the skew between two channels is the difference of theirs (R255). -/
  blockCount : List (Nat × Nat)
  /-- The SEQ after the last good flit of each receive channel (R256). -/
  seen : List (Nat × BitVec 24)
  /-- Receive channels that the receive side reports dark (R244). -/
  rxDark : List Nat
  /-- Fiber pairs whose far end sends FENCED_IDLE (R258). -/
  fenced : List Nat
  /-- TPHASE sent on a transmit channel (R255). -/
  tphase : List (Nat × Nat)
  /-- Maps that this end has asked the far transmitters for, by fiber pair (R258). -/
  asked : List (Nat × Nat)
  /-- Codewords and training flits sent, and the state of PRBS31, by transmit channel. -/
  words : List (Nat × Nat)
  tcount : List (Nat × Nat)
  prbs : List (Nat × BitVec 31)
  /-- Ring tones that the line monitor last found on each line of a transmit fiber, a bit a ring (R238). -/
  tones : List (Nat × Nat)
  /-- Quality figures last received for a transmit channel (R240). -/
  quality : List (Nat × List Byte)
  /-- CTRL as last written to each module, and the line that its spare is settling on (R233, R246). -/
  ctrl : List (Nat × BitVec 16)
  settling : List (Nat × Nat)
  /-- By module: the lines whose POWER was found in its calibrated range, and those that stay dark until the module is replaced
  (R247, R250). -/
  power : List (Nat × Nat)
  dead : List (Nat × Nat)
  /-- LASER_EN is held low after a device fault or in fail-safe (R234). -/
  shut : Bool
  deriving DecidableEq, Repr

def Optics.reset : Optics :=
  { passes := [], urgent := [], urgentAt := [], sweeps := [], frozen := [], confirm := [], good := [], bad := [], locked := []
    blockCount := [], seen := [], rxDark := [], fenced := [], tphase := [], asked := [], words := [], tcount := [], prbs := []
    tones := [], quality := [], ctrl := [], settling := [], power := [], dead := [], shut := false }

/-- The device. -/
structure State where
  /-- Commands waiting, first in, first out (the block's queue). -/
  pending : List Instr
  cores : Vector Core 128
  barriers : List Barrier
  /-- Clusters whose domain is fenced (R383). -/
  fencedClusters : List Nat
  /-- Bytes of LPDDR6, cluster SRAM and trays by local offset (R28); an unlisted byte reads 0. -/
  mem : List Host.Cell
  /-- Base offsets of the 64-byte units whose POISON tag is set (R175). -/
  poison : List Nat
  /-- Base offsets of units with a latent cell error; true: uncorrectable (R175). -/
  ecc : List (Nat × Bool)
  /-- Sectors of each granule stored compressed (R188), by granule number. -/
  cfmt : List (Nat × Nat)
  dirtyActive : List Nat
  dirtyFrozen : List Nat
  /-- Where the frozen bitmap goes: MEM_DIRTY_BASE as it stood at the swap point (R191). -/
  dirtyAt : Nat
  /-- Tokens of context x on edge die d, key 2 x + d, in half bytes (R186). -/
  buckets : List (Nat × Int)
  /-- Keys of the buckets that an access waits for (R186). -/
  regWait : List Nat
  /-- LPDDR6 in self-refresh (R192). -/
  selfRefresh : Bool
  /-- Physical channels that have run loop-back since the start (R193). -/
  looped : List Nat
  /-- Setup registers that differ from their reset values, by window offset (R441 to R448). -/
  setup : List (Nat × Word)
  descs : List Desc
  fetches : List Fetch
  heldCpl : List HeldCpl
  /-- Core launches in the order their descriptors started (R206). -/
  launchQ : List Launch
  /-- Consumer words last read, by event ring (R222). -/
  evtCons : List (Nat × BitVec 32)
  /-- Records that wait for a remote consumer word. -/
  evtWait : List (Nat × RecSrc)
  /-- Active conditions, for the severity of Lantern records (R378). -/
  active : List Event
  /-- The events posted, newest first (R392 keeps 256). -/
  events : List Event
  lanterns : Word
  lastStep : List (Nat × BitVec 32)
  fab : Fabric
  links : List Link
  opt : Optics
  strag : List (Nat × Strag)
  /-- EXR requests posted and not yet replied to (R351, R352). -/
  exr : List ExrReq
  groups : List Group
  joins : List Join
  front : Front
  snap : Snap
  power : Power
  boot : Boot
  /-- Domain resets, oldest first; dumps waiting, the first in progress while ERR_DUMP_STATE.BUSY; the shadow store. -/
  resets : List Reset
  dumpQ : List DumpReq
  shadows : List Shadow
  /-- The fabric transmitters send only FENCED_IDLE (R234, R381). -/
  txFenced : Bool
  /-- In fail-safe: no memory write, completion or event (R381). -/
  failsafe : Bool
  /-- Hamper bytes that differ from 0: the snapshot region from 0, the image region from 4 * 10^12 (R18). -/
  hamper : List (Nat × Byte)
  /-- Hamper is fenced (boot step 10). -/
  hamperFenced : Bool
  /-- Boot NOR bytes outside the Trail log that differ from erased, by NOR offset (R413). -/
  nor : List (Nat × Byte)
  /-- The Trail log, oldest record first; the next free place; the next SEQ (R420). -/
  trail : List TrailRec
  trailNext : Nat
  trailSeq : Nat
  fuses : Fuses
  /-- Reset cause for the next START record (R421). -/
  resetCause : Nat
  /-- Device time has been set since reset (R336, R420). -/
  timeSet : Bool
  /-- The next ABORT_SEQ of this device, and the (ORIGIN, ABORT_SEQ) pairs last seen (R385). -/
  abortSeq : BitVec 16
  abortsSeen : List (Coord × BitVec 16)
  out : List Output
  /-- Device time in ns (R336) and the correction still to be slewed. -/
  devTime : Word
  slew : Int
  /-- Counts the free values taken (log entry 1); the model's own, not the spec's. -/
  freeCtr : Nat
  deriving DecidableEq, Repr

/-- The machine right after a device reset, before boot (R382, R384, R445). -/
def State.reset : State :=
  { pending := [], cores := Vector.replicate 128 .reset, barriers := [], fencedClusters := [], mem := [], poison := [], ecc := [], cfmt := []
    dirtyActive := [], dirtyFrozen := [], dirtyAt := 0, buckets := [], regWait := [], selfRefresh := false, looped := [], setup := [], descs := []
    fetches := [], heldCpl := [], launchQ := [], evtCons := [], evtWait := [], active := [], events := [], lanterns := 0
    lastStep := [], fab := .reset, links := [], opt := .reset, strag := [], exr := [], groups := [], joins := [], front := .reset, snap := .reset, power := .reset, boot := .reset, resets := [], dumpQ := [], shadows := [], txFenced := false, failsafe := false, hamper := [], hamperFenced := false
    nor := [], trail := [], trailNext := 0, trailSeq := 0, fuses := ⟨[], [], 0, 0⟩, resetCause := 1, timeSet := false
    abortSeq := 0, abortsSeen := [], out := [], devTime := 0, slew := 0, freeCtr := 0 }

end Sys2Proof.Machine
end

