-- ==== Sys2Proof/Machine/Ops.lean ====
section
/-! DEFINITION. The named operations over the state: fields of words, setup registers, free values, cores, outputs. -/
namespace Sys2Proof.Machine

open Sys2Proof

/-- What a command answers. -/
abbrev Result := Host.Outcome State Fault Refusal

/-! ### Bit fields and bytes -/

/-- Bits [hi:lo] of a word as a number. -/
def bits {n : Nat} (w : BitVec n) (hi lo : Nat) : Nat := w.toNat / 2 ^ lo % 2 ^ (hi + 1 - lo)

/-- Bits [hi:lo] replaced by `v`. -/
def setBits {n : Nat} (w : BitVec n) (hi lo v : Nat) : BitVec n :=
  let mask := BitVec.ofNat n ((2 ^ (hi + 1 - lo) - 1) * 2 ^ lo)
  (w &&& ~~~mask) ||| (BitVec.ofNat n (v % 2 ^ (hi + 1 - lo) * 2 ^ lo))

def bit {n : Nat} (w : BitVec n) (i : Nat) : Bool := w.getLsbD i

/-- Little-endian value of some bytes (R3). -/
def leNat : List Byte → Nat
  | [] => 0
  | b :: l => b.toNat + 256 * leNat l

/-- `n` little-endian bytes of a number. -/
def leBytes : Nat → Nat → List Byte
  | 0, _ => []
  | n + 1, v => BitVec.ofNat 8 v :: leBytes n (v / 256)

/-- The little-endian word of bytes `i` to `i + n - 1` of a structure. -/
def leAt (l : List Byte) (i n : Nat) : Nat := leNat ((l.drop i).take n)

def wordAt (l : List Byte) (i : Nat) : Word := BitVec.ofNat 64 (leAt l i 8)

/-- A list padded with zeros to `n` elements. -/
def padTo (n : Nat) (l : List Byte) : List Byte := l ++ List.replicate (n - l.length) 0

/-- Saturating increment of an `n`-bit counter value. -/
def satInc (n v : Nat) : Nat := min (2 ^ n - 1) (v + 1)

def ceilDiv (a b : Nat) : Nat := (a + b - 1) / b

/-! ### Status codes -/

/-- The encoding of a status (R376). -/
def Status.code : Status → Nat
  | .ok => 0x00
  | .bound => 0x01
  | .perm => 0x02
  | .format => 0x03
  | .poison => 0x04
  | .timeout => 0x05
  | .aborted => 0x06
  | .fenced => 0x07
  | .atomicUnknown => 0x08
  | .collOrder => 0x09
  | .collDigest => 0x0A
  | .memberLost => 0x0B
  | .incomplete => 0x0C
  | .epoch => 0x0D
  | .retryExhausted => 0x0E
  | .memUncorrectable => 0x0F
  | .throttled => 0x10
  | .tableRejected => 0x11

/-- The status an 8-bit field carries; the reserved codes 0x12 to 0xFF are never produced and read as `FORMAT`. -/
def Status.ofCode (n : Nat) : Status :=
  match n with
  | 0x00 => .ok
  | 0x01 => .bound
  | 0x02 => .perm
  | 0x04 => .poison
  | 0x05 => .timeout
  | 0x06 => .aborted
  | 0x07 => .fenced
  | 0x08 => .atomicUnknown
  | 0x09 => .collOrder
  | 0x0A => .collDigest
  | 0x0B => .memberLost
  | 0x0C => .incomplete
  | 0x0D => .epoch
  | 0x0E => .retryExhausted
  | 0x0F => .memUncorrectable
  | 0x10 => .throttled
  | 0x11 => .tableRejected
  | _ => .format

/-! ### Free values (log entry 1) -/

/-- An open value, and the state with the counter moved past it. -/
def State.free (s : State) : Word × State := (Config.freeValue s.freeCtr, { s with freeCtr := s.freeCtr + 1 })

/-! ### Setup registers -/

/-- Position of an offset in an indexed register: the indices, if the offset is one of its instances. -/
def indexIn : Nat → List (Nat × Nat) → Option (List Nat)
  | 0, [] => some []
  | _ + 1, [] => none
  | rem, (stride, count) :: ds =>
    if rem / stride < count then (indexIn (rem % stride) ds).map (fun is => rem / stride :: is) else none

/-- The register and the indices at a window offset (R443: none where no register is). -/
def regAt (off : Nat) : Option (RegName × List Nat) :=
  regNames.findSome? fun r =>
    if r.base ≤ off then (indexIn (off - r.base) r.dims).map (fun is => (r, is)) else none

/-- The word that a register's fields have at device reset (R445). -/
def RegName.resetWord (r : RegName) (is : List Nat) : Word :=
  match r with
  | .IDENT_SERIAL => Config.serial
  | _ => (r.fieldsAt is).foldl (fun w f => setBits w f.fld.hi f.fld.lo f.reset) 0

/-- Reset value of the word at a window offset; 0 where no register is. -/
def resetAt (off : Nat) : Word :=
  match regAt off with
  | some (r, is) => r.resetWord is
  | none => 0

/-- The stored word of a register. -/
def State.reg (s : State) (off : Nat) : Word := Maps.get (resetAt off) s.setup off

/-- Store a register's word. -/
def State.setReg (s : State) (off : Nat) (v : Word) : State :=
  { s with setup := Maps.put (resetAt off) s.setup off v }

/-- A field of a register. -/
def State.fld (s : State) (off : Nat) (f : Field) : Nat := bits (s.reg off) f.hi f.lo

/-- Set a field of a register. -/
def State.setFld (s : State) (off : Nat) (f : Field) (v : Nat) : State :=
  s.setReg off (setBits (s.reg off) f.hi f.lo v)

/-- Increment a counter field that saturates. -/
def State.bump (s : State) (off : Nat) (f : Field) : State :=
  s.setFld off f (satInc (f.hi + 1 - f.lo) (s.fld off f))

/-- Increment a counter field that wraps. -/
def State.wrapInc (s : State) (off : Nat) (f : Field) : State := s.setFld off f (s.fld off f + 1)

/-- Add to a counter field that saturates. -/
def State.bumpBy (s : State) (off : Nat) (f : Field) (n : Nat) : State :=
  s.setFld off f (min (2 ^ (f.hi + 1 - f.lo) - 1) (s.fld off f + n))

/-! ### Cores -/

def State.core (s : State) (k : CoreId) : Core := s.cores[k]

def State.setCore (s : State) (k : CoreId) (c : Core) : State := { s with cores := s.cores.set k c }

/-- Update one core. -/
def State.mapCore (s : State) (k : CoreId) (f : Core → Core) : State := s.setCore k (f (s.core k))

/-- Update every core. -/
def State.mapCores (s : State) (f : CoreId → Core → Core) : State :=
  (List.finRange 128).foldl (fun s k => s.mapCore k (f k)) s

/-- A general register; g0 reads zero (R62). -/
def Core.greg (c : Core) (r : BitVec 5) : Word := if r = 0 then 0 else c.g[r.toNat]

/-- Write a general register; a write to g0 is ignored (R62). -/
def Core.setG (c : Core) (r : BitVec 5) (v : Word) : Core := if r = 0 then c else { c with g := c.g.set r.toNat v }

/-- A predicate; p0 reads 1 (R62). -/
def Core.preg (c : Core) (r : BitVec 3) : Bool := r = 0 || c.p.getLsbD r.toNat

/-- Write a predicate; a write to p0 is ignored (R62). -/
def Core.setP (c : Core) (r : BitVec 3) (v : Bool) : Core :=
  if r = 0 then c else { c with p := setBits c.p r.toNat r.toNat (if v then 1 else 0) }

/-- Column groups in service, counted (R87). -/
def Core.groups (c : Core) : Nat := ((List.range 32).filter (fun i => c.colgroups.getLsbD i)).length

/-- A core with fewer than 28 groups in service is retired (R89). -/
def Core.isRetired (c : Core) : Bool := c.groups < 28

/-- CORE_WIDTH (R87, R89). -/
def Core.width (c : Core) : Nat := if c.isRetired then 0 else 4 * c.groups

/-- The cluster of a core (R16). -/
def clusterOf (k : CoreId) : ClusterId := ⟨k.val / 32, by omega⟩

/-- Broad instructions queued or executing (R86). -/
def Core.outstanding (c : Core) : Nat := c.queue.length

/-- RUNSTATE encoding (R92). -/
def RunState.code : RunState → Nat
  | .idle => 0
  | .running => 1
  | .waiting => 2
  | .halted => 3
  | .trapHalted => 4
  | .fenced => 5
  | .retired => 6

/-! ### Outputs and identity -/

def State.emit (s : State) (o : Output) : State := { s with out := s.out ++ [o] }

/-- The device's coordinate: SELF of the active topology version, 0 before the first flip (R21, R283). -/
def State.self (s : State) : Coord := BitVec.ofNat 12 (s.fld Reg.ROUTE_TBL_STATE Reg.ROUTE_TBL_STATE_SELF)

/-- The slot, pod and block of a coordinate (R10). -/
def slotOf (c : Coord) : Nat := bits c 3 0
def podOf (c : Coord) : Nat := bits c 7 4
def blockOf (c : Coord) : Nat := bits c 11 8

/-- ROUTE_TBL_STATE.ACTIVE, the EPOCH of new packets (R277). -/
def State.activeEpoch (s : State) : Bool := s.fld Reg.ROUTE_TBL_STATE Reg.ROUTE_TBL_STATE_ACTIVE = 1

/-- A table version (R277). -/
def State.topo (s : State) (v : Bool) : Topo := if v then s.fab.topo1 else s.fab.topo0

def State.setTopo (s : State) (v : Bool) (t : Topo) : State :=
  if v then { s with fab := { s.fab with topo1 := t } } else { s with fab := { s.fab with topo0 := t } }

/-- The 32-bit word of a table at a byte offset that is a multiple of 4 (R267). -/
def Topo.word (t : Topo) (off : Nat) : BitVec 32 := Maps.get 0 t.words (off / 4)

/-- PRESENT bit of a coordinate (R267). -/
def Topo.present (t : Topo) (c : Coord) : Bool :=
  (t.word (0x40 + 4 * (c.toNat / 32))).getLsbD (c.toNat % 32)

/-- Whether a coordinate exists for this device: its own, or one of the loaded table (R21). -/
def State.present (s : State) (c : Coord) : Bool :=
  c = s.self || ((s.topo s.activeEpoch).accepted && (s.topo s.activeEpoch).present c)

/-- Context job and step identifiers (R63). -/
def State.jobOf (s : State) (x : Ctx) : BitVec 32 := BitVec.ofNat 32 (s.fld (Reg.RING_CTX_JOB x) Reg.RING_CTX_JOB_JOB)

/-- Whether a context is aborted (R386). -/
def State.aborted (s : State) (x : Ctx) : Bool := s.fld (Reg.ERR_CTX x) Reg.ERR_CTX_ABORTED = 1

/-- The supply-sag stage in force (R407). -/
def State.stage (s : State) : Nat := s.fld Reg.CLKPWR_SHED Reg.CLKPWR_SHED_STAGE

/-- From stage 3 on every core is paused (R407). -/
def State.coresPaused (s : State) : Bool := 3 ≤ s.stage

/-- This start is a recovery: the fabric and the front ports are dark, the lasers off (R418). -/
def State.inRecovery (s : State) : Bool := s.fld Reg.BOOT_STATE Reg.BOOT_STATE_RECOVERY = 1

/-- Hamper writes and snapshot cascades hold, under TH3 or at stage 1 (R401, R407). -/
def State.hamperHeld (s : State) : Bool := 1 ≤ s.stage || s.power.flash

end Sys2Proof.Machine
end

