-- ==== Sys2Proof/Machine/Codes.lean ====
section
/-! DEFINITION. Check codes (R253, R260, R265, R325) and the lossless granule format (R188, R266). -/
namespace Sys2Proof.Machine

/-! ### CRCs -/

/-- One bit of a reflected CRC: the register moves right, `poly` is the reflected polynomial. -/
def crcBitR {n : Nat} (poly : BitVec n) (c : BitVec n) : BitVec n := if c.getLsbD 0 then (c >>> 1) ^^^ poly else c >>> 1

/-- `k` bits of a reflected CRC. -/
def crcBitsR {n : Nat} (poly : BitVec n) : Nat → BitVec n → BitVec n
  | 0, c => c
  | k + 1, c => crcBitsR poly k (crcBitR poly c)

/-- A reflected CRC over bytes, without the final inversion. -/
def crcR {n : Nat} (poly : BitVec n) (c : BitVec n) (l : List Byte) : BitVec n :=
  l.foldl (fun c b => crcBitsR poly 8 (c ^^^ b.setWidth n)) c

/-- One bit of a non-reflected CRC. -/
def crcBitL {n : Nat} (poly : BitVec n) (c : BitVec n) : BitVec n := if c.getMsbD 0 then (c <<< 1) ^^^ poly else c <<< 1

/-- `k` bits of a non-reflected CRC. -/
def crcBitsL {n : Nat} (poly : BitVec n) : Nat → BitVec n → BitVec n
  | 0, c => c
  | k + 1, c => crcBitsL poly k (crcBitL poly c)

/-- Link CRC of R253: CRC-32, polynomial 0x04C1_1DB7, reflected. -/
def crc32 (l : List Byte) : BitVec 32 := ~~~crcR 0xEDB88320#32 0xFFFFFFFF#32 l

/-- Payload CRC of R260: CRC-32C, polynomial 0x1EDC_6F41, taken reflected as the link CRC is (log entry 7). -/
def crc32c (l : List Byte) : BitVec 32 := ~~~crcR 0x82F63B78#32 0xFFFFFFFF#32 l

/-- CRC-16 of R265: polynomial 0x1021, initial value 0xFFFF, no reflection, no final inversion. -/
def crc16 (l : List Byte) : BitVec 16 :=
  l.foldl (fun c b => crcBitsL 0x1021#16 8 (c ^^^ ((b.setWidth 16 : BitVec 16) <<< (8 : Nat)))) 0xFFFF#16

/-- CRC-64 of R325: polynomial 0x42F0_E1EB_A9EA_3693, initial and final value 0, no reflection. -/
def crc64 (l : List Byte) : BitVec 64 :=
  l.foldl (fun c b => crcBitsL 0x42F0E1EBA9EA3693#64 8 (c ^^^ ((b.setWidth 64 : BitVec 64) <<< (56 : Nat)))) 0

/-! ### The granule format of R188 -/

/-- zigzag of a difference mod 2^32 (R188). -/
def zigzag (d : BitVec 32) : BitVec 32 := (d <<< 1) ^^^ (if d.getMsbD 0 then 0xFFFFFFFF#32 else 0#32)

/-- The inverse of zigzag. -/
def unzigzag (z : BitVec 32) : BitVec 32 := (z >>> 1) ^^^ (if z.getLsbD 0 then 0xFFFFFFFF#32 else 0#32)

/-- The 32-bit words of some bytes. -/
def words32 : Nat → List Byte → List (BitVec 32)
  | 0, _ => []
  | n + 1, l => BitVec.ofNat 32 (leNat (l.take 4)) :: words32 n (l.drop 4)

/-- The zigzag differences of a chunk's words. -/
def deltas : List (BitVec 32) → List (BitVec 32)
  | a :: b :: l => zigzag (b - a) :: deltas (b :: l)
  | _ => []

/-- Bit length of a number. -/
def bitLen (n : Nat) : Nat := if n = 0 then 0 else Nat.log2 n + 1

/-- Pack bits, least significant first, into bytes. -/
def packBits : Nat → List Bool → List Byte
  | 0, _ => []
  | n + 1, l =>
    let b := (l.take 8).zipIdx.foldl (fun (a : Nat) (x : Bool × Nat) => if x.1 then a + 2 ^ x.2 else a) 0
    BitVec.ofNat 8 b :: packBits n (l.drop 8)

/-- A chunk's header byte and payload. -/
def encodeChunk (l : List Byte) : Byte × List Byte :=
  let ws := words32 64 l
  if ws.all (· = 0) then (0x00, [])
  else
    let zs := deltas ws
    let b := zs.foldl (fun m z => max m (bitLen z.toNat)) 0
    if b = 32 then (0x80, l)
    else
      let planes := (List.range b).flatMap (fun k => zs.map (fun z => z.getLsbD k))
      (BitVec.ofNat 8 (0x40 + b), leBytes 4 (ws.headD 0).toNat ++ packBits ((63 * b + 7) / 8) planes)

/-- The chunks of a granule. -/
def chunksOf : Nat → List Byte → List (List Byte)
  | 0, _ => []
  | n + 1, l => l.take 256 :: chunksOf n (l.drop 256)

/-- The compressed form of a 4 KiB granule, header first (R188). -/
def encodeGranule (l : List Byte) : List Byte :=
  let cs := (chunksOf 16 l).map encodeChunk
  cs.map (·.1) ++ cs.flatMap (·.2)

/-- Sectors that a granule takes when stored compressed; 16 when it is stored raw (R188). -/
def sectorsOf (l : List Byte) : Nat := ceilDiv (encodeGranule l).length 256

/-- Rebuild the words of a DELTA chunk. -/
def undelta : BitVec 32 → List (BitVec 32) → List (BitVec 32)
  | a, [] => [a]
  | a, z :: l => a :: undelta (a + unzigzag z) l

/-- Bit `i` of some bytes. -/
def bitOf (l : List Byte) (i : Nat) : Bool := (l.getD (i / 8) 0).getLsbD (i % 8)

/-- Decode the chunks that the header bytes describe; none where a payload overruns a mode is reserved or the
reserved bit is set (R5, R188, R266). -/
def decodeChunks : List Byte → List Byte → Option (List Byte)
  | [], _ => some []
  | h :: hs, l =>
    let b := bits h 4 0
    if bits h 5 5 = 1 then none
    else match bits h 7 6 with
    | 0 => (decodeChunks hs l).map (List.replicate 256 0 ++ ·)
    | 1 =>
      let n := 4 + (63 * b + 7) / 8
      if l.length < n then none
      else
        let p := (l.take n).drop 4
        let zs := (List.range 63).map (fun i =>
          BitVec.ofNat 32 ((List.range b).foldl (fun a k => if bitOf p (63 * k + i) then a + 2 ^ k else a) 0))
        let ws := undelta (BitVec.ofNat 32 (leNat (l.take 4))) zs
        (decodeChunks hs (l.drop n)).map (ws.flatMap (fun w => leBytes 4 w.toNat) ++ ·)
    | 2 => if l.length < 256 then none else (decodeChunks hs (l.drop 256)).map (l.take 256 ++ ·)
    | _ => none

/-- Decode one granule, and the payload length it took rounded up to 32 bytes (R266). -/
def decodeGranule (l : List Byte) : Option (List Byte) := decodeChunks (l.take 16) (l.drop 16)

/-- Bytes that a compressed granule takes, its header included. -/
def granuleLen (l : List Byte) : Nat :=
  (l.take 16).foldl (fun n h =>
    n + (match bits h 7 6 with
      | 1 => 4 + (63 * bits h 4 0 + 7) / 8
      | 2 => 256
      | _ => 0)) 16

/-- The fabric form of one or two granules: the bytes as sent and GMASK (R266). -/
def fabricEncode (l : List Byte) : List Byte × BitVec 2 :=
  let one := fun (g : List Byte) =>
    let e := encodeGranule g
    let e := e ++ List.replicate ((32 - e.length % 32) % 32) 0
    if e.length < 4096 then (e, true) else (g, false)
  let a := one (l.take 4096)
  if l.length ≤ 4096 then (a.1, if a.2 then 1 else 0)
  else
    let b := one (l.drop 4096)
    (a.1 ++ b.1, BitVec.ofNat 2 ((if a.2 then 1 else 0) + (if b.2 then 2 else 0)))

/-- Decode a fabric payload of `n` decoded bytes (R266); none counts as a failed CRC-32C. -/
def fabricDecode (l : List Byte) (mask : BitVec 2) (n : Nat) : Option (List Byte) :=
  let one := fun (l : List Byte) (m : Bool) =>
    if m then
      let k := (granuleLen l + 31) / 32 * 32
      if l.length < k then none else (decodeGranule (l.take k)).map (fun g => (g, l.drop k))
    else if l.length < 4096 then none else some (l.take 4096, l.drop 4096)
  match one l (mask.getLsbD 0) with
  | none => none
  | some (g, rest) =>
    if n = 4096 then (if rest = [] then some g else none)
    else if n = 8192 then
      match one rest (mask.getLsbD 1) with
      | some (h, []) => some (g ++ h)
      | _ => none
    else none

/-- Whether the fabric unit compresses a payload: it covers one or two whole aligned granules (R266). -/
def fabricWhole (addr len : Nat) : Bool := addr % 4096 = 0 && (len = 4096 || len = 8192)

end Sys2Proof.Machine
end

