-- ==== Sys2Proof/Machine/Memory.lean ====
section
/-! DEFINITION. Addresses, the local physical map, protection, poison, regulators, dirty tracking, and the reads and
writes of memory that everything else goes through (R24 to R30, R172 to R192, R287 to R289). -/
namespace Sys2Proof.Machine

open Reg

/-! ### The local physical map (R28) -/

/-- What a local offset is part of. -/
inductive Place where
  | lpddr
  | sram (c : Nat)
  | tray (k : Nat)
  | setup (off : Nat)
  | door (n : Nat) (off : Nat)
  | hole
  deriving DecidableEq, Repr

def lpddrTop : Nat := 0x022E00000000
def sramBase : Nat := 0xF00000000000
def trayBase : Nat := 0xF10000000000
def setupBase : Nat := 0xFE0000000000
def doorBase : Nat := 0xFF0000000000

/-- The place of an offset. -/
def placeOf (o : Nat) : Place :=
  if o < lpddrTop then .lpddr
  else if o < sramBase then .hole
  else if o < sramBase + 4 * 0x40000000 then
    if (o - sramBase) % 0x40000000 < 0x20000000 then .sram ((o - sramBase) / 0x40000000) else .hole
  else if o < trayBase then .hole
  else if o < trayBase + 128 * 0x1000000 then
    if (o - trayBase) % 0x1000000 < 0x400000 then .tray ((o - trayBase) / 0x1000000) else .hole
  else if o < setupBase then .hole
  else if o < setupBase + 0x1000000 then .setup (o - setupBase)
  else if o < doorBase then .hole
  else if o < doorBase + 1024 * 0x1000 then .door ((o - doorBase) / 0x1000) ((o - doorBase) % 0x1000)
  else .hole

/-- First offset of the tray of core k. -/
def trayOf (k : Nat) : Nat := trayBase + k * 0x1000000

/-- Two offsets lie in one range of the map. -/
def samePlace : Place → Place → Bool
  | .setup _, .setup _ => true
  | .door n _, .door m _ => n = m
  | .hole, _ => false
  | a, b => a = b

/-- The place of a whole range; `hole` when it runs past the end of its range (R25). -/
def placeOfRange (o n : Nat) : Place :=
  if n = 0 || samePlace (placeOf o) (placeOf (o + n - 1)) then placeOf o else .hole

/-- What a global address names (R24 to R26), before any check of the offset. -/
inductive Target where
  | format
  | bound
  | here (off : Nat)
  | there (c : Coord) (off : Nat)
  | setupThere (c : Coord) (off : Nat)
  deriving DecidableEq, Repr

/-- Decode a global address (R24, R25); the own coordinate in space 0b01 is served locally (R26). -/
def State.decode (s : State) (a : Word) : Target :=
  let c : Coord := BitVec.ofNat 12 (bits a 59 48)
  let o := bits a 47 0
  if bits a 61 60 ≠ 0 then .format
  else match bits a 63 62 with
    | 0 => if c = 0 then .here o else .format
    | 1 => if c = s.self then .here o else if s.present c then .there c o else .bound
    | 2 =>
      if 0x1000000 ≤ o then .bound
      else if c = s.self then .here (setupBase + o)
      else if s.present c then .setupThere c o else .bound
    | _ => .format

/-- Whether load/store semantics reach a device: it lies in the own block (R22). -/
def State.inReach (s : State) (c : Coord) : Bool := blockOf c = blockOf s.self

/-! ### Protection (R30, R287 to R289) -/

/-- By whose authority an access is made. -/
inductive Auth where
  | ranger
  | ctx (x : Ctx)
  deriving DecidableEq, Repr

/-- Kinds of access that a region grants (R287). -/
inductive Kind where
  | rd
  | wr
  | at_
  deriving DecidableEq, Repr

/-- An accessor: its authority and the device it acts on. -/
structure Who where
  auth : Auth
  src : Coord
  deriving DecidableEq, Repr

/-- A SCOPE of a region admits a source (R287). -/
def scopeAdmits (scope : BitVec 2) (self src : Coord) : Bool :=
  match scope.toNat with
  | 0 => src = self
  | 1 => blockOf src = blockOf self && podOf src = podOf self
  | 2 => blockOf src = blockOf self
  | _ => true

def Region.grants (r : Region) (k : Kind) : Bool :=
  match k with
  | .rd => r.rd
  | .wr => r.wr
  | .at_ => r.at_

/-- One aligned 4 KiB piece is permitted by the entries of a table (R289). -/
def pieceOk (rs : List Region) (self src : Coord) (k : Kind) (repub : Bool) (piece : Nat) : Bool :=
  rs.any (fun r => r.base ≤ piece && piece + 4096 ≤ r.limit && r.grants k && scopeAdmits r.scope self src)
    && (k = .rd || repub || !rs.any (fun r => r.repl && r.base < piece + 4096 && piece < r.limit))

/-- The aligned 4 KiB pieces that a range touches. -/
def piecesOf (o n : Nat) : List Nat :=
  if n = 0 then [] else (List.range ((o + n - 1) / 4096 + 1 - o / 4096)).map (fun i => (o / 4096 + i) * 4096)

/-- The region entries in force for a context, none when its table is not accepted. While a load is in progress either the old
or the new ones apply (R288): a free choice. -/
def State.regionsOf (s : State) (x : Ctx) : Option (List Region) × State :=
  let old := if (s.reg FAB_RT_VALID).getLsbD x then some (Maps.get [] s.fab.regions x) else none
  if s.fab.regionLoad.contains x.val then
    let (v, s) := s.free
    (if v.getLsbD 0 then old else Maps.get old s.fab.regionNew x, s)
  else (old, s)

/-- The check of R289 for a range of memory: mapping, trays, authority, regions. Answers the place. Ranges of no bytes are not
checked. Doorbell pages and the setup window are the caller's. -/
def State.protect (s : State) (w : Who) (k : Kind) (repub : Bool) (o n : Nat) : Except Status Place × State :=
  match placeOfRange o n with
  | .hole => if n = 0 then (.ok .hole, s) else (.error .bound, s)
  | .setup so => (if w.auth = .ranger then .ok (.setup so) else .error .perm, s)
  | .door n so => (.ok (.door n so), s)
  | pl =>
    let tray := match pl with
      | .tray _ => true
      | _ => false
    if tray && w.src ≠ s.self then (.error .perm, s.bump FAB_RT_STATUS FAB_RT_STATUS_DENIED)
    else match w.auth with
      | .ranger => (.ok pl, s)
      | .ctx x =>
        let (rs, s) := s.regionsOf x
        match rs with
        | none => (.error .perm, s.bump FAB_RT_STATUS FAB_RT_STATUS_DENIED)
        | some rs =>
          if (piecesOf o n).all (pieceOk rs s.self w.src k repub) then (.ok pl, s)
          else (.error .perm, s.bump FAB_RT_STATUS FAB_RT_STATUS_DENIED)

/-! ### Bytes -/

/-- One byte of memory; what nothing has written reads 0 (R182, log entry 3). -/
def State.byte (s : State) (a : Nat) : Byte := Maps.get 0 s.mem a

/-- Bytes from `a` on. -/
def State.bytes (s : State) (a n : Nat) : List Byte := (List.range n).map (fun i => s.byte (a + i))

/-- Store bytes from `a` on, keeping the canonical form. -/
def putBytes : List Host.Cell → Nat → List Byte → List Host.Cell
  | m, _, [] => m
  | m, a, b :: l => putBytes (Maps.put 0 m a b) (a + 1) l

/-- The canonical form of memory. -/
def Memory.wf (m : List Host.Cell) : Bool := Maps.wf 0 m

/-! ### LPDDR6 channels (R178, R179) -/

/-- Logical channel of an LPDDR6 offset (R179). -/
def lchan (o : Nat) : Nat := (o / 4096 + o / 4096 / 96) % 96

/-- Edge die of a logical channel, for the regulators (R186). -/
def dieOf (l : Nat) : Nat := if l < 48 then 0 else 1

/-- Physical channel that serves an offset (R178). -/
def State.pchan (s : State) (o : Nat) : Nat := s.fld (MEM_CHMAP (lchan o)) MEM_CHMAP_PHYS

/-- LPDDR6 answers accesses at all (R184, R192). -/
def State.lpddrUp (s : State) : Bool := s.fld MEM_STATUS MEM_STATUS_LPDDR_UP = 1 && !s.selfRefresh

/-- The unit at `u` cannot be reached: its channel, its core's or its cluster's domain is fenced. -/
def State.unitFenced (s : State) (u : Nat) : Bool :=
  match placeOf u with
  | .lpddr => !s.lpddrUp || s.fld (MEM_CH_STATE (s.pchan u)) MEM_CH_STATE_STATE ≠ 0
  | .sram c => s.fencedClusters.contains c
  | .tray k => decide (s.cores.toList[k]?.map (·.run) = some .fenced)
  | _ => false

/-! ### Units (R175) -/

/-- Base offsets of the aligned 64-byte units that a range touches, ascending. -/
def unitsOf (o n : Nat) : List Nat :=
  if n = 0 then [] else (List.range ((o + n - 1) / 64 + 1 - o / 64)).map (fun i => (o / 64 + i) * 64)

def State.poisoned (s : State) (u : Nat) : Bool := Maps.mem s.poison u

def State.setPoison (s : State) (u : Nat) : State := { s with poison := Maps.add s.poison u }

/-- Poison some units from outside a read (R292, R303, R326): as a write would, it leaves the granule of a compressed one raw (R189). -/
def State.poisonUnits (s : State) (us : List Nat) : State :=
  us.foldl (fun (s : State) u => { s with cfmt := Maps.erase s.cfmt (u / 4096) }.setPoison u) s

def State.clearPoison (s : State) (u : Nat) : State := { s with poison := Maps.del s.poison u }

/-- Count an error of an LPDDR6 unit in its channel's register (R175, R194). -/
def State.countErr (s : State) (u : Nat) (uncorrectable : Bool) : State :=
  match placeOf u with
  | .lpddr => s.bump (MEM_CH_STATE (s.pchan u)) (if uncorrectable then MEM_CH_STATE_UE else MEM_CH_STATE_CE)
  | _ => s

/-- Sectors of the compressed granule that holds offset `o`, 0 when it is stored raw. -/
def State.sectors (s : State) (o : Nat) : Nat := if o < lpddrTop then Maps.get 0 s.cfmt (o / 4096) else 0

/-- What a read of a unit meets under R175, and the action it takes. The stored units of a compressed granule are read all together
(R189): `granuleScan` has acted on their errors. -/
def State.touchUnit (s : State) (u : Nat) : Option Status × State :=
  if s.unitFenced u then (some .fenced, s)
  else if s.poisoned u then (some .poison, s)
  else if s.sectors u ≠ 0 then (none, s)
  else match s.ecc.find? (fun e => e.1 = u) with
    | some (_, true) =>
      (some .memUncorrectable, ({ s with ecc := Maps.erase s.ecc u }.setPoison u).countErr u true)
    | some (_, false) => (none, { s with ecc := Maps.erase s.ecc u }.countErr u false)
    | none => (none, s)

/-- Any access to a compressed granule reads all its sectors (R189): an uncorrectable error in one of its stored units poisons the whole
granule and leaves it raw; else the correctable ones are corrected and counted. Answers whether the granule is bad. -/
def State.granuleScan (s : State) (o : Nat) : Bool × State :=
  let n := s.sectors o
  let base := o / 4096 * 4096
  let stored := fun (e : Nat × Bool) => decide (base ≤ e.1 ∧ e.1 < base + 256 * n)
  if n = 0 || !s.ecc.any stored || s.unitFenced base then (false, s)
  else if !s.ecc.any (fun e => stored e && e.2) then
    (false, (s.ecc.filter stored).foldl (fun (s : State) e => s.countErr e.1 false) { s with ecc := s.ecc.filter (fun e => !stored e) })
  else
    let s := { s with ecc := s.ecc.filter (fun e => e.1 < base || base + 4096 ≤ e.1)
                      cfmt := Maps.erase s.cfmt (o / 4096) }
    (true, ((List.range 64).foldl (fun s i => s.setPoison (base + 64 * i)) s).countErr base true)

/-- Scan every compressed granule that a range touches; the granules found bad. -/
def State.scanRange (s : State) (o n : Nat) : List Nat × State :=
  (piecesOf o n).foldl (fun r p =>
    let (b, s) := r.2.granuleScan p
    (if b then p :: r.1 else r.1, s)) ([], s)

/-- Read every unit of a range in ascending order; the first status that is not `OK` (R175). -/
def State.readUnits (s : State) (bad : List Nat) : List Nat → Option Status × State
  | [] => (none, s)
  | u :: us =>
    let (st, s) := s.touchUnit u
    let st := if bad.contains (u / 4096 * 4096) then some .memUncorrectable else st
    let (st', s) := s.readUnits bad us
    (st <|> st', s)

/-! ### Dirty tracking (R190) -/

/-- Bitmap position of an offset, if it is tracked. -/
def dirtyBit (o : Nat) : Option Nat :=
  match placeOf o with
  | .lpddr => some (o / 0x200000)
  | .sram c => some (1142784 + 256 * c + (o - sramBase) % 0x40000000 / 0x200000)
  | _ => none

/-- A write at `o` was performed. -/
def State.markDirty (s : State) (o : Nat) : State :=
  if s.fld MEM_DIRTY_CTRL MEM_DIRTY_CTRL_ENABLE = 1 then
    match dirtyBit o with
    | some b => { s with dirtyActive := Maps.add s.dirtyActive b }
    | none => s
  else s

/-- Write the part of `bs` (placed at `o`) that falls into unit `u` (R175). -/
def State.writeUnit (s : State) (bad : List Nat) (o : Nat) (bs : List Byte) (u : Nat) : Option Status × State :=
  let lo := max o u
  let hi := min (o + bs.length) (u + 64)
  let part := (bs.drop (lo - o)).take (hi - lo)
  if s.unitFenced u || s.failsafe then (some .fenced, s)
  else if lo = u && hi = u + 64 then
    (none, ({ s with mem := putBytes s.mem u part, ecc := Maps.erase s.ecc u }.clearPoison u).markDirty u)
  else if bad.contains (u / 4096 * 4096) then (some .memUncorrectable, s)
  else match s.touchUnit u with
    | (none, s) => (none, { s with mem := putBytes s.mem lo part }.markDirty u)
    | (some st, s) => (some st, s)

/-- Write the units in ascending order; the first status that is not `OK`. Good units hold their new bytes. -/
def State.writeUnits (s : State) (bad : List Nat) (o : Nat) (bs : List Byte) : List Nat → Option Status × State
  | [] => (none, s)
  | u :: us =>
    let (st, s) := s.writeUnit bad o bs u
    let (st', s) := s.writeUnits bad o bs us
    (st <|> st', s)

/-! ### Regulators (R186) -/

/-- How a regulator answers. -/
inductive Grant where
  | go (s : State)
  | throttled
  | wait (key : Nat)

/-- Charge `n` bursts of context `x` on edge die `d`. Tokens are counted in half bytes, so that RATE / 2 and DEPTH / 2 are whole. -/
def State.charge (s : State) (x : Ctx) (d n : Nat) : Grant :=
  if s.fld (MEM_CTX x) MEM_CTX_ENABLE = 0 then .go s
  else
    let key := 2 * x.val + d
    let tokens : Int := Maps.get 0 s.buckets key
    let cap : Int := s.fld (MEM_CTX x) MEM_CTX_DEPTH * 1024
    let cost : Int := 128 * n
    if min cost cap ≤ tokens then .go { s with buckets := Maps.put 0 s.buckets key (tokens - cost) }
    else if s.fld (MEM_CTX x) MEM_CTX_BORROW = 1 then .go s
    else if s.fld (MEM_CTX x) MEM_CTX_RATE = 0 then .throttled
    else .wait key

/-- Bursts that a read of `n` bytes within one granule moves (R186, R189). -/
def State.readBursts (s : State) (o n : Nat) : Nat :=
  if s.sectors o = 0 then (unitsOf o n).length else 4 * s.sectors o

/-- Bursts that a write of `n` bytes within one granule moves (R180, R186, R189). -/
def State.writeBursts (s : State) (compress : Option Nat) (o n : Nat) : Nat :=
  match compress with
  | some k => 4 * k
  | none =>
    if s.sectors o ≠ 0 && n < 4096 then 4 * s.sectors o + 64
    else
      let us := unitsOf o n
      us.length + (us.filter (fun u => u < o || o + n < u + 64)).length

/-- Charge each granule of an LPDDR6 access in order. DESIGN CHOICE: an access that spans granules, which lie on different channels, is
tested granule by granule, so a later one can wait or borrow on its own (log entry 68). With `slow` (an engine or the sequencer, which goes on when its tokens are
there), a wait is passed: the bucket is left as it stands when the access is granted (log entry 12). -/
def State.chargeAll (s : State) (slow : Bool) (x : Ctx) : List (Nat × Nat) → Grant
  | [] => .go s
  | (d, n) :: l =>
    match s.charge x d n with
    | .go s => s.chargeAll slow x l
    | .throttled => .throttled
    | .wait k =>
      if slow then
        let cap : Int := s.fld (MEM_CTX x) MEM_CTX_DEPTH * 1024
        State.chargeAll { s with buckets := Maps.put 0 s.buckets k (min (128 * (n : Int)) cap - 128 * n) } slow x l
      else .wait k

/-- The parts of a range by granule: (offset, length). -/
def granuleParts (o n : Nat) : List (Nat × Nat) :=
  (piecesOf o n).map (fun p => (max o p, min (o + n) (p + 4096) - max o p))

/-- Charge an access's granules, each with its bursts, to its context: not those in a fenced channel, which are answered `FENCED` without
effect (R184, R185), nor Ranger's accesses (R186). -/
def State.chargeFor (s : State) (a : Auth) (slow : Bool) (parts : List (Nat × Nat)) : Grant :=
  match a with
  | .ranger => .go s
  | .ctx x =>
    s.chargeAll slow x ((parts.filter (fun p => placeOf p.1 = .lpddr && !s.unitFenced p.1)).map (fun p => (dieOf (lchan p.1), p.2)))

/-- The answer of a memory access. -/
inductive MemOut where
  | ok (bytes : List Byte)
  | err (st : Status)
  | wait

/-! ### Reads and writes -/

/-- Read the units of a range under R175. -/
def State.readNow (s : State) (o n : Nat) : MemOut × State :=
  let (bad, s) := s.scanRange o n
  match s.readUnits bad (unitsOf o n) with
  | (none, s) => (.ok (s.bytes o n), s)
  | (some st, s) => (.err st, s)

/-- Read `n` bytes of memory at `o`, mapping and protection already checked: regulators, then the units under R175. -/
def State.load (s : State) (a : Auth) (o n : Nat) (slow : Bool := false) : MemOut × State :=
  match s.chargeFor a slow ((granuleParts o n).map (fun (p : Nat × Nat) => (p.1, s.readBursts p.1 p.2))) with
  | .throttled => (.err .throttled, s)
  | .wait k => (.wait, { s with regWait := Maps.add s.regWait k })
  | .go s => s.readNow o n

/-- The sectors a whole granule takes when this access stores it compressed (R188). -/
def State.compressAs (s : State) (a : Auth) (o : Nat) (bs : List Byte) (p : Nat × Nat) : Option Nat :=
  match a with
  | .ctx x =>
    if s.fld (MEM_CTX x) MEM_CTX_COMPRESS = 1 && p.1 % 4096 = 0 && p.2 = 4096 then
      let n := sectorsOf ((bs.drop (p.1 - o)).take 4096)
      if n < 16 then some n else none
    else none
  | .ranger => none

/-- A granule that a write touched is now stored raw, or compressed in `n` sectors (R188, R189); a write that could not be performed
there leaves its form. Storing a compressed granule raw writes all its units anew, so no latent error is left in it. -/
def State.setForm (s : State) (o : Nat) (c : Option Nat) : State :=
  if s.unitFenced o || s.failsafe then s
  else
    let base := o / 4096 * 4096
    let s := if s.sectors o ≠ 0 && c.isNone then { s with ecc := Maps.clear s.ecc base (base + 4096) } else s
    { s with cfmt := Maps.put 0 s.cfmt (o / 4096) (c.getD 0) }

/-- Write the units of a range under R175; each granule it touches takes its form. -/
def State.writeNow (s : State) (o : Nat) (bs : List Byte) (forms : List (Nat × Option Nat)) : MemOut × State :=
  let (bad, s) := s.scanRange o bs.length
  let (st, s) := s.writeUnits bad o bs (unitsOf o bs.length)
  let s := forms.foldl (fun (s : State) f => s.setForm f.1 f.2) s
  match st with
  | none => (.ok [], s)
  | some st => (.err st, s)

/-- Write bytes at `o` as one access, mapping and protection already checked. -/
def State.store (s : State) (a : Auth) (o : Nat) (bs : List Byte) (slow : Bool := false) : MemOut × State :=
  let parts : List ((Nat × Nat) × Option Nat) :=
    if placeOf o = .lpddr then (granuleParts o bs.length).map (fun p => (p, s.compressAs a o bs p)) else []
  match s.chargeFor a slow (parts.map (fun p => (p.1.1, s.writeBursts p.2 p.1.1 p.1.2))) with
  | .throttled => (.err .throttled, s)
  | .wait k => (.wait, { s with regWait := Maps.add s.regWait k })
  | .go s => s.writeNow o bs (parts.map (fun p => (p.1.1, p.2)))

/-- Read for an accessor: the check of R289, then the read. -/
def State.readFor (s : State) (w : Who) (o n : Nat) (slow : Bool := false) : MemOut × State :=
  match s.protect w .rd false o n with
  | (.error st, s) => (.err st, s)
  | (.ok (.setup _), s) => (.err .format, s)
  | (.ok (.door _ _), s) => (.err .format, s)
  | (.ok _, s) => s.load w.auth o n slow

/-- Write for an accessor: the check of R289, then the write as one access. -/
def State.writeFor (s : State) (w : Who) (repub : Bool) (o : Nat) (bs : List Byte) (slow : Bool := false) : MemOut × State :=
  match s.protect w .wr repub o bs.length with
  | (.error st, s) => (.err st, s)
  | (.ok (.setup _), s) => (.err .format, s)
  | (.ok (.door _ _), s) => (.err .format, s)
  | (.ok _, s) => s.store w.auth o bs slow

/-- An accessor of this device. -/
def State.me (s : State) (a : Auth) : Who := ⟨a, s.self⟩

end Sys2Proof.Machine
end

