-- ==== Sys2Proof/Machine/Packets.lean ====
section
/-! DEFINITION. Packet headers, flits, and the sending side of links (R252 to R266, R272). -/
namespace Sys2Proof

open Machine

/-! ### Header fields (R261) -/

def Packet.cls (p : Packet) : Nat := bits p.w0 2 0
def Packet.hop (p : Packet) : Nat := bits p.w0 4 3
def Packet.epoch (p : Packet) : Bool := bit p.w0 5
def Packet.retry (p : Packet) : Bool := bit p.w0 6
def Packet.cmp (p : Packet) : Bool := bit p.w0 7
def Packet.op (p : Packet) : Nat := bits p.w0 13 8
def Packet.qd (p : Packet) : Nat := bits p.w0 15 14
def Packet.dst (p : Packet) : Coord := BitVec.ofNat 12 (bits p.w0 27 16)
def Packet.src (p : Packet) : Coord := BitVec.ofNat 12 (bits p.w0 39 28)
def Packet.ctx (p : Packet) : Ctx := ⟨bits p.w0 45 40 % 64, Nat.mod_lt _ (by decide)⟩
def Packet.agent (p : Packet) : Nat := bits p.w0 53 46
def Packet.gmask (p : Packet) : BitVec 2 := BitVec.ofNat 2 (bits p.w0 55 54)
def Packet.status (p : Packet) : Status := Status.ofCode (bits p.w0 63 56)
def Packet.plen (p : Packet) : Nat := bits p.w1 13 0
def Packet.rlen (p : Packet) : Nat := bits p.w1 27 14
def Packet.tag (p : Packet) : BitVec 16 := BitVec.ofNat 16 (bits p.w1 43 28)
def Packet.hchk (p : Packet) : BitVec 16 := BitVec.ofNat 16 (bits p.w1 59 44)
def Packet.leg (p : Packet) : Bool := bit p.w1 60
def Packet.rclass (p : Packet) : Nat := bits p.w1 63 61
def Packet.addr (p : Packet) : Nat := bits p.w2 47 0
def Packet.operand (p : Packet) : Word := p.w3

/-- The header bytes that HCHK covers: HOP, LEG, EPOCH, QD and HCHK taken as zero (R265). -/
def Packet.checked (p : Packet) : List Byte :=
  let w0 := setBits (setBits (setBits p.w0 4 3 0) 5 5 0) 15 14 0
  let w1 := setBits p.w1 60 44 0
  leBytes 8 w0.toNat ++ leBytes 8 w1.toNat ++ leBytes 8 p.w2.toNat ++ leBytes 8 p.w3.toNat

/-- HCHK of the header (R265). -/
def Packet.hchkOk (p : Packet) : Bool := p.hchk = crc16 p.checked

/-- The payload and its CRC-32C are whole (R260). -/
def Packet.pcrcOk (p : Packet) : Bool := p.payload.length = p.plen && (p.plen = 0 || p.pcrc = crc32c p.payload)

/-- Put the header check into a packet. -/
def Packet.seal (p : Packet) : Packet := { p with w1 := setBits p.w1 59 44 (crc16 p.checked).toNat }

/-- Units of 32 bytes that a packet takes (R260). -/
def Packet.units (p : Packet) : Nat := if p.plen = 0 then 1 else 1 + (p.plen + 4 + 31) / 32

/-- The pool of a packet that arrives with these header values (R272). -/
def Machine.poolOf (cls : Nat) (leg : Bool) (hop : Nat) : Nat := 6 * cls + 3 * (if leg then 1 else 0) + hop

/-- OP values valid in a class (R262). -/
def Machine.opValid (cls op : Nat) : Bool :=
  match cls with
  | 0 => op ≤ 0x0D
  | 1 => op = 0x10 || op = 0x11
  | 2 => op = 0x20 || op = 0x21 || op = 0x22
  | 3 => op = 0x0C || op = 0x28 || op = 0x29 || op = 0x2A
  | 4 => op = 0x0C || (0x30 ≤ op && op ≤ 0x35)
  | _ => false

/-- The header breaks no rule of R265: class, OP, lengths and reserved fields. -/
def Packet.wellFormed (p : Packet) : Bool :=
  opValid p.cls p.op && p.plen ≤ 8192 && p.rlen ≤ 8192 && p.hop ≠ 3
    && (p.cls = 2 || bits p.w2 63 48 = 0)
    && (p.cls = 1 || (bits p.w0 63 56 = 0 && p.rclass = 0)) && p.agent ≤ 149
    && (p.cls ≠ 2 || (bits p.w3 34 32 = 0 && bits p.w3 63 61 ≤ 3 && p.tag = 0))
    && (p.cls = 2 || (p.cls = 0 && 0x02 ≤ p.op && p.op ≤ 0x0B) || p.w3 = 0)

/-- The fields a new packet is built from. -/
structure Machine.Header where
  cls : Nat
  op : Nat
  src : Coord
  dst : Coord
  ctx : Nat := 0
  agent : Nat := 0
  epoch : Bool := false
  retry : Bool := false
  qd : Nat := 0
  status : Status := .ok
  rclass : Nat := 0
  tag : BitVec 16 := 0
  rlen : Nat := 0
  cmp : Bool := false
  gmask : BitVec 2 := 0
  w2 : Word := 0
  w3 : Word := 0
  deriving DecidableEq, Repr

/-- Build a packet with its checks (R260, R261, R265). -/
def Machine.mkPacket (h : Header) (payload : List Byte) : Packet :=
  let w0 := BitVec.ofNat 64 (h.cls + (if h.epoch then 2 ^ 5 else 0) + (if h.retry then 2 ^ 6 else 0)
    + (if h.cmp then 2 ^ 7 else 0) + h.op * 2 ^ 8 + h.qd * 2 ^ 14 + h.dst.toNat * 2 ^ 16 + h.src.toNat * 2 ^ 28
    + h.ctx * 2 ^ 40 + h.agent * 2 ^ 46 + h.gmask.toNat * 2 ^ 54 + h.status.code * 2 ^ 56)
  let w1 := BitVec.ofNat 64 (payload.length + h.rlen * 2 ^ 14 + h.tag.toNat * 2 ^ 28 + h.rclass * 2 ^ 61)
  Packet.seal { w0 := w0, w1 := w1, w2 := h.w2, w3 := h.w3, payload := payload
                pcrc := if payload = [] then 0 else crc32c payload }

/-- The data flits that a packet takes, of ten units each. -/
def Packet.flits (p : Packet) : Nat := (p.units + 9) / 10

/-- The bytes of a packet on the link, padded to whole units (R260). -/
def Packet.bytes (p : Packet) : List Byte :=
  let h := leBytes 8 p.w0.toNat ++ leBytes 8 p.w1.toNat ++ leBytes 8 p.w2.toNat ++ leBytes 8 p.w3.toNat
  if p.payload = [] then h else padTo (32 * p.units) (h ++ p.payload ++ leBytes 4 p.pcrc.toNat)

/-! ### Flits (R253) -/

def Flit.ftype (f : Flit) : Nat := bits f.ctl 3 0
def Flit.widx (f : Flit) : Nat := bits f.ctl 6 4
def Flit.fidx (f : Flit) : Nat := bits f.ctl 13 8
def Flit.scoord (f : Flit) : Coord := BitVec.ofNat 12 (bits f.ctl 25 14)
def Flit.seq (f : Flit) : BitVec 24 := BitVec.ofNat 24 (bits f.ctl 49 26)
def Flit.ack (f : Flit) : BitVec 24 := BitVec.ofNat 24 (bits f.ctl 73 50)
def Flit.nak (f : Flit) : Bool := bit f.ctl 74
def Flit.first (f : Flit) : Nat := bits f.ctl 122 119
def Flit.crcOk (f : Flit) : Bool := f.crc = crc32 (leBytes 16 f.ctl.toNat ++ f.payload)

/-- Build a flit with its CRC. -/
def Machine.mkFlit (ctl : BitVec 128) (payload : List Byte) : Flit :=
  { ctl := ctl, payload := payload, crc := crc32 (leBytes 16 ctl.toNat ++ payload) }

/-- Cut a packet's bytes into flit payloads of 320 bytes; the rest of the last one is padding (R260). -/
def Machine.flitParts : Nat → List Byte → List (List Byte)
  | 0, _ => []
  | n + 1, l => (l.take 320 ++ List.replicate (320 - (l.take 320).length) 0xFF) :: flitParts n (l.drop 320)

end Sys2Proof

namespace Sys2Proof.Machine

open Reg

/-! ### The sending side of a link -/

/-- The transmitters of fiber pair `F` send only fenced idle flits after a device fault or in fail-safe (R234, R381); in salvage state those of
engines 0 to 3 are back (R372). -/
def State.txOff (s : State) (F : Nat) : Bool := s.txFenced && !(s.snap.salvage && F < 32)

/-- Fiber pairs in service whose far end is this neighbour (R252). -/
def State.fibersTo (s : State) (nb : Coord) : List FiberId :=
  (List.finRange 64).filter fun (F : FiberId) =>
    s.fld (OPTIC_FIB_STATE F) OPTIC_FIB_STATE_STATE = 2 && s.fld (OPTIC_FIB_STATE F) OPTIC_FIB_STATE_FAR_COORD = nb.toNat && !s.txOff F

/-- Transmit channels in the maps of a link, in order (R235, R252); channel c = 16 F + line with direction 0. -/
def State.txChannels (s : State) (nb : Coord) : List ChanId :=
  (s.fibersTo nb).flatMap fun (F : FiberId) =>
    (List.finRange 8).filterMap fun (w : Fin 8) =>
      if (s.reg (OPTIC_FIB_STATE F)).getLsbD (32 + w.val) then some ⟨16 * F.val + w.val, by omega⟩ else none

def State.link (s : State) (nb : Coord) : Link := (s.links.find? (fun l => l.nb = nb)).getD (Link.reset nb)

def State.setLink (s : State) (l : Link) : State :=
  { s with links := if s.links.any (fun m => m.nb = l.nb) then s.links.map (fun m => if m.nb = l.nb then l else m)
                    else s.links ++ [l] }

/-- The transmitters send no DATA: after a device fault or in fail-safe, and from a device reset until a topology table is flipped
(R234, R381, R384). -/
def State.dark (s : State) : Bool := (s.txFenced && !s.snap.salvage) || !s.fab.flipped

/-- The far end sends FENCED_IDLE on a fiber pair of this link: the link is fenced (R258). -/
def State.farFenced (s : State) (nb : Coord) : Bool :=
  (List.finRange 64).any fun (F : FiberId) =>
    s.opt.fenced.contains F.val && s.fld (OPTIC_FIB_STATE F) OPTIC_FIB_STATE_STATE = 2
      && s.fld (OPTIC_FIB_STATE F) OPTIC_FIB_STATE_FAR_COORD = nb.toNat

/-- A link can carry data: a fiber pair in service, not fenced at either end, not resetting (R257, R258, R281). -/
def State.linkUp (s : State) (nb : Coord) : Bool :=
  !s.dark && !(s.txChannels nb).isEmpty && !s.farFenced nb && !(s.link nb).resetting

/-- Neighbours with a link in service. -/
def State.neighbours (s : State) : List Coord :=
  ((List.finRange 64).filterMap fun (F : FiberId) =>
    if s.fld (OPTIC_FIB_STATE F) OPTIC_FIB_STATE_STATE = 2 then
      some (BitVec.ofNat 12 (s.fld (OPTIC_FIB_STATE F) OPTIC_FIB_STATE_FAR_COORD) : Coord) else none).eraseDups

/-- `k` steps of PRBS31, x^31 + x^28 + 1 (R255). -/
def prbsSteps : Nat → BitVec 31 → BitVec 31
  | 0, v => v
  | k + 1, v => prbsSteps k ((v <<< 1) ||| BitVec.ofNat 31 ((if bit v 30 then 1 else 0) ^^^ (if bit v 27 then 1 else 0)))

/-- `n` bytes of PRBS31 and the state after them; of each byte the first bit sent is the least significant. -/
def prbsBytes : Nat → BitVec 31 → List Byte × BitVec 31
  | 0, v => ([], v)
  | n + 1, v =>
    let v' := prbsSteps 8 v
    let b := BitVec.ofNat 8 ((List.range 8).foldl (fun a i => if bit v' (7 - i) then a + 2 ^ i else a) 0)
    let r := prbsBytes n v'
    (b :: r.1, r.2)

/-- The next `n` bytes of a channel's PRBS31 sequence. -/
def State.prbs (s : State) (c : ChanId) (n : Nat) : List Byte × State :=
  let r := prbsBytes n (Maps.get (Config.prbsSeed c) s.opt.prbs c)
  (r.1, { s with opt := { s.opt with prbs := Maps.set s.opt.prbs c r.2 } })

def blockMarker : Nat := 0x9D2B6E41C7F0385A

/-- An alignment block (R255). -/
def alignBlock (widx fidx : Nat) (self : Coord) (count : Nat) (pattern : List Byte) : BitVec 2880 :=
  BitVec.ofNat 2880 (blockMarker + widx * 2 ^ 64 + fidx * 2 ^ 67 + self.toNat * 2 ^ 73 + count % 2 ^ 24 * 2 ^ 85
    + leNat pattern * 2 ^ 128 + (2 ^ 64 - 1 - blockMarker) * 2 ^ 2816)

/-- A flit goes out on a channel; after every 288 codewords an alignment block follows (R254). -/
def State.lineOut (s : State) (c : ChanId) (f : Flit) : State :=
  let n := Maps.get 0 s.opt.words c + 1
  let s := { s.emit (.flit c f) with opt := { s.opt with words := Maps.put 0 s.opt.words c n } }
  if n % 288 = 0 then
    let (pat, s) := s.prbs c 336
    s.emit (.block c (alignBlock (c.val % 8) (c.val / 16) s.self (n / 288 - 1) pat))
  else s

/-- Put one data flit on a link: SEQ, ACK and the indices of the channel it is dealt to (R252, R253, R256). -/
def State.sendDataFlit (s : State) (nb : Coord) (first : Nat) (payload : List Byte) : State :=
  let l := s.link nb
  let chans := s.txChannels nb
  let c := chans.getD (l.dealt % max 1 chans.length) 0
  let ctl : BitVec 128 := BitVec.ofNat 128 (1 + (c.val % 8) * 2 ^ 4 + (c.val / 16) * 2 ^ 8 + s.self.toNat * 2 ^ 14
    + l.txSeq.toNat * 2 ^ 26 + l.rxSeq.toNat * 2 ^ 50 + 31 * 2 ^ 75 + 31 * 2 ^ 92 + first * 2 ^ 119)
  let f := mkFlit ctl payload
  (s.setLink { l with txSeq := l.txSeq + 1, replay := l.replay ++ [f], dealt := l.dealt + 1, met := true }).lineOut c f

/-- The round robin of COL, REQ and MSG after a packet of a class (R273). -/
def turnAfter (cls turn : Nat) : Nat :=
  match cls with
  | 2 => 1
  | 0 => 2
  | 3 => 0
  | _ => turn

/-- Send a packet to a neighbour: it begins a flit of its own (log entry 8), and its credits are taken (R272). -/
def State.sendPacket (s : State) (nb : Coord) (p : Packet) : State :=
  let l := s.link nb
  let pool := poolOf p.cls p.leg p.hop
  let s := s.setLink { l with used := Maps.put 0 l.used pool (Maps.get 0 l.used pool + p.units), turn := turnAfter p.cls l.turn }
  let s := s.emit (.packet nb p)
  let parts := flitParts (ceilDiv p.bytes.length 320) p.bytes
  let s := (parts.zipIdx).foldl (fun s x => s.sendDataFlit nb (if x.2 = 0 then 0 else 15) x.1) s
  let l := s.link nb
  s.setLink { l with unacked := l.unacked ++ [(l.txSeq, p)] }

/-- A pool gave `n` units free: they are to be returned to the neighbour (R272). -/
def State.owe (s : State) (nb : Coord) (p : Packet) : State :=
  let l := s.link nb
  let pool := poolOf p.cls p.leg p.hop
  s.setLink { l with owed := Maps.put 0 l.owed pool (Maps.get 0 l.owed pool + p.units) }

/-- Take a packet out of the arrivals; its pool is free. -/
def State.takeArrived (s : State) (p : Packet) : Option State :=
  match s.fab.arrived.find? (fun a => a.pkt = p) with
  | none => none
  | some a =>
    let s := { s with fab := { s.fab with arrived := s.fab.arrived.erase a } }
    match a.via with
    | some nb => some (s.owe nb p)
    | none => some s

/-- Units of credit that a pool of the far end gives: 16,512 bytes (R272). -/
def poolUnits : Nat := 516

/-- The far end has room for the whole packet, and this end room to keep its flits until they are acknowledged: 8,192 flits a link
(R256, R272). -/
def State.hasCredit (s : State) (nb : Coord) (p : Packet) : Bool :=
  Maps.get 0 (s.link nb).used (poolOf p.cls p.leg p.hop) + p.units ≤ poolUnits && (s.link nb).replay.length + p.flits ≤ 8192

/-! ### Routes (R269) -/

/-- Where a packet for `d` goes from here under one table: none when it is for this device, else the next device. -/
inductive Hop where
  | eject
  /-- The table has no valid entry. -/
  | nowhere
  | pod (c : Coord)
  | block (port : Nat) (c : Coord)
  | system (port : Nat) (c : Coord)
  deriving DecidableEq, Repr

def coordOf (b p sl : Nat) : Coord := BitVec.ofNat 12 (b * 256 + p * 16 + sl)

/-- The next hop of R269 by the table of version `v`. -/
def State.route (s : State) (v : Bool) (d : Coord) : Hop :=
  let t := s.topo v
  let h := s.self
  if d = h then .eject
  else if blockOf d ≠ blockOf h then
    let e := t.word (0x640 + 4 * blockOf d)
    if !bit e 31 then .nowhere
    else if bits e 3 0 = slotOf h then .system (bits e 5 4) (BitVec.ofNat 12 (blockOf d * 256 + bits e 15 8))
    else .pod (coordOf (blockOf h) (podOf h) (bits e 3 0))
  else
    let e := t.word (0x240 + 4 * (16 * podOf d + slotOf d))
    if !bit e 31 then .nowhere
    else if podOf d ≠ podOf h then
      if bits e 3 0 = slotOf h then .block (bits e 7 4) (coordOf (blockOf h) (podOf d) (bits e 11 8))
      else .pod (coordOf (blockOf h) (podOf h) (bits e 3 0))
    else .pod (coordOf (blockOf h) (podOf h) (bits e 3 0))

/-- The neighbour that a hop leads to. -/
def Hop.next : Hop → Option Coord
  | .eject => none
  | .nowhere => none
  | .pod c => some c
  | .block _ c => some c
  | .system _ c => some c

/-- Send a packet to the next device, or hold it while that device's link is down or out of credit (R269, R272, R281). -/
def State.sendOrHold (s : State) (nb : Coord) (p : Packet) : State :=
  if s.linkUp nb && s.hasCredit nb p && !(s.fab.held.any (fun h => h.nb = nb)) then s.sendPacket nb p
  else { s with fab := { s.fab with held := s.fab.held ++ [⟨nb, p, none⟩] } }

/-- Occupancy mark of R276: over the pool the packet enters at the next device, and over this device's queue of held packets. -/
def State.mark (s : State) (nb : Coord) (p : Packet) : Nat :=
  let n := Maps.get 0 (s.link nb).used (poolOf p.cls p.leg p.hop)
  let q := ((s.fab.held.filter (fun h => h.nb = nb && h.via.isNone)).map (fun h => h.pkt.units)).foldl (· + ·) 0
  let m := max n q
  if 4 * m < poolUnits then 0 else if 2 * m ≤ poolUnits then 1 else if 4 * m ≤ 3 * poolUnits then 2 else 3

/-- QD raised to this device's mark (R276). -/
def State.marked (s : State) (nb : Coord) (p : Packet) : Packet := { p with w0 := setBits p.w0 15 14 (max p.qd (s.mark nb p)) }

/-- Inject a packet of this device (HOP 0); one for the device itself is handed to its own arrivals. -/
def State.inject (s : State) (p : Packet) : State :=
  let hop := s.route p.epoch p.dst
  match hop.next with
  | none => if hop = .nowhere then s else { s with fab := { s.fab with arrived := s.fab.arrived ++ [⟨none, p⟩] } }
  | some nb => s.sendOrHold nb (s.marked nb p)

/-- Answer a request, with SRC as given, with an RSP of the active epoch (R263). -/
def State.replyFrom (s : State) (src : Coord) (req : Packet) (st : Status) (data : List Byte) : State :=
  let whole := req.op = 0x29 && s.fld ROUTE_CFG ROUTE_CFG_FCOMP = 1 && fabricWhole req.addr data.length
  let enc := fabricEncode data
  let small := whole && enc.1.length < data.length
  let (pay, mask) := if small then enc else (data, 0)
  let op := if data = [] && !(req.op = 0x00 || req.op = 0x29 || (0x02 ≤ req.op && req.op ≤ 0x0B) || req.op = 0x30
    || req.op = 0x34) then 0x11 else 0x10
  s.inject (mkPacket { cls := 1, op := op, src := src, dst := req.src, ctx := req.ctx, agent := req.agent
                       epoch := s.activeEpoch, qd := req.qd, status := st, rclass := req.cls, tag := req.tag
                       cmp := small, gmask := mask, rlen := if small then data.length else 0 } pay)

/-- The answer of a device to a request that it takes. -/
def State.reply (s : State) (req : Packet) (st : Status) (data : List Byte) : State := s.replyFrom s.self req st data

end Sys2Proof.Machine
end

