-- ==== Sys2Proof/Machine/Group.lean ====
section
/-! DEFINITION. Groups: their shape, the flows that carry a collective, node values, results and lossy contributions (R56 to R59, R306 to
R331). -/
namespace Sys2Proof.Machine

open Reg

/-! ### The shape of a group (R56, R57, R308) -/

/-- Numbers with one key put together, in the order in which the keys first occur. -/
def groupBy (key : Nat → Nat) (l : List Nat) : List (List Nat) := ((l.map key).eraseDups).map fun v => l.filter (fun a => key a = v)

def Group.coord (g : Group) (r : Nat) : Coord := ((g.members[r]?).map (·.1)).getD 0
def Group.place (g : Group) (r : Nat) : Coord := ((g.members[r]?).map (·.2)).getD 0
def Group.count (g : Group) : Nat := g.members.length

/-- The rank of a device. -/
def Group.rankOf (g : Group) (c : Coord) : Option Nat := g.members.findIdx? (fun m => m.1 = c)

/-- Pod sets, each its ranks ascending, ordered by the smallest. -/
def Group.pods (g : Group) : List (List Nat) := groupBy (fun r => (g.place r).toNat / 16) (List.range g.count)

/-- First rank of a pod set. -/
def Group.podHead (g : Group) (p : Nat) : Nat := (g.pods.getD p []).headD 0

/-- Block sets, each its pod sets in order, ordered by the smallest rank. -/
def Group.blocks (g : Group) : List (List Nat) := groupBy (fun p => (g.place (g.podHead p)).toNat / 256) (List.range g.pods.length)

def Group.blockHead (g : Group) (q : Nat) : Nat := g.podHead ((g.blocks.getD q []).headD 0)

/-- The pod set of a rank, and the block set of a pod set. -/
def Group.podOf (g : Group) (r : Nat) : Nat := (g.pods.findIdx? (fun l => l.contains r)).getD 0
def Group.blockOf (g : Group) (p : Nat) : Nat := (g.blocks.findIdx? (fun l => l.contains p)).getD 0

/-- Position of a rank in its pod set. -/
def Group.posOf (g : Group) (r : Nat) : Nat := (g.pods.getD (g.podOf r) []).idxOf r

/-- Ranks in the order of the tree's leaves. -/
def Group.order (g : Group) : List Nat := g.blocks.flatMap (fun b => b.flatMap (fun p => g.pods.getD p []))

/-- Leaves of a node of the level lists that rank `r` belongs to. -/
def Group.leaves (g : Group) (r stage first count : Nat) : List Nat :=
  let podsOf := fun (l : List Nat) => l.flatMap (fun p => g.pods.getD p [])
  match stage with
  | 0 => ((g.pods.getD (g.podOf r) []).drop first).take count
  | 1 => podsOf (((g.blocks.getD (g.blockOf (g.podOf r)) []).drop first).take count)
  | 2 => ((g.blocks.drop first).take count).flatMap podsOf
  | _ => g.order

/-- The splits of R57 in a list: first position of the left child, first position and length of the right child. -/
def splits : Nat → Nat → Nat → List (Nat × Nat × Nat)
  | 0, _, _ => []
  | n + 1, lo, cnt =>
    if cnt ≤ 1 then []
    else
      let h := (cnt + 1) / 2
      (lo, lo + h, cnt - h) :: (splits n lo h ++ splits n (lo + h) (cnt - h))

/-- An edge of the member tree of R320: the member of a right child, and the member that combines it. -/
structure TreeLink where
  parent : Nat
  child : Nat
  stage : Nat
  first : Nat
  count : Nat
  deriving DecidableEq, Repr

/-- The member tree: each node is computed at the member that holds the first rank of its range (R320). -/
def Group.tree (g : Group) : List TreeLink :=
  let level := fun (stage : Nat) (heads : List Nat) =>
    (splits heads.length 0 heads.length).map fun e => TreeLink.mk (heads.getD e.1 0) (heads.getD e.2.1 0) stage e.2.1 e.2.2
  g.pods.flatMap (level 0) ++ g.blocks.flatMap (fun b => level 1 (b.map g.podHead))
    ++ level 2 ((List.range g.blocks.length).map g.blockHead)

/-- The link from a member to the one that takes its node and its verdict; none for rank 0. -/
def Group.parent (g : Group) (r : Nat) : Option TreeLink := g.tree.find? (fun l => l.child = r)
def Group.children (g : Group) (r : Nat) : List TreeLink := g.tree.filter (fun l => l.parent = r)

/-! ### Sizes of a collective (R314, R315) -/

/-- Element size of an FMT code. -/
def elemSize (fmt : Nat) : Option Nat :=
  match fmt with
  | 0x00 => some 4
  | 0x01 => some 2
  | 0x02 => some 2
  | 0x0A => some 4
  | 0x0B => some 8
  | 0x0C => some 1
  | _ => none

def Coll.esz (c : Coll) : Nat := (elemSize c.fmt).getD 1

/-- The elements are combined (REDUCE, ALLREDUCE, REDUCE_SCATTER). -/
def Coll.reduces (c : Coll) : Bool := c.kind = 2 || c.kind = 3 || c.kind = 4

/-- Sums of BF16 and FP16 are formed in FP32 (R58). -/
def Coll.wide (c : Coll) : Bool := c.redop = 1 && (c.fmt = 1 || c.fmt = 2)

/-- Bytes of the contribution of rank `r`. -/
def Coll.contribution (c : Coll) (g : Group) (r : Nat) : Nat :=
  match c.kind with
  | 1 => if r = c.root then c.len else 0
  | 2 => c.len
  | 3 => c.len
  | 4 => g.count * c.len
  | 5 => c.len
  | _ => 0

/-- Bytes of the result at rank `r`. -/
def Coll.result (c : Coll) (g : Group) (r : Nat) : Nat :=
  match c.kind with
  | 1 => c.len
  | 2 => if r = c.root then c.len else 0
  | 3 => c.len
  | 4 => c.len
  | 5 => g.count * c.len
  | _ => 0

/-- Elements of a reduced payload, or bytes of a copied contribution. -/
def Coll.elems (c : Coll) (g : Group) : Nat :=
  if c.kind = 4 then g.count * c.len / c.esz else if c.reduces then c.len / c.esz else c.len

/-- The tree is used (R320). -/
def Coll.byTree (c : Coll) (g : Group) : Bool := c.kind = 0 || g.alg = 1 || (g.alg = 0 && c.len ≤ g.smallMax)

/-! ### Flows (R320) -/

/-- Flows of the tree algorithm. -/
def Coll.treeEdges (c : Coll) (g : Group) : List Edge :=
  let n := c.elems g
  let all := if c.kind = 5 then g.count * c.len else n
  let up := g.tree.map fun l => Edge.mk l.child l.parent l.stage l.first l.count 0 n
  let down := g.tree.map fun l => Edge.mk l.parent l.child 3 l.first l.count 0 all
  match c.kind with
  | 1 => (if c.root = 0 then [] else [Edge.mk c.root 0 3 0 g.blocks.length 0 n]) ++ down
  | 2 => up ++ (if c.root = 0 then [] else [Edge.mk 0 c.root 3 0 g.blocks.length 0 n])
  | 3 => up ++ down
  | 4 => up ++ down
  | 5 => up ++ down
  | _ => []

/-- P: the size of the smallest pod set. -/
def Group.pieces (g : Group) : Nat := (g.pods.map List.length).foldl min g.count

/-- Piece `i`: its first element (or byte, for copied data) and its length. -/
def Coll.piece (c : Coll) (g : Group) (i : Nat) : Nat × Nat :=
  let u := if c.reduces then 1 else c.esz
  let n := c.elems g / u
  let p := max 1 g.pieces
  (i * n / p * u, (i + 1) * n / p * u - i * n / p * u)

/-- Flows of the direct algorithm that carry piece `i`. -/
def Coll.pieceEdges (c : Coll) (g : Group) (i : Nat) : List Edge :=
  let (a, n) := c.piece g i
  let owner := fun p => (g.pods.getD p []).getD i 0
  let pods := List.range g.pods.length
  let rootPod := g.podOf c.root
  let rootBlock := g.blockOf rootPod
  let bcast := c.kind = 1
  let leaf := pods.flatMap fun p => (g.pods.getD p []).zipIdx.filterMap fun (m : Nat × Nat) =>
    if m.1 = owner p || (bcast && m.1 ≠ c.root) then none else some (Edge.mk m.1 (owner p) 0 m.2 1 a n)
  let block := g.blocks.flatMap fun b => b.zipIdx.flatMap fun (x : Nat × Nat) => b.filterMap fun y =>
    if x.1 = y || (bcast && x.1 ≠ rootPod) then none else some (Edge.mk (owner x.1) (owner y) 1 x.2 1 a n)
  let system := g.blocks.zipIdx.flatMap fun (x : List Nat × Nat) => g.blocks.zipIdx.flatMap fun (y : List Nat × Nat) =>
    if x.2 = y.2 || (bcast && x.2 ≠ rootBlock) then []
    else y.1.zipIdx.map fun (p : Nat × Nat) => Edge.mk (owner (x.1.getD (p.2 % max 1 x.1.length) 0)) (owner p.1) 2 x.2 1 a n
  let deliver := pods.flatMap fun p => (g.pods.getD p []).filterMap fun m =>
    if m = owner p then none
    else match c.kind with
      | 2 => if m = c.root then some (Edge.mk (owner p) m 3 i 1 a n) else none
      | 4 =>
        let e := c.len / c.esz
        let lo := max a (m * e)
        let hi := min (a + n) ((m + 1) * e)
        if lo < hi then some (Edge.mk (owner p) m 3 i 1 lo (hi - lo)) else none
      | _ => some (Edge.mk (owner p) m 3 i 1 a n)
  if n = 0 then [] else leaf ++ block ++ system ++ deliver

/-- All flows of a collective. -/
def Coll.edges (c : Coll) (g : Group) : List Edge :=
  if c.kind = 0 then [] else if c.byTree g then c.treeEdges g else (List.range g.pieces).flatMap (c.pieceEdges g)

/-- Blocks of 32 elements that a range touches (R329). -/
def blocks32 (a n : Nat) : Nat := if n = 0 then 0 else (a + n - 1) / 32 + 1 - a / 32

/-- A leaf flow of a lossy contribution. -/
def Coll.lossyLeaf (c : Coll) (e : Edge) : Bool := c.lossy && e.stage = 0 && e.count = 1

/-- Bytes of one element in a node value as it travels (R58). -/
def Coll.nodeWidth (c : Coll) (stage count : Nat) : Nat :=
  if c.wide && !(stage = 0 && count = 1) && stage ≠ 3 then 4 else c.esz

/-- Bytes of a flow as sent. -/
def Coll.wireLen (c : Coll) (g : Group) (e : Edge) : Nat :=
  if c.kind = 5 && !(c.byTree g && e.stage = 3) then e.elems * (g.leaves e.src e.stage e.first e.count).length
  else if !c.reduces then e.elems
  else if c.lossyLeaf e then e.elems + blocks32 e.start e.elems
  else c.nodeWidth e.stage e.count * e.elems

/-- OFFSET of the first byte of a flow. -/
def Coll.wireOff (c : Coll) (g : Group) (e : Edge) : Nat :=
  if c.kind = 5 then (if e.stage = 3 || (g.leaves e.src e.stage e.first e.count).length ≠ 1 then 0 else e.start)
  else if !c.reduces then e.start
  else if c.lossyLeaf e then e.start + e.start / 32
  else c.nodeWidth e.stage e.count * e.start

/-! ### Bytes here -/

/-- The bytes from position `k` on that are here without a gap. -/
def prefixFrom : Nat → List (Nat × Byte) → List Byte
  | _, [] => []
  | k, x :: l => if x.1 = k then x.2 :: prefixFrom (k + 1) l else []

def InFlow.bytes (f : InFlow) : List Byte := prefixFrom 0 f.data
def Coll.ownBytes (c : Coll) : List Byte := prefixFrom 0 c.own

/-- Put bytes at positions from `k` on. -/
def putAt (m : List (Nat × Byte)) (k : Nat) (bs : List Byte) : List (Nat × Byte) :=
  bs.zipIdx.foldl (fun (m : List (Nat × Byte)) (x : Byte × Nat) => Maps.set m (k + x.2) x.1) m

/-- Little-endian numbers of `k` bytes. -/
def numsOf (k : Nat) (l : List Byte) : List Nat := (List.range (l.length / max 1 k)).map (fun i => leAt l (k * i) k)

/-! ### Elements (R58, R329) -/

def fmtOf (code : Nat) : Fmt :=
  match code with
  | 1 => .bf16
  | 2 => .fp16
  | _ => .fp32

/-- An element as the nodes combine it. -/
def Coll.widen (c : Coll) (v : Nat) : Nat := if c.wide then (toF32 ((fmtOf c.fmt).decode v)).toNat else v

/-- The operator of R58. -/
def Coll.op (c : Coll) (x y : Nat) : Nat :=
  let int := c.fmt = 0x0A || c.fmt = 0x0B
  let w := 8 * c.esz
  let f := fmtOf c.fmt
  match c.redop with
  | 1 => if int then (x + y) % 2 ^ w else (f32Add (BitVec.ofNat 32 x) (BitVec.ofNat 32 y)).toNat
  | 2 => if int then (if signedOf w y < signedOf w x then y else x) else f.convert .nearest false ((f.decode x).min (f.decode y))
  | 3 => if int then (if signedOf w x < signedOf w y then y else x) else f.convert .nearest false ((f.decode x).max (f.decode y))
  | 4 => x &&& y
  | 5 => x ||| y
  | 6 => x ^^^ y
  | _ => x

/-- Stream number of a group's draws (R46). -/
def Group.srStream (g : Group) : Word := BitVec.ofNat 64 (0x80000000 + g.gid.toNat)

/-- The final result of element `j` of the payload (R58, R315); a NaN is the canonical one, also where no operator made it (R37). -/
def Coll.finish (c : Coll) (g : Group) (j v : Nat) : Nat :=
  if c.wide then
    (fmtOf c.fmt).convert (if c.sround then .stoch (srDraw c.job c.step g.srStream (BitVec.ofNat 64 j)) else .nearest) false
      (f32 (BitVec.ofNat 32 v))
  else if c.fmt ≤ 2 && c.redop ≤ 3 && (fmtOf c.fmt).decode v = .nan then (fmtOf c.fmt).nanCode
  else v

/-- A lossy element from its E4M3 code and the scale of its block (R329). -/
def mxValue (code scale : Byte) : F32 :=
  match e8m0 scale.toNat with
  | none => f32NaN
  | some x => toF32 ((Fmt.e4m3.decode code.toNat).scale x)

/-- Read lossy elements, block segment after block segment, each followed by its scale; a segment counts when all of it is here. -/
def readLossy : Nat → Nat → Nat → List Byte → List Nat
  | 0, _, _, _ => []
  | f + 1, a, n, l =>
    let k := min (32 - a % 32) n
    if n = 0 || l.length < k + 1 then []
    else
      let sc := l.getD k 0
      (l.take k).map (fun q => (mxValue q sc).toNat) ++ readLossy f (a + k) (n - k) (l.drop (k + 1))

/-- A lossy contribution's elements `a` to `a + n - 1` as sent. -/
def Coll.sendLossy (c : Coll) : Nat → Nat → Nat → List Byte
  | 0, _, _ => []
  | f + 1, a, n =>
    let k := min (32 - a % 32) n
    if n = 0 then []
    else (c.qcodes.drop a).take k ++ [c.scales.getD (a / 32) 0] ++ c.sendLossy f (a + k) (n - k)

/-- The scale exponent of a block: the smallest that keeps amax at or below 448, 0 for a block of zeros (R329). E8M0 reaches down to
-127. None for a block with an infinity or a NaN. -/
def lossyScale (vs : List Fv) : Option Int :=
  if vs.any (fun v => v.isNan || v.isInf) then none
  else
    let cands := (List.range 255).map (fun (i : Nat) => (i : Int) - 127)
    if vs.all Fv.isZero then some 0
    else cands.find? (fun x => vs.all (fun v => !((Fv.fin false 448 0).lt (v.abs.scale (-x)))))

/-- Quantize one block: element codes, scale code, q values. An infinity or a NaN gives the scale 0xFF, and elements of zero (R39). -/
def quantBlock (job step : BitVec 32) (stream : Word) (idx : Nat) (vs : List F32) : List Byte × Byte × List F32 :=
  match lossyScale (vs.map f32) with
  | none => (vs.map (fun _ => 0), 0xFF, vs.map (fun _ => f32NaN))
  | some x =>
    let codes := vs.zipIdx.map fun (v : F32 × Nat) =>
      BitVec.ofNat 8 (Fmt.e4m3.convert (.stoch (srDraw job step stream (BitVec.ofNat 64 (idx + v.2)))) false ((f32 v.1).scale (-x)))
    let sc := BitVec.ofNat 8 (x + 127).toNat
    (codes, sc, codes.map (fun q => mxValue q sc))

/-- Quantize a contribution from element `j` on, block after block. -/
def quantAll (job step : BitVec 32) (stream : Word) (idx : Nat) : Nat → List F32 → List Byte × List Byte × List F32
  | 0, _ => ([], [], [])
  | f + 1, vs =>
    if vs = [] then ([], [], [])
    else
      let b := quantBlock job step stream idx (vs.take 32)
      let r := quantAll job step stream (idx + 32) f (vs.drop 32)
      (b.1 ++ r.1, b.2.1 :: r.2.1, b.2.2 ++ r.2.2)

/-! ### Values (R57, R59) -/

/-- The data of the flow that brings a node, if one does. -/
def Coll.inData (c : Coll) (stage first count start : Nat) : Option (List Byte) :=
  (c.ins.find? (fun f => f.edge.stage = stage && f.edge.first = first && f.edge.count = count && f.edge.start = start)).map InFlow.bytes

/-- A node value as it arrives, as elements. -/
def Coll.readNode (c : Coll) (stage count a n : Nat) (bs : List Byte) : List Nat :=
  if !c.reduces then bs.map BitVec.toNat
  else if c.lossy && stage = 0 && count = 1 then readLossy (n + 1) a n bs
  else
    let vs := numsOf (c.nodeWidth stage count) bs
    if stage = 0 && count = 1 then vs.map c.widen else vs

/-- The own contribution, elements `a` to `a + n - 1`, as far as it is here. -/
def Coll.ownElems (c : Coll) (me a n : Nat) : List Nat :=
  if c.reduces then (numsOf c.esz ((c.ownBytes.drop (a * c.esz)).take (n * c.esz))).map c.widen
  else if c.kind = 1 && me ≠ c.root then []
  else ((c.ownBytes.drop a).take n).map BitVec.toNat

/-- Join two children: combine, or for copied data lay side by side (ALLGATHER) or take the one that is there (BROADCAST). -/
def Coll.join (c : Coll) (full : Nat) (l r : List Nat) : List Nat :=
  if c.reduces then List.zipWith c.op l r
  else if c.kind = 5 then (if l.length = full then l ++ r else l)
  else if l = [] then r else l

/-- The value of a node at this member for elements `a` to `a + n - 1`, as far as all it needs is here: brought by a flow, or formed
from its children. -/
def Coll.node (c : Coll) (g : Group) : Nat → Nat → Nat → Nat → Nat → Nat → List Nat
  | 0, _, _, _, _, _ => []
  | f + 1, stage, lo, cnt, a, n =>
    match c.inData stage lo cnt a with
    | some bs => c.readNode stage cnt a n bs
    | none =>
      let pod := g.pods.getD (g.podOf g.rank) []
      let block := g.blocks.getD (g.blockOf (g.podOf g.rank)) []
      if cnt ≤ 1 then
        match stage with
        | 0 => if pod.getD lo g.count = g.rank then c.ownElems g.rank a n else []
        | 1 => if block.getD lo g.pods.length = g.podOf g.rank then c.node g f 0 0 pod.length a n else []
        | _ => if lo = g.blockOf (g.podOf g.rank) then c.node g f 1 0 block.length a n else []
      else
        let h := (cnt + 1) / 2
        c.join ((g.leaves g.rank stage lo h).length * n) (c.node g f stage lo h a n) (c.node g f stage (lo + h) (cnt - h) a n)

/-- Levels of the three trees are at most 13 each. -/
def nodeFuel : Nat := 48

/-- The bytes of a node value as it travels. -/
def Coll.nodeBytes (c : Coll) (g : Group) (stage lo cnt a n : Nat) : List Byte :=
  (c.node g nodeFuel stage lo cnt a n).flatMap (leBytes (if c.reduces then c.nodeWidth stage cnt else 1))

/-- The root for elements from `a` on, as result bytes. -/
def Coll.rootBytes (c : Coll) (g : Group) (a n : Nat) : List Byte :=
  let vs := c.node g nodeFuel 2 0 g.blocks.length a n
  if c.reduces then vs.zipIdx.flatMap (fun (v : Nat × Nat) => leBytes c.esz (c.finish g (a + v.2) v.1))
  else vs.map (fun v => BitVec.ofNat 8 v)

/-- Lay parts side by side as far as each is whole. -/
def layParts : List (Nat × List Byte) → List Byte
  | [] => []
  | x :: l => if x.2.length = x.1 then x.2 ++ layParts l else x.2

/-- Contributions in the order of the leaves, `n` bytes each, put in rank order, when all are here. -/
def Group.byRank (g : Group) (n : Nat) (l : List Byte) : List Byte :=
  if l.length = g.count * n then (List.range g.count).flatMap (fun r => (l.drop (g.order.idxOf r * n)).take n) else []

/-- The result that the tree algorithm has at this member and passes down. -/
def Coll.treeResult (c : Coll) (g : Group) : List Byte :=
  match c.ins.find? (fun f => f.edge.stage = 3) with
  | some f => f.bytes
  | none =>
    if g.rank ≠ 0 then []
    else if c.kind = 1 then c.ownBytes
    else if c.kind = 5 then g.byRank c.len (c.rootBytes g 0 c.len)
    else c.rootBytes g 0 (c.elems g)

/-- Piece `i` of the result at this member: formed here by its owner, or delivered. -/
def Coll.pieceBytes (c : Coll) (g : Group) (i : Nat) : List Byte :=
  let (a, n) := c.piece g i
  if g.posOf g.rank = i then c.rootBytes g a n
  else ((c.ins.find? (fun f => f.edge.stage = 3 && f.edge.first = i)).map InFlow.bytes).getD []

/-- What a flow carries, as far as it is here. -/
def Coll.outBytes (c : Coll) (g : Group) (e : Edge) : List Byte :=
  if e.stage ≠ 3 then
    if c.reduces && e.stage = 0 && e.count = 1 then
      (if c.lossy then c.sendLossy (e.elems + 1) e.start e.elems else (c.ownBytes.drop (e.start * c.esz)).take (e.elems * c.esz))
    else c.nodeBytes g e.stage e.first e.count e.start e.elems
  else if c.byTree g then (if c.kind = 1 && e.dst = 0 then c.ownBytes else c.treeResult g)
  else
    let a := (c.piece g e.first).1
    if c.kind = 5 then c.pieceBytes g e.first
    else
      let u := if c.reduces then c.esz else 1
      ((c.pieceBytes g e.first).drop ((e.start - a) * u)).take (e.elems * u)

/-- The own result as far as it is here (R314). -/
def Coll.resultBytes (c : Coll) (g : Group) : List Byte :=
  if c.result g g.rank = 0 then []
  else if c.byTree g then
    (if c.kind = 4 then ((c.treeResult g).drop (g.rank * c.len)).take c.len else c.treeResult g)
  else if c.kind = 4 then
    let e := c.len / c.esz
    layParts ((List.range g.pieces).filterMap fun i =>
      let (a, n) := c.piece g i
      let lo := max a (g.rank * e)
      let hi := min (a + n) ((g.rank + 1) * e)
      if lo < hi then
        let b := c.pieceBytes g i
        some ((hi - lo) * c.esz, if g.posOf g.rank = i then (b.drop ((lo - a) * c.esz)).take ((hi - lo) * c.esz) else b)
      else none)
  else if c.kind = 5 then
    layParts ((List.range g.count).flatMap fun r => (List.range g.pieces).map fun i =>
      let n := (c.piece g i).2
      (n, ((c.pieceBytes g i).drop (g.order.idxOf r * n)).take n))
  else
    layParts ((List.range g.pieces).map fun i => ((c.piece g i).2 * (if c.reduces then c.esz else 1), c.pieceBytes g i))

/-- The other owners whose digests of a node value are compared (R325): rank and stage. -/
def Coll.peerList (c : Coll) (g : Group) : List Peer :=
  let i := g.posOf g.rank
  let block := g.blocks.getD (g.blockOf (g.podOf g.rank)) []
  if !c.reduces || c.byTree g || g.pieces ≤ i || (c.piece g i).2 = 0 then []
  else
    let owners := fun (ps : List Nat) => (ps.map (fun p => (g.pods.getD p []).getD i 0)).filter (fun r => r ≠ g.rank)
    (owners block).map (fun r => Peer.mk r 1 false none)
      ++ (if g.blocks.length ≤ 1 then [] else (owners (List.range g.pods.length)).map (fun r => Peer.mk r 2 false none))

/-! ### Groups in the state (R332) -/

def State.group (s : State) (h : Nat) : Option Group := s.groups.find? (fun g => g.handle = h)

/-- 64 KiB units that groups have not reserved. -/
def State.freeUnits (s : State) : Nat :=
  min 262144 (s.fld COLL_BUF_SIZE COLL_BUF_SIZE_UNITS) - (s.groups.map (fun (g : Group) => g.rxbuf + g.sbuf)).foldl (· + ·) 0

/-- COLL_STATUS shows the handles in use and the free units. -/
def State.countGroups (s : State) : State :=
  (s.setFld COLL_STATUS COLL_STATUS_ACTIVE s.groups.length).setFld COLL_STATUS COLL_STATUS_FREE s.freeUnits

/-- The registers of a group show it. -/
def State.showGroup (s : State) (g : Group) : State :=
  let h := g.handle
  let s := s.setReg (COLL_GRP_ID h) (BitVec.ofNat 64 (g.gid.toNat * 2 ^ 32 + g.members.length * 2 ^ 16 + g.rank))
  let s := s.setReg (COLL_GRP_STATE h) (BitVec.ofNat 64 (g.nextSeq.toNat * 2 ^ 32 + g.weight * 2 ^ 12 + g.alg * 2 ^ 10 + g.state))
  s.setReg (COLL_GRP_BUF h) (BitVec.ofNat 64 (g.smallMax * 2 ^ 32 + g.sbuf * 2 ^ 16 + g.rxbuf))

/-- Put a group into the state. -/
def State.setGroup (s : State) (g : Group) : State :=
  ({ s with groups := if s.groups.any (fun (x : Group) => x.handle = g.handle) then s.groups.map (fun (x : Group) => if x.handle = g.handle then g else x)
                      else s.groups ++ [g] }.showGroup g).countGroups

/-- Release a group's reservations and free its handle (R312). -/
def State.dropGroup (s : State) (h : Nat) : State :=
  let gid := (s.group h).map (·.gid)
  let s := { s with groups := s.groups.filter (fun (g : Group) => g.handle ≠ h), joins := s.joins.filter (fun (j : Join) => some j.gid ≠ gid) }
  (((s.setReg (COLL_GRP_ID h) 0).setReg (COLL_GRP_STATE h) 0).setReg (COLL_GRP_BUF h) 0).countGroups

/-- Set the POISON tag of every unit of a result that the collective writes (R326); a DST that R313 refuses is none. -/
def State.poisonResult (s : State) (a : Auth) (g : Group) (c : Coll) : State :=
  let n := c.result g g.rank
  match s.decode (BitVec.ofNat 64 c.dstAt) with
  | .here o =>
    match (s.protect (s.me a) .wr false o n).1 with
    | .ok (.setup _) => s
    | .ok (.door _ _) => s
    | .ok _ => s.poisonUnits (unitsOf o n)
    | .error _ => s
  | _ => s

/-- The group once a collective is over: it is kept among the last 16, and NEXT_SEQ moves on (R317). -/
def Group.closeOut (g : Group) (c : Coll) (cw : Status) : Group :=
  { g with cur := none, past := ({ c with cwait := cw } :: g.past).take 16, nextSeq := g.nextSeq + 1
           early := g.early.filter (fun p => BitVec.ofNat 32 (bits p.w2 63 32) ≠ c.seq)
           sent := g.sent.filter (fun x => x.pkt.op ≠ 0x20 && BitVec.ofNat 32 (bits x.pkt.w2 63 32) = c.seq) }

end Sys2Proof.Machine
end

