-- ==== Sys2Proof/Machine/Requests.lean ====
section
/-! DEFINITION. Requests as their agents make them: cutting, agents, redirection to replicas, the waiting queue (R263, R264, R284,
R286, R302). -/
namespace Sys2Proof.Machine

open Reg

/-- AGENT codes that are not a core's (R264). -/
def agentRanger : Nat := 148
def agentFabric : Nat := 149
def agentFront : Nat := 147

/-- AGENT of a ring's descriptors: by class and engine, 148 for a SYSTEM ring (R264). -/
def State.ringAgent (s : State) (n : RingId) : Nat :=
  if s.fld (RING_CFG n) RING_CFG_SYSTEM = 1 then agentRanger
  else match s.fld (RING_CFG n) RING_CFG_CLASS with
    | 1 => 128 + s.fld (RING_CFG n) RING_CFG_ENGINE
    | 2 => 144
    | 3 => 145
    | 4 => 146
    | 5 => agentFront
    | _ => agentFabric

/-- Context of a ring (R197). -/
def State.ringCtx (s : State) (n : RingId) : Ctx :=
  ⟨s.fld (RING_CFG n) RING_CFG_CTX % 64, Nat.mod_lt _ (by decide)⟩

/-- Authority of a ring's accesses (R197). -/
def State.ringAuth (s : State) (n : RingId) : Auth :=
  if s.fld (RING_CFG n) RING_CFG_SYSTEM = 1 then .ranger else .ctx (s.ringCtx n)

/-- A request with every field it does not need at zero. -/
def newReq (cls op : Nat) (dst : Coord) (agent : Nat) (x : Ctx) (addr : Nat) (owner : Owner) : Req :=
  { cls := cls, dst := dst, op := op, agent := agent, ctx := x, addr := addr, operand := 0, rlen := 0, payload := []
    gmask := 0, cmp := false, owner := owner, tag := 0, epoch := false, retries := 0, last := none }

/-- Hand a request to the pair sequence of its class and destination (R286). -/
def State.request (s : State) (r : Req) : State := { s with fab := { s.fab with waiting := s.fab.waiting ++ [r] } }

/-- Cut a range at every aligned `u`-byte boundary: offset, length and position of each part (R284). -/
def cuts (u o n : Nat) : List (Nat × Nat × Nat) :=
  if n = 0 then []
  else (List.range ((o + n - 1) / u + 1 - o / u)).map fun i =>
    let lo := max o ((o / u + i) * u)
    let hi := min (o + n) ((o / u + i + 1) * u)
    (lo, hi - lo, lo - o)

/-- Read a remote range by LOAD requests (R263, R284); `own` says whose each part is, by its position. -/
def State.requestLoads (s : State) (dst : Coord) (agent : Nat) (x : Ctx) (o n : Nat) (own : Nat → Owner) : State :=
  (cuts 4096 o n).foldl (fun s c =>
    s.request { newReq 0 0x00 dst agent x c.1 (own c.2.2) with rlen := c.2.1 }) s

/-- Write a remote range by STORE requests. -/
def State.requestStores (s : State) (dst : Coord) (agent : Nat) (x : Ctx) (o : Nat) (bs : List Byte)
    (own : Nat → Owner) : State :=
  (cuts 4096 o bs.length).foldl (fun s c =>
    s.request { newReq 0 0x01 dst agent x c.1 (own c.2.2) with payload := (bs.drop c.2.2).take c.2.1 }) s

/-- Number of requests that a range is cut into. -/
def cutCount (u o n : Nat) : Nat := (cuts u o n).length

/-! ### Replica sets (R301 to R303) -/

/-- Member `i` of set `r`. -/
def State.member (s : State) (r i : Nat) : Coord :=
  BitVec.ofNat 12 (bits (s.reg (FAB_REPL_MEMBERS r (i / 5))) (12 * (i % 5) + 11) (12 * (i % 5)))

/-- The members of set `r`, home first. -/
def State.members (s : State) (r : Nat) : List Coord :=
  (List.range (min 16 (s.fld (FAB_REPL_CFG r) FAB_REPL_CFG_COUNT))).map (s.member r)

/-- First offset and length of set `r`. -/
def State.setRange (s : State) (r : Nat) : Nat × Nat :=
  (s.fld (FAB_REPL_BASE r) FAB_REPL_BASE_BASE * 4096, s.fld (FAB_REPL_LEN r) FAB_REPL_LEN_LEN * 4096)

/-- The smallest of some coordinates by (coordinate XOR own). -/
def nearestBy (self : Coord) : List Coord → Option Coord
  | [] => none
  | c :: l =>
    match nearestBy self l with
    | none => some c
    | some d => if (d ^^^ self).toNat < (c ^^^ self).toNat then some d else some c

/-- The nearest member of a set (R302). -/
def State.nearest (s : State) (ms : List Coord) : Option Coord :=
  if ms.contains s.self then some s.self
  else
    match nearestBy s.self (ms.filter (fun c => blockOf c = blockOf s.self && podOf c = podOf s.self)) with
    | some c => some c
    | none => nearestBy s.self ms

/-- The set of a context that a range of device `c` lies in. -/
def State.setOf (s : State) (x : Ctx) (c : Coord) (o n : Nat) : Option Nat :=
  (List.range 64).find? fun r =>
    s.fld (FAB_REPL_CFG r) FAB_REPL_CFG_VALID = 1 && s.fld (FAB_REPL_CFG r) FAB_REPL_CFG_CTX = x.val
      && (s.members r).contains c && (s.setRange r).1 ≤ o && o + n ≤ (s.setRange r).1 + (s.setRange r).2

/-- The device a read of a range goes to, after redirection (R302). -/
def State.redirect (s : State) (a : Auth) (c : Coord) (o n : Nat) : Coord :=
  match a with
  | .ranger => c
  | .ctx x =>
    match s.setOf x c o n with
    | some r => (s.nearest (s.members r)).getD c
    | none => c

/-! ### Counting a core's writes (R298) -/

/-- Whether an owner is a write of core `k`. -/
def Owner.writeOf (k : CoreId) : Owner → Bool
  | .store j _ _ => j = k
  | .atomic j _ _ _ _ _ => j = k
  | .broadWrite j _ _ => j = k
  | _ => false

/-- Writes of core `k` to `d` that are not yet acknowledged, refused or failed, in one epoch; those still to be injected count in
the epoch they will be sent in (R298, R299). -/
def State.headcount (s : State) (k : CoreId) (d : Coord) (e : Bool) : Nat :=
  (s.fab.outst.filter (fun r => r.dst = d && r.epoch = e && r.owner.writeOf k)).length
    + (s.fab.waiting.filter (fun r => r.dst = d && s.activeEpoch = e && r.owner.writeOf k)).length

/-- Destinations with a nonzero count: the Headcount table of the core. -/
def State.headDests (s : State) (k : CoreId) : List Coord :=
  ((s.fab.outst ++ s.fab.waiting).filterMap (fun r => if r.owner.writeOf k then some r.dst else none)).eraseDups

/-- A write to `d` must wait: the table of 32 destinations is full (R298). -/
def State.headFull (s : State) (k : CoreId) (d : Coord) : Bool :=
  !(s.headDests k).contains d && 32 ≤ (s.headDests k).length

/-! ### Mirroring (R373) -/

/-- ROLE for an authority: 0 source, 1 shadow, 2 none. -/
def State.mirrorRole (s : State) (a : Auth) : Nat :=
  match a, s.snap.mirror with
  | .ctx x, some y => if x = y then s.fld SNAP_SHADOW_STATE SNAP_SHADOW_STATE_ROLE else 2
  | _, _ => 2

def State.isSource (s : State) (a : Auth) : Bool := s.mirrorRole a = 0
def State.isShadow (s : State) (a : Auth) : Bool := s.mirrorRole a = 1

/-- The device mirrored to or from. -/
def State.mirrorPeer (s : State) : Coord := BitVec.ofNat 12 (s.fld SNAP_SHADOW_STATE SNAP_SHADOW_STATE_PEER)

/-- A write performed here for a context by an agent outside is sent to the shadow, at the same offset, in its order. -/
def State.mirror (s : State) (a : Auth) (o : Nat) (bs : List Byte) : State :=
  match a with
  | .ranger => s
  | .ctx x =>
    if s.isSource a then
      (cuts 8192 o bs.length).foldl (fun (s : State) c =>
        s.request { newReq 3 0x28 s.mirrorPeer agentFabric x c.1 .nobody with payload := (bs.drop c.2.2).take c.2.1 }) s
    else s

/-- Where a source addresses what is not memory: its report of a collective, and the copy of its groups. The spec gives no place; these
offsets lie past every range of the map (log entry 20). -/
def verdictAddr : Nat := 0xFFFFFFFFFFE0
def groupsAddr : Nat := 0xFFFF00000000

/-- A source reports a completed collective to its shadow: GID, SEQ, status and contribution digest. -/
def State.sendVerdict (s : State) (a : Auth) (v : Verdict) : State :=
  match a with
  | .ranger => s
  | .ctx x =>
    if s.isSource a then
      s.request { newReq 3 0x28 s.mirrorPeer agentFabric x verdictAddr .nobody with
        payload := leBytes 4 v.gid.toNat ++ leBytes 4 v.seq.toNat ++ leBytes 8 v.status.code ++ leBytes 8 v.digest.toNat ++ leBytes 8 0 }
    else s

/-- The report that a payload holds. -/
def verdictOf (pl : List Byte) : Verdict :=
  ⟨BitVec.ofNat 32 (leAt pl 0 4), BitVec.ofNat 32 (leAt pl 4 4), Status.ofCode (leAt pl 8 1), wordAt pl 16⟩

end Sys2Proof.Machine
end

