-- ==== Sys2Proof/Machine/Events.lean ====
section
/-! DEFINITION. Records, event rings, descriptor completions decided, what stops a core or a descriptor, traps and trap-halts, job
aborts (R78 to R82, R100, R213, R215 to R223, R378, R379, R383, R385, R386). -/
namespace Sys2Proof.Machine

open Reg

/-! ### Records (R215, R216) -/

/-- PHASE of the record with index `i` in a ring of 2^k slots (R216). -/
def phaseOf (i k : Nat) : Nat := 1 - i / 2 ^ k % 2

/-- A 32-byte record. -/
def record (w0 index ring typ status : Nat) (d0 : Word) (d1 ctx sev temp kind phase : Nat) : List Byte :=
  leBytes 8 w0 ++ leBytes 4 index ++ leBytes 2 ring ++ leBytes 1 typ ++ leBytes 1 status ++ leBytes 8 d0.toNat
    ++ leBytes 4 d1 ++ leBytes 1 ctx ++ leBytes 1 sev ++ leBytes 1 temp ++ leBytes 1 (2 * kind + phase)

/-- Severity of an event: the high byte of its code (R379). -/
def Event.severity (e : Event) : Nat := bits e.code 15 8

/-- The record of an event at index `i` of a ring of 2^k slots. -/
def Event.record (e : Event) (i k : Nat) : List Byte :=
  Machine.record (e.code.toNat * 2 ^ 48 + e.detail.toNat) i e.ring.toNat 0 e.status.code e.d0 e.d1.toNat
    (match e.ctx with
      | some x => x.val
      | none => 0xFF) e.severity 0 1 (phaseOf i k)

/-- An event with the fields that most leave zero. -/
def event (code : Nat) (detail : BitVec 48) (ctx : Option Ctx) : Event :=
  { code := BitVec.ofNat 16 code, detail := detail, ring := 0xFFFF, status := .ok, d0 := 0, d1 := 0, ctx := ctx }

/-! ### Event rings (R222, R223) -/

/-- The record is dropped: counted, and OVERFLOW set. -/
def State.dropRecord (s : State) (e : Nat) : State :=
  (s.bump (RING_EVT_STATE e) RING_EVT_STATE_DROPPED).setFld (RING_EVT_STATE e) RING_EVT_STATE_OVERFLOW 1

/-- Hottest island temperature in whole °C, rounded down, as a byte (R215, R412; THERM_ISL.T_EST is in 1/16 °C). -/
def State.hottest (s : State) : Nat :=
  let ts : List Int := (List.range 148).map fun j => (BitVec.ofNat 16 (s.fld (THERM_ISL j) THERM_ISL_T_EST)).toInt
  ((ts.foldl max (ts.headD 0) / 16) % 256).toNat

/-- The worst severity still active, INFO when none (R378). -/
def State.worst (s : State) : Nat := s.active.foldl (fun m e => max m e.severity) 0

/-- The bytes of the record at index `i` of event ring `e`, which has 2^k slots (R215, R224). -/
def State.recBytes (s : State) (e : Nat) (src : RecSrc) (i k : Nat) : List Byte :=
  match src with
  | .event ev => ev.record i k
  | .lantern t n =>
    record t.toNat i s.self.toNat 0 0 n (if e = 64 then 0 else (Maps.get 0 s.lastStep e).toNat) (if e = 64 then 0xFF else e)
      s.worst s.hottest 2 (phaseOf i k)

/-- Write a record at the next index of event ring `e`. The device writes with Ranger's authority (log entry 9); a write that
fails drops the record (log entry 9), and one out of the own block is never sent (R22). -/
def State.putRecord (s : State) (e : Nat) (src : RecSrc) : State :=
  let k := s.fld (RING_EVT_CFG e) RING_EVT_CFG_LOG2SIZE
  let i := s.fld (RING_EVT_STATE e) RING_EVT_STATE_NEXT
  let a := s.reg (RING_EVT_BASE e) + BitVec.ofNat 64 (32 * (i % 2 ^ k))
  let s' := s.wrapInc (RING_EVT_STATE e) RING_EVT_STATE_NEXT
  match s.decode a with
  | .here o =>
    match s'.writeFor (s'.me .ranger) false o (s.recBytes e src i k) with
    | (.ok _, s') => s'
    | (_, _) => s.dropRecord e
  | .there c o =>
    if !s.inReach c then s.dropRecord e
    else s'.requestStores c agentRanger 0 o (s.recBytes e src i k) (fun _ => .evt ⟨e % 65, Nat.mod_lt _ (by decide)⟩)
  | _ => s.dropRecord e

/-- The own count shows event ring `e` full against consumer word `c` (R222). -/
def State.evtFull (s : State) (e : Nat) (c : BitVec 32) : Bool :=
  2 ^ s.fld (RING_EVT_CFG e) RING_EVT_CFG_LOG2SIZE
    ≤ (BitVec.ofNat 32 (s.fld (RING_EVT_STATE e) RING_EVT_STATE_NEXT) - c).toNat

/-- Write a record into event ring `e`, or drop it when the ring is full (R222). -/
def State.writeRecord (s : State) (e : Nat) (src : RecSrc) : State :=
  if !s.evtFull e (Maps.get 0 s.evtCons e) then s.putRecord e src
  else
    let a := s.reg (RING_EVT_CIDX_ADDR e)
    match s.decode a with
    | .here o =>
      match s.readFor (s.me .ranger) o 8 with
      | (.ok bs, s) =>
        let c : BitVec 32 := BitVec.ofNat 32 (leAt bs 0 4)
        let s := { s with evtCons := Maps.put 0 s.evtCons e c }
        if s.evtFull e c then s.dropRecord e else s.putRecord e src
      | (_, s) => s.dropRecord e
    | .there c o =>
      if !s.inReach c then s.dropRecord e
      else { s with evtWait := s.evtWait ++ [(e, src)] }.requestLoads c agentRanger 0 o 8
        (fun _ => .evtWord ⟨e % 65, Nat.mod_lt _ (by decide)⟩)
    | _ => s.dropRecord e

/-- Post an event into one event ring, if it is enabled. -/
def State.postTo (s : State) (e : Nat) (ev : Event) : State :=
  if s.fld (RING_EVT_CFG e) RING_EVT_CFG_ENABLE = 1 then s.writeRecord e (.event ev)
  else if e = 64 then s.bump (RING_EVT_STATE 64) RING_EVT_STATE_DROPPED else s

/-- Conditions that stay active (R378): everything above INFO. -/
def State.noteActive (s : State) (ev : Event) : State :=
  if ev.severity = 0 then s else { s with active := s.active ++ [ev] }

/-- A condition has cleared. -/
def State.clearActive (s : State) (f : Event → Bool) : State := { s with active := s.active.filter (fun e => !f e) }

/-- Post an event to the rings of R223 (no abort); fail-safe posts none (R381). -/
def State.postPlain (s : State) (ev : Event) : State :=
  if s.failsafe then s else
  let s := { s with events := (ev :: s.events).take 256 }
  let s := s.noteActive ev
  match ev.ctx with
  | some x =>
    if s.fld (RING_EVT_CFG x) RING_EVT_CFG_ENABLE = 1 then
      let s := s.postTo x ev
      if ev.severity = 2 || ev.severity = 3 then s.postTo 64 ev else s
    else s.postTo 64 ev
  | none => s.postTo 64 ev

/-! ### Completions decided (R218) -/

/-- The descriptor `i` of ring `n`. -/
def State.desc (s : State) (n : RingId) (i : Index) : Option Desc := s.descs.find? (fun d => d.ring = n && d.idx = i)

/-- Update the descriptor `i` of ring `n`. -/
def State.mapDesc (s : State) (n : RingId) (i : Index) (f : Desc → Desc) : State :=
  { s with descs := s.descs.map (fun d => if d.ring = n && d.idx = i then f d else d) }

/-- The status of a descriptor is decided; a status decided earlier stands (R386). -/
def State.endDesc (s : State) (n : RingId) (i : Index) (st : Status) (r0 : Word) (r1 : BitVec 32) : State :=
  s.mapDesc n i fun d => if d.phase = .done || d.phase = .posting then d else { d with phase := .done, status := st, r0 := r0, r1 := r1 }

/-- A launch completes: RESULT0, the island cycles it took, is an open value of the model (log entry 5); RESULT1 names the trap
that ended it (R206). -/
def State.endLaunch (s : State) (k : CoreId) (st : Status) (t : Option Trap) : State :=
  let c := s.core k
  match c.launch with
  | none => s
  | some l =>
    let (v, s) := s.free
    let r1 := match t with
      | some t => BitVec.ofNat 32 (t.cause.toNat + t.tinst.toNat * 2 ^ 8)
      | none => 0
    let s := if st = .ok then s.clearActive (fun e => e.severity = 2 && e.ctx = some l.ctx) else s
    (s.endDesc l.ring l.idx st v r1).mapCore k fun c => { c with launch := none }

/-! ### Job abort (R385, R386) -/

/-- Status of a trap-halted launch (R81). -/
def haltStatus (st : Status) : Status := if st = .ok then .aborted else st

/-! ### What stops in the middle (R85, R100, R213, R217, R383, R386) -/

/-- Core named by a load descriptor's word 0x18. -/
def coreOf (w : Word) : CoreId := ⟨bits w 6 0 % 128, Nat.mod_lt _ (by decide)⟩

/-- Whether an owner is any access of core `k`. -/
def Owner.ofCore (k : CoreId) : Owner → Bool
  | .load j _ _ _ _ _ => j = k
  | .far j _ _ _ _ _ _ => j = k
  | .store j _ _ => j = k
  | .atomic j _ _ _ _ _ => j = k
  | .broadRead j _ _ => j = k
  | .broadWrite j _ _ => j = k
  | _ => false

/-- The answers to some owners' requests go to nobody. -/
def State.disown (s : State) (p : Owner → Bool) : State :=
  let f := fun (r : Req) => if p r.owner then { r with owner := .nobody } else r
  { s with fab := { s.fab with waiting := s.fab.waiting.map f, outst := s.fab.outst.map f } }

/-- Answers to a core's requests go to nobody: replies after the fence are discarded, and the Headcount table is empty (R382, R383). -/
def State.orphanCore (s : State) (k : CoreId) : State := s.disown (fun o => o.ofCore k)

/-- The trap that a started broad instruction raises when a fence or an abort ends it with status `st`; none when it had finished with
`OK`. A fault of its own came first (R100). -/
def Broad.cutTrap (b : Broad) (st : Status) : Option Trap :=
  let st := if b.phase = .finished || b.failPos.isSome then b.status else st
  if st = .ok then none else some ⟨0x09, st, b.addr, 0⟩

/-- The broad instructions of a core end for a fence or an abort: started ones retire with `st` and raise BROAD_FAULT, which stays held
with the core's state; queued ones are discarded and counted (R81, R85, R100). -/
def Core.cutQueue (c : Core) (st : Status) : Core :=
  let faults := (c.queue.filter (fun b => b.phase ≠ .queued)).filterMap (fun b => b.cutTrap st)
  let left := (c.queue.filter (fun b => b.phase = .queued)).length
  { c with queue := [], pendingTraps := (c.pendingTraps ++ faults).take 15
           bdiscard := if faults = [] && left = 0 then c.bdiscard else if faults.length ≤ 1 then BitVec.ofNat 4 left else 0 }

/-- A core stops at its boundary for the abort of its context; its state stays (R386). -/
def Core.stopAborted (c : Core) : Core := { c.cutQueue .aborted with run := .halted, wait := .none, halting := none }

/-- The stream position that a descriptor's request serves; its notices stand behind all its bytes. -/
def Owner.posOf (n : RingId) (i : Index) : Owner → Option Nat
  | .desc m j p => if m = n && j = i then some p else none
  | .deskData m j p => if m = n && j = i then some p else none
  | .notice m j => if m = n && j = i then some (2 ^ 64) else none
  | _ => none

/-- A request that moves nothing to its destination: LOAD or GET. -/
def Req.reads (r : Req) : Bool := r.op = 0x00 || r.op = 0x29

/-- Bytes that a transfer moves. -/
def Desc.total (d : Desc) : Nat :=
  if d.typ = 0x20 then bits (d.words.getD 5 0) 63 32 * bits (d.words.getD 5 0) 31 0 else bits (d.words.getD 5 0) 31 0

/-- COPY, FILL, PUT and GET report the bytes moved (R213). -/
def Desc.moves (d : Desc) : Bool := d.typ = 0x20 || d.typ = 0x21 || d.typ = 0x30 || d.typ = 0x31

/-- RESULT0 of a transfer that was stopped: its leading bytes that hold their new values (R213). -/
def Desc.stoppedResult (d : Desc) : Word :=
  if d.moves then BitVec.ofNat 64 (min (d.failPos.getD d.total) d.total) else d.r0

/-- A descriptor that was stopped is done once nothing of it is out. -/
def Desc.stopEnd (d : Desc) : Desc :=
  if d.phase = .stopping && d.left = 0 then { d with phase := .done, r0 := d.stoppedResult } else d

/-- Local destination address of a stream position. -/
def Desc.dstAt (d : Desc) (pos : Nat) : Nat :=
  if d.typ = 0x20 then
    let rb := max 1 (bits (d.words.getD 5 0) 31 0)
    (d.words.getD 4 0).toNat + pos / rb * bits (d.words.getD 6 0) 63 32 + pos % rb
  else (d.words.getD 4 0).toNat + pos

/-- Where the write that holds a stream position begins: a COPY writes a granule of its row, or of the whole, at once (R188). -/
def Desc.writeStart (d : Desc) (pos : Nat) : Nat :=
  if d.typ = 0x20 then
    let rb := max 1 (bits (d.words.getD 5 0) 31 0)
    max (if bits (d.words.getD 6 0) 63 32 = rb then 0 else pos / rb * rb) (pos - d.dstAt pos % 4096)
  else pos

/-- A stopped descriptor loses what it would have moved from stream position `p` on. -/
def Desc.loseFrom (d : Desc) (p : Nat) : Desc := { d with failPos := some (min p (d.failPos.getD p)) }

/-- The lowest of some positions is lost. -/
def Desc.loseAll (d : Desc) (ps : List Nat) : Desc := ps.foldl Desc.loseFrom d

/-- A load descriptor that is being checked gives its bank up, not accepted (R149, R169). -/
def State.dropLoad (s : State) (d : Desc) : State :=
  let first := (s.descs.find? (fun (e : Desc) => e.typ = d.typ && e.phase = .working && coreOf (e.words.getD 3 0) = coreOf (d.words.getD 3 0))).map
    (fun e => (e.ring, e.idx)) = some (d.ring, d.idx)
  if d.phase ≠ .working then s
  else if d.typ = 0x12 && d.aux = 1 then s.mapCore (coreOf (d.words.getD 3 0)) fun c => { c with stbLoading := false }
  else if d.typ = 0x13 && first then
    s.mapCore (coreOf (d.words.getD 3 0)) fun c => { c with sfn := c.sfn.map (fun (sl : SfnSlot) => { sl with loading := false }) }
  else s

/-- Stop one descriptor with a status, unless its own is decided (R386). Its reads that are out are answered to nobody. With `await`, a
request that waits for its injection fails, and the writes that are out are answered before the completion (R217, R386); without, the
issued requests go on and their replies are discarded (R383). -/
def State.stopDesc (s : State) (st : Status) (await : Bool) (d : Desc) : State :=
  if d.phase = .done || d.phase = .posting || d.phase = .stopping then s.mapDesc d.ring d.idx fun d => { d with held := false }
  else
    let pos := fun (r : Req) => r.owner.posOf d.ring d.idx
    let kept := fun (r : Req) => await && (pos r).isSome && !r.reads
    let lost := s.fab.waiting.filterMap pos ++ (s.fab.outst.filter (fun r => !kept r)).filterMap pos
    let drop := fun (r : Req) => if (pos r).isSome && !kept r then { r with owner := .nobody } else r
    let out := s.fab.outst.map drop
    let wait := if await then s.fab.waiting.filter (fun r => (pos r).isNone) else s.fab.waiting.map fun r => if (pos r).isSome then { r with owner := .nobody } else r
    let s := s.dropLoad d
    let s := { s with fab := { s.fab with waiting := wait, outst := out }
                      launchQ := s.launchQ.filter (fun l => !(l.ring = d.ring && l.idx = d.idx)) }
    s.mapDesc d.ring d.idx fun d =>
      let d := if d.phase = .started then d.loseFrom 0 else d.loseAll (lost.map d.writeStart)
      { d with phase := .stopping, status := st, held := false, left := (out.filter kept).length }.stopEnd

/-- A write of a stopped descriptor is answered: one that failed at `p` moved nothing from there on. -/
def Desc.stopAnswer (d : Desc) (fail : Option Nat) : Desc :=
  let d := match fail with
    | some p => d.loseFrom p
    | none => d
  { d with left := d.left - 1 }.stopEnd

/-! ### Job abort (R385, R386) -/

/-- The cores running a launch of `x`. -/
def State.coresOf (s : State) (x : Ctx) : List CoreId :=
  (List.finRange 128).filter fun k =>
    ((s.core k).run = .running || (s.core k).run = .waiting || (s.core k).halting.isSome) && ((s.core k).launch.map (·.ctx)) = some x

/-- A request that waits for its injection for context `x` and that the abort fails: an access of a core or the read of a slot. What
descriptors asked for goes with them; completions, markers and what the device sends for itself stay. -/
def Req.abortable (r : Req) (x : Ctx) : Bool :=
  r.ctx = x && r.agent ≠ agentRanger &&
    match r.owner with
    | .load _ _ _ _ _ _ => true
    | .far _ _ _ _ _ _ _ => true
    | .store _ _ _ => true
    | .atomic _ _ _ _ _ _ => true
    | .broadRead _ _ _ => true
    | .broadWrite _ _ _ => true
    | .fetch _ _ => true
    | _ => false

/-- A slot read that the abort failed is made again when the slot is due (R218). -/
def State.refetch (s : State) : State :=
  let asked := fun (f : Fetch) => (s.fab.waiting ++ s.fab.outst).any fun r =>
    match r.owner with
    | .fetch n i => n = f.ring && i = f.idx
    | _ => false
  { s with fetches := s.fetches.filter (fun f => !f.reading || asked f) }

/-- The launch of a core ends for an abort: a trap-halt before it has decided the status, else it is `ABORTED` (R81, R386). Accesses that
are out are answered to nobody: the core's state stays. -/
def State.abortCore (s : State) (k : CoreId) : State :=
  let s := s.orphanCore k
  match (s.core k).halting with
  | some t => (s.endLaunch k (haltStatus t.status) (some t)).mapCore k fun c => { c.cutQueue .aborted with halting := none }
  | none => (s.endLaunch k .aborted none).mapCore k Core.stopAborted

/-- The payload of an ABORT packet (R385). -/
def abortPayload (job : BitVec 32) (x : Ctx) (seq : BitVec 16) (origin : Coord) (cause : Nat) (step : BitVec 32) : List Byte :=
  leBytes 4 job.toNat ++ leBytes 1 x.val ++ leBytes 1 0 ++ leBytes 2 seq.toNat ++ leBytes 2 origin.toNat
    ++ leBytes 2 cause ++ leBytes 4 step.toNat ++ List.replicate 16 0

/-- Send an MGT notice to every neighbour on a link in service, HOP 0; it takes no place in a pair (log entry 10). -/
def State.flood (s : State) (op : Nat) (payload : List Byte) : State :=
  s.neighbours.foldl (fun s nb =>
    if s.linkUp nb then
      let (v, s) := s.free
      s.sendOrHold nb (mkPacket { cls := 4, op := op, src := s.self, dst := nb, agent := agentRanger
                                  epoch := s.activeEpoch, tag := v.setWidth 16 } payload)
    else s) s

/-! ### Groups that lose their descriptors (R312, R326, R386) -/

/-- A DISBAND that waits completes once no collective of its group is left (R312). -/
def State.settleGroup (s : State) (h : Nat) : State :=
  match s.group h with
  | none => s
  | some g =>
    match g.disband, g.cur, g.held with
    | some (n, i), none, [] => (s.dropGroup h).endDesc n i .ok 0 0
    | _, _, _ => s

/-- The part of an aborted context in a group: its current collective ends with `ABORTED`, its held ones go, a ROLLCALL in progress
releases what it reserved, a DISBAND that waits is given up (R326, R386). -/
def State.abortGroup (s : State) (x : Ctx) (g : Group) : State :=
  let mine := fun (n : RingId) => decide (s.ringAuth n = Auth.ctx x)
  let r : State × Group := match g.cur with
    | some c => if mine c.ring then (s.poisonResult (Auth.ctx x) g c, g.closeOut c .aborted) else (s, g)
    | none => (s, g)
  let g := { r.2 with held := r.2.held.filter (fun (c : Coll) => !mine c.ring) }
  let g := match g.disband with
    | some (n, _) => if mine n then { g with disband := none, state := if g.state = 4 then 2 else g.state } else g
    | none => g
  match g.forming with
  | some (n, _) =>
    if mine n then
      (if g.before = 0 then r.1.dropGroup g.handle else r.1.setGroup { g with forming := none, state := g.before })
    else r.1.setGroup g
  | none => (r.1.setGroup g).settleGroup g.handle

/-- Act on an abort for context `x` (R386). -/
def State.abortAct (s : State) (x : Ctx) (detail : BitVec 48) : State :=
  let s := s.setFld (ERR_CTX x) ERR_CTX_ABORTED 1
  let s := s.bump (ERR_CTX x) ERR_CTX_ABORTS
  let s := { s with fab := { s.fab with waiting := s.fab.waiting.filter (fun r => !r.abortable x) } }.refetch
  let s := (s.coresOf x).foldl State.abortCore s
  let s := { s with barriers := (s.barriers.map (fun (b : Barrier) =>
                      if b.ctx = x then { b with arrived := [] } else b)).filter (fun (b : Barrier) => b.arrived ≠ []) }
  let s := (s.descs.filter (fun (d : Desc) => s.ringAuth d.ring = Auth.ctx x)).foldl (State.stopDesc · .aborted true ·) s
  let s := s.groups.foldl (fun (s : State) g => s.abortGroup x g) s
  let s := s.setFld (ERR_CTX x) ERR_CTX_DRAINING
    (if s.descs.any (fun (d : Desc) => s.ringAuth d.ring = Auth.ctx x) then 1 else 0)
  s.postPlain (event 0x0205 detail (some x))

/-- This device originates an abort of `x` (R385): it acts, and floods the ABORT. -/
def State.abortOrigin (s : State) (x : Ctx) (cause : Nat) (step : BitVec 32) : State :=
  if s.aborted x then s
  else
    let seq := s.abortSeq
    let s := { s with abortSeq := s.abortSeq + 1
                      abortsSeen := ((s.self, seq) :: s.abortsSeen).take 256 }
    let s := s.abortAct x (Config.detail 0x0205 [s.self.toNat, seq.toNat])
    s.flood 0x32 (abortPayload (s.jobOf x) x seq s.self cause step)

/-- Post an event; a STEP_FAULT of a context with AUTO_ABORT aborts it, and the notice names the `step` of the faulted work (R223,
R385). -/
def State.post (s : State) (ev : Event) (step : BitVec 32 := 0) : State :=
  let s := s.postPlain ev
  match ev.ctx with
  | some x =>
    if ev.severity = 2 && s.fld (ERR_CTX x) ERR_CTX_AUTO_ABORT = 1 then s.abortOrigin x ev.code.toNat step else s
  | none => s

/-! ### Traps (R79 to R81) -/

/-- Core `k` waits for the reply to an atomic (R76). -/
def State.atomicPending (s : State) (k : CoreId) : Bool :=
  (s.fab.waiting ++ s.fab.outst).any fun r =>
    match r.owner with
    | .atomic j _ _ _ _ _ => j = k
    | _ => false

/-- A trap-halt (R81): the core stops with its state kept, STEP_FAULT is posted, and the launch completes once the broad
instructions already issued have run to their end. -/
def State.trapHalt (s : State) (k : CoreId) (t : Trap) : State :=
  let c := s.core k
  let s := s.mapCore k fun c => { c with run := .trapHalted, wait := .none, halting := some t }
  let s := s.post { event 0x0200 (Config.detail 0x0200 [k.val, t.cause.toNat]) (some c.ctx) with status := t.status, d0 := t.bad } c.step
  if (s.core k).halting.isSome && (s.core k).queue = [] then
    (s.endLaunch k (haltStatus t.status) (some t)).mapCore k fun c => { c with halting := none }
  else s

/-- Enter a trap (R79), or trap-halt. `resume` is where RTE continues. -/
def State.trap (s : State) (k : CoreId) (t : Trap) (resume : BitVec 18) : State :=
  let s := s.mapCore k fun c => { c with lastTrap := some t }
  let c := s.core k
  if c.trapActive || c.tvec.getLsbD 0 = false then s.trapHalt k t
  else s.mapCore k fun c =>
    { c with epc := resume, tinst := t.tinst, cause := t.cause, tstatus := BitVec.ofNat 8 t.status.code, badaddr := t.bad
             trapActive := true, pc := BitVec.ofNat 18 (bits c.tvec 17 3 * 8), run := .running, wait := .none }

/-- Deliver the oldest pending imprecise fault, when the core is at an instruction boundary and no trap is active (R80). A core that
waits for the reply to an atomic is at none (R76). -/
def State.deliver (s : State) (k : CoreId) : State :=
  let c := s.core k
  match c.pendingTraps with
  | [] => s
  | t :: ts =>
    if c.run = .running && !c.trapActive && !s.atomicPending k then
      (s.mapCore k fun c => { c with pendingTraps := ts }).trap k t c.pc
    else s

/-- An imprecise fault arrives (R80): it is held and counted, and it is delivered at once when the core is at a boundary, or waits in
HALT (R82). A sixteenth is not held: the core trap-halts with the status of the oldest one pending, which is also the trap that LASTTRAP,
LASTADDR, the STEP_FAULT and the launch's RESULT1 name (DESIGN CHOICE, log entry 69: the spec names only the status). A core that runs
nothing takes none. -/
def State.imprecise (s : State) (k : CoreId) (t : Trap) : State :=
  let c := s.core k
  if c.run ≠ .running && c.run ≠ .waiting then s
  else if 15 ≤ c.pendingTraps.length then
    let old := c.pendingTraps.headD t
    (s.mapCore k fun c => { c with lastTrap := some old }).trapHalt k old
  else
    let s := s.mapCore k fun c =>
      { c with pendingTraps := c.pendingTraps ++ [t]
               run := if c.wait = .halt && !c.trapActive then .running else c.run
               wait := if c.wait = .halt && !c.trapActive then .none else c.wait }
    s.deliver k

end Sys2Proof.Machine
end

