-- ==== Sys2Proof/Machine/Doorbell.lean ====
section
/-! DEFINITION. Doorbell pages (R199, R200). -/
namespace Sys2Proof.Machine

open Reg

/-- The context that a ring's events belong to: none for a SYSTEM ring. -/
def State.ringEvtCtx (s : State) (n : RingId) : Option Ctx :=
  if s.fld (RING_CFG n) RING_CFG_SYSTEM = 1 then none else some (s.ringCtx n)

/-- A counted rejection (R199). -/
def State.rejectDoorbell (s : State) (n : RingId) (p : Nat) : State :=
  let s := s.setFld (RING_FLAGS n) RING_FLAGS_DB_REJECT 1
  let s := s.bump (RING_FLAGS n) RING_FLAGS_DB_REJECTS
  s.post { event 0x0002 (BitVec.ofNat 48 p) (s.ringEvtCtx n) with ring := BitVec.ofNat 16 n.val }

/-- A store to the doorbell page of ring `n` at byte `off` (R199, R200). -/
def State.doorbell (s : State) (a : Auth) (n : RingId) (off size : Nat) (v : Word) : Status × State :=
  if off ≠ 0 || size ≠ 8 then (.format, s)
  else if a ≠ s.ringAuth n then (.perm, s)
  else
    let pidx := s.fld (RING_STATE n) RING_STATE_PIDX
    let cidx := s.fld (RING_STATE n) RING_STATE_CIDX
    let p := bits v 31 0
    let d := (p + 2 ^ 32 - pidx) % 2 ^ 32
    if s.fld (RING_CFG n) RING_CFG_ENABLE = 0 then (.fenced, s)
    else if bits v 63 48 ≠ n.val || bits v 47 32 ≠ 0 then (.format, s.rejectDoorbell n p)
    else if d = 0 || 2 ^ 31 ≤ d then (.ok, s)
    else if 2 ^ s.fld (RING_CFG n) RING_CFG_LOG2SIZE < (p + 2 ^ 32 - cidx) % 2 ^ 32 then (.ok, s.rejectDoorbell n p)
    else (.ok, s.setFld (RING_STATE n) RING_STATE_PIDX p)

/-- What an aligned 64-bit load from a doorbell page returns (R200). -/
def State.doorbellValue (s : State) (n : RingId) : Word :=
  BitVec.ofNat 64 (n.val * 2 ^ 48 + s.fld (RING_STATE n) RING_STATE_PIDX)

/-- A ring number from a place of the map. -/
def ringOf (n : Nat) : RingId := ⟨n % 1024, Nat.mod_lt _ (by decide)⟩

/-- A write to any place of the own device that an 8-byte agent may reach: memory, or a doorbell page (R289). -/
def State.poke (s : State) (w : Who) (repub : Bool) (o : Nat) (bs : List Byte) : MemOut × State :=
  match placeOfRange o bs.length with
  | .door n off =>
    match s.doorbell w.auth (ringOf n) off bs.length (BitVec.ofNat 64 (leNat bs)) with
    | (.ok, s) => (.ok [], s)
    | (st, s) => (.err st, s)
  | _ => s.writeFor w repub o bs

/-- A read of any place of the own device: memory, or 64 aligned bits of a doorbell page (R200, R289). -/
def State.peek (s : State) (w : Who) (o n : Nat) : MemOut × State :=
  match placeOfRange o n with
  | .door r off => (if n = 8 && off % 8 = 0 then .ok (leBytes 8 (s.doorbellValue (ringOf r)).toNat) else .err .format, s)
  | _ => s.readFor w o n

end Sys2Proof.Machine
end

