-- ==== Sys2Proof/Machine/Operands.lean ====
section
/-! DEFINITION. Scalar instruction words: fields and legal encodings (R65 to R67), and the issue of one instruction (R64, R67, R68,
R83). -/
namespace Sys2Proof.Machine

/-! ### Fields of an instruction word (R65, R66) -/

def insClass (w : Word) : Nat := bits w 63 60
def insOp (w : Word) : Nat := bits w 55 48
/-- CLASS and OP of a word as one number. -/
def insCode (w : Word) : Nat := 256 * insClass w + insOp w
/-- The OP values that R103 assigns, by class. -/
def assigned (code : Nat) : Bool :=
  let op := code % 256
  match code / 256 with
  | 0x0 => op ≤ 0x12
  | 0x1 => op ≤ 0x12 || op = 0x20 || (0x30 ≤ op && op ≤ 0x35)
  | 0x2 => op = 0
  | 0x3 => op = 0
  | 0x4 => op ≤ 9
  | 0x5 => op ≤ 1
  | 0x6 => op ≤ 5 || (8 ≤ op && op ≤ 0xB) || (0x10 ≤ op && op ≤ 0x14)
  | 0x7 => op ≤ 9
  | 0x8 => op ≤ 6
  | 0x9 => op ≤ 8
  | 0xF => op ≤ 2 || (0x10 ≤ op && op ≤ 0x12) || (0x20 ≤ op && op ≤ 0x28) || (0x30 ≤ op && op ≤ 0x35)
  | _ => false
def insPneg (w : Word) : Bool := bit w 59
def insPguard (w : Word) : BitVec 3 := BitVec.ofNat 3 (bits w 58 56)
def insRd (w : Word) : BitVec 5 := BitVec.ofNat 5 (bits w 47 43)
def insRs1 (w : Word) : BitVec 5 := BitVec.ofNat 5 (bits w 42 38)
def insRs2 (w : Word) : BitVec 5 := BitVec.ofNat 5 (bits w 37 33)
/-- rs3 of format A. -/
def insRs3 (w : Word) : BitVec 5 := BitVec.ofNat 5 (bits w 32 28)
/-- pd of format R (class 0x6). -/
def insPdR (w : Word) : BitVec 3 := BitVec.ofNat 3 (bits w 32 30)
/-- pd of format I. -/
def insPdI (w : Word) : BitVec 3 := BitVec.ofNat 3 (bits w 37 35)
/-- pd of format A. -/
def insPdA (w : Word) : BitVec 3 := BitVec.ofNat 3 (bits w 27 25)
/-- imm32, sign-extended to 64 bits. -/
def insImm (w : Word) : Word := (BitVec.ofNat 32 (bits w 31 0)).signExtend 64
def insImm12 (w : Word) : Nat := bits w 11 0
/-- Bytes of a format M access. -/
def insSize (w : Word) : Nat := 2 ^ bits w 37 36
def insOvl (w : Word) : Bool := bit w 35
def insFar (w : Word) : Bool := bit w 34
def insSext (w : Word) : Bool := bit w 32

/-- Every bit of [47:0] outside the ranges given is zero: the reserved fields of the operation (R66, R67, R104). -/
def onlyBits (w : Word) (used : List (Nat × Nat)) : Bool :=
  used.foldl (fun (w : Word) r => setBits w r.1 r.2 0) w &&& 0x0000FFFFFFFFFFFF = 0

/-- Legal words of each form. -/
def legalR3 (w : Word) : Bool := onlyBits w [(47, 33)]
def legalR2 (w : Word) : Bool := onlyBits w [(47, 38)]
def legalI (w : Word) : Bool := onlyBits w [(47, 38), (31, 0)]
def legalCmpI (w : Word) : Bool := onlyBits w [(42, 38), (37, 35), (31, 0)]
def legalCmp (w : Word) : Bool := onlyBits w [(42, 33), (32, 30)]
def legalPred (w : Word) : Bool := onlyBits w [(40, 38), (35, 33), (32, 30)]
def legalPmovg (w : Word) : Bool := onlyBits w [(42, 38), (32, 30)]
def legalLd (w : Word) : Bool := onlyBits w [(47, 34), (32, 0)]
def legalSt (w : Word) : Bool := onlyBits w [(47, 35), (31, 0)]
def legalAtomic (w : Word) : Bool := onlyBits w [(47, 33), (27, 25)]
def legalCas (w : Word) : Bool := onlyBits w [(47, 28), (27, 25)]
/-- The three register pairs of ACAS2 are each named by an even register from g2 to g30 (R104). -/
def legalCas2 (w : Word) : Bool :=
  legalCas w && [insRd w, insRs2 w, insRs3 w].all (fun r => r.getLsbD 0 = false && r ≠ 0)
def legalBra (w : Word) : Bool := onlyBits w [(47, 43), (31, 0)]
def legalJmpr (w : Word) : Bool := onlyBits w [(47, 38), (31, 0)]
def legalNone (w : Word) : Bool := onlyBits w []
def legalImm12 (w : Word) : Bool := onlyBits w [(11, 0)]
def legalWaitv (w : Word) : Bool := onlyBits w [(47, 38)] && insRs1 w ≠ 0 && insRs1 w ≠ 31
def legalBwait (w : Word) : Bool := onlyBits w [(11, 0)] && insImm12 w ≤ 8

/-! ### Issue -/

/-- The word at the core's pc (R64). -/
def Core.fetched (c : Core) : Word := Maps.get 0 c.imem (c.pc.toNat / 8)

/-- The guard of a word reads 1 (R67). -/
def Core.guard (c : Core) (w : Word) : Bool := c.preg (insPguard w) != insPneg w

/-- The register that an owner's answer will write. -/
def Owner.loads (k : CoreId) : Owner → Option (BitVec 5)
  | .load j rd _ _ _ _ => if j = k then some rd else none
  | .far j rd _ _ _ _ _ => if j = k then some rd else none
  | _ => none

/-- Registers of core `k` whose loads have not returned (R68). -/
def State.busyRegs (s : State) (k : CoreId) : List (BitVec 5) :=
  (s.fab.waiting ++ s.fab.outst).filterMap (fun r => r.owner.loads k)

/-- A register named is g0 or has no load outstanding. -/
def State.regsReady (s : State) (k : CoreId) (rs : List (BitVec 5)) : Bool :=
  rs.all (fun r => r = 0 || !(s.busyRegs k).contains r)

/-- Continue at byte address `a`; an address that cannot be fetched takes the FETCH trap of this instruction (R64). -/
def State.goto (s : State) (k : CoreId) (a : Nat) : State :=
  if a % 8 = 0 && a < 0x40000 then (s.mapCore k fun c => { c with pc := BitVec.ofNat 18 a, run := .running, wait := .none }).deliver k
  else s.trap k ⟨0x02, .bound, (s.core k).pc, BitVec.ofNat 64 a⟩ (s.core k).pc

/-- Continue at the next scalar instruction. -/
def State.advance (s : State) (k : CoreId) : State := s.goto k ((s.core k).pc.toNat + 8)

/-- The ILLEGAL trap of R67. -/
def State.illegal (s : State) (k : CoreId) (w : Word) : State :=
  s.trap k ⟨0x01, .format, (s.core k).pc, w⟩ (s.core k).pc

/-- The core is at an instruction boundary where it can issue `w`: it runs, it fetched this word, no flip of banks is due first, and
no atomic waits for its reply. -/
def State.canIssue (s : State) (k : CoreId) (w : Word) : Bool :=
  (s.core k).run = .running && (s.core k).fetched = w && (s.core k).flips = [] && !s.atomicPending k && !s.coresPaused

/-- Issue one instruction word of the operation `op`: ILLEGAL before the guard, then the guard, then the registers it names, then
its effect (R67, R68). A word of no assigned operation takes ILLEGAL whichever command carries it; a word of another operation is
not this command's (log entry 11). Nothing happens while it cannot issue. -/
def State.issue (s : State) (k : CoreId) (w : Word) (op : Nat) (legal : Bool) (regs : List (BitVec 5)) (step : Nat)
    (body : State → State) : State :=
  if !s.canIssue k w || (insCode w ≠ op && assigned (insCode w)) then s
  else if insCode w ≠ op || !legal then s.illegal k w
  else if !(s.core k).guard w then s.goto k ((s.core k).pc.toNat + step)
  else if !s.regsReady k regs then s
  else body s

/-- Write a general register and continue. -/
def State.writeG (s : State) (k : CoreId) (r : BitVec 5) (v : Word) : State :=
  (s.mapCore k fun c => c.setG r v).advance k

/-- Write a predicate and continue. -/
def State.writeP (s : State) (k : CoreId) (r : BitVec 3) (v : Bool) : State :=
  (s.mapCore k fun c => c.setP r v).advance k

end Sys2Proof.Machine
end

