-- ==== Sys2Proof/Machine/Flags.lean ====
section
/-! DEFINITION. What the scalar operations compute: integers (R69, R104), FP32 with the sticky flags (R70, R71), predicates,
atomics (R294). -/
namespace Sys2Proof.Machine

/-! ### Integers (R69, R104) -/

def aluShift (b : Word) : Nat := b.toNat % 64
def aluMulhs (a b : Word) : Word := BitVec.ofInt 64 (a.toInt * b.toInt / 2 ^ 64)
def aluMulhu (a b : Word) : Word := BitVec.ofNat 64 (a.toNat * b.toNat / 2 ^ 64)
/-- Signed quotient, rounded toward zero; all ones for a zero divisor; −2^63 / −1 wraps (R69). -/
def aluDivs (a b : Word) : Word := if b = 0 then -1 else BitVec.ofInt 64 (a.toInt.tdiv b.toInt)
def aluDivu (a b : Word) : Word := if b = 0 then -1 else BitVec.ofNat 64 (a.toNat / b.toNat)
/-- Signed remainder with the sign of the dividend; the dividend for a zero divisor (R69). -/
def aluRems (a b : Word) : Word := if b = 0 then a else BitVec.ofInt 64 (a.toInt.tmod b.toInt)
def aluRemu (a b : Word) : Word := if b = 0 then a else BitVec.ofNat 64 (a.toNat % b.toNat)
def aluMin (a b : Word) : Word := if b.slt a then b else a
def aluMax (a b : Word) : Word := if a.slt b then b else a
def aluMinu (a b : Word) : Word := if b.ult a then b else a
def aluMaxu (a b : Word) : Word := if a.ult b then b else a
def aluInsh (imm a : Word) : Word := (imm <<< (32 : Nat)) ||| (a &&& 0xFFFFFFFF)

/-! ### FP32 (R70, R71) -/

/-- The FP32 value in [31:0] of a register. -/
def fpOf (w : Word) : F32 := w.setWidth 32

/-- An FP32 result in a register: bits [63:32] zero (R70). -/
def ofFp (x : F32) : Word := x.setWidth 64

/-- A result that must be rounded once, with the flags of R71: NV when the operation is invalid. -/
def fpRound (invalid : Bool) (v : Fv) : F32 × FpFlags :=
  let r := toF32Flags v
  (r.1, if invalid then flagNV else r.2)

/-- An operation on two operands that are not NaN gave NaN. -/
def newNan (a b v : Fv) : Bool := v.isNan && !a.isNan && !b.isNan

def fpAdd (a b : F32) : F32 × FpFlags := let v := (f32 a).add (f32 b); fpRound (newNan (f32 a) (f32 b) v) v
def fpSub (a b : F32) : F32 × FpFlags := let v := (f32 a).sub (f32 b); fpRound (newNan (f32 a) (f32 b) v) v
def fpMul (a b : F32) : F32 × FpFlags := let v := (f32 a).mul (f32 b); fpRound (newNan (f32 a) (f32 b) v) v
def fpDiv (a b : F32) : F32 × FpFlags :=
  let r := divFlags Fmt.fp32 (f32 a) (f32 b)
  (BitVec.ofNat 32 r.1, r.2)
def fpSqrt (a : F32) : F32 × FpFlags :=
  let r := sqrtFlags Fmt.fp32 (f32 a)
  (BitVec.ofNat 32 r.1, r.2)
/-- Fused multiply-add: zero times infinity sets NV even when the addend is a NaN (R71). -/
def fpFma (a b c : F32) : F32 × FpFlags :=
  let p := (f32 a).mul (f32 b)
  let v := p.add (f32 c)
  fpRound (newNan (f32 a) (f32 b) p || newNan p (f32 c) v) v
def fpMin (a b : F32) : F32 × FpFlags := (toF32 ((f32 a).min (f32 b)), 0)
def fpMax (a b : F32) : F32 × FpFlags := (toF32 ((f32 a).max (f32 b)), 0)
/-- Absolute value by sign manipulation; a NaN becomes the canonical NaN (R37). -/
def fpAbs (a : F32) : F32 × FpFlags := (if (f32 a).isNan then f32NaN else a &&& 0x7FFFFFFF, 0)
/-- Negation by sign manipulation; a NaN becomes the canonical NaN (R37). -/
def fpNeg (a : F32) : F32 × FpFlags := (if (f32 a).isNan then f32NaN else a ^^^ 0x80000000, 0)

def fpLt (a b : F32) : Bool × FpFlags :=
  if (f32 a).isNan || (f32 b).isNan then (false, flagNV) else ((f32 a).lt (f32 b), 0)
def fpLe (a b : F32) : Bool × FpFlags :=
  if (f32 a).isNan || (f32 b).isNan then (false, flagNV) else (!(f32 b).lt (f32 a), 0)
def fpEq (a b : F32) : Bool × FpFlags := ((f32 a).eqv (f32 b), 0)
def fpUn (a b : F32) : Bool × FpFlags := ((f32 a).isNan || (f32 b).isNan, 0)

/-- FP32 to a signed 64-bit integer (R70): NV alone when out of range or NaN, else NX when inexact (R71). -/
def fpToInt (r : Rnd) (a : F32) : Word × FpFlags :=
  let t := toIntSat r (-(2 ^ 63)) (2 ^ 63 - 1) (f32 a)
  (BitVec.ofInt 64 t.1, if t.2.1 then flagNV else if t.2.2 then flagNX else 0)

/-- Signed 64-bit to FP32 (R70). -/
def fpOfInt (a : Word) : Word × FpFlags :=
  let r := toF32Flags (Fv.ofInt a.toInt)
  (ofFp r.1, r.2)

/-- FP32 to a 16-bit format in [15:0] (R43, R70). -/
def fpNarrow (f : Fmt) (a : F32) : Word × FpFlags :=
  let r := f.convertFlags .nearest false (f32 a)
  (BitVec.ofNat 64 r.1, r.2)

/-- An exact widening of the 16-bit value in [15:0] (R70). -/
def fpWiden (f : Fmt) (a : Word) : Word × FpFlags := (ofFp (toF32 (f.decode (bits a 15 0))), 0)

/-- Set sticky flags (R71). -/
def Core.raise (c : Core) (f : FpFlags) : Core := { c with fpflags := c.fpflags ||| f }

/-! ### Atomics (R294) -/

/-- Width in bytes of an atomic, by its REQ OP (R262, R294). -/
def atomicWidth (op : Nat) : Nat := if op = 0x0A then 16 else if op = 0x0B then 4 else 8

/-- New value of the target: `m` old value, `o` operand, `c` compare value, as numbers of the operation's width. -/
def atomicNew (op m o c : Nat) : Nat :=
  let wm : Word := BitVec.ofNat 64 m
  let wo : Word := BitVec.ofNat 64 o
  match op with
  | 0x02 => (wm + wo).toNat
  | 0x03 => (aluMin wm wo).toNat
  | 0x04 => (aluMax wm wo).toNat
  | 0x05 => (wm &&& wo).toNat
  | 0x06 => (wm ||| wo).toNat
  | 0x07 => (wm ^^^ wo).toNat
  | 0x08 => o
  | 0x09 => if m = c then o else m
  | 0x0A => if m = c then o else m
  | 0x0B => (f32Add (BitVec.ofNat 32 m) (BitVec.ofNat 32 o)).toNat
  | _ => m

/-- Perform an atomic on memory of the own device (R294): the read-modify-write is one step. The old bytes on success. -/
def State.atomicHere (s : State) (w : Who) (op o operand cmp : Nat) (slow : Bool := false) : MemOut × State :=
  let n := atomicWidth op
  match placeOfRange o n with
  | .door _ _ => (.err .format, s)
  | .setup _ => (.err .format, s)
  | _ =>
    if o % n ≠ 0 then (.err .format, s)
    else match s.protect w .at_ false o n with
      | (.error st, s) => (.err st, s)
      | (.ok _, s) =>
        match s.chargeFor w.auth slow [(o, s.writeBursts none o n)] with
        | .throttled => (.err .throttled, s)
        | .wait k => (.wait, { s with regWait := Maps.add s.regWait k })
        | .go s =>
          match s.readNow o n with
          | (.ok bs, s) =>
            match s.writeNow o (leBytes n (atomicNew op (leNat bs) operand cmp)) (if placeOf o = .lpddr then [(o, none)] else []) with
            | (.ok _, s) => (.ok bs, s)
            | r => r
          | r => r

end Sys2Proof.Machine
end

