-- ==== Sys2Proof/Machine/ScalarMem.lean ====
section
/-! DEFINITION. Scalar loads, stores and atomics (R22, R24 to R27, R72 to R78, R84, R294, R298, R302, R441). -/
namespace Sys2Proof.Machine

open Reg

/-- The precise trap of the current instruction. -/
def State.preciseTrap (s : State) (k : CoreId) (cause : Byte) (st : Status) (bad : Word) : State :=
  s.trap k ⟨cause, st, (s.core k).pc, bad⟩ (s.core k).pc

/-- Who core `k` is when it accesses memory: an agent of its launch's context (R30). -/
def State.coreWho (s : State) (k : CoreId) : Who := s.me (.ctx (s.core k).ctx)

/-! ### The far-read cache (R76) -/

/-- Base offset of a line. -/
def lineBase (o : Nat) : Nat := o / 64 * 64

/-- The line that holds an offset of a device. -/
def Core.lookup (c : Core) (d : Coord) (o : Nat) : Option Line :=
  c.cache.find? (fun l => l.coord = d && l.base = lineBase o)

/-- A hit makes the line the most recently used. -/
def Core.touchLine (c : Core) (l : Line) : Core := { c with cache := l :: c.cache.filter (fun m => m ≠ l) }

/-- The set of a line: bits [12:6] of its offset. -/
def Line.set (l : Line) : Nat := l.base / 64 % 128

/-- Fill a line; the least recently used line of a full set of 8 ways gives way. -/
def Core.fillLine (c : Core) (l : Line) : Core :=
  let rest := c.cache.filter (fun m => !(m.coord = l.coord && m.base = l.base))
  let mine := rest.filter (fun m => m.set = l.set)
  let rest := if 8 ≤ mine.length then rest.filter (fun m => !(m ∈ mine.drop 7)) else rest
  { c with cache := l :: rest }

/-- Invalidate the lines of a device that hold a byte of a range. -/
def Core.dropLines (c : Core) (d : Coord) (o n : Nat) : Core :=
  { c with cache := c.cache.filter (fun l => !(l.coord = d && l.base < o + n && o < l.base + 64)) }

/-- Fills in flight of lines that `hit` names are not installed: the loads that asked for them came before what makes the line stale
(R74, R76, R125, R303). -/
def State.spoilFills (s : State) (cores : CoreId → Bool) (hit : Coord → Nat → Bool) : State :=
  let f := fun (q : Req) =>
    match q.owner with
    | .far k rd addr size sext t _ =>
      let named := match s.decode addr with
        | .there c a => hit c (lineBase a)
        | .here a => hit s.self (lineBase a)
        | _ => false
      if cores k && named then { q with owner := .far k rd addr size sext t false } else q
    | _ => q
  { s with fab := { s.fab with waiting := s.fab.waiting.map f, outst := s.fab.outst.map f } }

/-- Core `k` writes a range of a device: its lines there are invalid, also those that a load in flight would fill (R76). -/
def State.staleLines (s : State) (k : CoreId) (d : Coord) (o n : Nat) : State :=
  (s.spoilFills (fun j => j = k) (fun c b => c = d && b < o + n && o < b + 64)).mapCore k fun c => c.dropLines d o n

/-! ### Values of loads -/

/-- The register value of loaded bytes (R72). -/
def loadValue (bs : List Byte) (sext : Bool) : Word :=
  let v := leNat bs
  if sext && 2 ^ (8 * bs.length - 1) ≤ v then BitVec.ofInt 64 ((v : Int) - 2 ^ (8 * bs.length)) else BitVec.ofNat 64 v

/-- Put back the bytes that a broad write replaced. -/
def undoBytes (u : List Host.Cell) (o : Nat) (bs : List Byte) : List Byte :=
  bs.zipIdx.map (fun x =>
    match u.find? (fun e => e.1 = o + x.2) with
    | some e => e.2
    | none => x.1)

/-- A load with OVL = 1 sees its unit before or after each write of the broad instructions in flight: a free choice for each,
newest first (R84). -/
def State.ovlChoice (s : State) (o : Nat) (bs : List Byte) : List Broad → List Byte × State
  | [] => (bs, s)
  | b :: l =>
    if b.undo.any (fun e => o ≤ e.1 && e.1 < o + bs.length) then
      let (v, s) := s.free
      if v.getLsbD 0 then s.ovlChoice o (undoBytes b.undo o bs) l else (bs, s)
    else s.ovlChoice o bs l

/-! ### LD -/

/-- A load of the own device that failed while it ran: zero in rd, and LOAD_FAULT (R78). -/
def State.loadFault (s : State) (k : CoreId) (rd : BitVec 5) (st : Status) (addr : Word) : State :=
  let t : Trap := ⟨0x06, st, (s.core k).pc, addr⟩
  let s := (s.mapCore k fun c => c.setG rd 0).advance k
  s.imprecise k t

/-- A load served by the own device. -/
def State.loadHere (s : State) (k : CoreId) (w : Word) (addr : Word) (o n : Nat) : State :=
  match placeOfRange o n with
  | .hole => s.preciseTrap k 0x04 .bound addr
  | .setup _ => s.preciseTrap k 0x05 .perm addr
  | .door _ _ =>
    match s.peek (s.coreWho k) o n with
    | (.ok bs, s) => s.writeG k (insRd w) (loadValue bs (insSext w))
    | (_, s) => s.loadFault k (insRd w) .format addr
  | _ =>
    match s.protect (s.coreWho k) .rd false o n with
    | (.error _, s) => s.preciseTrap k 0x05 .perm addr
    | (.ok _, s) =>
      match s.load (s.coreWho k).auth o n with
      | (.ok bs, s) =>
        let (bs, s) := if insOvl w then s.ovlChoice o bs (s.core k).queue.reverse else (bs, s)
        s.writeG k (insRd w) (loadValue bs (insSext w))
      | (.err st, s) => s.loadFault k (insRd w) st addr
      | (.wait, s) => s

/-- A load of another device: through the far-read cache when FAR is set (R76), else one LOAD request (R284). -/
def State.loadThere (s : State) (k : CoreId) (w : Word) (addr : Word) (d : Coord) (o n : Nat) : State :=
  let c := s.core k
  let x := c.ctx
  if insFar w then
    match c.lookup d o with
    | some l =>
      (s.mapCore k fun c => c.touchLine l).writeG k (insRd w) (loadValue ((l.data.drop (o - l.base)).take n) (insSext w))
    | none =>
      let d' := s.redirect (.ctx x) d (lineBase o) 64
      if d' = s.self then
        match s.readFor (s.coreWho k) (lineBase o) 64 with
        | (.ok bs, s) =>
          (s.mapCore k fun c => c.fillLine ⟨d, lineBase o, bs⟩).writeG k (insRd w)
            (loadValue ((bs.drop (o - lineBase o)).take n) (insSext w))
        | (.err .perm, s) => s.preciseTrap k 0x05 .perm addr
        | (.err st, s) => s.loadFault k (insRd w) st addr
        | (.wait, s) => s
      else
        let r := newReq 0 0x00 d' k x (lineBase o) (.far k (insRd w) addr n (insSext w) c.pc true)
        (s.request { r with rlen := 64 }).advance k
  else
    let d' := s.redirect (.ctx x) d o n
    if d' = s.self then s.loadHere k w addr o n
    else
      let r := newReq 0 0x00 d' k x o (.load k (insRd w) addr n (insSext w) c.pc)
      (s.request { r with rlen := n }).advance k

/-- The address of a format M word. -/
def State.memAddr (s : State) (k : CoreId) (w : Word) : Word := (s.core k).greg (insRs1 w) + insImm w

/-- A scalar access with OVL = 0 waits for every earlier broad instruction to retire (R84). -/
def State.broadHeld (s : State) (k : CoreId) (ovl : Bool) : Bool := !ovl && (s.core k).queue ≠ []

/-- LD (R72, R76, R84). -/
def execLd (k : CoreId) (w : Word) (s : State) : Result :=
  .next (s.issue k w 0x200 (legalLd w) [insRd w, insRs1 w] 8 fun s =>
    let addr := s.memAddr k w
    let n := insSize w
    if addr.toNat % n ≠ 0 then s.preciseTrap k 0x03 .format addr
    else if s.broadHeld k (insOvl w) then s
    else match s.decode addr with
      | .format => s.preciseTrap k 0x04 .format addr
      | .bound => s.preciseTrap k 0x04 .bound addr
      | .here o => s.loadHere k w addr o n
      | .setupThere _ _ => s.preciseTrap k 0x05 .perm addr
      | .there d o =>
        if !s.inReach d then s.preciseTrap k 0x04 .bound addr
        else match placeOfRange o n with
          | .hole => s.preciseTrap k 0x04 .bound addr
          | .setup _ => s.preciseTrap k 0x05 .perm addr
          | _ => s.loadThere k w addr d o n)

/-! ### ST -/

/-- A store of the own device that failed: STORE_FAULT after it (R78). -/
def State.storeFault (s : State) (k : CoreId) (st : Status) (addr : Word) : State :=
  let t : Trap := ⟨0x07, st, (s.core k).pc, addr⟩
  let s := s.advance k
  s.imprecise k t

/-- A store to the own device. -/
def State.storeHere (s : State) (k : CoreId) (addr : Word) (o : Nat) (bs : List Byte) : State :=
  match placeOfRange o bs.length with
  | .hole => s.preciseTrap k 0x04 .bound addr
  | .setup _ => s.preciseTrap k 0x05 .perm addr
  | .door _ _ =>
    match s.poke (s.coreWho k) false o bs with
    | (.err st, s) => s.storeFault k st addr
    | (_, s) => s.advance k
  | _ =>
    match s.protect (s.coreWho k) .wr false o bs.length with
    | (.error _, s) => s.preciseTrap k 0x05 .perm addr
    | (.ok _, s) =>
      match s.store (s.coreWho k).auth o bs with
      | (.ok _, s) => s.advance k
      | (.err st, s) => s.storeFault k st addr
      | (.wait, s) => s

/-- ST (R72 to R76, R84, R298). -/
def execSt (k : CoreId) (w : Word) (s : State) : Result :=
  .next (s.issue k w 0x300 (legalSt w) [insRd w, insRs1 w] 8 fun s =>
    let addr := s.memAddr k w
    let n := insSize w
    let bs := leBytes n ((s.core k).greg (insRd w)).toNat
    if addr.toNat % n ≠ 0 then s.preciseTrap k 0x03 .format addr
    else if s.broadHeld k (insOvl w) then s
    else match s.decode addr with
      | .format => s.preciseTrap k 0x04 .format addr
      | .bound => s.preciseTrap k 0x04 .bound addr
      | .here o => s.storeHere k addr o bs
      | .setupThere _ _ => s.preciseTrap k 0x05 .perm addr
      | .there d o =>
        if !s.inReach d then s.preciseTrap k 0x04 .bound addr
        else match placeOfRange o n with
          | .hole => s.preciseTrap k 0x04 .bound addr
          | .setup _ => s.preciseTrap k 0x05 .perm addr
          | _ =>
            if s.headFull k d then s
            else
              let r := newReq 0 0x01 d k (s.core k).ctx o (.store k addr (s.core k).pc)
              ((s.request { r with payload := bs }).staleLines k d o n).advance k)

/-! ### Atomics (R76, R104, R294) -/

/-- Write the old value of an atomic: one register, or the pair of ACAS2 (R104). -/
def Core.setOld (c : Core) (rd : BitVec 5) (wide : Bool) (v : Nat) : Core :=
  if wide then (c.setG rd (BitVec.ofNat 64 v)).setG (rd + 1) (BitVec.ofNat 64 (v / 2 ^ 64)) else c.setG rd (BitVec.ofNat 64 v)

/-- A 64-bit register pair as one value: the even register holds the low half (R104). -/
def Core.pair (c : Core) (r : BitVec 5) : Nat := (c.greg r).toNat + 2 ^ 64 * (c.greg (r + 1)).toNat

/-- ATOMIC_FAULT. Imprecise faults that came during the wait are delivered first, oldest first (R80); the atomic is not made again for
that: its own trap is held behind them (DESIGN CHOICE, log entry 70). -/
def State.atomicFault (s : State) (k : CoreId) (st : Status) (addr : Word) : State :=
  let c := s.core k
  if c.pendingTraps = [] || c.trapActive then s.preciseTrap k 0x08 st addr
  else (s.mapCore k fun c => { c with pendingTraps := c.pendingTraps ++ [⟨0x08, st, c.pc, addr⟩] }).deliver k

/-- The reply of an atomic (R76, R78): `OK` and `ATOMIC_UNKNOWN` write rd and pd, any other status takes ATOMIC_FAULT. -/
def State.atomicDone (s : State) (k : CoreId) (rd : BitVec 5) (pd : BitVec 3) (wide : Bool) (addr : Word) (st : Status)
    (bs : List Byte) : State :=
  if st = .ok || st = .atomicUnknown then
    (s.mapCore k fun c => (c.setOld rd wide (leNat bs)).setP pd (st = .ok)).advance k
  else s.atomicFault k st addr

/-- The scalar atomic with REQ operation `op` (R262): it takes its address from rs1 and waits for its reply. -/
def State.atomic (s : State) (k : CoreId) (w : Word) (op : Nat) : State :=
  let wide := op = 0x0A
  let cas := op = 0x09
  let pairs := if wide then [insRd w, insRd w + 1, insRs2 w, insRs2 w + 1, insRs3 w, insRs3 w + 1] else [insRd w, insRs2 w]
  s.issue k w (0x400 + op - 2) (if wide then legalCas2 w else if cas then legalCas w else legalAtomic w)
      ([insRs1 w] ++ pairs ++ (if cas then [insRs3 w] else [])) 8 fun s =>
    let c := s.core k
    let addr := c.greg (insRs1 w)
    let n := atomicWidth op
    let operand := if wide then c.pair (insRs2 w) else if op = 0x0B then (c.greg (insRs2 w)).toNat % 2 ^ 32
      else (c.greg (insRs2 w)).toNat
    let cmp := if wide then c.pair (insRs3 w) else (c.greg (insRs3 w)).toNat
    if s.broadHeld k false then s
    else match s.decode addr with
      | .format => s.preciseTrap k 0x04 .format addr
      | .bound => s.preciseTrap k 0x04 .bound addr
      | .setupThere _ _ => s.preciseTrap k 0x08 .format addr
      | .here o =>
        match placeOfRange o n with
        | .hole => s.preciseTrap k 0x04 .bound addr
        | _ =>
          match s.atomicHere (s.coreWho k) op o operand cmp with
          | (.ok bs, s) => s.atomicDone k (insRd w) (insPdA w) wide addr .ok bs
          | (.err .perm, s) => s.preciseTrap k 0x05 .perm addr
          | (.err st, s) => s.atomicDone k (insRd w) (insPdA w) wide addr st []
          | (.wait, s) => s
      | .there d o =>
        if !s.inReach d then s.preciseTrap k 0x04 .bound addr
        else match placeOfRange o n with
          | .hole => s.preciseTrap k 0x04 .bound addr
          | _ =>
            if s.headFull k d then s
            else
              let r := newReq 0 op d k c.ctx o (.atomic k (insRd w) (insPdA w) addr c.pc wide)
              let pay := if wide then leBytes 16 operand ++ leBytes 16 cmp else if cas then leBytes 8 cmp else []
              (s.request { r with operand := if wide then 0 else BitVec.ofNat 64 operand, payload := pay, rlen := n }).staleLines k d o n

/-- AADD. -/
def execAadd (k : CoreId) (w : Word) (s : State) : Result := .next (s.atomic k w 0x02)
/-- AMIN. -/
def execAmin (k : CoreId) (w : Word) (s : State) : Result := .next (s.atomic k w 0x03)
/-- AMAX. -/
def execAmax (k : CoreId) (w : Word) (s : State) : Result := .next (s.atomic k w 0x04)
/-- AAND. -/
def execAand (k : CoreId) (w : Word) (s : State) : Result := .next (s.atomic k w 0x05)
/-- AOR. -/
def execAor (k : CoreId) (w : Word) (s : State) : Result := .next (s.atomic k w 0x06)
/-- AXOR. -/
def execAxor (k : CoreId) (w : Word) (s : State) : Result := .next (s.atomic k w 0x07)
/-- ASWAP. -/
def execAswap (k : CoreId) (w : Word) (s : State) : Result := .next (s.atomic k w 0x08)
/-- ACAS. -/
def execAcas (k : CoreId) (w : Word) (s : State) : Result := .next (s.atomic k w 0x09)
/-- ACAS2. -/
def execAcas2 (k : CoreId) (w : Word) (s : State) : Result := .next (s.atomic k w 0x0A)
/-- AFADD; the sum depends on arrival order (R33). -/
def execAfadd (k : CoreId) (w : Word) (s : State) : Result := .next (s.atomic k w 0x0B)

end Sys2Proof.Machine
end

