-- ==== Sys2Proof/Machine/ScalarSys.lean ====
section
/-! DEFINITION. System instructions, waits, halts and launches of a core (R63, R75, R77 to R82, R86, R91, R170, R206). -/
namespace Sys2Proof.Machine

open Reg

/-! ### System registers (R91) -/

/-- What MFS reads; none for a number that R91 does not list. SYS_CYCLE is an open value (log entry 5). -/
def State.sysReg (s : State) (k : CoreId) (n : Nat) : Option (Word × State) :=
  let c := s.core k
  let v := fun (x : Nat) => some (BitVec.ofNat 64 x, s)
  match n with
  | 0x000 => v k.val
  | 0x001 => v s.self.toNat
  | 0x002 => v c.ctx.val
  | 0x003 => v c.job.toNat
  | 0x004 => v c.step.toNat
  | 0x005 => v c.width
  | 0x010 => some s.free
  | 0x011 => some (s.devTime, s)
  | 0x020 => some (c.tvec, s)
  | 0x021 => v c.epc.toNat
  | 0x022 => v c.tinst.toNat
  | 0x023 => v c.cause.toNat
  | 0x024 => v c.tstatus.toNat
  | 0x025 => some (c.badaddr, s)
  | 0x026 => v (c.pendingTraps.length % 16 * 2 ^ 8 + (if c.trapActive then 1 else 0))
  | 0x030 => v c.outstanding
  | 0x031 => v c.bdiscard.toNat
  | 0x040 => v c.fpflags.toNat
  | _ => none

/-- The numbers that R91 lists. -/
def sysListed (n : Nat) : Bool :=
  [0x000, 0x001, 0x002, 0x003, 0x004, 0x005, 0x010, 0x011, 0x020, 0x021, 0x022, 0x023, 0x024, 0x025, 0x026, 0x030, 0x031,
    0x040].contains n

/-- What MTS does: SYS_TVEC and SYS_EPC are RW, SYS_FPFLAGS is W1C, every other register is RO (R8, R91). -/
def Core.setSys (c : Core) (n : Nat) (v : Word) : Core :=
  match n with
  | 0x020 => { c with tvec := v &&& 0x3FFF9 }
  | 0x021 => { c with epc := v.setWidth 18 }
  | 0x040 => { c with fpflags := c.fpflags &&& ~~~(v.setWidth 5) }
  | _ => c

/-- MFS (R91). -/
def execMfs (k : CoreId) (w : Word) (s : State) : Result :=
  .next (s.issue k w 0x900 (onlyBits w [(47, 43), (11, 0)] && sysListed (insImm12 w)) [insRd w] 8 fun s =>
    match s.sysReg k (insImm12 w) with
    | some (v, s) => s.writeG k (insRd w) v
    | none => s.illegal k w)

/-- MTS (R91). -/
def execMts (k : CoreId) (w : Word) (s : State) : Result :=
  .next (s.issue k w 0x901 (onlyBits w [(42, 38), (11, 0)] && sysListed (insImm12 w)) [insRs1 w] 8 fun s =>
    (s.mapCore k fun c => c.setSys (insImm12 w) (c.greg (insRs1 w))).advance k)

/-- FENCE.LOCAL (R75): every earlier scalar access to the own device has been performed when the next instruction issues. -/
def execFenceLocal (k : CoreId) (w : Word) (s : State) : Result :=
  .next (s.issue k w 0x902 (onlyBits w [(0, 0)]) [] 8 fun s => s.advance k)

/-- FENCE.ISSUE (R75): every earlier access is in its destination's order when the next instruction issues. -/
def execFenceIssue (k : CoreId) (w : Word) (s : State) : Result :=
  .next (s.issue k w 0x902 (onlyBits w [(0, 0)]) [] 8 fun s => s.advance k)

/-- TRAP: SOFTWARE with imm12, resuming at the next instruction (R78, R79, R104). -/
def execTrap (k : CoreId) (w : Word) (s : State) : Result :=
  .next (s.issue k w 0x903 (legalImm12 w) [] 8 fun s =>
    s.trap k ⟨0x0A, .ok, (s.core k).pc, BitVec.ofNat 64 (insImm12 w)⟩ ((s.core k).pc + 8))

/-- RTE: trap_active becomes 0, execution continues at SYS_EPC, pending faults are delivered (R79, R80). -/
def execRte (k : CoreId) (w : Word) (s : State) : Result :=
  .next (s.issue k w 0x904 (legalNone w) [] 8 fun s =>
    (s.mapCore k fun c => { c with trapActive := false }).goto k (s.core k).epc.toNat)

/-- NOP. -/
def execNop (k : CoreId) (w : Word) (s : State) : Result :=
  .next (s.issue k w 0x908 (legalNone w) [] 8 fun s => s.advance k)

/-! ### HALT (R82) -/

/-- HALT begins to wait. -/
def execHalt (k : CoreId) (w : Word) (s : State) : Result :=
  .next (s.issue k w 0x905 (legalNone w) [] 8 fun s => s.mapCore k fun c => { c with run := .waiting, wait := .halt })

/-- Core `k` has an access that is not yet performed and answered. -/
def State.accessesOut (s : State) (k : CoreId) : Bool := (s.fab.waiting ++ s.fab.outst).any (fun r => r.owner.ofCore k)

/-- HALT_DONE: the wait of HALT ends. A pending fault, or a broad write that failed after it retired, is delivered as a trap of the
HALT; otherwise the launch completes with `OK` (R82). -/
def execHaltDone (k : CoreId) (s : State) : Result :=
  let c := s.core k
  .next (if c.run ≠ .waiting || c.wait ≠ .halt || c.queue ≠ [] || s.accessesOut k then s
    else match c.pendingTraps, c.bwFail with
      | t :: ts, _ => (s.mapCore k fun c => { c with pendingTraps := ts, run := .running, wait := .none }).trap k t c.pc
      | [], f :: _ =>
        (s.mapCore k fun c => { c with bwFail := [], run := .running, wait := .none }).trap k ⟨0x09, f.status, c.pc, f.addr⟩ c.pc
      | [], [] =>
        (s.endLaunch k .ok none).mapCore k fun c => { c with run := .halted, wait := .none })

/-! ### WAITV (R77) -/

/-- The outcome of a read that WAITV makes: it ends with p7 = 1 when the value differs, with p7 = 0 and LOAD_FAULT when the read
fails, and goes on waiting otherwise. -/
def State.waitvRead (s : State) (k : CoreId) (w : Word) (o : Nat) (again : State → State) : State :=
  let addr := (s.core k).greg (insRs1 w)
  let t := fun (st : Status) => Trap.mk 0x06 st (s.core k).pc addr
  match s.peek (s.coreWho k) o 8 with
  | (.ok bs, s) => if BitVec.ofNat 64 (leNat bs) ≠ (s.core k).greg (insRd w) then s.writeP k 7 true else again s
  | (.err st, s) => (s.writeP k 7 false).imprecise k (t st)
  | (.wait, s) => s

/-- WAITV. -/
def execWaitv (k : CoreId) (w : Word) (s : State) : Result :=
  .next (s.issue k w 0x906 (legalWaitv w) [insRd w, insRs1 w, insRs1 w + 1] 8 fun s =>
    let addr := (s.core k).greg (insRs1 w)
    if addr.toNat % 8 ≠ 0 then s.preciseTrap k 0x03 .format addr
    else match s.decode addr with
      | .format => s.preciseTrap k 0x04 .format addr
      | .here o =>
        match placeOfRange o 8 with
        | .hole => s.preciseTrap k 0x04 .bound addr
        | .setup _ => s.preciseTrap k 0x05 .perm addr
        | pl =>
          let door := match pl with
            | .door _ _ => true
            | _ => false
          let (ok, s) := if door then (true, s) else
            match s.protect (s.coreWho k) .rd false o 8 with
            | (.ok _, s) => (true, s)
            | (.error _, s) => (false, s)
          if !ok then s.preciseTrap k 0x05 .perm addr
          else s.waitvRead k w o fun s =>
            if (s.core k).greg (insRs1 w + 1) = 0 then s.writeP k 7 false
            else s.mapCore k fun c => { c with run := .waiting, wait := .waitv }
      | _ => s.preciseTrap k 0x04 .bound addr)

/-- WAITV_WAKE: a read made during the wait; the value is unchanged where the wait goes on. -/
def execWaitvWake (k : CoreId) (s : State) : Result :=
  let c := s.core k
  .next (if c.run ≠ .waiting || c.wait ≠ .waitv then s
    else match s.decode (c.greg (insRs1 c.fetched)) with
      | .here o => s.waitvRead k c.fetched o id
      | _ => s)

/-- WAITV_COUNT_EXPIRED: the cycle count ran out. -/
def execWaitvCountExpired (k : CoreId) (s : State) : Result :=
  let c := s.core k
  .next (if c.run ≠ .waiting || c.wait ≠ .waitv then s else s.writeP k 7 false)

/-! ### BWAIT (R86) -/

/-- BWAIT. -/
def execBwait (k : CoreId) (w : Word) (s : State) : Result :=
  .next (s.issue k w 0x907 (legalBwait w) [] 8 fun s =>
    if (s.core k).outstanding ≤ insImm12 w then s.advance k
    else s.mapCore k fun c => { c with run := .waiting, wait := .bwait })

/-- A core in BWAIT goes on once few enough broad instructions are outstanding. -/
def State.bwaitCheck (s : State) (k : CoreId) : State :=
  let c := s.core k
  if c.run = .waiting && c.wait = .bwait && c.outstanding ≤ insImm12 c.fetched then s.advance k else s

/-! ### CORE_LAUNCH (R63, R170, R206) -/

/-- The core that a LAUNCH descriptor names. -/
def Desc.launchCore (d : Desc) : CoreId := ⟨bits (d.words.getD 3 0) 6 0 % 128, Nat.mod_lt _ (by decide)⟩

/-- A slot bank loaded by another context is no longer accepted (R170). Its loader stays recorded, so OWNER of an active bank still names
it (DESIGN CHOICE, log entry 71: the spec does not say whether OWNER then reads 127). -/
def SfnBank.disown (b : SfnBank) (x : Ctx) : SfnBank :=
  if b.owner < 64 && b.owner ≠ x.val then { b with accepted := false } else b

/-- The zeroing of a launch whose context differs from the previous one (R63). -/
def State.wipeCore (s : State) (k : CoreId) (x : Ctx) : State :=
  let lo := trayOf k
  let s := { s with mem := Maps.clear s.mem lo (lo + 0x400000)
                    poison := s.poison.filter (fun u => u < lo || lo + 0x400000 ≤ u)
                    ecc := Maps.clear s.ecc lo (lo + 0x400000) }
  s.mapCore k fun c => { c with tiles := [], acc := [], cache := []
                                sfn := c.sfn.map (fun sl => { sl with bank0 := sl.bank0.disown x, bank1 := sl.bank1.disown x }) }

/-- The registers and trap state that a launch sets (R63). -/
def Core.launchSet (c : Core) (l : Launch) (job step : BitVec 32) (pc : BitVec 18) (args : List Word) : Core :=
  { c with g := ((((Vector.replicate 32 0).set 1 (args.getD 0 0)).set 2 (args.getD 1 0)).set 3 (args.getD 2 0)).set 4 (args.getD 3 0)
           p := 1, pc := pc, run := .running, wait := .none, launch := some l, ctx := l.ctx, job := job, step := step
           prevCtx := some l.ctx, tvec := 0, epc := 0, tinst := 0, cause := 0, tstatus := 0, badaddr := 0
           trapActive := false, pendingTraps := [], bdiscard := 0, fpflags := 0 }

/-- The oldest started LAUNCH that names core `k`. -/
def State.nextLaunch (s : State) (k : CoreId) : Option (Launch × Desc) :=
  s.launchQ.findSome? fun l =>
    match s.desc l.ring l.idx with
    | some d => if d.launchCore = k && d.phase = .working then some (l, d) else none
    | none => none

/-- CORE_LAUNCH: once the core is free, the oldest LAUNCH waiting for it starts; a core that is trap-halted, fenced or retired
completes it with `FENCED` (R206). -/
def execCoreLaunch (k : CoreId) (s : State) : Result :=
  .next (match s.nextLaunch k with
    | none => s
    | some (l, d) =>
      let c := s.core k
      let s' := { s with launchQ := s.launchQ.filter (fun m => m ≠ l) }
      match c.run with
      | .running => s
      | .waiting => s
      | .trapHalted => s'.endDesc l.ring l.idx .fenced 0 0
      | .fenced => s'.endDesc l.ring l.idx .fenced 0 0
      | .retired => s'.endDesc l.ring l.idx .fenced 0 0
      | _ =>
        let s' := if c.prevCtx = some l.ctx then s' else s'.wipeCore k l.ctx
        s'.mapCore k fun c =>
          c.launchSet l (s.jobOf l.ctx) (BitVec.ofNat 32 (bits (d.words.getD 2 0) 31 0))
            (BitVec.ofNat 18 (bits (d.words.getD 3 0) 25 11 * 8)) (d.words.drop 4))

end Sys2Proof.Machine
end

