-- ==== Sys2Proof/Machine/Tiles.lean ====
section
/-! DEFINITION. Tile registers and accumulator banks (R38, R96, R97), the operand fields of broad instructions (R93 to R95), and
their legal encodings (R98, R103, R107 to R126). -/
namespace Sys2Proof.Machine

/-! ### Tiles (R96) -/

/-- Key of byte `b` of row `r` of the span that starts at tile `t`. -/
def tileKey (t r b : Nat) : Nat := 32768 * (t + b / 256) + 256 * r + b % 256

def Core.tbyte (c : Core) (t r b : Nat) : Byte := Maps.get 0 c.tiles (tileKey t r b)

def Core.setTbyte (c : Core) (t r b : Nat) (v : Byte) : Core := { c with tiles := Maps.put 0 c.tiles (tileKey t r b) v }

/-- Write bytes into a row of a span from byte `b` on. -/
def Core.setTbytes (c : Core) (t r : Nat) : Nat → List Byte → Core
  | _, [] => c
  | b, v :: l => (c.setTbyte t r b v).setTbytes t r (b + 1) l

/-- The bytes of a row of a span. -/
def Core.tbytes (c : Core) (t r b n : Nat) : List Byte := (List.range n).map (fun i => c.tbyte t r (b + i))

/-- Element `j`, of `w` bits, of a packed row (R38, R96). -/
def getElem (l : Nat → Byte) (j w : Nat) : Nat :=
  leNat ((List.range ((j * w % 8 + w + 7) / 8)).map (fun i => l (j * w / 8 + i))) / 2 ^ (j * w % 8) % 2 ^ w

/-- Element `j` of row `r` of the span at `t`. -/
def Core.elem (c : Core) (t r j w : Nat) : Nat := getElem (c.tbyte t r) j w

/-- Put `w` bits at bit `p` into a little-endian value. -/
def insertBits (v p w x : Nat) : Nat := v % 2 ^ p + x % 2 ^ w * 2 ^ p + v / 2 ^ (p + w) * 2 ^ (p + w)

/-- Write element `j` of row `r`; other bits stay (R96). -/
def Core.setElem (c : Core) (t r j w v : Nat) : Core :=
  let n := (j * w % 8 + w + 7) / 8
  c.setTbytes t r (j * w / 8) (leBytes n (insertBits (leNat (c.tbytes t r (j * w / 8) n)) (j * w % 8) w v))

/-- Element (row, column) of an accumulator bank. -/
def Core.accAt (c : Core) (bank r j : Nat) : BitVec 32 := Maps.get 0 c.acc (16384 * bank + 128 * r + j)

def Core.setAcc (c : Core) (bank r j : Nat) (v : BitVec 32) : Core :=
  { c with acc := Maps.put 0 c.acc (16384 * bank + 128 * r + j) v }

/-! ### Fields (R93, R94) -/

end Sys2Proof.Machine

namespace Sys2Proof.BroadWords
open Sys2Proof.Machine

def op (b : BroadWords) : Nat := insOp b.w0
def table (b : BroadWords) : Nat := bits b.w0 47 36
def ga (b : BroadWords) : BitVec 5 := BitVec.ofNat 5 (bits b.w0 35 31)
def gb (b : BroadWords) : BitVec 5 := BitVec.ofNat 5 (bits b.w0 30 26)
def gc (b : BroadWords) : BitVec 5 := BitVec.ofNat 5 (bits b.w0 25 21)
def gd (b : BroadWords) : BitVec 5 := BitVec.ofNat 5 (bits b.w0 20 16)
def td (b : BroadWords) : Nat := bits b.w1 63 60
def ta (b : BroadWords) : Nat := bits b.w1 59 56
def tb (b : BroadWords) : Nat := bits b.w1 55 52
def tc (b : BroadWords) : Nat := bits b.w1 51 48
def te (b : BroadWords) : Nat := bits b.w2 63 60
def rows (b : BroadWords) : Nat := bits b.w1 47 40
def cols (b : BroadWords) : Nat := bits b.w1 39 28
def kdim (b : BroadWords) : Nat := bits b.w1 27 16
def fmtA (b : BroadWords) : Nat := bits b.w1 15 11
def fmtB (b : BroadWords) : Nat := bits b.w1 10 6
def fmtD (b : BroadWords) : Nat := bits b.w1 5 1
/-- RND and SAT of the lane unit (R113). -/
def rnd (b : BroadWords) : Nat := bits b.w2 57 56
def sat (b : BroadWords) : Bool := bit b.w2 55
/-- S of the lane unit. -/
def sval (b : BroadWords) : BitVec 32 := BitVec.ofNat 32 (bits b.w3 31 0)
def eop (b : BroadWords) : Nat := bits b.w2 63 58
def fn (b : BroadWords) : Nat := bits b.w2 63 59
def kind (b : BroadWords) : Nat := bits b.w2 63 60
def flagW (b : BroadWords) : Bool := bit b.w2 59
/-- DEST, CLEAR, COL0 and ROW0 of AFLUSH (R112); TRANS of TLOAD and TSTORE shares DEST's place. -/
def dest (b : BroadWords) : Bool := bit b.w2 63
def clear (b : BroadWords) : Bool := bit b.w2 62
def col0 (b : BroadWords) : Nat := bits b.w2 58 52
def row0 (b : BroadWords) : Nat := bits b.w2 51 45
def isXmov (b : BroadWords) : Bool := b.op = 0x02
def trans (b : BroadWords) : Bool := if b.isXmov then bit b.w2 15 else bit b.w2 63
/-- Element size of TRANS in bits (R107, R109). -/
def esz (b : BroadWords) : Nat := 2 ^ (2 + (if b.isXmov then bits b.w2 14 13 else bits b.w2 62 61)) 
def rowBytes (b : BroadWords) : Nat := bits b.w2 63 32
def xrows (b : BroadWords) : Nat := bits b.w2 31 16
/-- GEOM's counterpart in W2 (R131). -/
def geom (b : BroadWords) : Nat :=
  if b.op = 0x11 then bits b.w2 63 20 else if b.op = 0x12 then bits b.w2 63 63 else 0
/-- INIT and BIAS of the softmax instructions (R117). -/
def init (b : BroadWords) : Bool := bit b.w2 63
def bias (b : BroadWords) : Bool := bit b.w2 62
/-- GAIN and BIAS of NORM (R118). -/
def normGain (b : BroadWords) : Bool := bit b.w2 59
def normBias (b : BroadWords) : Bool := bit b.w2 58
def group (b : BroadWords) : Nat := bits b.w2 63 56
def spec (b : BroadWords) : Bool := bit b.w2 55
def scope (b : BroadWords) : Nat := bits b.w2 63 62
def barrier (b : BroadWords) : Nat := bits b.w2 63 59
def count (b : BroadWords) : Nat := bits b.w2 58 53
def slotMask (b : BroadWords) : BitVec 16 := BitVec.ofNat 16 (bits b.w2 61 46)
/-- CONV's filter geometry (R111). -/
def cC (b : BroadWords) : Nat := bits b.w2 63 52
def cKH (b : BroadWords) : Nat := bits b.w2 51 48
def cKW (b : BroadWords) : Nat := bits b.w2 47 44
def cH (b : BroadWords) : Nat := bits b.w3 63 48
def cW (b : BroadWords) : Nat := bits b.w3 47 32
def cY0 (b : BroadWords) : Int := (BitVec.ofNat 16 (bits b.w3 31 16)).toInt
def cX0 (b : BroadWords) : Int := (BitVec.ofNat 16 (bits b.w3 15 0)).toInt

end Sys2Proof.BroadWords

namespace Sys2Proof.Machine

/-! ### Formats (R95) -/

def isMx (code : Nat) : Bool := 16 ≤ code
/-- Width of an element of a format code; bytes where the format is reserved. -/
def fmtBits (code : Nat) : Nat :=
  match eltOf (code % 16) with
  | some e => e.bits
  | none => 8
def plainArray (code : Nat) : Bool := code ≤ 9
def mxFmt (code : Nat) : Bool := 0x13 ≤ code && code ≤ 0x18
def laneIn (code : Nat) : Bool := code ≤ 0xA
def laneOut (code : Nat) : Bool := code ≤ 4
def halfUp (code : Nat) : Bool := code ≤ 2
def qntOut (code : Nat) : Bool := (3 ≤ code && code ≤ 9) || mxFmt code

/-- Whether EOP reads b, and c (R114). -/
def eopB (e : Nat) : Bool := [1, 2, 3, 4, 5, 6, 0x0C, 0x0D, 0x0E, 0x0F, 0x10, 0x11].contains e
def eopC (e : Nat) : Bool := e = 4 || e = 0x10

/-! ### Legal encodings (R98) -/

/-- No bit set outside the ranges. -/
def within (w : Word) (used : List (Nat × Nat)) : Bool := used.foldl (fun (w : Word) r => setBits w r.1 r.2 0) w = 0

/-- Ranges of W0 in use: class, guard and OP, TABLE, and the registers named. -/
def w0Used (table ga gb gc gd : Bool) : List (Nat × Nat) :=
  [(63, 48)] ++ (if table then [(47, 36)] else []) ++ (if ga then [(35, 31)] else []) ++ (if gb then [(30, 26)] else [])
    ++ (if gc then [(25, 21)] else []) ++ (if gd then [(20, 16)] else [])

/-- Ranges of W1, by field. -/
def fTD : Nat × Nat := (63, 60)
def fTA : Nat × Nat := (59, 56)
def fTB : Nat × Nat := (55, 52)
def fTC : Nat × Nat := (51, 48)
def fRC : Nat × Nat := (47, 28)
def fK : Nat × Nat := (27, 16)
def fFA : Nat × Nat := (15, 11)
def fFB : Nat × Nat := (10, 6)
def fFD : Nat × Nat := (5, 1)

def opt {α : Type} (b : Bool) (x : α) : List α := if b then [x] else []

/-- The reserved-value checks of one broad instruction at issue (R93 to R95, R98, R107 to R126). The spec calls ESZ the element size for
TRANS and no value of it reserved: it is accepted, and stands unused, with TRANS = 0 too (DESIGN CHOICE, log entry 74). -/
def legalBroad (b : BroadWords) : Bool :=
  let w := fun (t ga gb gc gd : Bool) (u1 u2 u3 : List (Nat × Nat)) =>
    within b.w0 (w0Used t ga gb gc gd) && within b.w1 u1 && within b.w2 u2 && within b.w3 u3
  let rndOk := b.rnd = 0 || b.rnd = 2
  match b.op with
  | 0x00 => w true true true false false [fTD, fRC] [(63, 61)] []
  | 0x01 => w true true true false false [fTA, fRC] [(63, 61)] []
  | 0x02 => w true true true true false [] [(63, 13)] []
  | 0x10 =>
    w true false false false false ([(61, 60), fTA, fTB, fRC, fK, fFA, fFB] ++ opt (isMx b.fmtA) fTC) (opt (isMx b.fmtB) (63, 60)) []
      && (plainArray b.fmtA || mxFmt b.fmtA) && (plainArray b.fmtB || mxFmt b.fmtB)
  | 0x11 =>
    w true true true true false [(61, 60), fTB, fRC, fK, fFA, fFB] [(63, 20)] [(63, 0)] && plainArray b.fmtA && plainArray b.fmtB
  | 0x12 =>
    w true b.dest b.dest false true ([(57, 56), fRC, fFA, fFD] ++ opt (!b.dest) fTD) [(63, 45)] []
      && (bits b.w2 61 60 = 0 || bits b.w2 61 60 = 2) && (b.fmtA = 0 || b.fmtA = 0xA) && (laneOut b.fmtD || b.fmtD = 0xA)
  | 0x20 =>
    w true false false false true
        ([fTD, fTA, fRC, fFA, fFD] ++ opt (eopB b.eop) fTB ++ opt (eopC b.eop) fTC ++ opt (eopB b.eop || eopC b.eop) fFB)
        [(63, 55)] [(31, 0)]
      && b.eop ≤ 0x11 && laneIn b.fmtA && laneIn b.fmtB && laneOut b.fmtD && rndOk
  | 0x21 =>
    w true false false false true [fTD, fTA, fRC, fFA, fFD] [(63, 59), (57, 55)] [(31, 0)]
      && (b.fn ≤ 3 || 0x10 ≤ b.fn) && halfUp b.fmtA && halfUp b.fmtD && rndOk
  | 0x22 =>
    w true false false false false [fTD, fTA, fRC, fFA] [(63, 59)] [] && b.kind ≤ 5 && !(b.flagW && 4 ≤ b.kind) && laneIn b.fmtA
  | 0x23 =>
    w true false false false false ([fTA, fTC, fRC, fFA] ++ opt b.bias fTB ++ opt b.bias fFB) [(63, 62)] [(31, 0)]
      && laneIn b.fmtA && laneIn b.fmtB
  | 0x24 =>
    w true false false false true ([fTD, fTA, fTC, fRC, fFA, fFD] ++ opt b.bias fTB ++ opt b.bias fFB) [(62, 62), (57, 55)] [(31, 0)]
      && laneIn b.fmtA && laneIn b.fmtB && laneOut b.fmtD && rndOk
  | 0x25 =>
    w true false false false true ([fTD, fTA, fTC, fRC, fFA, fFD] ++ opt b.bias fTB ++ opt b.bias fFB) [(63, 62), (57, 55)] [(31, 0)]
      && laneIn b.fmtA && laneIn b.fmtB && laneOut b.fmtD && rndOk
  | 0x26 =>
    w true false false false true
        ([fTD, fTA, fRC, fFA, fFD] ++ opt b.normGain fTB ++ opt b.normBias fTC ++ opt (b.normGain || b.normBias) fFB)
        [(63, 55)] [(31, 0)]
      && b.kind ≤ 1 && laneIn b.fmtA && laneIn b.fmtB && laneOut b.fmtD && rndOk
  | 0x27 =>
    w true false false false true ([fTD, fTA, fRC, fFA, fFD] ++ opt (isMx b.fmtD) fTC) [(57, 55)] [(31, 0)]
      && halfUp b.fmtA && qntOut b.fmtD && b.rnd ≠ 3
  | 0x28 =>
    w true false false false true ([fTD, fTA, fRC, fFA, fFD] ++ opt (isMx b.fmtA) fTC) [(57, 55)] [(31, 0)]
      && (laneIn b.fmtA || mxFmt b.fmtA) && halfUp b.fmtD && rndOk
  | 0x30 => w true true true false false [fTA, fRC, fFA] [(63, 56)] [] && (halfUp b.fmtA || b.fmtA = 0xA)
  | 0x31 => w false true b.spec b.spec false [] [(63, 55)] [(31, 0)]
  | 0x32 => w false (b.scope = 0) false false false [] [(63, 62)] [] && b.scope ≤ 1
  | 0x33 => w false false false false false [] [(63, 53)] [(15, 0)]
  | 0x34 => w false (!b.dest) (!b.dest) false false [] [(63, 63)] []
  | 0x35 => w false false false false false [] ([(63, 62)] ++ opt (b.scope = 1) (61, 46)) [] && b.scope ≤ 1
  | _ => false

end Sys2Proof.Machine

namespace Sys2Proof.BroadWords
open Sys2Proof.Machine

/-- A broad instruction has no effect at all when its count is zero (R99, R124, R126). -/
def isEmpty (b : BroadWords) : Bool :=
  match b.op with
  | 0x02 => b.xrows = 0 || b.rowBytes = 0
  | 0x10 => b.rows = 0 || b.cols = 0 || b.kdim = 0
  | 0x11 => b.rows = 0 || b.cols = 0 || b.kdim = 0
  | 0x33 => b.count = 0
  | 0x35 => b.scope = 1 && b.slotMask = 0
  | 0x31 => false
  | 0x32 => false
  | 0x34 => false
  | _ => b.rows = 0 || b.cols = 0

/-- The optional ports that this run uses: port, TARGET, format and elements per row of its span (R114, R452). -/
def optPorts (b : BroadWords) : List (Nat × Nat × Nat × Nat) :=
  match b.op with
  | 0x20 =>
    opt (eopB b.eop) (1, 3, b.fmtB, if b.eop = 0x0C || b.eop = 0x0D then 1 else b.cols) ++ opt (eopC b.eop) (2, 4, b.fmtB, b.cols)
  | 0x23 => opt b.bias (1, 3, b.fmtB, b.cols)
  | 0x24 => opt b.bias (1, 3, b.fmtB, b.cols)
  | 0x25 => opt b.bias (1, 3, b.fmtB, b.cols)
  | 0x26 => opt b.normGain (1, 3, b.fmtB, b.cols) ++ opt b.normBias (2, 4, b.fmtB, b.cols)
  | _ => []

end Sys2Proof.BroadWords
end

