-- ==== Sys2Proof/Machine/StepTable.lean ====
section
/-! DEFINITION. Step tables: their entries, the checks of a load, and the walk of the sequencer (R128 to R140, R452). -/
namespace Sys2Proof.Machine

/-! ### Entries -/

/-- One dimension of an address generator (R132). -/
structure Dim where
  count : Nat
  mul : Int
  src : Nat
  axis : Nat
  deriving DecidableEq, Repr

/-- An address generator (R132); `pos` is the entry of its first half. -/
structure Gen where
  agn : Nat
  target : Nat
  write : Bool
  bound : Bool
  dims : List Dim
  offset : Int
  pos : Nat
  deriving DecidableEq, Repr

/-- A step entry (R138); its ports in the order A, B, C, D, SA, SB. -/
structure StepEntry where
  cycles : Nat
  aguse : Nat
  ports : List Nat
  acc : Nat
  rowLo : Nat
  rowHi : Nat
  colLo : Nat
  colHi : Nat
  repeats : Nat
  span : Nat
  unit : Nat
  pause : Nat
  pos : Nat
  deriving DecidableEq, Repr

/-- A table: the header's fields (R131), its generators and its steps. -/
structure Table where
  op : Nat
  width : Nat
  fmtA : Nat
  fmtB : Nat
  fmtD : Nat
  rows : Nat
  cols : Nat
  kdim : Nat
  length : Nat
  geom : Nat
  gens : List Gen
  steps : List StepEntry
  deriving DecidableEq, Repr

abbrev Entry := BitVec 128

def entryKind (e : Entry) : Nat := bits e 127 124

/-- No bit set outside the ranges. -/
def entryWithin (e : Entry) (used : List (Nat × Nat)) : Bool := used.foldl (fun (e : Entry) r => setBits e r.1 r.2 0) e = 0

/-- A DIM field of 28 bits. -/
def parseDim (v : Nat) : Dim :=
  { count := v / 2 ^ 12 % 2 ^ 16, mul := (BitVec.ofNat 8 (v / 2 ^ 4)).toInt, src := v / 4 % 4, axis := v % 4 }

/-- A generator from its two entries. -/
def parseGen (e f : Entry) (pos : Nat) : Gen :=
  { agn := bits e 123 121, target := bits e 120 118, write := bit e 117, bound := bit e 116
    dims := [parseDim (bits e 111 84), parseDim (bits e 83 56), parseDim (bits e 55 28), parseDim (bits e 27 0),
      parseDim (bits f 111 84)]
    offset := (BitVec.ofNat 32 (bits f 83 52)).toInt, pos := pos }

def parseStep (e : Entry) (pos : Nat) : StepEntry :=
  { cycles := bits e 123 108, aguse := bits e 107 100
    ports := [bits e 99 97, bits e 96 94, bits e 93 91, bits e 90 88, bits e 87 85, bits e 84 82]
    acc := bits e 81 80, rowLo := bits e 79 72, rowHi := bits e 71 64, colLo := bits e 63 56, colHi := bits e 55 48
    repeats := bits e 47 32, span := bits e 31 20, unit := bits e 19 16, pause := bits e 15 8, pos := pos }

def parseHeader (e : Entry) : Table :=
  { op := bits e 123 116, width := bits e 115 108, fmtA := bits e 107 103, fmtB := bits e 102 98, fmtD := bits e 97 93
    rows := bits e 92 85, cols := bits e 84 73, kdim := bits e 72 61, length := bits e 60 48, geom := bits e 47 4
    gens := [], steps := [] }

def Gen.size (g : Gen) : Nat := g.dims.foldl (fun n d => n * d.count) 1
def Gen.dim (g : Gen) (i : Nat) : Dim := g.dims.getD i ⟨0, 0, 0, 0⟩
def StepEntry.port (s : StepEntry) (i : Nat) : Nat := s.ports.getD i 0
def StepEntry.uses (s : StepEntry) (g : Nat) : Bool := s.aguse / 2 ^ g % 2 = 1
def Table.gen (t : Table) (g : Nat) : Option Gen := t.gens.find? (fun x => x.agn = g)

/-! ### Operand classes (R47) -/

/-- Operand classes of R47. -/
inductive KClass where
  | narrow
  | integer
  | scaled
  | half
  | single
  deriving DecidableEq, Repr

def kclass (code : Nat) : Option KClass :=
  if code = 0x18 then some .scaled
  else if 3 ≤ code % 16 && code % 16 ≤ 7 then some .narrow
  else match code with
    | 0 => some .single
    | 1 => some .half
    | 2 => some .half
    | 8 => some .integer
    | 9 => some .integer
    | _ => none

/-- The class of a pair of formats, when both are of one. -/
def pairClass (fa fb : Nat) : Option KClass := if kclass fa = kclass fb then kclass fa else none

/-- Block length along K (R47, R48). -/
def blockLen : KClass → Nat
  | .half => 8
  | .single => 8
  | _ => 32

/-- K indices per two cycles (R47, R105); the single class counts one of its three runs (R53). -/
def rate2 (fa fb : Nat) (c : KClass) : Nat :=
  match c with
  | .narrow => if fa % 16 = 7 && fb % 16 = 7 then 4 else 2
  | .half => 1
  | .single => 1
  | _ => 2

/-! ### Header checks (R130, R131) -/

/-- Tile registers of a span (R96). -/
def spanOf (code n : Nat) : Nat := max 1 (ceilDiv (n * fmtBits code) 2048)

/-- The limits of R97 that depend on declared fields. -/
def rowOk (code n : Nat) : Bool :=
  spanOf code n ≤ 4 && (fmtBits code ≠ 4 || n % 2 = 0) && (fmtBits code ≠ 6 || n % 4 = 0)

/-- GEOM of CONV obeys R111. -/
def Table.convGeomOk (t : Table) : Bool :=
  let own := t.geom % 256
  1 ≤ own && own ≤ 128 && [8, 12, 16, 20].all (fun s => t.geom / 2 ^ s % 16 ≠ 0)
    && t.kdim = t.geom / 2 ^ 32 * (t.geom / 2 ^ 28 % 16) * (t.geom / 2 ^ 24 % 16) && t.rows % own = 0

/-- The declarations of a header against the limits of R95, R47, R97 and R107 to R121. -/
def Table.declOk (t : Table) : Bool :=
  match t.op with
  | 0x00 => t.fmtA = 0 && t.fmtB = 0 && t.fmtD = 0 && t.kdim = 0 && t.cols ≤ 1024
  | 0x01 => t.fmtA = 0 && t.fmtB = 0 && t.fmtD = 0 && t.kdim = 0 && t.cols ≤ 1024
  | 0x02 => t.fmtA = 0 && t.fmtB = 0 && t.fmtD = 0 && t.rows = 0 && t.cols = 0 && t.kdim = 0
  | 0x10 =>
    (plainArray t.fmtA || mxFmt t.fmtA) && (plainArray t.fmtB || mxFmt t.fmtB) && t.fmtD = 0 && (pairClass t.fmtA t.fmtB).isSome
      && t.cols ≤ t.width && rowOk t.fmtA t.kdim && rowOk t.fmtB t.kdim
  | 0x11 =>
    plainArray t.fmtA && plainArray t.fmtB && t.fmtD = 0 && (pairClass t.fmtA t.fmtB).isSome && t.cols ≤ t.width
      && rowOk t.fmtB t.kdim && t.convGeomOk
  | 0x12 =>
    ((t.fmtA = 0 && laneOut t.fmtD) || (t.fmtA = 0xA && t.fmtD = 0xA)) && t.fmtB = 0 && t.kdim = 0 && t.cols ≤ 128
  | 0x20 => laneIn t.fmtA && laneIn t.fmtB && laneOut t.fmtD && t.kdim = 0 && rowOk t.fmtA t.cols && rowOk t.fmtD t.cols
  | 0x21 => halfUp t.fmtA && t.fmtB = 0 && halfUp t.fmtD && t.kdim = 0 && rowOk t.fmtA t.cols && rowOk t.fmtD t.cols
  | 0x22 => laneIn t.fmtA && t.fmtB = 0 && t.fmtD = 0 && t.kdim = 0 && rowOk t.fmtA t.cols
  | 0x23 => laneIn t.fmtA && laneIn t.fmtB && t.fmtD = 0 && t.kdim = 0 && rowOk t.fmtA t.cols
  | 0x24 => laneIn t.fmtA && laneIn t.fmtB && laneOut t.fmtD && t.kdim = 0 && rowOk t.fmtA t.cols && rowOk t.fmtD t.cols
  | 0x25 => laneIn t.fmtA && laneIn t.fmtB && laneOut t.fmtD && t.kdim = 0 && rowOk t.fmtA t.cols && rowOk t.fmtD t.cols
  | 0x26 => laneIn t.fmtA && laneIn t.fmtB && laneOut t.fmtD && t.kdim = 0 && rowOk t.fmtA t.cols && rowOk t.fmtD t.cols
  | 0x27 => halfUp t.fmtA && t.fmtB = 0 && qntOut t.fmtD && t.kdim = 0 && rowOk t.fmtA t.cols && rowOk t.fmtD t.cols
  | 0x28 =>
    (laneIn t.fmtA || mxFmt t.fmtA) && t.fmtB = 0 && halfUp t.fmtD && t.kdim = 0 && rowOk t.fmtA t.cols && rowOk t.fmtD t.cols
  | 0x30 => (halfUp t.fmtA || t.fmtA = 0xA) && t.fmtB = 0 && t.fmtD = 0 && t.kdim = 0 && rowOk t.fmtA t.cols
  | _ => false

/-- Everything the header alone must satisfy; `at_` is its entry number (R131). -/
def Table.headerOk (t : Table) (e : Entry) (at_ : Nat) : Bool :=
  bits e 3 0 = 0 && [112, 116, 120, 124, 128].contains t.width && t.rows ≤ 128 && 1 ≤ t.length && at_ + t.length ≤ 4096
    && (t.length = 1) = (t.op = 0x02) && (t.op = 0x11 || t.geom ≤ (if t.op = 0x12 then 1 else 0)) && t.declOk

/-- Every instruction's unit (R141): 0 MOVE, 1 ARRAY, 2 LANE, 3 COLL, 4 CONTROL. -/
def unitOf (op : Nat) (dest : Bool) : Nat :=
  if op ≤ 0x02 then 0
  else if op = 0x10 || op = 0x11 then 1
  else if op = 0x12 then (if dest then 0 else 2)
  else if op ≤ 0x28 then 2
  else if op = 0x30 then 3
  else 4

def Table.unit (t : Table) : Nat := unitOf t.op (t.geom = 1)

/-! ### Ports (R452) -/

/-- How an OP uses a port. -/
inductive PortUse where
  | never
  | always (target : Nat)
  | optional (target : Nat)
  deriving DecidableEq, Repr

/-- Ports A, B, C, D, SA, SB of a table (R452), with the TARGET of R132. -/
def Table.portUse (t : Table) : List PortUse :=
  let n := PortUse.never
  match t.op with
  | 0x00 => [.always 0, n, n, .always 5, n, n]
  | 0x01 => [.always 2, n, n, .always 0, n, n]
  | 0x10 => [.always 2, .always 3, n, .always 7, if isMx t.fmtA then .always 4 else n, if isMx t.fmtB then .always 6 else n]
  | 0x11 => [.always 0, .always 3, n, .always 7, n, n]
  | 0x12 => [.always 7, n, n, .always (if t.geom = 1 then 0 else 5), n, n]
  | 0x20 => [.always 2, .optional 3, .optional 4, .always 5, n, n]
  | 0x21 => [.always 2, n, n, .always 5, n, n]
  | 0x22 => [.always 2, n, n, .always 5, n, n]
  | 0x23 => [.always 2, .optional 3, .always 4, n, n, n]
  | 0x24 => [.always 2, .optional 3, .always 4, .always 5, n, n]
  | 0x25 => [.always 2, .optional 3, .always 4, .always 5, n, n]
  | 0x26 => [.always 2, .optional 3, .optional 4, .always 5, n, n]
  | 0x27 => [.always 2, n, if isMx t.fmtD then .always 4 else n, .always 5, n, n]
  | 0x28 => [.always 2, n, if isMx t.fmtA then .always 4 else n, .always 5, n, n]
  | 0x30 => [.always 2, n, n, n, n, n]
  | _ => [n, n, n, n, n, n]

/-- Format and elements per row of the span that a port walks, from declared fields (R96, R135); scale tiles count bytes. -/
def Table.portSpan (t : Table) (port : Nat) : Nat × Nat :=
  match t.op, port with
  | 0x00, _ => (8, t.cols)
  | 0x01, _ => (8, t.cols)
  | 0x10, 0 => (t.fmtA, t.kdim)
  | 0x10, 1 => (t.fmtB, t.kdim)
  | 0x10, _ => (8, ceilDiv t.kdim 32)
  | 0x11, _ => (t.fmtB, t.kdim)
  | 0x22, 3 => (0, 2)
  | 0x23, 2 => (0, 3)
  | 0x24, 2 => (0, 3)
  | 0x25, 2 => (0, 3)
  | 0x27, 2 => (8, ceilDiv t.cols 32)
  | 0x28, 2 => (8, ceilDiv t.cols 32)
  | _, 0 => (t.fmtA, t.cols)
  | _, 3 => (t.fmtD, t.cols)
  | _, _ => (t.fmtB, t.cols)

/-- Elements in one row of a span (R133). -/
def rowLen (code n : Nat) : Nat := 2048 * spanOf code n / fmtBits code

/-- P1 and P2 of an instruction (R133). -/
structure Pitch where
  p1 : Nat
  p2 : Nat
  deriving DecidableEq, Repr

/-- Stride of a dimension over a walk whose rows hold `rl` elements (R132, R133). -/
def Dim.stride (d : Dim) (rl : Nat) (p : Pitch) : Int :=
  match d.src with
  | 0 => d.mul
  | 1 => d.mul * p.p1
  | 2 => d.mul * p.p2
  | _ => d.mul * rl

/-- Lowest and highest point of a walk: strides by dimension, from `base` on (R134, R135). -/
def Gen.extent (g : Gen) (base : Int) (stride : Dim → Nat → Int) : Int × Int :=
  g.dims.zipIdx.foldl (fun (a : Int × Int) d =>
    let n := stride d.1 d.2 * ((d.1.count : Int) - 1)
    (a.1 + min 0 n, a.2 + max 0 n)) (base, base)

/-- A span or bank walk stays inside `total` elements (R134, R135). -/
def Gen.spanOk (g : Gen) (rl total : Nat) (p : Pitch) : Bool :=
  let x := g.extent g.offset (fun d _ => d.stride rl p)
  g.size = 0 || (decide (0 ≤ x.1) && decide (x.2 < total))

/-- The range of bytes that a memory walk of elements of `eb` bits from address `base` on spans (R133, R135): the unit of DIM0 is one
element, that of the others one byte. -/
def Gen.memRange (g : Gen) (base eb : Nat) (p : Pitch) : Int × Int :=
  let x := g.extent (8 * ((base : Int) + g.offset)) (fun d i => d.stride 0 p * (if i = 0 then eb else 8))
  (x.1 / 8, (x.2 + eb + 7) / 8)

/-- Indices i0 to i4 of position `e` of a walk (R134). -/
def Gen.digits (g : Gen) (e : Nat) : List Nat :=
  (g.dims.foldl (fun (a : Nat × List Nat) d => (a.1 / d.count, a.1 % d.count :: a.2)) (e, [])).2.reverse

/-- Row and element of position `e` of a span or bank walk; none past its end. -/
def Gen.spanSpot (g : Gen) (rl : Nat) (p : Pitch) (e : Nat) : Option (Nat × Nat) :=
  let a := ((g.digits e).zip g.dims).foldl (fun (a : Int) x => a + x.1 * x.2.stride rl p) g.offset
  if e < g.size && decide (0 ≤ a) then some (a.toNat / rl, a.toNat % rl) else none

/-- Byte address of position `e` of a memory walk of whole bytes. -/
def Gen.memSpot (g : Gen) (base eb : Nat) (p : Pitch) (e : Nat) : Option Nat :=
  let a := ((g.digits e).zip g.dims).zipIdx.foldl
    (fun (a : Int) x => a + x.1.1 * x.1.2.stride 0 p * (if x.2 = 0 then eb / 8 else 1)) ((base : Int) + g.offset)
  if e < g.size && decide (0 ≤ a) then some a.toNat else none

/-- P1 or P2 is not zero for this table's instruction (R133); such a walk over a span is judged at start. -/
def Table.hasPitch (t : Table) : Bool := t.op ≤ 0x01 || t.op = 0x11 || (t.op = 0x12 && t.geom = 1)

/-- The generator that a port names: defined, with its AGUSE bit set, and of the right TARGET. -/
def Table.portGen (t : Table) (s : StepEntry) (port target : Nat) : Option Gen :=
  match t.gen (s.port port) with
  | some g => if s.uses g.agn && g.target = target then some g else none
  | none => none

/-- A span or bank walk that a port makes is within its span or bank under some P1 and P2 (R135). -/
def Table.walkIn (t : Table) (port : Nat) (p : Pitch) (g : Gen) : Bool :=
  let rl := if g.target = 7 then 128 else rowLen (t.portSpan port).1 (t.portSpan port).2
  g.target ≤ 1 || g.spanOk rl (128 * rl) p

/-- The walk depends on P1 or P2 and is judged at start (R133, R135). -/
def Table.late (t : Table) (g : Gen) : Bool := t.hasPitch && g.dims.any (fun d => d.src = 1 || d.src = 2)

/-- A walk that a port makes is within its span or bank, where the loader judges it (R135). -/
def Table.walkOk (t : Table) (port : Nat) (g : Gen) : Bool := t.late g || t.walkIn port ⟨0, 0⟩ g

/-- A generator is written where its port receives results, and read elsewhere (R132, R452): the state tile of SMAX1 and SMAXC is
both. -/
def Table.writeOk (t : Table) (port : Nat) (g : Gen) : Bool :=
  if port = 3 || (port = 2 && t.op = 0x27) then g.write
  else (port = 2 && (t.op = 0x23 || t.op = 0x25)) || !g.write

/-- One port of one step obeys R138 and R452. -/
def Table.portOk (t : Table) (s : StepEntry) (port : Nat) (u : PortUse) : Bool :=
  match u with
  | .never => s.port port = 0
  | .always tg =>
    match t.portGen s port tg with
    | some g => t.walkOk port g && t.writeOk port g
    | none => false
  | .optional tg => s.port port = 0 || (t.portGen s port tg).any (t.writeOk port)

/-! ### Steps (R137 to R140) -/

/-- One step entry alone (R138). -/
def Table.stepOk (t : Table) (i : Nat) (s : StepEntry) : Bool :=
  1 ≤ s.cycles && 1 ≤ s.repeats && 1 ≤ s.span && (s.repeats = 1 || s.span ≤ i + 1) && s.unit = t.unit
    && (if t.unit = 1 then s.acc = 1 || s.acc = 2 else s.acc = 0)
    && s.rowLo ≤ s.rowHi && s.rowHi ≤ 128 && s.colLo ≤ s.colHi && s.colHi ≤ (if t.unit = 1 then t.width else 128)
    && (List.range 8).all (fun g => !s.uses g || (t.gen g).isSome)
    && (t.portUse.zipIdx).all (fun u => t.portOk s u.2 u.1)

/-- The block that ends at step `i` of the list: first and last index. -/
def blocksOf (ss : List StepEntry) : List (Nat × Nat) :=
  ss.zipIdx.filterMap (fun x => if 1 < x.1.repeats then some (x.2 + 1 - x.1.span, x.2) else none)

/-- Steps that break the nesting of R139: the end of a block that a later one cuts, a step that stands in more than four blocks. -/
def blocksBad (ss : List StepEntry) : List Nat :=
  let bs := blocksOf ss
  (List.range ss.length).filter fun i =>
    bs.any (fun b => b.2 = i && bs.any (fun c => b.2 < c.2 && c.1 ≤ b.2 && b.1 < c.1))
      || 4 < (bs.filter (fun b => b.1 ≤ i && i ≤ b.2)).length

/-- How often step `i` runs: the product of the repeats of the blocks around it (R139). -/
def runsOf (ss : List StepEntry) (i : Nat) : Nat :=
  ss.zipIdx.foldl (fun n x => if 1 < x.1.repeats && x.2 + 1 - x.1.span ≤ i && i ≤ x.2 then n * x.1.repeats else n) 1

/-- The walk of R139 over the steps, at most `fuel` runs of a step: indices in execution order. -/
def walkFrom (ss : List StepEntry) : Nat → Nat → List (Nat × Nat) → List Nat
  | 0, _, _ => []
  | fuel + 1, i, left =>
    match ss[i]? with
    | none => []
    | some s =>
      if 1 < s.repeats then
        let n := match left.find? (fun x => x.1 = i) with
          | some x => x.2 - 1
          | none => s.repeats - 1
        let rest := left.filter (fun x => x.1 ≠ i)
        if 0 < n then i :: walkFrom ss fuel (i + 1 - s.span) ((i, n) :: rest) else i :: walkFrom ss fuel (i + 1) rest
      else i :: walkFrom ss fuel (i + 1) left

/-- Runs of an ARRAY table: (step, first K index doubled, K indices doubled). A valid table has at most 8,190 of them. -/
def arrayRuns (t : Table) (r2 : Nat) : List (StepEntry × Nat × Nat) :=
  ((walkFrom t.steps 8192 0 []).foldl (fun (a : Nat × List (StepEntry × Nat × Nat)) i =>
      match t.steps[i]? with
      | some s => (a.1 + r2 * s.cycles, (s, a.1, r2 * s.cycles) :: a.2)
      | none => a) (0, [])).2.reverse

/-! ### How far generators advance (R136, R137) -/

/-- Rows and columns that a step drives, of an operand of `rows` rows and `cols` columns: first and one past the last of each. COL_HI =
128 reaches every later column (R97, R138). -/
def StepEntry.box (s : StepEntry) (rows cols : Nat) : (Nat × Nat) × Nat × Nat :=
  ((s.rowLo, min rows s.rowHi), s.colLo, if s.colHi = 128 then cols else min cols s.colHi)

/-- Elements that one run of a step drives. -/
def StepEntry.elems (s : StepEntry) (rows cols : Nat) : Nat :=
  let b := s.box rows cols
  (b.1.2 - b.1.1) * (b.2.2 - b.2.1)

/-- A sum over the whole walk of a table, repeats included, over the steps during which generator `g` advances. -/
def Table.overWalk (t : Table) (g : Nat) (f : StepEntry → Nat) : Nat :=
  t.steps.zipIdx.foldl (fun n (x : StepEntry × Nat) => if x.1.uses g then n + f x.1 * runsOf t.steps x.2 else n) 0

/-- The A or B generator of ARRAY steps: its split of R136, and its advance over the table. -/
def Table.arrayGenOk (t : Table) (r2 outer : Nat) (g : Gen) : Bool :=
  (g.dim 0).count * (g.dim 1).count * (g.dim 2).count = t.kdim && (g.dim 3).count * (g.dim 4).count = outer
    && t.overWalk g.agn (fun s => r2 * s.cycles) = 2 * t.kdim

/-- Whether the generator in a port advances by exactly its walk (R137). MOVE, LANE and COLL steps move one element of their ranges to
each position of ports A and D, the results of an ARRAY table leave once, and its scales enter once a block; what a scale or state tile, an
optional port, or a transpose takes from a generator the header does not tell, and the loader does not judge it (log entry 48). -/
def Table.advances (t : Table) (port : Nat) (g : Gen) : Bool :=
  let all := t.overWalk g.agn (fun s => s.elems t.rows t.cols) = g.size
  if t.unit = 1 then
    match port with
    | 0 => match pairClass t.fmtA t.fmtB with
      | some c => t.arrayGenOk (rate2 t.fmtA t.fmtB c) t.rows g
      | none => true
    | 1 => match pairClass t.fmtA t.fmtB with
      | some c => t.arrayGenOk (rate2 t.fmtA t.fmtB c) t.cols g
      | none => true
    | 3 => g.size = t.rows * t.cols
    | 4 => g.size = t.rows * ceilDiv t.kdim 32
    | 5 => g.size = t.cols * ceilDiv t.kdim 32
    | _ => true
  else if port = 0 then t.op = 0x00 || all
  else if port = 3 then t.op = 0x01 || t.op = 0x22 || all
  else true

/-- Generators that do not advance by exactly their walk, by their first halves; one that no step advances has positions left. -/
def Table.gensBad (t : Table) : List Nat :=
  (t.gens.filter (fun g =>
    (g.size ≠ 0 && !t.steps.any (fun s => s.uses g.agn))
      || t.portUse.zipIdx.any (fun u =>
        match u.1 with
        | .always tg => t.steps.any (fun s => t.portGen s u.2 tg = some g) && !t.advances u.2 g
        | _ => false))).map (·.pos)

/-- Steps of an ARRAY table that break R140: an overwrite inside a block, two steps of one block with other ranges. -/
def Table.arrayBad (t : Table) : List Nat :=
  match pairClass t.fmtA t.fmtB with
  | none => []
  | some c =>
    let bl := 2 * blockLen c
    let runs := arrayRuns t (rate2 t.fmtA t.fmtB c)
    let early := runs.filterMap fun x => if x.1.acc = 1 && x.2.1 % bl ≠ 0 then some x.1.pos else none
    let pieces := runs.flatMap fun x =>
      (List.range ((x.2.1 + x.2.2 + bl - 1) / bl - x.2.1 / bl)).map fun i =>
        (x.2.1 / bl + i, (x.1.rowLo, x.1.rowHi, x.1.colLo, x.1.colHi), x.1.pos)
    let clash := (pieces.zip (pieces.drop 1)).filterMap fun y =>
      if y.1.1 = y.2.1 && y.1.2.1 ≠ y.2.2.1 then some y.2.2.2 else none
    early ++ clash

/-! ### Where the elements of a walk lie (R137 to R139) -/

/-- One run of a step, and how far each generator has come before it. -/
structure StepRun where
  step : StepEntry
  at_ : List Nat
  deriving DecidableEq, Repr

/-- The runs of a table whose operand has `rows` rows of `cols` elements, in the order of R139. -/
def Table.turns (t : Table) (rows cols : Nat) : List StepRun :=
  let fuel := (List.range t.steps.length).foldl (fun n i => n + runsOf t.steps i) 0
  ((walkFrom t.steps fuel 0 []).foldl (fun (a : List Nat × List StepRun) i =>
    match t.steps[i]? with
    | some s => ((List.range 8).map (fun g => a.1.getD g 0 + (if s.uses g then s.elems rows cols else 0)), ⟨s, a.1⟩ :: a.2)
    | none => a) ([], [])).2.reverse

/-- A run drives element (r, j). -/
def StepEntry.drives (s : StepEntry) (rows cols r j : Nat) : Bool :=
  let b := s.box rows cols
  b.1.1 ≤ r && r < b.1.2 && b.2.1 ≤ j && j < b.2.2

/-- Generator and position that a port uses for element (r, j): the first run that drives it; the elements of a run go rows ascending,
columns ascending in a row (R101, R137). -/
def Table.spot (t : Table) (ts : List StepRun) (rows cols port r j : Nat) : Option (Gen × Nat) :=
  match ts.find? (fun x => x.step.drives rows cols r j) with
  | none => none
  | some x =>
    let b := x.step.box rows cols
    (t.gen (x.step.port port)).map fun g => (g, x.at_.getD g.agn 0 + (r - b.1.1) * (b.2.2 - b.2.1) + (j - b.2.1))

/-! ### A whole table and a whole bank (R129, R130) -/

/-- A generator's own fields (R132). -/
def Table.genOk (t : Table) (g : Gen) : Bool :=
  (!g.bound || t.op = 0x11) && g.dims.all fun d => d.axis ≠ 3 && (d.axis = 0 || g.bound) && (d.src ≠ 3 || 2 ≤ g.target)

/-- The generator pairs from entry `i` on, before entry `stop`: what was read, and where steps begin; or the first entry that fails. -/
def readGens (ok : Gen → Bool) (ents : Nat → Entry) (stop : Nat) : Nat → Nat → List Gen → Except Nat (List Gen × Nat)
  | 0, i, gs => .ok (gs, i)
  | fuel + 1, i, gs =>
    if i < stop && entryKind (ents i) = 2 then
      let e := ents i
      let f := ents (i + 1)
      let g := parseGen e f i
      if bits e 115 112 ≠ 0 || gs.any (fun h => h.agn = g.agn) || !ok g then .error i
      else if stop ≤ i + 1 || entryKind f ≠ 3 || bits f 120 112 ≠ 0 || bits f 51 0 ≠ 0 || bits f 123 121 ≠ bits e 123 121 then
        .error (i + 1)
      else readGens ok ents stop fuel (i + 2) (gs ++ [g])
    else .ok (gs, i)

/-- The lowest of some entries. -/
def lowestOf : List Nat → Option Nat
  | [] => none
  | i :: l => some (l.foldl min i)

/-- Steps that break a rule by themselves. -/
def Table.loneBad (t : Table) : List Nat := t.steps.zipIdx.filterMap (fun x => if t.stepOk x.2 x.1 then none else some x.1.pos)

/-- Entries that break a rule that joins several: the nesting, the advance of generators, the blocks along K. -/
def Table.jointBad (t : Table) : List Nat :=
  (blocksBad t.steps).filterMap (fun i => t.steps[i]?.map (·.pos)) ++ t.gensBad ++ (if t.unit = 1 then t.arrayBad else [])

/-- Parse and check the table whose header is entry `h` (R129 to R140): the table, or its first failing entry. Which entry fails a rule
that joins several, the spec does not say (DESIGN CHOICE, log entry 72): a table without steps fails at its header, a block at its last
step, a generator whose advance is wrong at its first half, a K block at the step that enters it, and such rules are judged only where
every entry by itself is good. -/
def parseTable (ents : Nat → Entry) (h : Nat) : Except Nat Table :=
  let t := parseHeader (ents h)
  if !t.headerOk (ents h) h then .error h
  else
    let stop := h + t.length
    match readGens t.genOk ents stop 9 (h + 1) [] with
    | .error i => .error i
    | .ok (gs, first) =>
      let idx := (List.range (stop - first)).map (fun i => first + i)
      let t := { t with gens := gs, steps := idx.map (fun i => parseStep (ents i) i) }
      match lowestOf (idx.filter (fun i => entryKind (ents i) ≠ 4 || bits (ents i) 7 0 ≠ 0) ++ t.loneBad) with
      | some i => .error i
      | none =>
        if t.op ≠ 0x02 && t.steps = [] then .error h
        else match lowestOf t.jointBad with
          | some i => .error i
          | none => .ok t

/-- Walk a bank from entry `i`: the headers, or the first failing entry (R129, R130). -/
def walkBank (ents : Nat → Entry) : Nat → Nat → List Nat → Except Nat (List Nat)
  | 0, _, hs => .ok hs
  | fuel + 1, i, hs =>
    if 4096 ≤ i then .ok hs
    else if ents i = 0 then walkBank ents fuel (i + 1) hs
    else if entryKind (ents i) = 1 then
      match parseTable ents i with
      | .ok t => walkBank ents fuel (i + t.length) (hs ++ [i])
      | .error j => .error j
    else .error i

/-- Entry `i` of a bank. -/
def StbBank.entry (b : StbBank) (i : Nat) : Entry := Maps.get 0 b.entries i

/-- The check of a whole bank (R130). An empty bank is walked at once. -/
def StbBank.check (b : StbBank) : Except Nat (List Nat) :=
  if b.entries = [] then .ok [] else walkBank b.entry 4097 0 []

end Sys2Proof.Machine
end

