-- ==== Sys2Proof/Machine/Special.lean ====
section
/-! DEFINITION. Special functions: ROM functions within their bounds, slot tables, their checks (R151 to R162, R165). -/
namespace Sys2Proof.Machine

/-! ### Dyadic arithmetic -/

/-- Compare `a * 2^e` with `b * 2^f` exactly: a 2^e ≤ b 2^f. -/
def dyLe (a : Int) (e : Int) (b : Int) (f : Int) : Bool :=
  let g := min e f
  decide (a * 2 ^ (e - g).toNat ≤ b * 2 ^ (f - g).toNat)

/-- Signed dyadic of a finite value. -/
def Fv.dyadic : Fv → Int × Int
  | .fin n m e => (sgn n m, e)
  | _ => (0, 0)

/-- floor (m 2^e). -/
def dyFloor (m e : Int) : Int := if 0 ≤ e then m * 2 ^ e.toNat else m / 2 ^ (-e).toNat

/-- Exponent of the FP32 unit in the last place at a finite encoding. -/
def ulpExp (x : F32) : Int := max 1 (x.toNat / 2 ^ 23 % 256 : Nat) - 150

/-! ### ROM functions (R160, R162, R165) -/

/-- 1 / sqrt (m 2^e) rounded to FP32: 200 bits and a sticky bit. -/
def rsqrtRef (m : Nat) (e : Int) : F32 :=
  let e' := if e % 2 = 0 then e else e - 1
  let m' := if e % 2 = 0 then m else 2 * m
  let r := isqrt (2 ^ 400 / m')
  let sticky := if r * r * m' = 2 ^ 400 then 0 else 1
  BitVec.ofNat 32 (Fmt.fp32.ratio .nearest false false (2 * r + sticky) 1 (-(e' / 2) - 201)).1

/-- Square root of a 128-bit fixed-point number. -/
def fixSqrt (x : Nat) : Nat := isqrt (x * 2 ^ 128)

/-- 2^f in 128-bit fixed point, from below: `f` has `k` bits left, `r` is the root 2^(2^-i) of the next. -/
def exp2Bits : Nat → Nat → Nat → Nat → Nat
  | 0, _, _, acc => acc
  | k + 1, f, r, acc =>
    exp2Bits k f (fixSqrt r) (if f / 2 ^ k % 2 = 1 then acc * r / 2 ^ 128 else acc)

/-- The fraction `f / 2^64` to its power of two, 2^128 meaning 1. -/
def exp2Frac (f : Nat) : Nat := exp2Bits 64 f (fixSqrt (2 ^ 129)) (2 ^ 128)

/-- log2 of a 128-bit fixed-point number in [1, 2), as `k` bits. -/
def log2Bits : Nat → Nat → Nat → Nat
  | 0, _, acc => acc
  | k + 1, x, acc =>
    let y := x * x / 2 ^ 128
    if 2 ^ 129 ≤ y then log2Bits k (y / 2) (2 * acc + 1) else log2Bits k y (2 * acc)

/-! A ROM function's result comes from the polynomial value p of its reduced point (i, j) by the reconstruction of its kind, so inputs that
reduce to one point share p (R160). R160 leaves p open within a bound. A candidate outside the bound of its point gives way to a value inside
it; and since no such function steps backward (R162), the value taken at a point is the furthest of the candidates up to it. Candidates
further back than `romReach` points cannot pass the bounds of the point itself. -/

/-- Points whose candidates can still bind a later point. -/
def romReach : Nat := 16

/-- The furthest candidate up to point `r`. -/
def romMono (later : F32 → F32 → F32) (cand : Nat → F32) (r : Nat) : F32 :=
  (List.range (min r romReach)).foldl (fun m i => later m (cand (r - 1 - i))) (cand r)

/-- Larger and smaller of two encodings of non-negative numbers. -/
def encMax (a b : F32) : F32 := if a.toNat < b.toNat then b else a
def encMin (a b : F32) : F32 := if a.toNat < b.toNat then a else b

/-- A non-negative finite candidate lies from `hi 2^e − 2^u` to `lo 2^e + 2^u`: within 2^u of every number from `lo 2^e` to `hi 2^e`. -/
def nearAll (c : Fv) (lo hi e u : Int) : Bool :=
  match c with
  | .fin n a f =>
    let g := min (min e f) u
    let x := sgn n a * 2 ^ (f - g).toNat
    decide (hi * 2 ^ (e - g).toNat - 2 ^ (u - g).toNat ≤ x) && decide (x ≤ lo * 2 ^ (e - g).toNat + 2 ^ (u - g).toNat)
  | _ => false

/-- 2^(r / 2^24) as an interval in 128-bit fixed point; the exact ends of the period included. -/
def exp2At (r : Nat) : Nat × Nat :=
  if r = 0 then (2 ^ 128, 2 ^ 128) else if 2 ^ 24 ≤ r then (2 ^ 129, 2 ^ 129) else
  let v := exp2Frac (r * 2 ^ 40)
  (v, v + 2 ^ 66)

/-- p of EXP2 at point `r`: within 1 ulp of 2^f for every fraction f that reduces to it, 1.0 at point 0, below 2 (R160, R162). -/
def romExp2P (r : Nat) : F32 :=
  let c := Config.romCandidate 0 r
  let mid := toF32 (.fin false (exp2Frac ((2 * r + 1) * 2 ^ 39)) (-128))
  if r = 0 then f32One
  else if c.toNat < 0x40000000 && nearAll (f32 c) (exp2At r).1 (exp2At (r + 1)).2 (-128) (-23) then c
  else encMin mid 0x3FFFFFFF

/-- EXP2 (R160, R162): EXP with multiplier 1. -/
def romExp2 (x : F32) : F32 :=
  match f32 x with
  | .nan => f32NaN
  | .inf true => 0
  | .inf false => f32PosInf
  | .fin neg m e =>
    let z := sgn neg m
    if dyLe 128 0 z e then f32PosInf
    else if !dyLe (-150) 0 z e then 0
    else
      let v := dyFloor z (e + 24)
      toF32 ((f32 (romMono encMax romExp2P (v % 2 ^ 24).toNat)).scale (v / 2 ^ 24))

/-- log2 (1 + r / 2^23) as an interval in 64-bit fixed point. -/
def log2At (r : Nat) : Nat × Nat :=
  if r = 0 then (0, 0) else
  let v := log2Bits 64 ((2 ^ 23 + r) * 2 ^ 105) 0
  (v, v + 8)

/-- p of LOG2 at point `r`: n + p, rounded, is within the bound for every period n (R160), which periods -2 to 1 decide; +0 at
point 0 (R162). -/
def romLog2P (r : Nat) : F32 :=
  let c := Config.romCandidate 1 r
  let l := log2At r
  let ref := fun (n : Int) => toF32 (Fv.ofDyadic (n * 2 ^ 64 + l.1) (-64))
  let ok := fun (n : Int) =>
    nearAll (f32 (toF32 ((Fv.ofInt n).add (f32 c)))) (n * 2 ^ 64 + l.1) (n * 2 ^ 64 + l.2) (-64)
      (if n = 0 || n = -1 then -23 else ulpExp (ref n))
  if r = 0 then 0
  else if bit c 31 = false && ok (-2) && ok (-1) && ok 0 && ok 1 then c
  else ref 0

/-- LOG2 (R160, R162): LOG with period constant 1. -/
def romLog2 (x : F32) : F32 :=
  match f32 x with
  | .nan => f32NaN
  | .inf true => f32NaN
  | .inf false => f32PosInf
  | .fin neg m e =>
    if m = 0 then f32NegInf
    else if neg then f32NaN
    else
      let k := Nat.log2 m
      let p := romMono encMax romLog2P ((m - 2 ^ k) * 2 ^ (23 - k))
      toF32 ((Fv.ofInt (e + k)).add (f32 p))

/-- p of RECIP at m = 1 + r / 2^23: within 1 ulp of 1 / m (R160). -/
def romRecipP (r : Nat) : F32 :=
  let c := Config.romCandidate 2 r
  let m : Int := 2 ^ 23 + r
  let ok : Bool := match f32 c with
    | .fin false a f =>
      let u : Int := if r = 0 then -23 else -24
      let g := min f u
      dyLe (((a : Int) * 2 ^ (f - g).toNat - 2 ^ (u - g).toNat) * m) (g - 23) 1 0
        && dyLe 1 0 (((a : Int) * 2 ^ (f - g).toNat + 2 ^ (u - g).toNat) * m) (g - 23)
    | _ => false
  if ok then c else f32Div f32One (toF32 (.fin false (2 ^ 23 + r) (-23)))

/-- A p that falls over a period never falls below half of what the period begins with: the next one goes on from there (R162). -/
def romFall (cand : Nat → F32) (r : Nat) : F32 := encMax (romMono encMin cand r) (toF32 ((f32 (cand 0)).scale (-1)))

/-- RECIP (R160): |x| = 2^n m gives p 2^-n with the sign of x. -/
def romRecip (x : F32) : F32 :=
  match f32 x with
  | .nan => f32NaN
  | .inf neg => if neg then f32NegZero else 0
  | .fin neg m e =>
    if m = 0 then (if neg then f32NegInf else f32PosInf)
    else
      let k := Nat.log2 m
      let y := (f32 (romFall romRecipP ((m - 2 ^ k) * 2 ^ (23 - k)))).scale (-(e + k))
      toF32 (if neg then y.negate else y)

/-- p of RSQRT at point `r`, where m = 1 + r / 2^23, doubled from point 2^23 on: within 1 ulp of 1 / sqrt m (R160). -/
def romRsqrtP (r : Nat) : F32 :=
  let c := Config.romCandidate 3 r
  let m : Nat := 2 ^ 23 + r % 2 ^ 23
  let e : Int := if r < 2 ^ 23 then -23 else -22
  let ok : Bool := match f32 c with
    | .fin false a f =>
      let u : Int := if r = 0 then -23 else -24
      let g := min f u
      let lo : Int := a * 2 ^ (f - g).toNat - 2 ^ (u - g).toNat
      let hi : Int := a * 2 ^ (f - g).toNat + 2 ^ (u - g).toNat
      (decide (lo ≤ 0) || dyLe (lo * lo * m) (2 * g + e) 1 0) && dyLe 1 0 (hi * hi * m) (2 * g + e)
    | _ => false
  if ok then c else rsqrtRef m e

/-- RSQRT (R160): EVENEXP with ESCALE -1. -/
def romRsqrt (x : F32) : F32 :=
  match f32 x with
  | .nan => f32NaN
  | .inf true => f32NaN
  | .inf false => 0
  | .fin neg m e =>
    if m = 0 then (if neg then f32NegInf else f32PosInf)
    else if neg then f32NaN
    else
      let k := Nat.log2 m
      let n : Int := e + k
      let r := (m - 2 ^ k) * 2 ^ (23 - k) + (if n % 2 = 0 then 0 else 2 ^ 23)
      toF32 ((f32 (romFall romRsqrtP r)).scale (-(n / 2)))

/-- e(d) of R165. -/
def softExp (d : F32) : F32 := romExp2 (f32Mul d 0x3FB8AA3B)

/-! ### Slot tables (R152 to R156) -/

abbrev SlotWords := List (Nat × BitVec 32)

def sw (t : SlotWords) (i : Nat) : F32 := Maps.get 0 t i
def slotKind (t : SlotWords) : Nat := bits (sw t 0) 1 0
def slotEscale (t : SlotWords) : Int := if bits (sw t 0) 3 2 = 1 then 1 else -1
def slotMono (t : SlotWords) : Nat := bits (sw t 0) 5 4
def slotBelow (t : SlotWords) : Bool := bits (sw t 0) 7 6 = 1
def slotAbove (t : SlotWords) : Bool := bits (sw t 0) 9 8 = 1
def slotZsign (t : SlotWords) : Bool := bit (sw t 0) 10
def slotSexp (t : SlotWords) : Int := (BitVec.ofNat 8 (bits (sw t 0) 23 16)).toInt
/-- K_HI + K_LO, exactly. -/
def slotK (t : SlotWords) : Fv := (f32 (sw t 2)).add (f32 (sw t 3))

/-- The quadratic of segment `i` at j / 65,536 (R153). -/
def slotPoly (t : SlotWords) (i j : Nat) : F32 :=
  let c := fun k => f32 (sw t (16 + 3 * i + k))
  let tt : Fv := .fin false j (-16)
  let q := toF32 (((c 2).mul tt).add (c 1))
  toF32 (((f32 q).mul tt).add (c 0))

/-- Reconstruction from the period (R152). An FP32 number scaled by 1,024 periods has overflowed or vanished, as it has by more. -/
def slotRebuild (t : SlotWords) (n : Int) (p : F32) : F32 :=
  match slotKind t with
  | 0 => p
  | 1 => toF32 ((f32 p).scale (max (-1024) (min 1024 n)))
  | 2 => toF32 ((Fv.mul (Fv.ofInt n) (slotK t)).add (f32 p))
  | _ => toF32 ((f32 p).scale (slotEscale t * n))

/-- What a special value, or an identity mode, gives: a NaN leaves as the canonical NaN (R154). -/
def canon (x : F32) : F32 := if (f32 x).isNan then f32NaN else x

/-- The reduction of R152 for EXP, and for LOG and EVENEXP of a positive number m 2^e with the sign `neg`: the period, and the point
65,536 i + j. -/
def slotPoint (t : SlotWords) (neg : Bool) (m : Nat) (e : Int) : Int × Nat :=
  if slotKind t = 1 then
    let k := (slotK t).dyadic
    let v := dyFloor (sgn neg m * k.1) (e + k.2 + 24)
    (v / 2 ^ 24, (v % 2 ^ 24).toNat)
  else
    let k := Nat.log2 m
    let n : Int := e + k
    let frac := (m - 2 ^ k) * 2 ^ (24 - k)
    if slotKind t = 2 then (n, frac) else (n / 2, frac / 2 + (if n % 2 = 0 then 0 else 2 ^ 23))

/-- The point of a LINEAR table at or above LO; none above its domain, where the rounded difference may be infinite (R152). -/
def slotLinear (t : SlotWords) (x : Fv) : Option Nat :=
  match f32 (toF32 (x.sub (f32 (sw t 1)))) with
  | .fin n m e =>
    let v := dyFloor (sgn n m) (e - slotSexp t + 16)
    if 2 ^ 24 ≤ v then none else some v.toNat
  | _ => none

/-- p at a point. -/
def slotAt (t : SlotWords) (r : Nat) : F32 := slotPoly t (r / 2 ^ 16) (r % 2 ^ 16)

/-- f(x) by the table (R152 to R154). -/
def slotEval (t : SlotWords) (x : F32) : F32 :=
  let below := if slotBelow t then x else canon (sw t 4)
  let above := if slotAbove t then x else canon (sw t 5)
  let inside := fun neg m e => slotRebuild t (slotPoint t neg m e).1 (slotAt t (slotPoint t neg m e).2)
  match f32 x, slotKind t with
  | .nan, _ => f32NaN
  | .inf true, 0 => below
  | .inf false, 0 => above
  | .fin neg m e, 0 =>
    if (Fv.fin neg m e).lt (f32 (sw t 1)) then below
    else match slotLinear t (.fin neg m e) with
      | none => above
      | some r => slotAt t r
  | .inf true, 1 => canon (sw t 8)
  | .inf false, _ => canon (sw t 9)
  | .fin neg m e, 1 => inside neg m e
  | .inf true, _ => canon (sw t 7)
  | .fin neg m e, _ =>
    if m = 0 then (if neg && slotZsign t then canon (sw t 6 ^^^ 0x80000000) else canon (sw t 6))
    else if neg then canon (sw t 7)
    else inside false m e

/-! ### The checks of a load (R156 to R158) -/

def fin32 (x : F32) : Bool :=
  match f32 x with
  | .fin _ _ _ => true
  | _ => false

/-- HI of a LINEAR table: LO + 2^(SEXP + 8), exactly (R156). -/
def slotHi (t : SlotWords) : Fv := (f32 (sw t 1)).add (.fin false 1 (slotSexp t + 8))

/-- R156: unused fields and reserved bits zero, finite bounds, finite coefficients. -/
def slotFieldsOk (t : SlotWords) : Bool :=
  let ctrl := sw t 0
  let zero := fun (l : List Nat) => l.all (fun i => sw t i = 0)
  bits ctrl 31 24 = 0 && bits ctrl 15 11 = 0 && slotMono t ≠ 3 && zero [12, 13, 14, 15]
    && (List.range 768).all (fun i => fin32 (sw t (16 + i)))
    && (match slotKind t with
      | 0 => bit ctrl 10 = false && bits ctrl 3 2 = 0 && bits ctrl 9 8 ≤ 1 && bits ctrl 7 6 ≤ 1
          && decide (-24 ≤ slotSexp t) && decide (slotSexp t ≤ 24) && zero [2, 3, 6, 7, 8, 9]
          && fin32 (sw t 1) && fin32 (toF32 (slotHi t))
      | 1 => bits ctrl 23 16 = 0 && bits ctrl 10 6 = 0 && bits ctrl 3 2 = 0 && zero [1, 4, 5, 6, 7]
          && fin32 (sw t 2) && fin32 (sw t 3) && !(slotK t).isZero
      | 2 => bits ctrl 23 16 = 0 && bits ctrl 9 6 = 0 && bits ctrl 3 2 = 0 && zero [1, 4, 5, 8]
          && fin32 (sw t 2) && fin32 (sw t 3) && !(slotK t).isZero
      | _ => bits ctrl 23 16 = 0 && bits ctrl 9 6 = 0 && (bits ctrl 3 2 = 1 || bits ctrl 3 2 = 3) && zero [1, 2, 3, 4, 5, 8])

/-- The largest backward step so far: magnitude, segment, j, whether the later point is an upper end; and whether the sequence
ever moved against its declared direction. -/
structure Scan where
  prev : Fv
  step : Fv
  seg : Nat
  j : Nat
  atEnd : Bool
  bad : Bool
  deriving DecidableEq, Repr

/-- The next value of the sequence, with its point (R157, R158). `down`: the table declares non-increasing. Of several largest backward
steps the first stands, and a value that is a NaN, which lies neither below nor above another, moves against no direction (DESIGN CHOICE,
log entry 76). -/
def Scan.next (down : Bool) (s : Scan) (v : Fv) (r : Nat) (atEnd : Bool) : Scan :=
  let back := if down then s.prev.lt v else v.lt s.prev
  let d := (v.sub s.prev).abs
  let s := { s with prev := v, bad := s.bad || back }
  if back && s.step.lt d then
    { s with step := d, seg := if atEnd then 0 else r / 2 ^ 16, j := if atEnd then 0 else r % 2 ^ 16, atEnd := atEnd }
  else s

/-- Walk the reduced points from index `i`, upward, or downward for an EXP table with a negative multiplier; every p must be
finite. -/
def scanPoints (t : SlotWords) (down rev : Bool) : Nat → Nat → Bool × Scan → Bool × Scan
  | 0, _, a => a
  | n + 1, i, a =>
    let k := if rev then 2 ^ 24 - 1 - i else i
    let p := slotAt t k
    scanPoints t down rev n (i + 1) (a.1 && fin32 p, a.2.next down (f32 (slotRebuild t 0 p)) k false)

/-- The FP32 neighbour below a finite value (in order of value). -/
def f32Below (x : F32) : F32 := if x = 0 || x = f32NegZero then 0x80000001 else if bit x 31 then x + 1 else x - 1

/-- The FP32 encodings in the order of their values, from 0 on, and back. -/
def f32OfKey (n : Nat) : F32 := if n < 2 ^ 31 then BitVec.ofNat 32 (2 ^ 32 - 1 - n) else BitVec.ofNat 32 (n - 2 ^ 31)

/-- The input lies above a LINEAR table's domain. -/
def slotIsAbove (t : SlotWords) (x : F32) : Bool :=
  match f32 x with
  | .fin neg m e => !(Fv.fin neg m e).lt (f32 (sw t 1)) && (slotLinear t (.fin neg m e)).isNone
  | .inf neg => !neg
  | .nan => !bit x 31

/-- The smallest FP32 input that gives above mode (R157): rounding keeps order, so a search by halves finds it. -/
def firstAbove (t : SlotWords) : F32 :=
  f32OfKey ((List.range 32).foldl (fun lo i =>
    if slotIsAbove t (f32OfKey (lo + 2 ^ (31 - i) - 1)) then lo else lo + 2 ^ (31 - i)) 0)

/-- The value of period `n` with p, not rounded (R157: the wrap is compared exactly). -/
def slotExact (t : SlotWords) (n : Int) (p : F32) : Fv :=
  match slotKind t with
  | 1 => (f32 p).scale n
  | 2 => (Fv.mul (Fv.ofInt n) (slotK t)).add (f32 p)
  | _ => (f32 p).scale (slotEscale t * n)

/-- The check of R157 and the record of R158: the largest backward step and its later point, or none where the table is rejected. The
wrap between periods is measured from period 0 to period 1: which periods its recorded size is for, the spec does not say (DESIGN
CHOICE, log entry 76). -/
def slotCheck (t : SlotWords) : Option Scan :=
  if !slotFieldsOk t then none
  else
    let down := slotMono t = 2
    let kd := slotKind t
    let rev := kd = 1 && (slotK t).neg
    let last := 2 ^ 24 - 1
    let lowIn : F32 := if kd = 0 then (if slotBelow t then f32Below (sw t 1) else f32NegInf) else if kd = 1 then f32NegInf else 0
    let start : Scan := ⟨f32 (slotEval t lowIn), .fin false 0 0, 0, 0, false, false⟩
    -- the lower special value against the extreme finite input, whose point is the later one
    let low : F32 := if kd = 1 then 0xFF7FFFFF else 1
    let lowPoint := match f32 low with
      | .fin neg m e => (slotPoint t neg m e).2
      | _ => 0
    let start := if kd = 0 then start
      else { start.next down (f32 (slotEval t low)) lowPoint false with prev := f32 (slotRebuild t 0 (slotAt t (if rev then last else 0))) }
    let r := scanPoints t down rev (2 ^ 24) 0 (true, start)
    let s := r.2
    let s := match kd with
      | 0 => s.next down (f32 (slotEval t (if slotAbove t then firstAbove t else f32PosInf))) 0 true
      | _ =>
        let s := if rev then { s with prev := slotExact t 1 (slotAt t 0) }.next down (slotExact t 0 (slotAt t last)) last false
          else { s with prev := slotExact t 0 (slotAt t last) }.next down (slotExact t 1 (slotAt t 0)) 0 false
        { s with prev := f32 (slotEval t 0x7F7FFFFF) }.next down (f32 (slotEval t f32PosInf)) 0 true
    if r.1 && (slotMono t = 0 || !s.bad) then some s else none

/-! ### Reference tables (R151, R161) -/

/-- The words of reference table `n`: kind, parameters and special values as R161 gives them; coefficients are open values of the
firmware that R161 bounds. -/
def refTable (n : Nat) : SlotWords :=
  let coef := (List.range 768).map (fun i => (16 + i, Config.refCoef n i))
  let hdr : List (Nat × BitVec 32) :=
    match n with
    | 0 => [(0, 0x00000011), (2, 0x3FB8AA3B), (3, 0x32A57060), (9, 0x7F800000)]
    | 1 => [(0, 0x00000012), (2, 0x3F317218), (3, 0xB102E308), (6, 0xFF800000), (7, 0x7FC00000), (9, 0x7F800000)]
    | 2 => [(0, 0x00000417), (7, 0x7FC00000), (9, 0x7F800000)]
    | 3 => [(0, 0x00FC0010), (1, 0xC1000000), (4, 0xBF800000), (5, 0x3F800000)]
    | 4 => [(0, 0x00FD0010), (1, 0xC1800000), (5, 0x3F800000)]
    | 5 => [(0, 0x00FC0100), (1, 0xC1000000), (4, 0x80000000)]
    | 6 => [(0, 0x00FC0100), (1, 0xC1000000), (4, 0x80000000)]
    | _ => [(0, 0x00FD0100), (1, 0xC1800000), (4, 0x80000000)]
  (hdr ++ coef).foldl (fun m e => Maps.put 0 m e.1 e.2) []

end Sys2Proof.Machine
end

