-- ==== Sys2Proof/Machine/ArrayUnit.lean ====
section
/-! DEFINITION. The array: MMA and CONV (R47 to R54, R110, R111, R136, R140, R143 to R147). -/
namespace Sys2Proof.Machine

/-! ### Operand values -/

/-- The value of an element of a plain or MX code, its block scale aside; an MXINT8 element stands as its integer (R39). -/
def eltValue (code raw : Nat) : Fv :=
  match eltOf (code % 16) with
  | some e => e.decode raw
  | none => .nan

/-- The parts of an FP32 operand of the single class (R53): hi and lo. -/
def splitF32 (v : Fv) : Fv × Fv :=
  match v with
  | .fin neg m e =>
    let c := Fmt.bf16.convert .nearest false (.fin neg m e)
    let hi := match Fmt.bf16.decode c with
      | .inf n => Fmt.bf16.decode (Fmt.bf16.sign n Fmt.bf16.maxCode)
      | w => w
    (hi, Fmt.bf16.decode (Fmt.bf16.convert .nearest false (v.sub hi)))
  | _ => (v, v)

def Fv.finite : Fv → Bool
  | .fin _ _ _ => true
  | _ => false

/-- The K indices of a port as an address walk: i0, i1, i2 of index k, and i3, i4 of row or column m (R136). -/
def Gen.indices (g : Gen) (m k : Nat) : List Nat :=
  let c0 := (g.dim 0).count
  let c1 := (g.dim 1).count
  let c3 := (g.dim 3).count
  [k % c0, k / c0 % c1, k / c0 / c1, m % c3, m / c3]

/-- Position in elements of a span walk (R133, R134). -/
def Gen.spanPos (g : Gen) (rl : Nat) (p : Pitch) (m k : Nat) : Int :=
  ((g.indices m k).zip g.dims).foldl (fun (a : Int) x => a + x.1 * x.2.stride rl p) g.offset

/-- What a memory walk yields: a bit address, or padding (R134). -/
def Gen.memPos (g : Gen) (base : Nat) (p : Pitch) (w : Nat) (x0 y0 : Int) (cw ch m k : Nat) : Option Int :=
  let ds := (g.indices m k).zip g.dims
  let x := ds.foldl (fun (a : Int) d => if d.2.axis = 1 then a + d.1 * d.2.mul else a) x0
  let y := ds.foldl (fun (a : Int) d => if d.2.axis = 2 then a + d.1 * d.2.mul else a) y0
  let bytes := (ds.drop 1).foldl (fun (a : Int) d => a + d.1 * d.2.stride 0 p) ((base : Int) + g.offset
    + (if g.bound then x0 * p.p1 + y0 * p.p2 else 0))
  let bits := match ds with
    | d :: _ => (w : Int) * d.1 * d.2.stride 0 p
    | [] => 0
  if g.bound && !(decide (0 ≤ x) && decide (x < cw) && decide (0 ≤ y) && decide (y < ch)) then none
  else some (8 * bytes + bits)

/-! ### Blocks (R48 to R51) -/

/-- One run of a step over K: the step, its first K index and the one past its last. -/
structure KRun where
  step : StepEntry
  lo : Nat
  hi : Nat

/-- The runs of an ARRAY table in K indices; an index that a step boundary cuts belongs to the earlier run. -/
def Table.kRuns (t : Table) : List KRun :=
  match pairClass t.fmtA t.fmtB with
  | none => []
  | some c => (arrayRuns t (rate2 t.fmtA t.fmtB c)).map fun x => ⟨x.1, (x.2.1 + 1) / 2, min t.kdim ((x.2.1 + x.2.2 + 1) / 2)⟩

def StepEntry.covers (s : StepEntry) (m n : Nat) : Bool := s.rowLo ≤ m && m < s.rowHi && s.colLo ≤ n && n < s.colHi

/-- The step whose ranges apply to the block that holds K index k. -/
def ownerAt (rs : List KRun) (k : Nat) : Option StepEntry := (rs.find? (fun r => r.lo ≤ k && k < r.hi)).map (·.step)

/-- An overwrite step starts at this K index for element (m, n). -/
def overwrites (rs : List KRun) (k m n : Nat) : Bool := rs.any (fun r => r.lo = k && r.lo < r.hi && r.step.acc = 1 && r.step.covers m n)

/-- Add one block to an accumulator element (R49 to R51). -/
def addBlock (cls : KClass) (c : BitVec 32) (prods : List Fv) (scale : Int) : BitVec 32 :=
  match cls with
  | .integer =>
    let s := (exactSum prods).dyadic
    let v := c.toInt + dyFloor s.1 s.2
    BitVec.ofInt 32 (max (-(2 ^ 31)) (min (2 ^ 31 - 1) v))
  | _ => f32Add c (toF32 ((exactSum prods).scale scale))

/-- The operands of one output element: values and block scales by K index and block. -/
structure Operands where
  a : Nat → Fv
  b : Nat → Fv
  sa : Nat → Option Int
  sb : Nat → Option Int

/-- One K index as a product pair, NaN where a scale is 0xFF (R39). -/
def Operands.pair (o : Operands) (k : Nat) : Fv × Fv :=
  let blk := k / 32
  ((if (o.sa blk).isSome then o.a k else .nan), (if (o.sb blk).isSome then o.b k else .nan))

/-- A product whose multiplier is gated (R145). -/
def gatedPair (p : Fv × Fv) : Bool := (p.1.isZero && p.2.finite) || (p.2.isZero && p.1.finite)

/-- One pass over K for one output element: the element and the products gated (R49, R140, R145). `first` says whether an overwrite
acts, `pick` gives a pass's part of a pair, `skip` the blocks the pass leaves alone (R53). An overwrite starts from -0.0; in the
integer class, whose bank holds no -0.0, from integer 0 (DEDUCED, log entry 73: R51 gives the class INT32 sums, R140 names only
-0.0). -/
def passElem (cls : KClass) (rs : List KRun) (o : Operands) (kdim m n : Nat) (first : Bool) (pick : Fv × Fv → Fv × Fv)
    (skip : List (Fv × Fv) → Bool) (c : BitVec 32) : BitVec 32 × Nat :=
  let bl := blockLen cls
  (List.range (ceilDiv kdim bl)).foldl (fun (x : BitVec 32 × Nat) bi =>
    let k0 := bi * bl
    let k1 := min kdim (k0 + bl)
    let c := if first && overwrites rs k0 m n then (if cls = .integer then 0 else f32NegZero) else x.1
    match ownerAt rs (k1 - 1) with
    | none => (c, x.2)
    | some st =>
      if !st.covers m n then (c, x.2)
      else
        let ps := (List.range (k1 - k0)).map (fun i => o.pair (k0 + i))
        if skip ps then (c, x.2)
        else
          let ps := ps.map pick
          let sc := (o.sa (k0 / 32)).getD 0 + (o.sb (k0 / 32)).getD 0 - (if cls = .scaled then 12 else 0)
          (addBlock cls c (ps.map (fun p => p.1.mul p.2)) sc, x.2 + (ps.filter gatedPair).length)) (c, 0)

/-- One output element over all passes, or over the first alone when the instruction stopped in it (R49, R53, R100). -/
def arrayElem (cls : KClass) (rs : List KRun) (o : Operands) (kdim m n : Nat) (whole : Bool) (c : BitVec 32) : BitVec 32 × Nat :=
  match cls with
  | .single =>
    let special := fun (l : List (Fv × Fv)) => l.any (fun p => !p.1.finite || !p.2.finite)
    let p1 := passElem cls rs o kdim m n true (fun p => ((splitF32 p.1).2, (splitF32 p.2).1)) special c
    let p2 := passElem cls rs o kdim m n false (fun p => ((splitF32 p.1).1, (splitF32 p.2).2)) special p1.1
    let p3 := passElem cls rs o kdim m n false
      (fun p => if p.1.finite && p.2.finite then ((splitF32 p.1).1, (splitF32 p.2).1) else p) (fun _ => false) p2.1
    if whole then (p3.1, p1.2 + p2.2 + p3.2) else p1
  | _ => passElem cls rs o kdim m n true id (fun _ => false) c

/-- Products that fall outside the ranges of the steps: gated in every run (R145). -/
def outsideProducts (cls : KClass) (rs : List KRun) (width : Nat) : Nat :=
  (rs.foldl (fun n r => n + (r.hi - r.lo) * (128 * width - (r.step.rowHi - r.step.rowLo) * (r.step.colHi - r.step.colLo))) 0)
    * (if cls = .single then 3 else 1)

/-- All output elements, rows and columns ascending; `ops m n` gives an element's operands, `part m n` the runs it takes part in
when the instruction stopped early (R100). -/
def Core.arrayRun (c : Core) (cls : KClass) (rs : List KRun) (bank rows cols kdim : Nat)
    (part : Option (Nat → Nat → Nat)) (ops : Nat → Nat → Operands) : Core :=
  let c := (List.range rows).foldl (fun (c : Core) m =>
    (List.range cols).foldl (fun (c : Core) n =>
      let rs := match part with
        | some f => rs.take (f m n)
        | none => rs
      let r := arrayElem cls rs (ops m n) kdim m n part.isNone (c.accAt bank m n)
      { c.setAcc bank m n r.1 with gated := c.gated + r.2 }) c) c
  { c with gated := c.gated + outsideProducts cls rs c.width }

/-! ### The walks of ports A and B (R136) -/

/-- The generator that feeds a port at K index `k`: that of the step whose run holds it. Every generator of the table is at the same K
index, since each advances by the whole of K (R137). -/
def Table.feeder (t : Table) (rs : List KRun) (port k : Nat) : Gen :=
  let s := ownerAt rs k <|> t.steps.head?
  ((s.bind fun s => t.gen (s.port port))).getD ⟨0, 0, false, false, [], 0, 0⟩

/-- Row and element of a span operand at K index `k` of row or column `m`. -/
def Table.spanOperand (t : Table) (rs : List KRun) (port code n : Nat) (p : Pitch) (m k : Nat) : Nat × Nat :=
  let rl := rowLen code n
  let a := ((t.feeder rs port k).spanPos rl p m k).toNat
  (a / rl, a % rl)

/-- The value of an operand in a span. -/
def Core.portElem (c : Core) (tile code : Nat) (a : Nat × Nat) : Fv := eltValue code (c.elem tile a.1 a.2 (fmtBits code))

/-- The scale of the stored block that element `a` of an operand lies in; 1 for a plain operand (R40, R47). -/
def Core.scaleAt (c : Core) (code tile : Nat) (a : Nat × Nat) : Option Int :=
  if isMx code then e8m0 (c.tbyte tile a.1 (a.2 / 32)).toNat else some 0

/-- The stored scale blocks of an MX operand coincide with the K blocks (R48): all of a block's elements lie in one of them. -/
def Table.scalesMeet (t : Table) (rs : List KRun) (port code outer : Nat) : Bool :=
  !isMx code || (List.range outer).all fun m =>
    (List.range t.kdim).all fun k =>
      let x := t.spanOperand rs port code t.kdim ⟨0, 0⟩ m k
      let y := t.spanOperand rs port code t.kdim ⟨0, 0⟩ m (k / 32 * 32)
      x.1 = y.1 && x.2 / 32 = y.2 / 32

/-! ### MMA (R110) -/

/-- MMA on one core. -/
def Core.mma (c : Core) (b : BroadWords) (t : Table) : Core :=
  match pairClass b.fmtA b.fmtB with
  | none => c
  | some cls =>
    let rs := t.kRuns
    let at_ := fun port code m k => t.spanOperand rs port code b.kdim ⟨0, 0⟩ m k
    c.arrayRun cls rs (b.td % 4) b.rows b.cols b.kdim none fun m n =>
      { a := fun k => c.portElem b.ta b.fmtA (at_ 0 b.fmtA m k)
        b := fun k => c.portElem b.tb b.fmtB (at_ 1 b.fmtB n k)
        sa := fun blk => c.scaleAt b.fmtA b.tc (at_ 0 b.fmtA m (32 * blk))
        sb := fun blk => c.scaleAt b.fmtB b.te (at_ 1 b.fmtB n (32 * blk)) }

/-! ### CONV (R111) -/

/-- CONV on one core; `mem` reads `w` bits at a bit address. -/
def Core.conv (c : Core) (b : BroadWords) (t : Table) (ga : Nat) (p : Pitch) (mem : Nat → Nat → Nat)
    (part : Option (Nat → Nat → Nat)) : Core :=
  match pairClass b.fmtA b.fmtB with
  | none => c
  | some cls =>
    let w := fmtBits b.fmtA
    let rs := t.kRuns
    c.arrayRun cls rs (b.td % 4) b.rows b.cols b.kdim part fun m n =>
      { a := fun k =>
          match (t.feeder rs 0 k).memPos ga p w b.cX0 b.cY0 b.cW b.cH m k with
          | some q => eltValue b.fmtA (mem q.toNat w)
          | none => .fin false 0 0
        b := fun k => c.portElem b.tb b.fmtB (t.spanOperand rs 1 b.fmtB b.kdim p n k)
        sa := fun _ => some 0
        sb := fun _ => some 0 }

/-- The K index and the bit address of every element that the A port of CONV reads. -/
def convReads (b : BroadWords) (t : Table) (ga : Nat) (p : Pitch) : List (Nat × Int) :=
  let rs := t.kRuns
  (List.range b.rows).flatMap fun m =>
    (List.range b.kdim).filterMap fun k =>
      ((t.feeder rs 0 k).memPos ga p (fmtBits b.fmtA) b.cX0 b.cY0 b.cW b.cH m k).map (fun q => (k, q))

end Sys2Proof.Machine
end

