-- ==== Sys2Proof/Machine/LaneUnit.lean ====
section
/-! DEFINITION. The lane unit: EWISE, SFN, ROWSTAT, softmax, NORM, QNT, DQNT, and AFLUSH's conversions (R112 to R120, R163 to
R167). -/
namespace Sys2Proof.Machine

/-- Everything a lane instruction takes besides the core: operand words, the elements that its steps drive (R138), where a port finds
or puts an element (R134, R137), and the rounding of an output element by its position (R44 to R46). -/
structure LaneCtx where
  b : BroadWords
  cov : Nat → Nat → Bool
  src : Nat → Nat → Nat → Nat × Nat
  rnd : Nat → Rnd

/-- A step of the table drives element (r, j) of the operand that the header declares. -/
def Table.covers (t : Table) (r j : Nat) : Bool := t.steps.any (fun s => s.drives t.rows t.cols r j)

/-- Ports whose generator has one position for every element that the steps drive: A and D, and an optional port that brings one value an
element. The others find their row, scale or state by the instruction's own formula (log entry 48). -/
def laneWalks (b : BroadWords) (port : Nat) : Bool :=
  match port with
  | 0 => true
  | 1 => (b.op = 0x20 && eopB b.eop && !(0x0C ≤ b.eop && b.eop ≤ 0x0F)) || (0x23 ≤ b.op && b.op ≤ 0x25)
  | 2 => b.op = 0x20 && eopC b.eop
  | _ => b.op ≠ 0x22

/-- Where a port of a LANE or COLL table finds element (r, j): row and element of its span or bank; none when its walk does not reach it. -/
def Table.laneSpot (t : Table) (ts : List StepRun) (b : BroadWords) (port r j : Nat) : Option (Nat × Nat) :=
  if !laneWalks b port then some (r, j)
  else match t.spot ts t.rows t.cols port r j with
    | none => if 1 ≤ port && port ≤ 2 then some (r, j) else none
    | some (g, e) =>
      let rl := if g.target = 7 then 128 else rowLen (t.portSpan port).1 (t.portSpan port).2
      if 1 ≤ port && port ≤ 2 && g.size ≠ t.overWalk g.agn (fun s => s.elems t.rows t.cols) then some (r, j)
      else g.spanSpot rl ⟨0, 0⟩ e

/-- What a LANE, COLL or AFLUSH instruction does with each element: driven where its walks reach. -/
def Table.laneCtx (t : Table) (b : BroadWords) (rnd : Nat → Rnd) : LaneCtx :=
  let ts := t.turns t.rows t.cols
  let spans := [0] ++ (if b.op = 0x23 || b.op = 0x30 || (b.op = 0x12 && b.dest) then [] else [3])
  { b := b, cov := fun r j => t.covers r j && spans.all (fun p => (t.laneSpot ts b p r j).isSome)
    src := fun p r j => (t.laneSpot ts b p r j).getD (r, j), rnd := rnd }

/-- An element widened to FP32 (R113). -/
def widen (code raw : Nat) : F32 := toF32 (eltValue code raw)

/-- Element (r, j) of a span, widened. -/
def Core.lane (c : Core) (code tile r j : Nat) : F32 := widen code (c.elem tile r j (fmtBits code))

/-- The element of a span that a port brings for (r, j), widened. -/
def Core.laneAt (c : Core) (x : LaneCtx) (port code tile r j : Nat) : F32 := c.lane code tile (x.src port r j).1 (x.src port r j).2

/-- Convert to a plain destination format. -/
def convertTo (code : Nat) (rnd : Rnd) (sat : Bool) (v : Fv) : Nat :=
  match eltOf (code % 16) with
  | some e => e.convert rnd sat v
  | none => 0

/-- Write element (r, j) of the destination, converted (R113). -/
def Core.putLane (c : Core) (x : LaneCtx) (r j : Nat) (v : Fv) : Core :=
  if x.cov r j then
    c.setElem x.b.td (x.src 3 r j).1 (x.src 3 r j).2 (fmtBits x.b.fmtD) (convertTo x.b.fmtD (x.rnd (r * x.b.cols + j)) x.b.sat v)
  else c

/-- Elementwise work, rows ascending and columns ascending within a row (R101). -/
def Core.elementwise (c : Core) (x : LaneCtx) (f : Core → Nat → Nat → Fv) : Core :=
  (List.range x.b.rows).foldl (fun (c : Core) r =>
    (List.range x.b.cols).foldl (fun (c : Core) j => c.putLane x r j (f c r j)) c) c

/-- Row work: every read of a row comes before its writes (R101). -/
def Core.byRow (c : Core) (x : LaneCtx) (f : Core → Nat → Core) : Core := (List.range x.b.rows).foldl f c

/-- The covered columns of a row. -/
def LaneCtx.columns (x : LaneCtx) (r : Nat) : List Nat := (List.range x.b.cols).filter (x.cov r)

/-! ### EWISE (R114) -/

/-- Operation EOP on a, b, c and S. -/
def eopOf (e : Nat) (a b c s : F32) : F32 :=
  match e with
  | 0x00 => toF32 (f32 a)
  | 0x01 => f32Add a b
  | 0x02 => f32Sub a b
  | 0x03 => f32Mul a b
  | 0x04 => f32Fma a b c
  | 0x05 => f32Min a b
  | 0x06 => f32Max a b
  | 0x07 => (fpAbs a).1
  | 0x08 => (fpNeg a).1
  | 0x09 => f32Max a 0
  | 0x0A => f32Mul a s
  | 0x0B => f32Add a s
  | 0x0C => f32Mul a b
  | 0x0D => f32Add a b
  | 0x0E => f32Mul a b
  | 0x0F => f32Add a b
  | 0x10 => if (f32 c).isZero then toF32 (f32 b) else toF32 (f32 a)
  | _ => if (f32 b).lt (f32 a) then f32One else 0

def Core.ewise (c : Core) (x : LaneCtx) : Core :=
  let b := x.b
  c.elementwise x fun c r j =>
    let rb := if b.eop = 0x0E || b.eop = 0x0F then 0 else r
    let jb := if b.eop = 0x0C || b.eop = 0x0D then 0 else j
    let vb := if laneWalks b 1 then c.laneAt x 1 b.fmtB b.tb r j else c.lane b.fmtB b.tb rb jb
    f32 (eopOf b.eop (c.laneAt x 0 b.fmtA b.ta r j) (if eopB b.eop then vb else 0)
      (if eopC b.eop then c.laneAt x 2 b.fmtB b.tc r j else 0) b.sval)

/-! ### SFN (R115, R153) -/

/-- The function that FN selects; `slot` is the bound bank's table. -/
def sfnOf (fn : Nat) (slot : SlotWords) (x : F32) : F32 :=
  match fn with
  | 0 => romExp2 x
  | 1 => romLog2 x
  | 2 => romRecip x
  | 3 => romRsqrt x
  | _ => slotEval slot x

def Core.sfnRun (c : Core) (x : LaneCtx) (slot : SlotWords) : Core :=
  c.elementwise x fun c r j => f32 (sfnOf x.b.fn slot (f32Mul (c.laneAt x 0 x.b.fmtA x.b.ta r j) x.b.sval))

/-! ### Rows (R57, R163) -/

/-- The sum of a row in the order of the function tree. -/
def rowSum (l : List F32) : F32 := tree f32Add 0 l

/-- A value divided by an integer, rounded once. -/
def f32DivNat (a : F32) (n : Nat) : F32 := BitVec.ofNat 32 (divFlags Fmt.fp32 (f32 a) (Fv.ofInt n)).1

def rowMean (l : List F32) (n : Nat) : F32 := f32DivNat (rowSum l) n

/-- Mean and variance (R163). -/
def rowMeanVar (l : List F32) (n : Nat) : F32 × F32 :=
  let mu := rowMean l n
  (mu, f32DivNat (rowSum (l.map (fun v => f32Mul (f32Sub v mu) (f32Sub v mu)))) n)

def foldRow (op : F32 → F32 → F32) (l : List F32) : F32 :=
  match l with
  | [] => 0
  | a :: l => toF32 (f32 (l.foldl op a))

/-- ROWSTAT (R116, R163). -/
def Core.rowstat (c : Core) (x : LaneCtx) : Core :=
  let b := x.b
  c.byRow x fun c r =>
    let js := x.columns r
    if js = [] then c
    else
      let row := js.map (fun j => c.laneAt x 0 b.fmtA b.ta r j)
      let old := c.lane 0 b.td r 0
      let put := fun (v : F32) (f : F32 → F32 → F32) => c.setElem b.td r 0 32 (if b.flagW then f old v else v).toNat
      match b.kind with
      | 0 => put (foldRow f32Max row) f32Max
      | 1 => put (foldRow f32Min row) f32Min
      | 2 => put (foldRow f32Max (row.map (fun v => (fpAbs v).1))) f32Max
      | 3 => put (rowSum row) f32Add
      | 4 => put (rowMean row b.cols) (fun _ v => v)
      | _ =>
        let mv := rowMeanVar row b.cols
        (c.setElem b.td r 0 32 mv.1.toNat).setElem b.td r 1 32 mv.2.toNat

/-! ### Softmax (R117, R165 to R167) -/

/-- The scores of a row (R117). -/
def Core.scores (c : Core) (x : LaneCtx) (r : Nat) : List F32 :=
  let b := x.b
  (x.columns r).map fun j =>
    let t := f32Mul (c.laneAt x 0 b.fmtA b.ta r j) b.sval
    if b.bias then f32Add t (c.laneAt x 1 b.fmtB b.tb r j) else t

/-- The update of the state (m, s) by some scores: the new state, the factor c, and the weights (R166). -/
def softStep (m s : F32) (ts : List F32) : F32 × F32 × F32 × List F32 :=
  let mNew := f32Max m (foldRow f32Max ts)
  let masked := mNew = f32NegInf
  let c := if masked then f32One else softExp (f32Sub m mNew)
  let ws := if masked then ts.map (fun _ => (0 : F32)) else ts.map (fun t => softExp (f32Sub t mNew))
  (mNew, f32Add (f32Mul s c) (rowSum ws), c, ws)

/-- SMAX1, and SMAXC with `out`. -/
def Core.softmax (c : Core) (x : LaneCtx) (out : Bool) : Core :=
  let b := x.b
  c.byRow x fun c r =>
    let js := x.columns r
    if js = [] then c
    else
      let m := if b.init then f32NegInf else c.lane 0 b.tc r 0
      let s := if b.init then 0 else c.lane 0 b.tc r 1
      let n := softStep m s (c.scores x r)
      let c := (c.setElem b.tc r 0 32 n.1.toNat).setElem b.tc r 1 32 n.2.1.toNat
      if out then
        ((js.zip n.2.2.2).foldl (fun (c : Core) y => c.putLane x r y.1 (f32 y.2)) c).setElem b.tc r 2 32 n.2.2.1.toNat
      else c

/-- SMAX2 (R167). Its test for s == +0 asks for the encoding of +0: a sum of -0, which no softmax state holds unless a program put it
there, is divided by (DESIGN CHOICE, log entry 77). -/
def Core.smax2 (c : Core) (x : LaneCtx) : Core :=
  let b := x.b
  c.byRow x fun c r =>
    let m := c.lane 0 b.tc r 0
    let s := c.lane 0 b.tc r 1
    let outs := (c.scores x r).map fun t => if (f32 s).isZero && !(f32 s).neg then (0 : F32) else f32Div (softExp (f32Sub t m)) s
    ((x.columns r).zip outs).foldl (fun (c : Core) y => c.putLane x r y.1 (f32 y.2)) c

/-! ### NORM (R118, R164) -/

def Core.norm (c : Core) (x : LaneCtx) : Core :=
  let b := x.b
  c.byRow x fun c r =>
    let js := x.columns r
    let row := js.map (fun j => c.laneAt x 0 b.fmtA b.ta r j)
    let ys := if b.kind = 0 then
        let mv := rowMeanVar row b.cols
        let rs := romRsqrt (f32Add mv.2 b.sval)
        row.map (fun v => f32Mul (f32Sub v mv.1) rs)
      else
        let rs := romRsqrt (f32Add (f32DivNat (rowSum (row.map (fun v => f32Mul v v))) b.cols) b.sval)
        row.map (fun v => f32Mul v rs)
    let outs := (js.zip ys).map fun y =>
      let v := if b.normGain then f32Mul y.2 (c.lane b.fmtB b.tb 0 y.1) else y.2
      (y.1, if b.normBias then f32Add v (c.lane b.fmtB b.tc 0 y.1) else v)
    outs.foldl (fun (c : Core) y => c.putLane x r y.1 (f32 y.2)) c

/-! ### QNT and DQNT (R41, R119, R120) -/

/-- An element of an MX destination (R39, R41). -/
def mxElem (code scale : Nat) (rnd : Rnd) (v : Fv) : Nat :=
  if scale = 255 then 0
  else
    let y := v.scale (127 - (scale : Int))
    if code = 0x18 then
      (BitVec.ofInt 8 (toIntSat rnd (-127) 127 (y.scale 6)).1).toNat
    else convertTo code rnd true y

/-- QNT. -/
def Core.qnt (c : Core) (x : LaneCtx) : Core :=
  let b := x.b
  if !isMx b.fmtD then c.elementwise x fun c r j => (f32 (c.laneAt x 0 b.fmtA b.ta r j)).mul (f32 b.sval)
  else
    c.byRow x fun c r =>
      let src := c
      let val := fun j => f32 (src.laneAt x 0 b.fmtA b.ta r j)
      (List.range (ceilDiv b.cols 32)).foldl (fun (c : Core) blk =>
        let js := ((List.range 32).map (fun i => 32 * blk + i)).filter (fun j => j < b.cols && x.cov r j)
        match eltOf (b.fmtD % 16), js with
        | some e, _ :: _ =>
          let vals := js.map val
          let sc := mxScale (if b.fmtD = 0x18 then .int 8 else e) vals
          let zero := vals.all (fun v => v.isZero)
          let c := c.setTbyte b.tc r blk (BitVec.ofNat 8 sc)
          js.foldl (fun (c : Core) j =>
            c.setElem b.td (x.src 3 r j).1 (x.src 3 r j).2 (fmtBits b.fmtD)
              (if zero then 0 else mxElem b.fmtD sc (x.rnd (r * b.cols + j)) (val j))) c
        | _, _ => c) c

/-- DQNT: one rounding of element value × scale × S (R120). -/
def Core.dqnt (c : Core) (x : LaneCtx) : Core :=
  let b := x.b
  c.elementwise x fun c r j =>
    let v := eltValue b.fmtA (c.elem b.ta (x.src 0 r j).1 (x.src 0 r j).2 (fmtBits b.fmtA))
    let v := if b.fmtA = 0x18 then v.scale (-6) else v
    match c.scaleAt b.fmtA b.tc (r, j) with
    | none => .nan
    | some e => (v.scale e).mul (f32 b.sval)

/-! ### AFLUSH (R112) -/

/-- Row and column of the bank that element (r, j) of the rectangle is read from: the walk of port A counts from (ROW0, COL0), since one
table serves every rectangle (log entry 48). -/
def LaneCtx.accSpot (x : LaneCtx) (r j : Nat) : Nat × Nat := (x.b.row0 + (x.src 0 r j).1, x.b.col0 + (x.src 0 r j).2)

/-- AFLUSH drives element (r, j). -/
def LaneCtx.flushes (x : LaneCtx) (r j : Nat) : Bool := x.cov r j && (x.accSpot r j).1 < 128 && (x.accSpot r j).2 < 128

/-- The code that element (r, j) of the rectangle converts to. -/
def Core.flushElem (c : Core) (x : LaneCtx) (r j : Nat) : Nat :=
  let b := x.b
  let v := c.accAt (b.ta % 4) (x.accSpot r j).1 (x.accSpot r j).2
  if b.fmtA = 0xA then v.toNat else convertTo b.fmtD (x.rnd (r * b.cols + j)) (bit b.w2 59) (f32 v)

/-- CLEAR of one element. -/
def Core.flushClear (c : Core) (x : LaneCtx) (r j : Nat) : Core :=
  if x.b.clear then c.setAcc (x.b.ta % 4) (x.accSpot r j).1 (x.accSpot r j).2 0 else c

/-- AFLUSH to tiles. -/
def Core.flushTile (c : Core) (x : LaneCtx) : Core :=
  (List.range x.b.rows).foldl (fun (c : Core) r =>
    (List.range x.b.cols).foldl (fun (c : Core) j =>
      if x.flushes r j then
        (c.setElem x.b.td (x.src 3 r j).1 (x.src 3 r j).2 (fmtBits x.b.fmtD) (c.flushElem x r j)).flushClear x r j
      else c) c) c

/-- CLEAR of the whole rectangle. -/
def Core.flushClearAll (c : Core) (x : LaneCtx) : Core :=
  (List.range x.b.rows).foldl (fun (c : Core) r =>
    (List.range x.b.cols).foldl (fun (c : Core) j => if x.flushes r j then c.flushClear x r j else c) c) c

end Sys2Proof.Machine
end

