-- ==== Sys2Proof/Machine/Broad.lean ====
section
/-! DEFINITION. Broad instructions: issue, the checks at start, their memory accesses and their effects (R83 to R86, R98 to R112,
R127, R133, R135). -/
namespace Sys2Proof.Machine

open Reg

/-! ### Issue (R83, R98, R127) -/

/-- The four words at the core's pc. -/
def Core.fetched4 (c : Core) : BroadWords :=
  let w := fun i => Maps.get 0 c.imem (c.pc.toNat / 8 + i)
  ⟨w 0, w 1, w 2, w 3⟩

/-- The active banks of the function slots, one bit a slot. -/
def Core.sfnActive (c : Core) : BitVec 16 :=
  BitVec.ofNat 16 ((List.range 16).foldl (fun n i => n + (if (c.sfn.toList[i]?.map (·.active)) = some true then 2 ^ i else 0)) 0)

/-- The slots whose active bank is accepted, one bit a slot. -/
def Core.sfnAccepted (c : Core) : BitVec 16 :=
  BitVec.ofNat 16 ((List.range 16).foldl (fun n i => n + (if (c.sfn.toList[i]?.map (fun sl => (if sl.active then sl.bank1 else sl.bank0).accepted)) = some true then 2 ^ i else 0)) 0)

/-- The queue entry of an instruction: register values read, banks bound (R83, R127). -/
def Core.entry (c : Core) (b : BroadWords) : Broad :=
  { id := c.nextId, addr := c.pc, w := b, ga := c.greg b.ga, gb := c.greg b.gb, gc := c.greg b.gc, gd := c.greg b.gd
    stbBank := c.stbActive, sfnBank := c.sfnActive, sfnOk := c.sfnAccepted, phase := .queued, status := .ok, left := 0, buf := []
    failPos := none, undo := [], due := false, pauses := none }

/-- Put an instruction into the broad queue; TBLSEL asks for its flip at the next boundary (R126). -/
def Core.enqueue (c : Core) (b : BroadWords) : Core :=
  { c with queue := c.queue ++ [c.entry b], nextId := c.nextId + 1
           flips := if b.op = 0x35 && !b.isEmpty then
               c.flips ++ [⟨b.scope = 0, if b.scope = 1 then b.slotMask else 0, some c.nextId, none⟩] else c.flips }

/-- Issue the broad instruction with opcode `op` (R67, R83, R98). A CLASS 0xF word that is not 32-byte aligned takes ILLEGAL; a full
queue stalls. -/
def State.issueBroad (s : State) (k : CoreId) (b : BroadWords) (op : Nat) : State :=
  let c := s.core k
  let code := 0xF00 + op
  if !s.canIssue k b.w0 || (insCode b.w0 ≠ code && assigned (insCode b.w0)) then s
  else if insCode b.w0 ≠ code || c.pc.toNat % 32 ≠ 0 then s.illegal k b.w0
  else if c.fetched4 ≠ b then s
  else if !legalBroad b then s.illegal k b.w0
  else if !c.guard b.w0 then s.goto k (c.pc.toNat + 32)
  else if !s.regsReady k [b.ga, b.gb, b.gc, b.gd] || 8 ≤ c.queue.length then s
  else (s.mapCore k fun c => c.enqueue b).goto k (c.pc.toNat + 32)

/-- TLOAD (R107). -/
def execTload (k : CoreId) (b : BroadWords) (s : State) : Result := .next (s.issueBroad k b 0x00)
/-- TSTORE (R107). -/
def execTstore (k : CoreId) (b : BroadWords) (s : State) : Result := .next (s.issueBroad k b 0x01)
/-- XMOV (R109). -/
def execXmov (k : CoreId) (b : BroadWords) (s : State) : Result := .next (s.issueBroad k b 0x02)
/-- MMA (R110). -/
def execMma (k : CoreId) (b : BroadWords) (s : State) : Result := .next (s.issueBroad k b 0x10)
/-- CONV (R111). -/
def execConv (k : CoreId) (b : BroadWords) (s : State) : Result := .next (s.issueBroad k b 0x11)
/-- AFLUSH (R112). -/
def execAflush (k : CoreId) (b : BroadWords) (s : State) : Result := .next (s.issueBroad k b 0x12)
/-- EWISE (R114). -/
def execEwise (k : CoreId) (b : BroadWords) (s : State) : Result := .next (s.issueBroad k b 0x20)
/-- SFN (R115). -/
def execSfn (k : CoreId) (b : BroadWords) (s : State) : Result := .next (s.issueBroad k b 0x21)
/-- ROWSTAT (R116). -/
def execRowstat (k : CoreId) (b : BroadWords) (s : State) : Result := .next (s.issueBroad k b 0x22)
/-- SMAX1 (R117). -/
def execSmax1 (k : CoreId) (b : BroadWords) (s : State) : Result := .next (s.issueBroad k b 0x23)
/-- SMAX2 (R117). -/
def execSmax2 (k : CoreId) (b : BroadWords) (s : State) : Result := .next (s.issueBroad k b 0x24)
/-- SMAXC (R117). -/
def execSmaxc (k : CoreId) (b : BroadWords) (s : State) : Result := .next (s.issueBroad k b 0x25)
/-- NORM (R118). -/
def execNorm (k : CoreId) (b : BroadWords) (s : State) : Result := .next (s.issueBroad k b 0x26)
/-- QNT (R119). -/
def execQnt (k : CoreId) (b : BroadWords) (s : State) : Result := .next (s.issueBroad k b 0x27)
/-- DQNT (R120). -/
def execDqnt (k : CoreId) (b : BroadWords) (s : State) : Result := .next (s.issueBroad k b 0x28)
/-- CSEND (R121). -/
def execCsend (k : CoreId) (b : BroadWords) (s : State) : Result := .next (s.issueBroad k b 0x30)
/-- CWAIT (R122). -/
def execCwait (k : CoreId) (b : BroadWords) (s : State) : Result := .next (s.issueBroad k b 0x31)
/-- HEADCOUNT (R123). -/
def execHeadcount (k : CoreId) (b : BroadWords) (s : State) : Result := .next (s.issueBroad k b 0x32)
/-- SYNC (R124). -/
def execSync (k : CoreId) (b : BroadWords) (s : State) : Result := .next (s.issueBroad k b 0x33)
/-- FARINV (R125). -/
def execFarinv (k : CoreId) (b : BroadWords) (s : State) : Result := .next (s.issueBroad k b 0x34)
/-- TBLSEL (R126). -/
def execTblsel (k : CoreId) (b : BroadWords) (s : State) : Result := .next (s.issueBroad k b 0x35)

/-! ### Tables at start -/

def Core.stb (c : Core) (bank : Bool) : StbBank := if bank then c.stb1 else c.stb0

/-- The table that an instruction names, when its bank records a header there with its OP (check 1 of R98). -/
def Core.tableOf (c : Core) (b : Broad) : Option Table :=
  let bk := c.stb b.stbBank
  if bk.headers.contains b.w.table then
    match parseTable bk.entry b.w.table with
    | .ok t => if t.op = b.w.op then some t else none
    | .error _ => none
  else none

/-- Every step names a good generator in each optional port in use, and its walk stays in its span (R135, R452). -/
def Table.optOk (t : Table) (b : BroadWords) : Bool :=
  b.optPorts.all fun (p : Nat × Nat × Nat × Nat) =>
    t.steps.all fun s =>
      match t.portGen s p.1 p.2.1 with
      | some g => g.spanOk (rowLen p.2.2.1 p.2.2.2) (128 * rowLen p.2.2.1 p.2.2.2) ⟨0, 0⟩
      | none => false

/-- P1 and P2 of an instruction (R133). -/
def Broad.pitch (b : Broad) : Pitch :=
  match b.w.op with
  | 0x00 => ⟨b.gb.toNat, 0⟩
  | 0x01 => ⟨b.gb.toNat, 0⟩
  | 0x11 => ⟨b.gb.toNat, b.gc.toNat⟩
  | 0x12 => ⟨if b.w.dest then b.gb.toNat else 0, 0⟩
  | _ => ⟨0, 0⟩

/-- Every span or bank walk that depends on P1 or P2 stays in its span or bank (R133, R135). -/
def Table.lateOk (t : Table) (p : Pitch) : Bool :=
  t.portUse.zipIdx.all fun u =>
    match u.1 with
    | .always tg => t.steps.all fun s => (t.portGen s u.2 tg).all fun g => !t.late g || t.walkIn u.2 p g
    | _ => true

/-- Checks 1 to 3 of R98. -/
def Core.tableCheck (c : Core) (b : Broad) : Option Table :=
  match c.tableOf b with
  | none => none
  | some t =>
    if t.width = c.width && t.fmtA = b.w.fmtA && t.fmtB = b.w.fmtB && t.fmtD = b.w.fmtD && t.rows = b.w.rows && t.cols = b.w.cols
      && t.kdim = b.w.kdim && t.geom = b.w.geom && t.optOk b.w then some t else none

/-! ### Memory rows -/

/-- Rows `i < n` of `len` bytes from `a` on, `pitch` apart. -/
def rowsFrom (a pitch n len : Nat) : List (Nat × Nat) := if len = 0 then [] else (List.range n).map (fun i => (a + i * pitch, len))

/-- The memory rows that a MOVE instruction reads and those that it writes (R107 to R109, R112). -/
def Broad.memRows (b : Broad) : List (Nat × Nat) × List (Nat × Nat) :=
  let w := b.w
  let ls := if w.trans then rowsFrom b.ga.toNat b.gb.toNat (w.cols * 8 / w.esz) (ceilDiv (w.rows * w.esz) 8)
    else rowsFrom b.ga.toNat b.gb.toNat w.rows w.cols
  match w.op with
  | 0x00 => (ls, [])
  | 0x01 => ([], ls)
  | 0x02 =>
    (if w.trans then rowsFrom b.ga.toNat (bits b.gc 63 32) (w.rowBytes * 8 / w.esz) (ceilDiv (w.xrows * w.esz) 8)
      else rowsFrom b.ga.toNat (bits b.gc 63 32) w.xrows w.rowBytes,
     rowsFrom b.gb.toNat (bits b.gc 31 0) w.xrows w.rowBytes)
  | 0x12 => ([], if w.dest then rowsFrom b.ga.toNat b.gb.toNat w.rows (w.cols * fmtBits w.fmtD / 8) else [])
  | _ => ([], [])

/-- The lowest and highest byte of some rows as one range (R135). -/
def wholeOf (rows : List (Nat × Nat)) : List (Nat × Nat) :=
  match rows with
  | [] => []
  | r :: _ =>
    let lo := rows.foldl (fun n x => min n x.1) r.1
    let hi := rows.foldl (fun n x => max n (x.1 + x.2)) 0
    [(lo, hi - lo)]

/-- The bytes from `lo` on, before `hi`, as a range; a range that would begin below address 0 has no valid encoding. -/
def rangeOf (lo hi : Int) : Nat × Nat := if lo < 0 then (2 ^ 64, 1) else (lo.toNat, (hi - lo).toNat)

/-- What CONV may read: the range of R111, where H and W are not zero, and every byte that its generators reach (R135). -/
def Broad.convRange (b : Broad) (t : Table) : List (Nat × Nat) :=
  let w := b.w
  let a := b.ga.toNat
  let n := (w.cH - 1) * b.gc.toNat + (w.cW - 1) * b.gb.toNat + ceilDiv (w.cC * fmtBits w.fmtA) 8
  let rs : List (Int × Int) := (convReads w t a b.pitch).map (fun x => (x.2 / 8, (x.2 + fmtBits w.fmtA + 7) / 8))
  let rs := if w.cH = 0 || w.cW = 0 then rs else ((a : Int), (a : Int) + n) :: rs
  match rs with
  | [] => []
  | r :: _ => [rangeOf (rs.foldl (fun (m : Int) x => min m x.1) r.1) (rs.foldl (fun (m : Int) x => max m x.2) r.2)]

/-- What the memory walk in a port of a MOVE table may touch: the bytes from its lowest to its highest position (R135). -/
def Broad.walkRanges (b : Broad) (t : Table) (port eb : Nat) : List (Nat × Nat) :=
  ((t.gens.filter (fun g => t.steps.any (fun s => t.portGen s port 0 = some g))).filter (fun g => g.size ≠ 0)).map fun g =>
    let x := g.memRange b.ga.toNat eb b.pitch
    rangeOf x.1 x.2

/-- The device and offset of a resolved address (R26). -/
def State.whereIs (s : State) (a : Nat) : Option (Coord × Nat) :=
  if 2 ^ 64 ≤ a then none
  else match s.decode (BitVec.ofNat 64 a) with
    | .here o => some (s.self, o)
    | .there c o => some (c, o)
    | _ => none

/-- Two rows on one device overlap. -/
def State.rowsClash (s : State) (x y : Nat × Nat) : Bool :=
  match s.whereIs x.1, s.whereIs y.1 with
  | some (c, o), some (d, p) => c = d && o < p + y.2 && p < o + x.2
  | _, _ => false

/-- An address lies in cluster SRAM of the issuing device. -/
def State.ownSram (s : State) (a : Nat) : Bool :=
  match s.whereIs a with
  | some (c, o) =>
    c = s.self && (match placeOf o with
      | .sram _ => true
      | _ => false)
  | none => false

/-- Every range lies in cluster SRAM of the issuing device, from its first byte to its last (R108). -/
def State.allSram (s : State) (rs : List (Nat × Nat)) : Bool := rs.all fun r => s.ownSram r.1 && s.ownSram (r.1 + r.2 - 1)

/-- An address lies in cluster SRAM or a tray of the issuing device. -/
def State.ownFast (s : State) (a : Nat) : Bool :=
  match s.whereIs a with
  | some (c, o) =>
    c = s.self && (match placeOf o with
      | .sram _ => true
      | .tray _ => true
      | _ => false)
  | none => false

/-! ### Check 4 (R97, R107 to R121) -/

/-- A span at tile `t` stays in the register file. -/
def tilesOk (t code n : Nat) : Bool := rowOk code n && t + spanOf code n ≤ 16

/-- Check 4 of R98. An XMOV's ranges are its whole source and its whole destination, lowest byte to highest (R109, R135). -/
def State.limitsOk (s : State) (k : CoreId) (b : Broad) (t : Table) : Bool :=
  let w := b.w
  t.lateOk b.pitch &&
  let lane := tilesOk w.ta w.fmtA w.cols && tilesOk w.td w.fmtD w.cols
  match w.op with
  | 0x00 =>
    w.rows ≤ 128 && w.cols ≤ 1024 && b.gb.toNat < 2 ^ 32 && tilesOk w.td 8 w.cols
      && (!w.trans || (s.allSram (wholeOf b.memRows.1) && w.cols * 8 % w.esz = 0))
  | 0x01 =>
    w.rows ≤ 128 && w.cols ≤ 1024 && b.gb.toNat < 2 ^ 32 && tilesOk w.ta 8 w.cols && !(b.gb = 0 && 1 < w.rows)
      && (!w.trans || (s.allSram (wholeOf b.memRows.2) && w.cols * 8 % w.esz = 0))
  | 0x02 =>
    let rd := wholeOf b.memRows.1
    let wr := wholeOf b.memRows.2
    w.xrows * w.rowBytes < 2 ^ 32
      && ((s.whereIs b.ga.toNat).map (·.1) = some s.self || (s.whereIs b.gb.toNat).map (·.1) = some s.self)
      && (!w.trans || (s.allSram rd && w.rowBytes * 8 % w.esz = 0))
      && !rd.any (fun x => wr.any (fun y => s.rowsClash x y))
  | 0x10 =>
    tilesOk w.ta w.fmtA w.kdim && tilesOk w.tb w.fmtB w.kdim && w.cols ≤ (s.core k).width && w.rows ≤ 128
      && t.scalesMeet t.kRuns 0 w.fmtA w.rows && t.scalesMeet t.kRuns 1 w.fmtB w.cols
  | 0x11 =>
    tilesOk w.tb w.fmtB w.kdim && w.cols ≤ (s.core k).width && w.rows ≤ 128 && s.ownFast b.ga.toNat
      && (b.convRange t).all (fun r => s.ownFast r.1 && s.ownFast (r.1 + r.2 - 1))
  | 0x12 =>
    w.row0 + w.rows ≤ 128 && w.col0 + w.cols ≤ 128 && (w.dest || tilesOk w.td w.fmtD w.cols)
  | 0x20 =>
    lane && (!eopB w.eop || tilesOk w.tb w.fmtB (if w.eop = 0x0C || w.eop = 0x0D then 1 else w.cols))
      && (!eopC w.eop || tilesOk w.tc w.fmtB w.cols)
  | 0x21 =>
    lane && (w.fn < 0x10 || b.sfnOk.getLsbD (w.fn - 0x10))
  | 0x22 => tilesOk w.ta w.fmtA w.cols
  | 0x23 => tilesOk w.ta w.fmtA w.cols && (!w.bias || tilesOk w.tb w.fmtB w.cols)
  | 0x24 => lane && (!w.bias || tilesOk w.tb w.fmtB w.cols)
  | 0x25 => lane && (!w.bias || tilesOk w.tb w.fmtB w.cols)
  | 0x26 => lane && (!w.normGain || tilesOk w.tb w.fmtB w.cols) && (!w.normBias || tilesOk w.tc w.fmtB w.cols)
  | 0x27 =>
    lane && (w.rnd ≠ 1 || w.fmtD = 8 || w.fmtD = 9 || w.fmtD = 0x18) && (!isMx w.fmtD || w.sval = f32One)
  | 0x28 => lane
  | 0x30 => tilesOk w.ta w.fmtA w.cols && w.rows ≤ 128
  | _ => true

/-! ### Checks 5 and 6 -/

/-- Check 5 of one range: encoding, mapping, reach. -/
def State.rangeStatus (s : State) (r : Nat × Nat) : Option Status :=
  if 2 ^ 64 ≤ r.1 || 2 ^ 64 < r.1 + r.2 then some .format
  else match s.decode (BitVec.ofNat 64 r.1) with
    | .format => some .format
    | .bound => some .bound
    | .setupThere _ _ => none
    | .here o => if placeOfRange o r.2 = .hole then some .bound else none
    | .there d o => if !s.inReach d || placeOfRange o r.2 = .hole then some .bound else none

/-- Check 6 of one range: setup registers are Ranger's, a doorbell page takes no such access, own memory is checked here and
another device's memory there, save a tray of its (R27, R29, R30, R199, R289). -/
def State.rangePerm (s : State) (x : Ctx) (kd : Kind) (r : Nat × Nat) : Option Status × State :=
  match s.decode (BitVec.ofNat 64 r.1) with
  | .setupThere _ _ => (some .perm, s)
  | .here o =>
    match s.protect (s.me (.ctx x)) kd false o r.2 with
    | (.error st, s) => (some st, s)
    | (.ok (.setup _), s) => (some .perm, s)
    | (.ok (.door _ _), s) => (some .format, s)
    | (.ok _, s) => (none, s)
  | .there _ o =>
    (match placeOf o with
      | .setup _ => some .perm
      | .tray _ => some .perm
      | .door _ _ => some .format
      | _ => none, s)
  | _ => (none, s)

def State.permAll (s : State) (x : Ctx) : List ((Nat × Nat) × Kind) → Option Status × State
  | [] => (none, s)
  | r :: l =>
    match s.rangePerm x r.2 r.1 with
    | (some st, s) => (some st, s)
    | (none, s) => s.permAll x l

/-- The ranges of an instruction with the kind of access: its memory walks, each whole, and where it goes by rows of its own what these
rows span (R98, R109, R135). -/
def Broad.ranges (b : Broad) (t : Table) : List ((Nat × Nat) × Kind) :=
  let rw := b.memRows
  let rows := (wholeOf rw.1).map (fun r => (r, Kind.rd)) ++ (wholeOf rw.2).map (fun r => (r, Kind.wr))
  let own := if b.w.op = 0x02 || b.w.trans then rows else []
  match b.w.op with
  | 0x00 => (b.walkRanges t 0 8).map (fun r => (r, .rd)) ++ own
  | 0x01 => (b.walkRanges t 3 8).map (fun r => (r, .wr)) ++ own
  | 0x11 => (b.convRange t).map (fun r => (r, .rd))
  | 0x12 => if b.w.dest then (b.walkRanges t 3 (fmtBits b.w.fmtD)).map (fun r => (r, .wr)) else []
  | _ => rows

/-- Whether a start goes on: retire with a status, or run with a table. -/
inductive StartOut where
  | retire (st : Status)
  | run (t : Table)

/-- Checks 1 to 6 of R98 for an instruction that takes a table, and R99. -/
def State.startCheck (s : State) (k : CoreId) (b : Broad) : StartOut × State :=
  match (s.core k).tableCheck b with
  | none => (.retire .format, s)
  | some t =>
    if b.w.isEmpty then (.retire .ok, s)
    else if !s.limitsOk k b t then (.retire .format, s)
    else match (b.ranges t).findSome? (fun (r : (Nat × Nat) × Kind) => if s.rangeStatus r.1 = some Status.format then some Status.format else none)
        <|> (b.ranges t).findSome? (fun (r : (Nat × Nat) × Kind) => s.rangeStatus r.1) with
      | some st => (.retire st, s)
      | none =>
        match s.permAll (s.core k).ctx (b.ranges t) with
        | (some st, s) => (.retire st, s)
        | (none, s) => (.run t, s)

/-! ### Queue entries -/

def State.mapBroad (s : State) (k : CoreId) (id : Nat) (f : Broad → Broad) : State :=
  s.mapCore k fun c => { c with queue := c.queue.map (fun b => if b.id = id then f b else b) }

def State.broad (s : State) (k : CoreId) (id : Nat) : Option Broad := (s.core k).queue.find? (fun b => b.id = id)

/-- An instruction has done its work; a status decided earlier stands. -/
def State.finishBroad (s : State) (k : CoreId) (id : Nat) (st : Status) : State :=
  s.mapBroad k id fun b => { b with phase := .finished, status := if b.status = .ok then st else b.status }

/-! ### Memory accesses of the sequencer -/

/-- Read one memory row into the entry's buffer, or ask another device for it (R100, R302). A read that replication turns to this device
meets its checks here (R289). -/
def State.readRow (s : State) (k : CoreId) (id pos : Nat) (r : Nat × Nat) : State :=
  let x := (s.core k).ctx
  let take := fun (o : MemOut × State) =>
    match o with
    | (.ok bs, s) => s.mapBroad k id fun b => { b with buf := bs.zipIdx.foldl (fun m e => Maps.set m (pos + e.2) e.1) b.buf }
    | (.err st, s) =>
      s.mapBroad k id fun b => if b.failPos.isSome then b else { b with failPos := some pos, status := st }
    | (.wait, s) => s
  match s.decode (BitVec.ofNat 64 r.1) with
  | .here o => take (s.load (.ctx x) o r.2 true)
  | .there d o =>
    let d' := s.redirect (.ctx x) d o r.2
    if d' = s.self then take (s.readFor (s.me (.ctx x)) o r.2 true)
    else (s.requestLoads d' k x o r.2 (fun off => .broadRead k id (pos + off))).mapBroad k id
      fun b => { b with left := b.left + cutCount 4096 o r.2 }
  | _ => s

/-- Read some rows: the bytes of a row follow those of the rows before it in the buffer. -/
def State.readRows (s : State) (k : CoreId) (id : Nat) (rows : List (Nat × Nat)) : State :=
  (rows.foldl (fun (a : Nat × State) r => (a.1 + r.2, a.2.readRow k id a.1 r)) (0, s)).2

/-- Bytes for memory; `keepLo` leaves the low half of the first byte as it is, `keepHi` the high half of the last (R108). -/
structure Push where
  at_ : Nat
  bytes : List Byte
  keepLo : Bool
  keepHi : Bool
  deriving DecidableEq, Repr

/-- The bytes that a push writes: halves of bytes that it leaves alone hold what is there now. -/
def State.blend (s : State) (p : Push) : List Byte :=
  let now := fun (i : Nat) => match s.whereIs (p.at_ + i) with
    | some (_, o) => (s.byte o).toNat
    | none => 0
  let n := p.bytes.length
  p.bytes.zipIdx.map fun x =>
    let v := x.1.toNat
    let lo := if p.keepLo && x.2 = 0 then now 0 % 16 else v % 16
    let hi := if p.keepHi && x.2 + 1 = n then now x.2 / 16 else v / 16
    BitVec.ofNat 8 (16 * hi + lo)

/-- Write bytes at an address, already checked; the status of a local write that failed (R76, R84, R100). -/
def State.writeRow (s : State) (k : CoreId) (id : Nat) (a : Nat) (bs : List Byte) : Option Status × State :=
  let x := (s.core k).ctx
  match s.decode (BitVec.ofNat 64 a) with
  | .here o =>
    let old := (s.bytes o bs.length).zipIdx.map (fun e => (o + e.2, e.1))
    match s.store (.ctx x) o bs true with
    | (.ok _, s) => (none, s.mapBroad k id fun b => { b with undo := old ++ b.undo })
    | (.err st, s) => (some st, s.mapBroad k id fun b => { b with undo := old ++ b.undo })
    | (.wait, s) => (none, s)
  | .there d o =>
    (none, (s.requestStores d k x o bs (fun off => .broadWrite k id (BitVec.ofNat 64 (a + off)))).staleLines k d o bs.length)
  | _ => (none, s)

/-- Write rows in order; once one has failed, each later row is written or not (R100): a free choice. -/
def State.writeRows (s : State) (k : CoreId) (id : Nat) : Option Status → List Push → Option Status × State
  | st, [] => (st, s)
  | none, p :: l =>
    let (st, s) := s.writeRow k id p.at_ (s.blend p)
    s.writeRows k id st l
  | some st, p :: l =>
    let (v, s) := s.free
    let s := if v.getLsbD 0 then (s.writeRow k id p.at_ (s.blend p)).2 else s
    s.writeRows k id (some st) l

/-- Rows of the own memory that all follow each other without a gap are one access (R188); rows for another device are split each by
itself (R284). -/
def State.joinRows (s : State) (rows : List Push) : List Push :=
  match rows with
  | [] => []
  | r :: l =>
    if rows.all (fun p => !p.keepLo && !p.keepHi && (s.whereIs p.at_).any (fun x => x.1 = s.self))
        && (rows.zip l).all (fun x => x.1.at_ + x.1.bytes.length = x.2.at_) then
      [{ r with bytes := rows.flatMap (·.bytes) }]
    else rows

/-- Neighbours of one run of places, grouped: each first place with what stands there and behind it. -/
def segments {α : Type} : List (Nat × α) → List (Nat × List α)
  | [] => []
  | (i, b) :: l =>
    match segments l with
    | (j, bs) :: r => if j = i + 1 then (i, b :: bs) :: r else (i, [b]) :: (j, bs) :: r
    | [] => [(i, [b])]

/-- `len` bytes of a buffer from position `pos` on, when all of them arrived. -/
def Broad.piece (b : Broad) (pos len : Nat) : Option (List Byte) :=
  let bs := (List.range len).filterMap (fun j => (b.buf.find? (fun e => e.1 = pos + j)).map (·.2))
  if bs.length = len then some bs else none

/-- Which of `n` steps of a read take effect: all of them when none failed; otherwise a free choice among those that read nothing that
failed, and none when there is only one (R100). -/
def State.keptSteps (s : State) (b : Broad) (n : Nat) (bad : Nat → Bool) : List Nat × State :=
  if b.failPos = none then (List.range n, s)
  else if n ≤ 1 then ([], s)
  else (List.range n).foldl (fun (x : List Nat × State) i =>
    if bad i then x
    else
      let (v, s) := x.2.free
      (if v.getLsbD 0 then x.1 ++ [i] else x.1, s)) ([], s)

/-- Element `j` of packed bytes. -/
def elemOf (bs : List Byte) (j w : Nat) : Nat := getElem (fun i => bs.getD i 0) j w

/-- Pack elements of `w` bits into `len` bytes. -/
def packElems (w len : Nat) (es : List Nat) : List Byte :=
  leBytes len (es.zipIdx.foldl (fun n e => n + e.1 % 2 ^ w * 2 ^ (w * e.2)) 0)

/-! ### The movers -/

/-- One piece of memory that a run of a step of TLOAD or TSTORE touches: its first byte, the run, and its elements: which element of the
piece, and row and element in the tiles. With `half`, the piece begins in the middle of a byte. -/
structure Strip where
  at_ : Nat
  turn : Nat
  half : Bool
  elts : List (Nat × Nat × Nat)
  deriving DecidableEq, Repr

/-- Width of the elements of a TLOAD or TSTORE: bytes, or what ESZ names. -/
def moveBits (w : BroadWords) : Nat := if w.trans then w.esz else 8

/-- Bytes of a piece. -/
def Strip.len (p : Strip) (w : BroadWords) : Nat := ceilDiv ((p.elts.length + (if p.half then 1 else 0)) * moveBits w) 8

/-- The pieces of one run: row by row, where the walks of the memory port and of the tile port take each byte (R107, R134). With TRANS
the transpose engine stands between the two and the elements go by the rule's formula (R108); a step's COL range counts bytes, as COLS
does, and an element is driven with all its bytes (DESIGN CHOICE, log entry 74). -/
def Broad.turnStrips (b : Broad) (t : Table) (mem tile : Nat) (x : StepRun × Nat) : List Strip :=
  let w := b.w
  let bx := x.1.step.box w.rows w.cols
  let width := bx.2.2 - bx.2.1
  if w.trans then
    let j0 := ceilDiv (8 * bx.2.1) w.esz
    let j1 := 8 * bx.2.2 / w.esz
    let first := bx.1.1 * w.esz / 8
    let skip := bx.1.1 - 8 * first / w.esz
    if bx.1.2 ≤ bx.1.1 then []
    else (List.range (j1 - j0)).map fun j =>
      ⟨b.ga.toNat + (j0 + j) * b.gb.toNat + first, x.2, skip = 1,
        (List.range (bx.1.2 - bx.1.1)).map fun r => (r + skip, bx.1.1 + r, j0 + j)⟩
  else
    let rl := rowLen 8 w.cols
    let gm := t.gen (x.1.step.port mem)
    let gt := t.gen (x.1.step.port tile)
    (List.range (bx.1.2 - bx.1.1)).flatMap fun r =>
      (segments ((List.range width).filterMap fun c =>
        match gm, gt with
        | some gm, some gt =>
          let e := r * width + c
          match gm.memSpot b.ga.toNat 8 b.pitch (x.1.at_.getD gm.agn 0 + e), gt.spanSpot rl b.pitch (x.1.at_.getD gt.agn 0 + e) with
          | some a, some q => some (a, q)
          | _, _ => none
        | _, _ => none)).map fun sg => ⟨sg.1, x.2, false, sg.2.zipIdx.map fun q => (q.2, q.1.1, q.1.2)⟩

/-- All pieces of a TLOAD or TSTORE, in step order. -/
def Broad.strips (b : Broad) (t : Table) : List Strip :=
  let mem := if b.w.op = 0x00 then 0 else 3
  (t.turns b.w.rows b.w.cols).zipIdx.flatMap (b.turnStrips t mem (3 - mem))

/-- Everything TLOAD read is here: place it in the tiles (R100, R107, R108). -/
def State.tloadDone (s : State) (k : CoreId) (b : Broad) (t : Table) : State :=
  let w := b.w
  let ps := ((b.strips t).foldl (fun (a : Nat × List (Strip × Option (List Byte))) p =>
    (a.1 + p.len w, (p, b.piece a.1 (p.len w)) :: a.2)) (0, [])).2.reverse
  let (kept, s) := s.keptSteps b (t.turns w.rows w.cols).length (fun i => ps.any (fun p => p.1.turn = i && p.2.isNone))
  let s := s.mapCore k fun c => ps.foldl (fun (c : Core) p =>
    match p.2 with
    | none => c
    | some bs =>
      if kept.contains p.1.turn then
        p.1.elts.foldl (fun (c : Core) e => c.setElem w.td e.2.1 e.2.2 (moveBits w) (elemOf bs e.1 (moveBits w))) c
      else c) c
  s.finishBroad k b.id .ok

/-- What TSTORE writes, as it stands in the tiles (R107, R108). Halves of bytes outside a piece stay as they are in memory. -/
def Core.tstorePushes (c : Core) (b : Broad) (t : Table) : List Push :=
  let w := b.w
  let n := moveBits w
  (b.strips t).map fun p =>
    let es := (if p.half then [0] else []) ++ p.elts.map (fun e => c.elem w.ta e.2.1 e.2.2 n)
    ⟨p.at_, packElems n (p.len w) es, p.half, es.length * n % 8 ≠ 0⟩

/-- Everything XMOV read is here: write the destination rows (R109). Its row walk is the sequencer's own: a row is a step, and with TRANS
the whole is one (R129). -/
def State.xmovDone (s : State) (k : CoreId) (b : Broad) : State :=
  let w := b.w
  let rd := b.memRows.1
  let len := (rd.headD (0, 0)).2
  let row := fun i => b.piece (i * len) len
  let (kept, s) := s.keptSteps b (if w.trans then 1 else rd.length) (fun i => (row i).isNone)
  let push := fun (a : Nat) (bs : List Byte) => Push.mk a bs false false
  let outs := if w.trans then
      if b.failPos.isSome then []
      else
        let src := (List.range rd.length).map (fun j => (row j).getD [])
        b.memRows.2.zipIdx.map fun r => push r.1.1 (packElems w.esz r.1.2 (src.map (fun bs => elemOf bs r.2 w.esz)))
    else b.memRows.2.zipIdx.filterMap fun r => if kept.contains r.2 then (row r.2).map (push r.1.1) else none
  let (st, s) := s.writeRows k b.id none (s.joinRows outs)
  s.finishBroad k b.id (st.getD .ok)

/-- The reads of a MOVE instruction are all answered. -/
def State.moveDone (s : State) (k : CoreId) (id : Nat) : State :=
  match s.broad k id with
  | none => s
  | some b =>
    if b.w.op = 0x00 then
      match (s.core k).tableOf b with
      | some t => s.tloadDone k b t
      | none => s.finishBroad k id .format
    else s.xmovDone k b

/-! ### Effects -/

/-- The draws of R45 and R46 for an instruction's outputs. -/
def State.rounder (s : State) (k : CoreId) (b : Broad) : Nat → Rnd :=
  let c := s.core k
  let rnd := if b.w.op = 0x12 then bits b.w.w2 61 60 else b.w.rnd
  let stream := BitVec.ofNat 64 ((s.fld (RING_CTX_SR_BASE c.ctx) RING_CTX_SR_BASE_SR_BASE + k.val) % 2 ^ 31)
  fun i => if rnd = 2 then .stoch (srDraw c.job c.step stream (b.gd + BitVec.ofNat 64 i)) else if rnd = 1 then .zero else .nearest

def State.laneCtx (s : State) (k : CoreId) (b : Broad) (t : Table) : LaneCtx := t.laneCtx b.w (s.rounder k b)

/-- The words of the function-slot bank that an SFN is bound to (R127, R151). -/
def Core.slotWords (c : Core) (b : Broad) : SlotWords :=
  match c.sfn.toList[b.w.fn - 0x10]? with
  | some sl => (if b.sfnBank.getLsbD (b.w.fn - 0x10) then sl.bank1 else sl.bank0).words
  | none => []

/-- CONV: its reads, then the array (R100, R111). -/
def State.conv (s : State) (k : CoreId) (b : Broad) (t : Table) : State :=
  let w := b.w
  let eb := fmtBits w.fmtA
  let off := fun (a : Nat) => match s.whereIs a with
    | some (_, o) => o
    | none => a
  let reads := (convReads w t b.ga.toNat b.pitch).map (fun x => (x.1, x.2.toNat))
  let unitsAt := fun (p : Nat) => unitsOf (off (p / 8)) ((p % 8 + eb + 7) / 8)
  let units := (reads.flatMap (fun x => unitsAt x.2)).eraseDups
  let (bad, st, s) := units.foldl (fun (x : List Nat × Option Status × State) u =>
    match x.2.2.touchUnit u with
    | (none, s) => (x.1, x.2.1, s)
    | (some e, s) => (u :: x.1, x.2.1 <|> some e, s)) ([], none, s)
  let mem := fun (p n : Nat) => getElem (fun i => s.byte (off (p / 8 + i))) 0 (n + p % 8) / 2 ^ (p % 8)
  match st with
  | none => (s.mapCore k fun c => c.conv w t b.ga.toNat b.pitch mem none).finishBroad k b.id .ok
  | some st =>
    let badK := (reads.filter (fun x => (unitsAt x.2).any bad.contains)).map (·.1)
    let first := (t.kRuns.takeWhile (fun r => !badK.any (fun k => r.lo ≤ k && k < r.hi))).length
    let base := s.freeCtr
    let s := { s with freeCtr := s.freeCtr + 16384 }
    (s.mapCore k fun c => c.conv w t b.ga.toNat b.pitch mem
      (some fun m n => (Config.freeValue (base + 128 * m + n)).toNat % (first + 1))).finishBroad k b.id st

/-- What AFLUSH to memory writes: each row's elements where the memory walk puts them (R112, R134). -/
def Core.flushPushes (c : Core) (x : LaneCtx) (b : Broad) (t : Table) : List Push :=
  let ts := t.turns t.rows t.cols
  let eb := fmtBits b.w.fmtD
  let spot := fun r j =>
    match t.spot ts t.rows t.cols 3 r j with
    | some (g, e) => g.memSpot b.ga.toNat eb b.pitch e
    | none => none
  (List.range b.w.rows).flatMap fun r =>
    (segments (((List.range b.w.cols).filter (x.flushes r)).flatMap fun j =>
      match spot r j with
      | some a => (leBytes (eb / 8) (c.flushElem x r j)).zipIdx.map (fun y => (a + y.2, y.1))
      | none => [])).map fun sg => ⟨sg.1, sg.2, false, false⟩

/-- The pause cycles that the PAUSE fields of a table ask for: each after every run of its step, and the single class runs the steps three
times (R53, R148). -/
def Table.pauseCycles (t : Table) : Nat :=
  (t.steps.zipIdx.foldl (fun n (x : StepEntry × Nat) => n + x.1.pause * runsOf t.steps x.2) 0)
    * (if t.unit = 1 && t.fmtA = 0 then 3 else 1)

/-- Run an instruction of the MOVE, ARRAY and LANE units whose checks have passed. -/
def State.runBroad (s : State) (k : CoreId) (b : Broad) (t : Table) : State :=
  let x := s.laneCtx k b t
  let lane := fun (f : Core → Core) => (s.mapCore k f).finishBroad k b.id .ok
  match b.w.op with
  | 0x01 =>
    let (st, s) := s.writeRows k b.id none (s.joinRows ((s.core k).tstorePushes b t))
    s.finishBroad k b.id (st.getD .ok)
  | 0x10 => lane (fun c => c.mma b.w t)
  | 0x11 => s.conv k b t
  | 0x12 =>
    if b.w.dest then
      let (st, s) := s.writeRows k b.id none ((s.core k).flushPushes x b t)
      (s.mapCore k fun c => c.flushClearAll x).finishBroad k b.id (st.getD .ok)
    else lane (fun c => c.flushTile x)
  | 0x20 => lane (fun c => c.ewise x)
  | 0x21 => lane (fun c => c.sfnRun x (c.slotWords b))
  | 0x22 => lane (fun c => c.rowstat x)
  | 0x23 => lane (fun c => c.softmax x false)
  | 0x24 => lane (fun c => c.smax2 x)
  | 0x25 => lane (fun c => c.softmax x true)
  | 0x26 => lane (fun c => c.norm x)
  | 0x27 => lane (fun c => c.qnt x)
  | 0x28 => lane (fun c => c.dqnt x)
  | _ =>
    let s := s.readRows k b.id (if b.w.op = 0x00 then (b.strips t).map (fun p => (p.at_, p.len b.w)) else b.memRows.1)
    match s.broad k b.id with
    | some b => if b.left = 0 then s.moveDone k b.id else s
    | none => s

/-- Destinations of other devices that an instruction writes (R298). -/
def State.broadDests (s : State) (b : Broad) : List Coord :=
  (b.memRows.2.filterMap (fun r => (s.whereIs r.1).map (·.1))).filter (fun c => c ≠ s.self)

/-! ### Retirement (R85, R86, R100) -/

/-- The core's barriers and traps after a retirement: BWAIT may end; a trap-halted launch completes once its queue is empty (R81, R86). -/
def State.afterRetire (s : State) (k : CoreId) : State :=
  let c := s.core k
  let s := s.bwaitCheck k
  match c.halting with
  | some t =>
    if c.queue = [] then (s.endLaunch k (haltStatus t.status) (some t)).mapCore k fun c => { c with halting := none } else s
  | none => s

/-- Retire the head of the queue. A status other than `OK` discards what has not started and raises BROAD_FAULT (R85). -/
def State.retireHead (s : State) (k : CoreId) (b : Broad) : State :=
  if b.status = .ok then (s.mapCore k fun c => { c with queue := c.queue.drop 1 }).afterRetire k
  else
    let s := s.mapCore k fun c =>
      { c with queue := (c.queue.drop 1).filter (fun x => x.phase ≠ .queued)
               bdiscard := BitVec.ofNat 4 ((c.queue.drop 1).filter (fun x => x.phase = .queued)).length }
    (s.imprecise k ⟨0x09, b.status, b.addr, 0⟩).afterRetire k

end Sys2Proof.Machine
end

