-- ==== Sys2Proof/Machine/Islands.lean ====
section
/-! DEFINITION. Clock islands: frequencies, throttle levels, dividers (R394 to R399, R404, R407, R412). -/
namespace Sys2Proof.Machine

open Reg

/-- A word from (field, value) pairs. -/
def packFields (l : List (Field × Nat)) : Word := l.foldl (fun w x => setBits w x.1.hi x.1.lo x.2) 0

def b2n (b : Bool) : Nat := if b then 1 else 0

/-! ### Islands (R394 to R399) -/

def State.island (s : State) (j : Nat) : Island := Maps.get (Island.reset j) s.power.islands j

def State.setIsland (s : State) (j : Nat) (x : Island) : State :=
  { s with power := { s.power with islands := Maps.put (Island.reset j) s.power.islands j x } }

def State.mapIsland (s : State) (j : Nat) (f : Island → Island) : State := s.setIsland j (f (s.island j))

/-- A value held between two limits. -/
def clampTo (lo hi v : Nat) : Nat := max lo (min hi v)

/-- The set frequency of a settable island in 25 MHz units (R412). -/
def State.setFreq (s : State) (j : Nat) : Nat := clampTo 16 80 (s.fld (CLKPWR_ISL_FREQ j) CLKPWR_ISL_FREQ_FREQ)

/-- CAP1_PCT and CAP2_PCT as they act (R412). -/
def State.cap1 (s : State) : Nat := clampTo 10 100 (s.fld POLICY_SHED_CFG POLICY_SHED_CFG_CAP1_PCT)
def State.cap2 (s : State) : Nat := min s.cap1 (clampTo 10 100 (s.fld POLICY_SHED_CFG POLICY_SHED_CFG_CAP2_PCT))

/-- The supply-sag cap in force, in percent (R407). -/
def State.sagCap (s : State) : Nat := if 2 ≤ s.stage then s.cap2 else if s.stage = 1 then s.cap1 else 100

/-- PLL target of a settable island, rounded down to 25 MHz, never below 0.4 GHz (R399, R402, R404). The policy's cap and the cut for a
fixed island at Throttle are a core's. -/
def State.pllTarget (s : State) (j : Nat) : Nat :=
  let f := s.setFreq j
  let own := min (100 * f) (min (100 * (s.island j).ceiling) (f * s.sagCap))
  let t := if j < 128 then min own (100 * s.power.fPwr) - f * s.power.cut else own
  clampTo 16 80 (t / 100)

/-- Until the PLL is at the target of a supply-sag cap, the smallest level that delivers no more (R399). -/
def State.sagDemand (s : State) (j : Nat) : Nat :=
  let c := s.sagCap
  if c < 100 && s.pllTarget j < (s.island j).pll then min 15 (ceilDiv 1600 c - 16) else 0

/-- The throttle level of a settable island: the largest demand (R397). -/
def State.demand (s : State) (j : Nat) : Nat :=
  let x := s.island j
  min 15 (max (max x.thresh x.riseD) (max (if j < 128 then s.power.fast else 0) (s.sagDemand j)))

/-- The largest divider of an island: a core's keeps its clock at or above 0.4 GHz (R396). -/
def Island.nLimit (x : Island) (j : Nat) : Nat := if j < 128 then min 8 (x.pll / 2 - 8) else 8

def halfLevel (l : Nat) : Nat := (l + 1) / 2

/-- The level of island `j` changes. When it falls, the divider follows and no pauses return (R398). -/
def Island.settle (x : Island) (j l : Nat) : Island :=
  let x := { x with n := min x.n (x.nLimit j) }
  let x := if x.n < halfLevel (min x.covered x.lvl) then { x with covered := 0 } else x
  if l < x.lvl then
    { x with n := min x.n (halfLevel l), lvl := l, covered := if x.lvl ≤ x.covered || (l ≠ 0 && x.n ≥ halfLevel l) then l else min x.covered l }
  else { x with lvl := l }

/-- The level applied as pauses (R398). -/
def Island.pauses (x : Island) : Nat := if x.lvl ≤ x.covered then 0 else x.lvl

/-- Bring a settable island's level up to date. -/
def State.settle (s : State) (j : Nat) : State := s.mapIsland j fun x => x.settle j (s.demand j)

/-- The islands with a throttle level: the cores and the cluster networks. -/
def State.settleAll (s : State) : State := (List.range 132).foldl (fun (s : State) j => s.settle j) s

/-- The word of CLKPWR_ISL_STATE (R412). The clock of an island that no register sets is an open value. -/
def State.islandWord (s : State) (j : Nat) : Word :=
  let x := s.island j
  let eff := if j < 132 then x.pll * 25 * 8 / (8 + x.n) else Config.fixedClock j
  let gated := j < 128 && (s.core ⟨j % 128, Nat.mod_lt _ (by decide)⟩).wait = .waitv
  packFields [(CLKPWR_ISL_STATE_F_EFF_MHZ, eff), (CLKPWR_ISL_STATE_DIV_N, x.n), (CLKPWR_ISL_STATE_LEVEL, x.pauses),
    (CLKPWR_ISL_STATE_SRC_SHED, b2n (j < 132 && s.sagDemand j ≠ 0)), (CLKPWR_ISL_STATE_SRC_POWER, b2n (j < 128 && s.power.fast ≠ 0)),
    (CLKPWR_ISL_STATE_SRC_RISE, b2n (x.riseD ≠ 0)), (CLKPWR_ISL_STATE_SRC_THRESH, b2n (x.thresh ≠ 0)),
    (CLKPWR_ISL_STATE_GATED, b2n gated), (CLKPWR_ISL_STATE_STRETCH, b2n x.stretch)]

end Sys2Proof.Machine
end

