-- ==== Sys2Proof/Machine/Setup.lean ====
section
/-! DEFINITION. Reads of setup registers, and writes by the access types of their fields (R6 to R9, R92, R150, R171, R441 to R447).
What a register does beyond that stands with its subject. -/
namespace Sys2Proof.Machine

open Reg

/-! ### Reads -/

/-- The core that indices (cluster, core in cluster) name. -/
def coreAt (is : List Nat) : CoreId := ⟨(32 * is.headD 0 + (is.drop 1).headD 0) % 128, Nat.mod_lt _ (by decide)⟩

/-- Broad instructions bound to the shadow bank (R150). -/
def Core.oldBound (c : Core) : Nat := (c.queue.filter (fun b => b.stbBank ≠ c.stbActive)).length

/-- The shadow bank of step-table memory. -/
def Core.shadowStb (c : Core) : StbBank := c.stb (!c.stbActive)

/-- The active and the shadow bank of a slot. -/
def SfnSlot.act (sl : SfnSlot) : SfnBank := if sl.active then sl.bank1 else sl.bank0
def SfnSlot.shadow (sl : SfnSlot) : SfnBank := if sl.active then sl.bank0 else sl.bank1

/-- IDENT_RESOURCES once the boot is done (R448). -/
def State.resources (s : State) : Word :=
  packFields [(IDENT_RESOURCES_CORES_UP, (s.cores.toList.filter (fun c => c.run ≠ .retired && c.run ≠ .fenced)).length),
    (IDENT_RESOURCES_CLUSTERS_UP, ((List.range 4).filter (fun c => !s.fencedClusters.contains c)).foldl (fun m c => m + 2 ^ c) 0),
    (IDENT_RESOURCES_ENGINES_UP, ((List.range 9).filter (fun e => s.fld (OPTIC_ENG_STATE e) OPTIC_ENG_STATE_STATE = 2)).foldl (fun m e => m + 2 ^ e) 0),
    (IDENT_RESOURCES_LPDDR_GIB, if s.fld MEM_STATUS MEM_STATUS_LPDDR_UP = 1 then 2232 else 0)]

/-- The word of a register that is computed: a core's from the core (R92, R150, R171), an island's state (R412), the resources (R448), the
seconds left in the presence window (R428). -/
def State.coreWord (s : State) (r : RegName) (is : List Nat) : Option Word :=
  let k := coreAt is
  let c := s.core k
  let sl := c.sfn.toList.getD ((is.drop 2).headD 0) .reset
  match r with
  | .CLUSTER_CORE_ID =>
    some (packFields [(CLUSTER_CORE_ID_CORE, k.val), (CLUSTER_CORE_ID_CLUSTER, k.val / 32), (CLUSTER_CORE_ID_INDEX, k.val % 32)])
  | .CLUSTER_CORE_GEOM =>
    some (packFields [(CLUSTER_CORE_GEOM_RETIRED, b2n (c.run = .retired)), (CLUSTER_CORE_GEOM_CORE_WIDTH, c.width),
      (CLUSTER_CORE_GEOM_COLGROUP_EN, c.colgroups.toNat)])
  | .CLUSTER_CORE_STATE =>
    some (packFields [(CLUSTER_CORE_STATE_PC, c.pc.toNat), (CLUSTER_CORE_STATE_CTX, c.ctx.val),
      (CLUSTER_CORE_STATE_RUNSTATE, c.run.code)])
  | .CLUSTER_CORE_LASTTRAP =>
    some (match c.lastTrap with
      | some t => packFields [(CLUSTER_CORE_LASTTRAP_TSTATUS, t.status.code), (CLUSTER_CORE_LASTTRAP_CAUSE, t.cause.toNat),
          (CLUSTER_CORE_LASTTRAP_TINST, t.tinst.toNat)]
      | none => 0)
  | .CLUSTER_CORE_LASTADDR => some ((c.lastTrap.map (·.bad)).getD 0)
  | .CLUSTER_STB_STATE =>
    some (packFields [(CLUSTER_STB_STATE_GEN, c.stbGen.toNat), (CLUSTER_STB_STATE_OLD_BOUND, c.oldBound),
      (CLUSTER_STB_STATE_LOADING, b2n c.stbLoading), (CLUSTER_STB_STATE_SHADOW_READY, b2n c.shadowStb.accepted),
      (CLUSTER_STB_STATE_ACTIVE_VALID, b2n (c.stb c.stbActive).accepted), (CLUSTER_STB_STATE_ACTIVE, b2n c.stbActive)])
  | .CLUSTER_SEQ_PAUSE => some c.pauseCycles
  | .CLUSTER_SEQ_ZGATE => some (BitVec.ofNat 64 (c.gated / 1024))
  | .CLUSTER_SFN_SLOT =>
    some (packFields [(CLUSTER_SFN_SLOT_BACK_SEG, sl.backSeg.toNat), (CLUSTER_SFN_SLOT_BACK_J, sl.backJ.toNat),
      (CLUSTER_SFN_SLOT_BACK_END, b2n sl.backEnd), (CLUSTER_SFN_SLOT_OWNER, sl.act.owner), (CLUSTER_SFN_SLOT_GEN, sl.gen.toNat),
      (CLUSTER_SFN_SLOT_SHADOW_MONO, if sl.shadow.accepted then slotMono sl.shadow.words else 0),
      (CLUSTER_SFN_SLOT_LOADING, b2n sl.loading), (CLUSTER_SFN_SLOT_SHADOW_READY, b2n sl.shadow.accepted),
      (CLUSTER_SFN_SLOT_ACTIVE_VALID, b2n sl.act.accepted), (CLUSTER_SFN_SLOT_ACTIVE, b2n sl.active)])
  | .CLUSTER_SFN_BACKSTEP => some (sl.backStep.setWidth 64)
  | .CLKPWR_ISL_STATE => some (s.islandWord (is.headD 0))
  | .IDENT_RESOURCES => some (if s.fld BOOT_STATE BOOT_STATE_DONE = 1 then s.resources else 0)
  | .PRES_STATE =>
    let left := if s.fld PRES_STATE PRES_STATE_WINDOW = 0 then 0 else ((s.boot.winEnd - s.devTime).toNat + 999999999) / 1000000000
    some (setBits (s.reg PRES_STATE) 49 41 (min 300 left))
  | _ => none

/-- The word that an aligned 64-bit read of an offset returns; zero where no register is (R443). -/
def State.setupWord (s : State) (off : Nat) : Word :=
  match regAt off with
  | none => 0
  | some (r, is) => (s.coreWord r is).getD (s.reg off)

/-- An access of a size and alignment that R7 refuses. -/
def badAccess (size off : Nat) : Bool := !((size = 8 && off % 8 = 0) || (size = 4 && off % 4 = 0))

/-- The INFO event of R7. -/
def State.regAccessEvent (s : State) (off : Nat) : State := s.post (event 0x0001 (BitVec.ofNat 48 off) none)

/-- A read of the window (R7, R443). -/
def State.setupRead (s : State) (size off : Nat) : Word × State :=
  if badAccess size off then (0, s.regAccessEvent off)
  else
    let w := s.setupWord (off / 8 * 8)
    (if size = 8 then w else BitVec.ofNat 64 (w.toNat / 2 ^ (8 * (off % 8)) % 2 ^ 32), s)

/-! ### Writes -/

/-- Who may use the window (R441). -/
def State.mayUse (s : State) (src : Source) : Bool :=
  match src with
  | .mgmt => true
  | .ranger => true
  | .sys n => s.fld (RING_CFG n) RING_CFG_SYSTEM = 1
  | .peer _ => true
  | .agent _ => false
  | .core _ => false

/-- The ENABLE or VALID bit of the unit that a register belongs to (R196, R225, R301, R350). -/
def State.unitOn (s : State) (r : RegName) (is : List Nat) : Bool :=
  let i := is.headD 0
  match r with
  | .RING_BASE => s.fld (RING_CFG i) RING_CFG_ENABLE = 1
  | .RING_CPL => s.fld (RING_CFG i) RING_CFG_ENABLE = 1
  | .RING_CFG => s.fld (RING_CFG i) RING_CFG_ENABLE = 1
  | .RING_STATE => s.fld (RING_CFG i) RING_CFG_ENABLE = 1
  | .RING_EVT_BASE => s.fld (RING_EVT_CFG i) RING_EVT_CFG_ENABLE = 1
  | .RING_EVT_CIDX_ADDR => s.fld (RING_EVT_CFG i) RING_EVT_CFG_ENABLE = 1
  | .RING_EVT_CFG => s.fld (RING_EVT_CFG i) RING_EVT_CFG_ENABLE = 1
  | .RING_EVT_STATE => s.fld (RING_EVT_CFG i) RING_EVT_CFG_ENABLE = 1
  | .FAB_REPL_CFG => s.fld (FAB_REPL_CFG i) FAB_REPL_CFG_VALID = 1
  | .FAB_REPL_BASE => s.fld (FAB_REPL_CFG i) FAB_REPL_CFG_VALID = 1
  | .FAB_REPL_LEN => s.fld (FAB_REPL_CFG i) FAB_REPL_CFG_VALID = 1
  | .FAB_REPL_MEMBERS => s.fld (FAB_REPL_CFG i) FAB_REPL_CFG_VALID = 1
  | .FRONT_EXR_CFG => s.fld FRONT_EXR_CFG FRONT_EXR_CFG_ENABLE = 1
  | .FRONT_EXR_TABLE => s.fld FRONT_EXR_CFG FRONT_EXR_CFG_ENABLE = 1
  | _ => false

def State.locked (s : State) : Bool := s.fld IDENT_LOCK IDENT_LOCK_SETUP_LOCK = 1

/-- A field's bits as a mask. -/
def Field.mask (f : Field) : Word := BitVec.ofNat 64 ((2 ^ (f.hi + 1 - f.lo) - 1) * 2 ^ f.lo)

/-- One field of a word under a write of `v` through `mask` (R8). -/
def FieldRow.write (f : FieldRow) (locked on : Bool) (old v mask : Word) : Word :=
  let m := f.fld.mask &&& mask
  let rw := (old &&& ~~~m) ||| (v &&& m)
  match f.acc with
  | .ro => old
  | .wo => old
  | .rw => rw
  | .w1c => old &&& ~~~(v &&& m)
  | .w1s => old ||| (v &&& m)
  | .rwl => if locked then old else rw
  | .rwOff => if on then old else rw

/-- The byte lanes that a write reaches. -/
def laneMask (size off : Nat) : Word := if size = 8 then -1 else if off % 8 = 0 then 0x00000000FFFFFFFF else 0xFFFFFFFF00000000

/-- A written value in its lanes. -/
def laneValue (size off : Nat) (v : Word) : Word :=
  if size = 8 then v else if off % 8 = 0 then v &&& 0xFFFFFFFF else v <<< (32 : Nat)

/-- A write of a register's word through a mask by its access types; a write that reaches an RWL field after the lock is counted
(R6, R8, R446). -/
def State.writeWord (s : State) (r : RegName) (is : List Nat) (off : Nat) (v mask : Word) : State :=
  let w := (r.fieldsAt is).foldl (fun w f => f.write s.locked (s.unitOn r is) w v mask) (s.reg off)
  let s' := s.setReg off w
  if s.locked && (r.fieldsAt is).any (fun f => f.acc = .rwl && f.fld.mask &&& mask ≠ 0) then
    s'.bump IDENT_LOCK IDENT_LOCK_LOCKED_WRITES
  else s'

/-- A written bit of a command field: 1 in the value and in a lane that the write reaches. -/
def wrote (v mask : Word) (f : Field) : Bool := (v &&& mask &&& f.mask) ≠ 0

end Sys2Proof.Machine
end

