-- ==== Sys2Proof/Machine/Banks.lean ====
section
/-! DEFINITION. Step-table banks and special-function slots: loading, checking, flipping, the reference tables (R126, R127, R149,
R151, R157, R158, R169, R170, R208, R209). -/
namespace Sys2Proof.Machine

open Reg

/-! ### Slots -/

/-- Replace the active, or the shadow, bank of a slot. -/
def SfnSlot.setShadow (sl : SfnSlot) (b : SfnBank) : SfnSlot := if sl.active then { sl with bank0 := b } else { sl with bank1 := b }
def SfnSlot.setAct (sl : SfnSlot) (b : SfnBank) : SfnSlot := if sl.active then { sl with bank1 := b } else { sl with bank0 := b }

/-- The shadow bank becomes active, and the bank that was active the shadow, not accepted (R169). -/
def SfnSlot.flipped (sl : SfnSlot) : SfnSlot :=
  let old := sl.act
  { sl with active := !sl.active }.setShadow { old with accepted := false, owner := 127 }

/-- The shadow bank holds an accepted table of loader `owner`, with its check's record (R157, R158, R170). -/
def SfnSlot.accept (sl : SfnSlot) (t : SlotWords) (owner : Nat) (r : Option Scan) : SfnSlot :=
  let sl := match r with
    | some sc => { sl with backStep := toF32 sc.step, backSeg := BitVec.ofNat 8 sc.seg, backJ := BitVec.ofNat 16 sc.j
                           backEnd := sc.atEnd }
    | none => sl
  { sl with gen := sl.gen + 1, loading := false }.setShadow ⟨t, true, owner⟩

/-- Update slot `n` of a core. -/
def Core.mapSlot (c : Core) (n : Nat) (f : SfnSlot → SfnSlot) : Core :=
  if h : n < 16 then { c with sfn := c.sfn.set n (f c.sfn[n]) } else c

def Core.slot (c : Core) (n : Nat) : SfnSlot := c.sfn.toList.getD n .reset

/-- Slots 0 to 7 hold the reference tables, loaded by Ranger (owner 64) and flipped (R151, R169). Their coefficients are open values; R162
says that they pass the loader's check, so they stand accepted (`RefTablesKeep` of Safety.lean states what R161 and R162 promise). -/
def Core.withReference (c : Core) : Core :=
  (List.range 8).foldl (fun (c : Core) n =>
    c.mapSlot n fun sl => (sl.accept (refTable n) 64 (slotCheck (refTable n))).flipped) c

/-- An instruction in the queue is bound to the shadow bank of slot `n` (R169). -/
def Core.slotBound (c : Core) (n : Nat) : Bool :=
  c.queue.any fun b => b.w.op = 0x21 && b.w.fn = 0x10 + n && b.sfnBank.getLsbD n ≠ (c.slot n).active

/-! ### Step-table banks -/

def Core.setShadowStb (c : Core) (b : StbBank) : Core := if c.stbActive then { c with stb0 := b } else { c with stb1 := b }

/-- The shadow bank becomes active, and the bank that was active the shadow, not accepted (R149). -/
def Core.flipStb (c : Core) : Core :=
  let old := c.stb c.stbActive
  { c with stbActive := !c.stbActive }.setShadowStb { old with accepted := false }

/-- Entries of a bank written from bytes; the rest empty (R208). -/
def stbEntries (bs : List Byte) : List (Nat × BitVec 128) :=
  (List.range (bs.length / 16)).foldl (fun m i => Maps.put 0 m i (BitVec.ofNat 128 (leAt bs (16 * i) 16))) []

/-- The 784 words of a slot table (R155). -/
def slotWordsOf (bs : List Byte) : SlotWords :=
  (List.range 784).foldl (fun m i => Maps.put 0 m i (BitVec.ofNat 32 (leAt bs (4 * i) 4))) []

/-! ### Flips (R126, R149, R169) -/

/-- Every bank that a flip names is ready. -/
def Core.flipReady (c : Core) (f : Flip) : Bool :=
  (!f.stb || c.shadowStb.accepted) && (List.range 16).all (fun n => !f.slots.getLsbD n || (c.slot n).shadow.accepted)

/-- Make a flip. -/
def Core.makeFlip (c : Core) (f : Flip) : Core :=
  let c := if f.stb then c.flipStb else c
  (List.range 16).foldl (fun (c : Core) n => if f.slots.getLsbD n then c.mapSlot n SfnSlot.flipped else c) c

/-- A TBLSEL's flip: made, or refused with `TABLE_REJECTED`, which the instruction retires with later (R126). -/
def Core.tblselFlip (c : Core) (f : Flip) : Core :=
  if c.flipReady f then c.makeFlip f
  else { c with queue := c.queue.map (fun (b : Broad) => if some b.id = f.tblsel then { b with status := .tableRejected } else b) }

/-- The flips of the load descriptors first, then those of TBLSEL. -/
def Core.flipAll (c : Core) : Core :=
  let loads := c.flips.filter (fun f => f.load.isSome)
  let sels := c.flips.filter (fun f => f.load.isNone)
  sels.foldl Core.tblselFlip (loads.foldl Core.makeFlip { c with flips := [] })

/-- Result and status of an SFN_LOAD whose slots are all checked (R209). -/
def State.endSfnLoad (s : State) (n : RingId) (i : Index) : State :=
  match s.desc n i with
  | none => s
  | some d => s.endDesc n i (if d.r1 = 0 then .ok else .tableRejected) d.r0 d.r1

/-- A load descriptor whose flip has been made completes. -/
def State.endFlippedLoad (s : State) (l : RingId × Index) : State :=
  match s.desc l.1 l.2 with
  | none => s
  | some d =>
    let c := s.core (coreOf (d.words.getD 3 0))
    if d.phase ≠ .working then s
    else if d.typ = 0x12 then s.endDesc l.1 l.2 .ok (c.stbGen.setWidth 64) 0
    else if 16 ≤ d.aux.toNat then s.endSfnLoad l.1 l.2
    else s

/-- BANK_FLIP: the flips due at the core's instruction boundary are made; the loads that asked for one complete (R126, R149, R169). -/
def execBankFlip (k : CoreId) (s : State) : Result :=
  let loads := (s.core k).flips.filterMap (·.load)
  .next (loads.foldl State.endFlippedLoad (s.mapCore k Core.flipAll))

/-! ### The end of a load's check -/

/-- The load descriptor of type `typ` at work on core `k`: the oldest that has written its bank. -/
def State.loadOn (s : State) (k : CoreId) (typ : Byte) : Option Desc :=
  (s.descs.find? fun (d : Desc) => d.typ = typ && (d.phase = .started || d.phase = .working) && coreOf (d.words.getD 3 0) = k).filter
    fun d => d.phase = .working && !d.held && (typ ≠ 0x12 || d.aux = 1)

/-- STEP_TABLE_VALIDATED: the written shadow bank is accepted with its headers, or the load fails with the first bad entry
(R130, R149, R208). -/
def execStepTableValidated (k : CoreId) (s : State) : Result :=
  .next (if !(s.core k).stbLoading then s else
    match s.loadOn k 0x12 with
    | none => s.mapCore k fun c => { c with stbLoading := false }
    | some d =>
      let c := s.core k
      match c.shadowStb.check with
      | .error i =>
        (s.mapCore k fun c => { c with stbLoading := false }).endDesc d.ring d.idx .tableRejected (BitVec.ofNat 64 i) 0
      | .ok hs =>
        let flip := bits (d.words.getD 3 0) 8 8 = 1
        let s := s.mapCore k fun c =>
          { c with stbLoading := false, stbGen := c.stbGen + 1
                   flips := if flip then c.flips ++ [Flip.mk true 0 none (some (d.ring, d.idx))] else c.flips
            }.setShadowStb { c.shadowStb with accepted := true, headers := hs }
        if flip then s else s.endDesc d.ring d.idx .ok ((c.stbGen + 1).setWidth 64) 0)

/-- Slots that a mask names, ascending, from `i` on. -/
def nextSlot (mask : Nat) (i : Nat) : Nat := ((List.range 16).find? (fun n => i ≤ n && mask / 2 ^ n % 2 = 1)).getD 16

/-- SFN_TABLE_CHECKED: the table in the shadow bank of a slot is accepted with its backward step recorded, and a flip asked for when
the load wants one, or it is rejected; then the load's next slot is due (R157, R158, R169, R209). -/
def execSfnTableChecked (k : CoreId) (slot : Fin 16) (s : State) : Result :=
  .next (if !((s.core k).slot slot.val).loading then s else
    match s.loadOn k 0x13 with
    | none => s.mapCore k fun c => c.mapSlot slot.val (fun sl => { sl with loading := false })
    | some d =>
      let w := d.words.getD 3 0
      let t := ((s.core k).slot slot.val).shadow.words
      let owner := match s.ringAuth d.ring with
        | .ranger => 64
        | .ctx x => x.val
      let ok := slotCheck t
      let flip := bits w 8 8 = 1
      let after := nextSlot (bits w 31 16) (slot.val + 1)
      let s := s.mapCore k fun c =>
        match ok with
        | some _ =>
          let c := c.mapSlot slot.val (fun sl => sl.accept t owner ok)
          if flip then { c with flips := c.flips ++ [Flip.mk false (BitVec.ofNat 16 (2 ^ slot.val)) none (some (d.ring, d.idx))] } else c
        | none => c.mapSlot slot.val (fun sl => { sl with loading := false })
      let s := s.mapDesc d.ring d.idx fun d =>
        { d with aux := BitVec.ofNat 64 after
                 r0 := if ok.isSome then d.r0 ||| BitVec.ofNat 64 (2 ^ slot.val) else d.r0
                 r1 := if ok.isNone then d.r1 ||| BitVec.ofNat 32 (2 ^ slot.val) else d.r1 }
      if after = 16 && !(s.core k).flips.any (fun f => f.load = some (d.ring, d.idx)) then s.endSfnLoad d.ring d.idx else s)

end Sys2Proof.Machine
end

