-- ==== Sys2Proof/Machine/Rings.lean ====
section
/-! DEFINITION. Work rings: enabling, doorbells, starting descriptors, completions in ring order, event rings and Lantern records
(R195 to R204, R214 to R225, R374). -/
namespace Sys2Proof.Machine

open Reg

/-! ### Configuration (R196, R221, R225) -/

/-- A word with one bit written. -/
def setBit (w : Word) (i : Nat) (b : Bool) : Word := setBits w i i (b2n b)

/-- ENGINE values of a class (R198). -/
def engineOk (cls eng : Nat) : Bool := cls = 1 || (cls ≤ 5 && eng = 0)

/-- A global address has a valid encoding (R24). -/
def State.encOk (s : State) (a : Word) : Bool := s.decode a ≠ .format

/-- The checks of R196. -/
def State.ringOk (s : State) (n : Nat) : Bool :=
  let k := s.fld (RING_CFG n) RING_CFG_LOG2SIZE
  let q := s.fld (RING_CFG n) RING_CFG_INFLIGHT
  4 ≤ k && k ≤ 20
    && (s.reg (RING_BASE n)).toNat % 64 = 0 && (s.reg (RING_CPL n)).toNat % 32 = 0
    && s.encOk (s.reg (RING_BASE n)) && s.encOk (s.reg (RING_CPL n))
    && engineOk (s.fld (RING_CFG n) RING_CFG_CLASS) (s.fld (RING_CFG n) RING_CFG_ENGINE)
    && 1 ≤ q && q ≤ 16
    && s.fld (RING_STATE n) RING_STATE_PIDX = s.fld (RING_STATE n) RING_STATE_CIDX

def State.dropFetch (s : State) (n : RingId) : State := { s with fetches := s.fetches.filter (fun f => f.ring ≠ n) }

/-- Whether an owner is the read of a slot of ring `n`. -/
def Owner.slotOf (n : RingId) : Owner → Bool
  | .fetch m _ => m = n
  | _ => false

/-- A slot of ring `n` that is being read is not started any more: its answer goes to nobody. -/
def State.forgetSlot (s : State) (n : RingId) : State := (s.dropFetch n).disown (fun o => o.slotOf n)

/-- A write of RING_CFG: enabling checks the configuration as the write leaves it; clearing ENABLE stops the ring from starting
descriptors, the one whose slot is being read too (R196, R221). -/
def State.writeRingCfg (s : State) (n : Nat) (v mask : Word) : State :=
  let was := s.fld (RING_CFG n) RING_CFG_ENABLE = 1
  let s' := s.writeWord .RING_CFG [n] (RING_CFG n) (setBit v 63 was) mask
  if mask.getLsbD 63 = false then s'
  else if v.getLsbD 63 = false then (s'.forgetSlot (ringOf n)).setFld (RING_CFG n) RING_CFG_ENABLE 0
  else if was then s'
  else if s'.ringOk n then s'.setFld (RING_CFG n) RING_CFG_ENABLE 1
  else s'.setFld (RING_FLAGS n) RING_FLAGS_CFG_ERR 1

/-- RING_ENABLE: a write of RING_CFG with ENABLE = 1 (R196). -/
def execRingEnable (src : Source) (n : RingId) (v : Word) (s : State) : Result :=
  .next (if s.mayUse src && v.getLsbD 63 then s.writeRingCfg n v (-1) else s)

/-- RING_DISABLE: a write of RING_CFG with ENABLE = 0 (R221). -/
def execRingDisable (src : Source) (n : RingId) (v : Word) (s : State) : Result :=
  .next (if s.mayUse src && !v.getLsbD 63 then s.writeRingCfg n v (-1) else s)

/-- k and both alignments of an event ring (R225). -/
def State.evtOk (s : State) (e : Nat) : Bool :=
  let k := s.fld (RING_EVT_CFG e) RING_EVT_CFG_LOG2SIZE
  4 ≤ k && k ≤ 20 && (s.reg (RING_EVT_BASE e)).toNat % 32 = 0 && (s.reg (RING_EVT_CIDX_ADDR e)).toNat % 8 = 0

/-- A write of RING_EVT_CFG: enabling checks k and both alignments, and on failure ENABLE stays 0. Nothing is known of the consumer word
of a ring that has just been enabled: its own count shows the ring full until the word has been read (R222, R225). -/
def State.writeEvtCfg (s : State) (e : Nat) (v mask : Word) : State :=
  let was := s.fld (RING_EVT_CFG e) RING_EVT_CFG_ENABLE = 1
  let s' := s.writeWord .RING_EVT_CFG [e] (RING_EVT_CFG e) (setBit v 63 was) mask
  if mask.getLsbD 63 = false then s'
  else if v.getLsbD 63 = false then s'.setFld (RING_EVT_CFG e) RING_EVT_CFG_ENABLE 0
  else if was then s'
  else if s'.evtOk e then
    { s' with evtCons := Maps.put 0 s'.evtCons e (BitVec.ofNat 32 (s'.fld (RING_EVT_STATE e) RING_EVT_STATE_NEXT)
                - BitVec.ofNat 32 (2 ^ s'.fld (RING_EVT_CFG e) RING_EVT_CFG_LOG2SIZE)) }.setFld
      (RING_EVT_CFG e) RING_EVT_CFG_ENABLE 1
  else s'

/-- EVT_RING_ENABLE: a write of RING_EVT_CFG with ENABLE = 1 (R225). -/
def execEvtRingEnable (src : Source) (e : EvtRing) (v : Word) (s : State) : Result :=
  .next (if s.mayUse src && v.getLsbD 63 then s.writeEvtCfg e v (-1) else s)

/-! ### Doorbells (R199, R200) -/

/-- The authority of whoever makes an access (R200, R441). -/
def State.sourceAuth (s : State) (src : Source) : Auth :=
  match src with
  | .mgmt => .ranger
  | .ranger => .ranger
  | .sys n => s.ringAuth n
  | .peer _ => .ranger
  | .agent x => .ctx x
  | .core k => .ctx (s.core k).ctx

/-- DOORBELL: a store to the page of ring `n`; its answer is an output. -/
def execDoorbell (src : Source) (n : RingId) (off : BitVec 12) (size : Nat) (v : Word) (s : State) : Result :=
  let r := s.doorbell (s.sourceAuth src) n off.toNat size v
  .next (r.2.emit (.answer r.1 0))

/-- DOORBELL_READ: an aligned 64-bit load from any word of the page (R200). -/
def execDoorbellRead (n : RingId) (off : BitVec 12) (size : Nat) (s : State) : Result :=
  .next (if size = 8 && off.toNat % 8 = 0 then s.emit (.answer .ok (s.doorbellValue n)) else s.emit (.answer .format 0))

/-! ### Starting (R201 to R204, R214, R218, R219) -/

/-- Started descriptors of a ring whose completions are not posted, oldest first. -/
def State.inRing (s : State) (n : RingId) : List Desc := s.descs.filter (fun d => d.ring = n)

/-- The next index that the ring starts. -/
def State.nextIndex (s : State) (n : RingId) : Index :=
  BitVec.ofNat 32 (s.fld (RING_STATE n) RING_STATE_CIDX + (s.inRing n).length)

/-- A held descriptor runs only in its context's turn of a suspect replay (R389). -/
def State.mayRun (s : State) (d : Desc) : Bool :=
  !d.held || s.resets.any (fun r => (r.turn.map Auth.ctx) = some (s.ringAuth d.ring))

/-- The types that a class accepts (R198, R204, R340; SNAP types 0x50 to 0x54). -/
def typeOk (cls typ : Nat) : Bool :=
  (1 ≤ typ && typ ≤ 3) ||
  match cls with
  | 0 => 0x10 ≤ typ && typ ≤ 0x13
  | 1 => typ = 0x20 || typ = 0x21
  | 2 => typ = 0x30 || typ = 0x31
  | 3 => 0x40 ≤ typ && typ ≤ 0x42
  | 4 => 0x50 ≤ typ && typ ≤ 0x54
  | 5 => typ = 0x60 || typ = 0x61
  | _ => false

/-- Fields of a descriptor (R203). -/
def Desc.word (d : Desc) (i : Nat) : Word := d.words.getD i 0
def slotType (ws : List Word) : Nat := bits (ws.getD 0 0) 7 0
def slotFlags (ws : List Word) : Nat := bits (ws.getD 0 0) 15 8
def slotSeq (ws : List Word) : Nat := bits (ws.getD 0 0) 63 32
def Desc.step (d : Desc) : BitVec 32 := BitVec.ofNat 32 (bits (d.word 2) 31 0)

/-- The header's reserved bits are zero (R5, R203). -/
def headerOk (ws : List Word) : Bool := bits (ws.getD 0 0) 31 9 = 0 && bits (ws.getD 2 0) 63 32 = 0

/-- The engine of a ring is fenced: a DMA engine of a fenced cluster (R382). -/
def State.engineFenced (s : State) (n : RingId) : Bool :=
  s.fld (RING_CFG n) RING_CFG_CLASS = 1 && s.fencedClusters.contains (s.fld (RING_CFG n) RING_CFG_ENGINE / 4)

/-- Descriptors of the ring that become due complete with `ABORTED` (R219). -/
def State.stopped (s : State) (n : RingId) : Bool :=
  s.fld (RING_CFG n) RING_CFG_STOP_ON_ERROR = 1 && s.fld (RING_FLAGS n) RING_FLAGS_STOPPED = 1

/-- The ring may start descriptors at all (R220, R221, R381). -/
def State.mayGo (s : State) (n : RingId) : Bool :=
  s.fld (RING_CFG n) RING_CFG_ENABLE = 1 && s.fld (RING_FLAGS n) RING_FLAGS_FAULTED = 0 && !s.failsafe

/-- A slot's descriptor starts only after every earlier one of its ring has completed: BARRIER, WAIT and WRITE (R205, R214). -/
def slotBarrier (ws : List Word) : Bool := slotFlags ws % 2 = 1 || slotType ws = 0x02 || slotType ws = 0x03

/-- The status that a descriptor gets before its type has a say, if any (R198, R218, R219, R386). -/
def State.startStatus (s : State) (n : RingId) (ws : List Word) : Option Status :=
  if s.stopped n then some .aborted
  else if s.fld (RING_CFG n) RING_CFG_SYSTEM = 0 && s.aborted (s.ringCtx n) then some .aborted
  else if s.engineFenced n then some .fenced
  else if !headerOk ws || !typeOk (s.fld (RING_CFG n) RING_CFG_CLASS) (slotType ws) then some .format
  else none

/-- A new descriptor in execution, or with its status decided. -/
def newDesc (n : RingId) (i : Index) (ws : List Word) (typ : Nat) (st : Option Status) (r0 : Word) : Desc :=
  { ring := n, idx := i, words := ws, typ := BitVec.ofNat 8 typ
    phase := if st.isSome then .done else .started
    status := st.getD .ok, r0 := r0, r1 := 0, left := 0, failPos := none, buf := [], parts := [], held := false, aux := 0, barred := false }

def State.addDesc (s : State) (d : Desc) : State := { s.dropFetch d.ring with descs := s.descs ++ [d] }

/-- The fetch of a slot failed: TYPE 0 with the fetch status (R218). -/
def State.fetchFailed (s : State) (n : RingId) (i : Index) (st : Status) : State := s.addDesc (newDesc n i [] 0 (some st) 0)

/-- The bytes of a due slot are here: its SEQ may hold the ring (R202), the ring itself may hold it (R220), BARRIER may (R205, R214), else
it starts. -/
def State.slotRead (s : State) (n : RingId) (i : Index) (ws : List Word) : State :=
  if slotSeq ws ≠ i.toNat || !s.mayGo n then { s.dropFetch n with fetches := (s.dropFetch n).fetches ++ [Fetch.mk n i ws false] }
  else if slotBarrier ws && s.inRing n ≠ [] then s.dropFetch n
  else s.addDesc { newDesc n i ws (slotType ws) (s.startStatus n ws) 0 with barred := s.stopped n }

def wordsOf (bs : List Byte) : List Word := (List.range 8).map (fun i => wordAt bs (8 * i))

/-- Read the slot of index `i` (R195, R197, R201). -/
def State.readSlot (s : State) (n : RingId) (i : Index) : State :=
  let a := s.reg (RING_BASE n) + BitVec.ofNat 64 (64 * (i.toNat % 2 ^ s.fld (RING_CFG n) RING_CFG_LOG2SIZE))
  match s.decode a with
  | .here o =>
    match s.readFor (s.me (s.ringAuth n)) o 64 true with
    | (.ok bs, s) => s.slotRead n i (wordsOf bs)
    | (.err st, s) => s.fetchFailed n i st
    | (.wait, s) => s
  | .there c o =>
    if !s.inReach c then s.fetchFailed n i .bound
    else
      let s := { s.dropFetch n with fetches := (s.dropFetch n).fetches ++ [Fetch.mk n i [] true] }
      s.requestLoads c (s.ringAgent n) (s.ringCtx n) o 64 (fun _ => .fetch n i)
  | .bound => s.fetchFailed n i .bound
  | _ => s.fetchFailed n i .format

/-- A WAIT or WRITE of the ring has not completed: nothing starts behind it (R205). -/
def State.ringBlocked (s : State) (n : RingId) : Bool := (s.inRing n).any (fun d => d.typ = 0x02 || d.typ = 0x03)

/-- The ring may start its next descriptor now (R214, R219, R220, R381). -/
def State.mayStart (s : State) (n : RingId) : Bool :=
  s.mayGo n && (s.nextIndex n).toNat ≠ s.fld (RING_STATE n) RING_STATE_PIDX
    && !s.fetches.any (fun f => f.ring = n)
    && !(s.fld (RING_CFG n) RING_CFG_STOP_ON_ERROR = 1 && s.inRing n ≠ [])
    && !s.ringBlocked n
    && ((s.inRing n).filter (fun d => d.phase = .started || d.phase = .working || d.phase = .stopping)).length < s.fld (RING_CFG n) RING_CFG_INFLIGHT

/-- DESCRIPTOR_START: the ring reads its next due slot, and starts it when its SEQ matches and the limits allow (R202, R214). -/
def execDescriptorStart (n : RingId) (s : State) : Result :=
  .next (if s.mayStart n then s.readSlot n (s.nextIndex n) else s)

/-- SEQ_RECHECK: a slot whose SEQ differed is read again (R202). -/
def execSeqRecheck (n : RingId) (s : State) : Result :=
  .next (match s.fetches.find? (fun f => f.ring = n && !f.reading) with
    | none => s
    | some f => if s.mayGo n then s.readSlot n f.idx else s)

/-- SEQ_WAIT_TIMEOUT: the descriptor completes with `TIMEOUT` and the SEQ last read (R202). -/
def execSeqWaitTimeout (n : RingId) (s : State) : Result :=
  .next (match s.fetches.find? (fun f => f.ring = n && !f.reading) with
    | none => s
    | some f =>
      if s.mayGo n then
        s.addDesc (newDesc n f.idx f.words (slotType f.words) (some .timeout) (BitVec.ofNat 64 (slotSeq f.words)))
      else s)

/-! ### The straggler policy (R374) -/

/-- A LAUNCH of context `x` with this STEP starts. -/
def State.stragStart (s : State) (x : Ctx) (step : BitVec 32) : State :=
  let g := Maps.get Strag.none s.strag x
  if (g.step.map (·.1)) = some step then s
  else { s with strag := Maps.put Strag.none s.strag x { g with step := some (step, s.devTime) } }

/-- The middle of the sorted step times: between the two middle ones of an even number, which one the median is, is open. -/
def medianOf (ts : List Nat) (v : Word) : Nat :=
  let l := ts.mergeSort (· ≤ ·)
  let lo := l.getD ((l.length - 1) / 2) 0
  let hi := l.getD (l.length / 2) 0
  lo + v.toNat % (hi - lo + 1)

/-- A step of `t` ns has ended: the baseline, E, and the report (R374). -/
def State.stragStep (s : State) (x : Ctx) (t : Nat) : State :=
  let g := Maps.get Strag.none s.strag x
  let ref := s.fld POLICY_STRAG_CFG POLICY_STRAG_CFG_REF_US * 1000
  let slow := max 1 (s.fld POLICY_STRAG_CFG POLICY_STRAG_CFG_SLOW_PCT)
  let hold := max 1 (s.fld POLICY_STRAG_CFG POLICY_STRAG_CFG_HOLD_STEPS)
  let nb := max 1 (s.fld POLICY_STRAG_CFG POLICY_STRAG_CFG_BASE_STEPS)
  let keep := fun (s : State) (g : Strag) => { s with strag := Maps.put Strag.none s.strag x g }
  match (if ref ≠ 0 then some ref else g.base) with
  | none =>
    let ts := g.times ++ [t]
    if ts.length < nb then keep s { g with times := ts }
    else
      let (v, s) := s.free
      let b := medianOf ts v
      (keep s { g with times := [], base := some b, e := b, k := 0 }).setFld (POLICY_STRAG_STATE x) POLICY_STRAG_STATE_B_US
        (min (2 ^ 31 - 1) (b / 1000))
  | some b =>
    let (e0, k0) : Int × Nat := if ref ≠ 0 && g.base ≠ some ref then (ref, 0) else (g.e, g.k)
    let e : Int := 15 * e0 + (t : Int) * 16 ^ k0
    let k := k0 + 1
    let high : Bool := (b : Int) * (100 + slow) * 16 ^ k < e * 100
    let low : Bool := e * 200 < (b : Int) * (200 + slow) * 16 ^ k
    let above := if high then g.above + 1 else 0
    let eUs := (e / 16 ^ k / 1000).toNat
    let s := keep s { g with base := some b, e := e, k := k, above := above }
    let s := s.setFld (POLICY_STRAG_STATE x) POLICY_STRAG_STATE_E_US (min (2 ^ 31 - 1) eUs)
    let s := s.setFld (POLICY_STRAG_STATE x) POLICY_STRAG_STATE_B_US (min (2 ^ 31 - 1) (b / 1000))
    let standing := s.fld (POLICY_STRAG_STATE x) POLICY_STRAG_STATE_SLOW = 1
    if standing then
      if low then
        (s.setFld (POLICY_STRAG_STATE x) POLICY_STRAG_STATE_SLOW 0).clearActive (fun e => e.code = 0x010B && e.ctx = some x)
      else s
    else if hold ≤ above then
      let (v, s) := s.free
      (s.setFld (POLICY_STRAG_STATE x) POLICY_STRAG_STATE_SLOW 1).post
        { event 0x010B (Config.detail 0x010B [eUs, b / 1000]) (some x) with d0 := v }
    else s

/-- The context of a LAUNCH: its ring's CTX (R197, R206). -/
def State.launchCtx (s : State) (d : Desc) : Ctx := s.ringCtx d.ring

/-- A completed LAUNCH: when no other started LAUNCH of its step is left, its step has ended. -/
def State.stragFinish (s : State) (d : Desc) : State :=
  let x := s.launchCtx d
  let g := Maps.get Strag.none s.strag x
  if d.typ ≠ 0x10 || s.fld POLICY_STRAG_CFG POLICY_STRAG_CFG_ENABLE = 0 then s
  else if s.descs.any (fun (e : Desc) => e.typ = 0x10 && s.launchCtx e = x && e.step = d.step) then s
  else match g.step with
    | some (st, t0) =>
      if st = d.step then
        { s with strag := Maps.put Strag.none s.strag x { g with step := none } }.stragStep x (s.devTime - t0).toNat
      else s
    | none => s

/-! ### Completions (R215 to R221) -/

/-- The completion record of a descriptor. -/
def State.cplRecord (s : State) (d : Desc) : List Byte :=
  record (d.word 1).toNat d.idx.toNat d.ring.val d.typ.toNat d.status.code d.r0 d.r1.toNat
    (if s.fld (RING_CFG d.ring) RING_CFG_SYSTEM = 1 then 0xFF else (s.ringCtx d.ring).val) 0 0 0
    (phaseOf d.idx.toNat (s.fld (RING_CFG d.ring) RING_CFG_LOG2SIZE))

/-- The oldest descriptor of a ring. -/
def State.ringHead (s : State) (n : RingId) : Option Desc :=
  s.descs.find? (fun d => d.ring = n && d.idx.toNat = s.fld (RING_STATE n) RING_STATE_CIDX)

/-- The completion is visible: the ring moves on, and what waits on the completion is told (R215, R218, R219, R352, R374, R387). An
`ABORTED` that STOPPED itself decided does not set STOPPED again (R219). -/
def State.cplDone (s : State) (n : RingId) : State :=
  match s.ringHead n with
  | none => s
  | some d =>
    let s := { s with descs := s.descs.filter (fun e => !(e.ring = n && e.idx = d.idx)) }
    let s := s.wrapInc (RING_STATE n) RING_STATE_CIDX
    let s := if d.typ = 0x10 then { s with lastStep := Maps.put 0 s.lastStep (s.launchCtx d) d.step } else s
    let s := if s.fld (RING_CFG n) RING_CFG_STOP_ON_ERROR = 1 && d.status ≠ .ok && !d.barred then s.setFld (RING_FLAGS n) RING_FLAGS_STOPPED 1 else s
    let s := { s with exr := s.exr.map (fun (r : ExrReq) =>
                        if r.ring = n && r.idx = d.idx then { r with cpl := some (d.status, d.r0, d.r1) } else r) }
    let s := match s.ringAuth n with
      | .ctx x =>
        if s.descs.any (fun (e : Desc) => s.ringAuth e.ring = Auth.ctx x) then s else s.setFld (ERR_CTX x) ERR_CTX_DRAINING 0
      | .ranger => s
    s.stragFinish d

/-- The completion write failed (R220): the ring faults and holds it. -/
def State.cplFailed (s : State) (n : RingId) (st : Status) : State :=
  match s.ringHead n with
  | none => s
  | some d =>
    let rec_ := s.cplRecord d
    let s := s.setFld (RING_FLAGS n) RING_FLAGS_FAULTED 1
    let s := { s with heldCpl := s.heldCpl ++ [HeldCpl.mk n rec_] }
    let s := s.mapDesc n d.idx fun d => { d with phase := .done }
    s.post { event 0x0202 (BitVec.ofNat 48 d.idx.toNat) (s.ringEvtCtx n) with ring := BitVec.ofNat 16 n.val, status := st }

/-- Write the completion of the ring's oldest descriptor (R197, R217, R218). -/
def State.postCpl (s : State) (n : RingId) (d : Desc) : State :=
  let a := s.reg (RING_CPL n) + BitVec.ofNat 64 (32 * (d.idx.toNat % 2 ^ s.fld (RING_CFG n) RING_CFG_LOG2SIZE))
  match s.decode a with
  | .here o =>
    match s.writeFor (s.me (s.ringAuth n)) false o (s.cplRecord d) true with
    | (.ok _, s) => s.cplDone n
    | (.err st, s) => s.cplFailed n st
    | (.wait, s) => s
  | .there c o =>
    if !s.inReach c then s.cplFailed n .bound
    else
      (s.mapDesc n d.idx fun d => { d with phase := .posting }).requestStores c (s.ringAgent n) (s.ringCtx n) o (s.cplRecord d)
        (fun _ => .cpl n (s.cplRecord d))
  | .bound => s.cplFailed n .bound
  | _ => s.cplFailed n .format

/-- DESCRIPTOR_FINISH: the oldest descriptor of the ring has its status, and its completion posts (R217, R218). -/
def execDescriptorFinish (n : RingId) (s : State) : Result :=
  .next (match s.ringHead n with
    | none => s
    | some d =>
      if d.phase = .done && !d.held && !s.failsafe && s.fld (RING_FLAGS n) RING_FLAGS_FAULTED = 0 then s.postCpl n d else s)

/-- A write of RING_FLAGS: flags clear where 1 is written; clearing FAULTED retries the held completion (R219, R220). -/
def State.writeRingFlags (s : State) (n : RingId) (v mask : Word) : State :=
  let was := s.fld (RING_FLAGS n) RING_FLAGS_FAULTED = 1
  let s := s.writeWord .RING_FLAGS [n.val] (RING_FLAGS n) v mask
  if was && wrote v mask RING_FLAGS_FAULTED then
    let s := { s with heldCpl := s.heldCpl.filter (fun h => h.ring ≠ n) }
    match s.ringHead n with
    | some d => if d.phase = .done && !d.held && !s.failsafe then s.postCpl n d else s
    | none => s
  else s

/-- RING_FAULTED_RETRY: 1 written to FAULTED (R220). -/
def execRingFaultedRetry (src : Source) (n : RingId) (s : State) : Result :=
  .next (if s.mayUse src then s.writeRingFlags n RING_FLAGS_FAULTED.mask (-1) else s)

/-- RING_STOPPED_CLEAR: 1 written to STOPPED (R219). -/
def execRingStoppedClear (src : Source) (n : RingId) (s : State) : Result :=
  .next (if s.mayUse src then s.writeRingFlags n RING_FLAGS_STOPPED.mask (-1) else s)

/-! ### Lantern records (R224) -/

/-- One Lantern record into event ring `e`, when it is enabled and asks for one. -/
def State.lanternTo (s : State) (t : Word) (e : Nat) : State :=
  if s.fld (RING_EVT_CFG e) RING_EVT_CFG_ENABLE = 1 && s.fld (RING_EVT_CFG e) RING_EVT_CFG_LANTERN = 1 then
    { s with lanterns := s.lanterns + 1 }.writeRecord e (.lantern t (s.lanterns + 1))
  else s

/-- LANTERN: a period has passed. -/
def execLantern (s : State) : Result :=
  .next (if s.fld RING_LANTERN RING_LANTERN_PERIOD_US = 0 || s.failsafe then s
    else (List.range 65).foldl (fun r e => r.lanternTo s.devTime e) s)

/-- LANTERN_PERIOD_WRITE: a write of PERIOD_US; 0 stops Lantern records. -/
def execLanternPeriodWrite (src : Source) (us : BitVec 32) (s : State) : Result :=
  .next (if s.mayUse src then s.writeWord .RING_LANTERN [] RING_LANTERN (us.setWidth 64) (-1) else s)

end Sys2Proof.Machine
end

