-- ==== Sys2Proof/Machine/Descs.lean ====
section
/-! DEFINITION. The descriptor types of CORE, DMA and MSG rings and those of every ring, and the replies to their requests (R205 to
R213, R286, R302). -/
namespace Sys2Proof.Machine

open Reg

/-! ### Where a range lies -/

/-- A range that a descriptor names, resolved. -/
inductive Loc where
  | here (o : Nat)
  | there (c : Coord) (o : Nat)
  | bad (st : Status)
  deriving DecidableEq, Repr

/-- Resolve a range of memory; `reach`: only the own block (R22, R24, R25). -/
def State.locate (s : State) (reach : Bool) (a n : Nat) : Loc :=
  if 2 ^ 64 ≤ a + n then .bad .format
  else match s.decode (BitVec.ofNat 64 a) with
    | .format => .bad .format
    | .bound => .bad .bound
    | .setupThere _ _ => .bad .perm
    | .here o => if placeOfRange o n = .hole && n ≠ 0 then .bad .bound else .here o
    | .there c o => if (reach && !s.inReach c) || (placeOfRange o n = .hole && n ≠ 0) then .bad .bound else .there c o

/-- A remote range is refused here when it lies in a setup window or a doorbell page, which no such access may use (R27, R199). -/
def remoteBad (o n : Nat) : Option Status :=
  match placeOfRange o n with
  | .setup _ => some .perm
  | .door _ _ => some .format
  | _ => none

/-! ### Progress of a descriptor -/

/-- A piece at stream position `pos` failed; the lowest position's status is the descriptor's (R213). -/
def Desc.noteFail (d : Desc) (pos : Nat) (st : Status) : Desc :=
  match d.failPos with
  | none => { d with failPos := some pos, status := st }
  | some p => if pos < p then { d with failPos := some pos, status := st } else d

def State.failPiece (s : State) (n : RingId) (i : Index) (pos : Nat) (st : Status) : State :=
  s.mapDesc n i fun d => d.noteFail pos st

/-- End a transfer of `total` bytes whose pieces are all answered (R213). -/
def State.endTransfer (s : State) (n : RingId) (i : Index) (total : Nat) : State :=
  match s.desc n i with
  | none => s
  | some d =>
    match d.failPos with
    | none => s.endDesc n i .ok (BitVec.ofNat 64 total) 0
    | some p => s.endDesc n i d.status (BitVec.ofNat 64 p) 0

/-- First byte of a local write, counted from its start, that does not hold its new value (R175, R213). -/
def State.goodBytes (s : State) (o : Nat) (bs : List Byte) : Nat :=
  let bad := s.scanRange o bs.length
  match (unitsOf o bs.length).find? (fun u => (bad.2.writeUnit bad.1 o bs u).1.isSome) with
  | some u => max o u - o
  | none => 0

/-- Write one piece of a descriptor's data at a local offset. -/
def State.putPiece (s : State) (n : RingId) (i : Index) (pos o : Nat) (bs : List Byte) : State :=
  let a := s.ringAuth n
  match s.protect (s.me a) .wr false o bs.length with
  | (.error st, s) => s.failPiece n i pos st
  | (.ok (.setup _), s) => s.failPiece n i pos .format
  | (.ok (.door _ _), s) => s.failPiece n i pos .format
  | (.ok _, s) =>
    match s.store a o bs true with
    | (.ok _, s) => s
    | (.err .throttled, s) => s.failPiece n i pos .throttled
    | (.err st, s') => s'.failPiece n i (pos + s.goodBytes o bs) st
    | (.wait, s) => s

/-- Requests of a descriptor are out: their count. -/
def State.awaiting (s : State) (n : RingId) (i : Index) (k : Nat) : State :=
  s.mapDesc n i fun d => { d with left := d.left + k, phase := .working }

/-! ### NOP and WAIT (R205) -/

/-- The descriptor `i` of ring `n` of type `typ` in a phase, when it may run. -/
def State.work (s : State) (n : RingId) (i : Index) (typ : Byte) (ph : DPhase) : Option Desc :=
  match s.desc n i with
  | some d => if d.typ = typ && d.phase = ph && s.mayRun d then some d else none
  | none => none

/-- NOP_DESC. -/
def execNopDesc (n : RingId) (i : Index) (s : State) : Result :=
  .next (match s.work n i 0x01 .started with
    | none => s
    | some d => s.endDesc n i (if (d.words.drop 3).all (· = 0) then .ok else .format) 0 0)

/-- The condition of a WAIT holds for a word. -/
def Desc.waitHolds (d : Desc) (w : Word) : Bool :=
  let x := w &&& d.word 5
  match bits (d.word 6) 33 32 with
  | 0 => x = d.word 4
  | 1 => x ≠ d.word 4
  | 2 => d.word 4 ≤ x
  | _ => x < d.word 4

/-- A word that WAIT has read: the last one read is its RESULT0. -/
def State.waitWord (s : State) (n : RingId) (i : Index) (w : Word) : State :=
  match s.desc n i with
  | none => s
  | some d => if d.waitHolds w then s.endDesc n i .ok w 0 else s.mapDesc n i fun d => { d with r0 := w }

/-- A read of WAIT failed: it completes with that status. -/
def State.waitFail (s : State) (n : RingId) (i : Index) (st : Status) : State :=
  match s.desc n i with
  | none => s
  | some d => s.endDesc n i st d.r0 0

/-- One read of a WAIT's word. A SYSTEM ring's WAIT may read a setup register (R441). -/
def State.waitRead (s : State) (n : RingId) (i : Index) (d : Desc) : State :=
  match s.locate true (d.word 3).toNat 8 with
  | .bad st => s.waitFail n i st
  | .here o =>
    match placeOfRange o 8 with
    | .setup so =>
      if s.ringAuth n = .ranger then let r := s.setupRead 8 so; r.2.waitWord n i r.1 else s.waitFail n i .perm
    | _ =>
      match s.peek (s.me (s.ringAuth n)) o 8 with
      | (.ok bs, s) => s.waitWord n i (BitVec.ofNat 64 (leNat bs))
      | (.err st, s) => s.waitFail n i st
      | (.wait, s) => s
  | .there c o =>
    match remoteBad o 8 with
    | some st => s.waitFail n i st
    | none => (s.requestLoads c (s.ringAgent n) (s.ringCtx n) o 8 (fun p => .desc n i p)).awaiting n i 1

/-- WAIT: its checks, and its first read. -/
def execWait (n : RingId) (i : Index) (s : State) : Result :=
  .next (match s.work n i 0x02 .started with
    | none => s
    | some d =>
      if (d.word 3).toNat % 8 ≠ 0 || bits (d.word 6) 63 34 ≠ 0 || bits (d.word 6) 31 0 = 0 || d.word 7 ≠ 0 then s.endDesc n i .format 0 0
      else (s.mapDesc n i fun d => { d with phase := .working }).waitRead n i d)

/-- WAIT_POLL: the word is read again. -/
def execWaitPoll (n : RingId) (i : Index) (s : State) : Result :=
  .next (match s.work n i 0x02 .working with
    | none => s
    | some d => if d.left = 0 then s.waitRead n i d else s)

/-- WAIT_TIMEOUT: TIMEOUT_US has run out. -/
def execWaitTimeout (n : RingId) (i : Index) (s : State) : Result :=
  .next (match s.work n i 0x02 .working with
    | none => s
    | some d => s.endDesc n i .timeout d.r0 0)

/-! ### LAUNCH and the loads of a core (R206 to R209) -/

/-- LAUNCH: its checks; then it waits for its core, in the order launches started. -/
def execLaunch (n : RingId) (i : Index) (s : State) : Result :=
  .next (match s.work n i 0x10 .started with
    | none => s
    | some d =>
      let w := d.word 3
      if bits w 63 26 ≠ 0 || bits w 7 7 ≠ 0 || bits w 10 8 ≠ 0 then s.endDesc n i .format 0 0
      else
        let c := s.core (coreOf w)
        if c.run = .trapHalted || c.run = .fenced || c.run = .retired then s.endDesc n i .fenced 0 0
        else
          let s := s.stragStart (s.ringCtx n) d.step
          { s with launchQ := s.launchQ ++ [Launch.mk n i (s.ringCtx n)] }.mapDesc n i fun d => { d with phase := .working })

/-- Read a load's source of `len` bytes into the descriptor's buffer, from here or from another device (R263, R302). -/
def State.readSource (s : State) (n : RingId) (i : Index) (a len : Nat) : State :=
  let au := s.ringAuth n
  let here := fun (s : State) o =>
    match s.readFor (s.me au) o len true with
    | (.ok bs, s) => s.mapDesc n i fun d => { d with phase := .working, buf := bs.zipIdx.map (fun x => (x.2, x.1)) }
    | (.err st, s) => s.endDesc n i st 0 0
    | (.wait, s) => s
  if len = 0 then s.mapDesc n i fun d => { d with phase := .working }
  else match s.locate true a len with
    | .bad st => s.endDesc n i st 0 0
    | .here o => here s o
    | .there c o =>
      match remoteBad o len with
      | some st => s.endDesc n i st 0 0
      | none =>
        let c' := s.redirect au c o len
        if c' = s.self then here s o
        else (s.requestLoads c' (s.ringAgent n) (s.ringCtx n) o len (fun p => .desc n i p)).awaiting n i (cutCount 4096 o len)

/-- The bytes a load has read. -/
def Desc.bytes (d : Desc) (o n : Nat) : List Byte := (List.range n).map (fun j => Maps.get 0 d.buf (o + j))

/-- The core may not be written by a PROGRAM_LOAD (R207). -/
def Core.loadFenced (c : Core) : Bool := c.run ≠ .idle && c.run ≠ .halted

/-- All bytes of a PROGRAM_LOAD are here: instruction memory is written (R64, R207). -/
def State.programWrite (s : State) (n : RingId) (i : Index) (d : Desc) : State :=
  let k := coreOf (d.word 3)
  let dest := bits (d.word 3) 25 11
  let len := bits (d.word 5) 31 0
  if (s.core k).loadFenced then s.endDesc n i .fenced 0 0
  else
    (s.mapCore k fun c =>
      { c with imem := (List.range (len / 8)).foldl (fun m j =>
          Maps.put 0 m (dest + j) (BitVec.ofNat 64 (leNat (d.bytes (8 * j) 8)))) c.imem }).endDesc n i .ok 0 0

/-- This load is the oldest of its type on its core (R149). -/
def State.firstLoad (s : State) (d : Desc) : Bool :=
  match s.descs.find? (fun (e : Desc) =>
      e.typ = d.typ && (e.phase = .started || e.phase = .working) && coreOf (e.word 3) = coreOf (d.word 3)) with
  | some e => e.ring = d.ring && e.idx = d.idx
  | none => false

/-- The bytes of a STEP_LOAD are here and nothing is bound to the shadow bank: it is written, and its validation begins (R149, R208). -/
def State.stepWrite (s : State) (n : RingId) (i : Index) (d : Desc) : State :=
  let k := coreOf (d.word 3)
  let c := s.core k
  if d.left ≠ 0 || d.aux ≠ 0 || c.oldBound ≠ 0 || c.stbLoading || !s.firstLoad d then s
  else
    (s.mapCore k fun c =>
      { c with stbLoading := true }.setShadowStb ⟨stbEntries (d.bytes 0 (bits (d.word 5) 31 0)), false, []⟩).mapDesc n i
        fun d => { d with aux := 1 }

/-- The next slot of an SFN_LOAD is written and its check begins (R157, R169, R209). `aux` is the slot. -/
def State.slotWrite (s : State) (d : Desc) : State :=
  let k := coreOf (d.word 3)
  let mask := bits (d.word 3) 31 16
  let slot := d.aux.toNat
  let c := s.core k
  let before := ((List.range slot).filter (fun j => mask / 2 ^ j % 2 = 1)).length
  if d.left ≠ 0 || 16 ≤ slot || c.slotBound slot || (c.slot slot).loading || !s.firstLoad d then s
  else
    s.mapCore k fun c =>
      c.mapSlot slot fun sl => { sl with loading := true }.setShadow ⟨slotWordsOf (d.bytes (3136 * before) 3136), false, 127⟩

/-- PROGRAM_LOAD (R207). -/
def execProgramLoad (n : RingId) (i : Index) (s : State) : Result :=
  .next (match s.work n i 0x11 .started with
    | none => s
    | some d =>
      let w := d.word 3
      let len := bits (d.word 5) 31 0
      if bits w 63 26 ≠ 0 || bits w 7 7 ≠ 0 || bits (d.word 5) 63 32 ≠ 0 || d.word 6 ≠ 0 || d.word 7 ≠ 0
          || bits w 10 8 ≠ 0 || len % 8 ≠ 0 then s.endDesc n i .format 0 0
      else if 0x40000 < bits w 25 8 + len then s.endDesc n i .bound 0 0
      else if (s.core (coreOf w)).loadFenced then s.endDesc n i .fenced 0 0
      else
        let s := s.readSource n i (d.word 4).toNat len
        match s.work n i 0x11 .working with
        | some d => if d.left = 0 then s.programWrite n i d else s
        | none => s)

/-- STEP_LOAD (R208): the first time it reads its source; once that is here, it writes the shadow bank as soon as nothing is bound to
it. -/
def execStepLoad (n : RingId) (i : Index) (s : State) : Result :=
  let write := fun (s : State) =>
    match s.work n i 0x12 .working with
    | some d => s.stepWrite n i d
    | none => s
  .next (match s.work n i 0x12 .started with
    | none => write s
    | some d =>
      let w := d.word 3
      let len := bits (d.word 5) 31 0
      let c := s.core (coreOf w)
      if bits w 63 9 ≠ 0 || bits w 7 7 ≠ 0 || bits (d.word 5) 63 32 ≠ 0 || d.word 6 ≠ 0 || d.word 7 ≠ 0 || len % 16 ≠ 0 then
        s.endDesc n i .format 0 0
      else if 65536 < len then s.endDesc n i .bound 0 0
      else if c.run = .retired || c.run = .fenced then s.endDesc n i .fenced 0 0
      else write (s.readSource n i (d.word 4).toNat len))

/-- SFN_LOAD (R209): the first time it reads its tables; then it writes slot after slot, each once nothing is bound to its shadow
bank and the slot before it is checked. -/
def execSfnLoad (n : RingId) (i : Index) (s : State) : Result :=
  let write := fun (s : State) =>
    match s.work n i 0x13 .working with
    | some d => s.slotWrite d
    | none => s
  .next (match s.work n i 0x13 .started with
    | none => write s
    | some d =>
      let w := d.word 3
      let mask := bits w 31 16
      let count := ((List.range 16).filter (fun j => mask / 2 ^ j % 2 = 1)).length
      if bits w 63 32 ≠ 0 || bits w 15 9 ≠ 0 || bits w 7 7 ≠ 0 || d.word 5 ≠ 0 || d.word 6 ≠ 0 || d.word 7 ≠ 0 then
        s.endDesc n i .format 0 0
      else if mask = 0 then s.endDesc n i .ok 0 0
      else if (s.core (coreOf w)).run = .fenced then s.endDesc n i .fenced 0 0
      else
        let s := s.mapDesc n i fun d => { d with aux := BitVec.ofNat 64 (nextSlot mask 0) }
        write (s.readSource n i (d.word 4).toNat (3136 * count)))

/-! ### COPY and FILL (R210, R211, R213) -/

/-- A piece of a transfer: stream position, source address, destination address, length. -/
structure Piece where
  pos : Nat
  src : Nat
  dst : Nat
  len : Nat
  deriving DecidableEq, Repr

/-- Rows of a COPY. -/
def Desc.copyRows (d : Desc) : List Piece :=
  let rb := bits (d.word 5) 31 0
  (List.range (bits (d.word 5) 63 32)).map fun r =>
    ⟨r * rb, (d.word 3).toNat + r * bits (d.word 6) 31 0, (d.word 4).toNat + r * bits (d.word 6) 63 32, rb⟩

/-- Cut a piece where `side` crosses a multiple of `u`. -/
def Piece.cut (u : Nat) (side : Nat) (p : Piece) : List Piece :=
  (cuts u side p.len).map fun c => ⟨p.pos + c.2.2, p.src + c.2.2, p.dst + c.2.2, c.2.1⟩

/-- Copy one piece within the device. -/
def State.copyPiece (s : State) (n : RingId) (i : Index) (p : Piece) : State :=
  match s.locate true p.src p.len, s.locate true p.dst p.len with
  | .there _ so, .here t =>
    match s.readFor (s.me (s.ringAuth n)) so p.len true with
    | (.ok bs, s) => s.putPiece n i p.pos t bs
    | (.err st, s) => s.failPiece n i p.pos st
    | (.wait, s) => s
  | .here so, .here t =>
    match s.readFor (s.me (s.ringAuth n)) so p.len true with
    | (.ok bs, s) => s.putPiece n i p.pos t bs
    | (.err st, s) => s.failPiece n i p.pos st
    | (.wait, s) => s
  | _, _ => s

/-- Whether a descriptor has failed somewhere. -/
def State.hasFailed (s : State) (n : RingId) (i : Index) : Bool := ((s.desc n i).bind (·.failPos)).isSome

/-- Copy pieces in order. Behind the first failure each later 32-byte unit is copied or not: a free choice (R213). -/
def State.copyPieces (s : State) (n : RingId) (i : Index) : List Piece → State
  | [] => s
  | p :: ps =>
    if s.hasFailed n i then
      let s := (p.cut 32 p.dst).foldl (fun (s : State) q =>
        let r := s.free
        if r.1.getLsbD 0 then r.2.copyPiece n i q else r.2) s
      s.copyPieces n i ps
    else (s.copyPiece n i p).copyPieces n i ps

/-- Read bytes that lie here, by their global address: the own device's, or a replica's at the offset that the address names (R302). -/
def State.readLocal (s : State) (a : Auth) (x len : Nat) : MemOut × State :=
  match s.locate true x len with
  | .here o => s.readFor (s.me a) o len true
  | .there _ o => s.readFor (s.me a) o len true
  | .bad st => (.err st, s)

/-- Read the parts of one destination granule, one row part after the other; none when one fails. -/
def State.gatherParts (s : State) (n : RingId) : List Piece → Option (List Byte) × State
  | [] => (some [], s)
  | p :: ps =>
    match s.readLocal (s.ringAuth n) p.src p.len with
    | (.ok bs, s) =>
      let (r, s) := s.gatherParts n ps
      (r.map (fun l => bs ++ l), s)
    | (_, s) => (none, s)

/-- The parts of the rows that lie in the stream range of a piece. -/
def partsOf (rows : List Piece) (g : Piece) : List Piece :=
  rows.filterMap fun r =>
    let lo := max r.pos g.pos
    let hi := min (r.pos + r.len) (g.pos + g.len)
    if lo < hi then some ⟨lo, r.src + (lo - r.pos), r.dst + (lo - r.pos), hi - lo⟩ else none

/-- A whole COPY whose destination rows follow each other without a gap is one access (R188): each destination granule is written at
once, when all of it could be read. -/
def State.copyWhole (s : State) (n : RingId) (i : Index) (rows : List Piece) : List Piece → State
  | [] => s
  | g :: gs =>
    let parts := partsOf rows g
    let s :=
      if s.hasFailed n i then s.copyPieces n i parts
      else match s.gatherParts n parts, s.locate true g.dst g.len with
        | (some bs, s'), .here t => s'.putPiece n i g.pos t bs
        | (_, _), _ => s.copyPieces n i parts
    s.copyWhole n i rows gs

/-- The destination accesses of a COPY, by granule: those of each row, or of the whole where its rows follow each other without a gap
(R188). -/
def Desc.copyCuts (d : Desc) : List Piece :=
  let rb := bits (d.word 5) 31 0
  if bits (d.word 6) 63 32 = rb then (Piece.mk 0 (d.word 3).toNat (d.word 4).toNat (rb * bits (d.word 5) 63 32)).cut 4096 (d.word 4).toNat
  else d.copyRows.flatMap (fun (p : Piece) => p.cut 4096 p.dst)

/-- Copy rows within the device. -/
def State.copyRows (s : State) (n : RingId) (i : Index) (d : Desc) : State :=
  if bits (d.word 6) 63 32 = bits (d.word 5) 31 0 then s.copyWhole n i d.copyRows d.copyCuts else s.copyPieces n i d.copyCuts

/-- All source bytes of a stream range are here. -/
def Desc.arrived (d : Desc) (lo hi : Nat) : Bool := (d.buf.filter (fun e => lo ≤ e.1 && e.1 < hi)).length = hi - lo

/-- Write `len` buffered bytes from stream position `g.pos` on. -/
def State.putBuffered (s : State) (n : RingId) (i : Index) (d : Desc) (g : Piece) (len : Nat) : State :=
  match s.locate true g.dst len with
  | .here o => s.putPiece n i g.pos o (d.bytes g.pos len)
  | _ => s

/-- Source bytes of a COPY are here: each destination granule that they complete is written, as one access (R188). -/
def State.copyArrive (s : State) (n : RingId) (i : Index) (pos : Nat) (bs : List Byte) : State :=
  let s := s.mapDesc n i fun d => { d with buf := bs.zipIdx.foldl (fun m x => Maps.set m (pos + x.2) x.1) d.buf }
  match s.desc n i with
  | none => s
  | some d =>
    (d.copyCuts.filter fun g => g.pos < pos + bs.length && pos < g.pos + g.len && d.arrived g.pos (g.pos + g.len)).foldl
      (fun (s : State) g => s.putBuffered n i d g g.len) s

/-- All reads of a COPY are answered and one failed: the bytes before it in its granule, which have arrived, are written (R213). -/
def State.copyFlush (s : State) (n : RingId) (i : Index) : State :=
  match s.desc n i with
  | none => s
  | some d =>
    match d.left, d.failPos with
    | 0, some p =>
      match d.copyCuts.find? (fun g => g.pos < p && p < g.pos + g.len) with
      | some g => if d.arrived g.pos p && !d.arrived g.pos (g.pos + g.len) then s.putBuffered n i d g (p - g.pos) else s
      | none => s
    | _, _ => s

/-- Send pieces of local bytes to another device as STORE requests, in order; a piece that cannot be read is not sent. -/
def State.sendPieces (s : State) (n : RingId) (i : Index) (c : Coord) (read : State → Piece → MemOut × State) : List Piece → State
  | [] => s
  | p :: ps =>
    match read s p with
    | (.ok bs, s') =>
      ((s'.requestStores c (s.ringAgent n) (s.ringCtx n) (p.dst % 2 ^ 48) bs (fun q => .desc n i (p.pos + q))).awaiting n i
        (cutCount 4096 (p.dst % 2 ^ 48) p.len)).sendPieces n i c read ps
    | (.err st, s') => (s'.failPiece n i p.pos st).sendPieces n i c read ps
    | (.wait, s') => s'.sendPieces n i c read ps

/-- Fetch the source of one packet of a COPY: each read is redirected on its own, and one that comes to this device reads here (R302). -/
def State.fetchPiece (s : State) (n : RingId) (i : Index) (c : Coord) (p : Piece) : State :=
  let au := s.ringAuth n
  let o := p.src % 2 ^ 48
  let c' := s.redirect au c o p.len
  if c' = s.self then
    match s.readFor (s.me au) o p.len true with
    | (.ok bs, s) => s.copyArrive n i p.pos bs
    | (.err st, s) => s.failPiece n i p.pos st
    | (.wait, s) => s
  else (s.requestLoads c' (s.ringAgent n) (s.ringCtx n) o p.len (fun q => .desc n i (p.pos + q))).awaiting n i (cutCount 4096 o p.len)

/-- Fetch pieces in order. -/
def State.fetchPieces (s : State) (n : RingId) (i : Index) (c : Coord) : List Piece → State
  | [] => s
  | p :: ps => (s.fetchPiece n i c p).fetchPieces n i c ps

/-- A transfer with nothing out ends. -/
def State.endIfDone (s : State) (n : RingId) (i : Index) (total : Nat) : State :=
  match s.desc n i with
  | some d => if d.left = 0 then s.endTransfer n i total else s
  | none => s

/-- The first bad status of some ranges: `FORMAT` before the others. -/
def firstBad (ls : List Loc) : Option Status :=
  let sts := ls.filterMap fun l =>
    match l with
    | .bad st => some st
    | .there _ o => remoteBad o 1
    | _ => none
  if sts.contains .format then some .format else sts.head?

def Loc.isHere : Loc → Bool
  | .here _ => true
  | _ => false

/-- COPY (R210). -/
def execCopy (n : RingId) (i : Index) (s : State) : Result :=
  .next (match s.work n i 0x20 .started with
    | none => s
    | some d =>
      let rows := bits (d.word 5) 63 32
      let rb := bits (d.word 5) 31 0
      let ps := d.copyRows
      let total := rows * rb
      if d.word 7 ≠ 0 || 2 ^ 32 ≤ total then s.endDesc n i .format 0 0
      else if total = 0 then s.endDesc n i .ok 0 0
      else
        let srcs := ps.map (fun p => s.locate true p.src p.len)
        let dsts := ps.map (fun p => s.locate true p.dst p.len)
        let clash := ps.any fun p => ps.any fun q => s.rowsClash (p.src, p.len) (q.dst, q.len)
        match firstBad (srcs ++ dsts) with
        | some st => s.endDesc n i st 0 0
        | none =>
          if !(srcs.all Loc.isHere || dsts.all Loc.isHere) || clash then s.endDesc n i .format 0 0
          else
            let s := s.mapDesc n i fun d => { d with phase := .working }
            let au := s.ringAuth n
            let s := match srcs.headD (.bad .format), dsts.headD (.bad .format) with
              | .here _, .here _ => s.copyRows n i d
              | .there c _, .here _ =>
                let qs := ps.flatMap (fun (p : Piece) => p.cut 4096 p.src)
                if qs.all (fun q => s.redirect au c (q.src % 2 ^ 48) q.len = s.self) then s.copyRows n i d
                else (s.fetchPieces n i c qs).copyFlush n i
              | .here _, .there c _ =>
                s.sendPieces n i c (fun s p => s.readLocal au p.src p.len) (ps.flatMap (fun (p : Piece) => p.cut 4096 p.dst))
              | _, _ => s
            s.endIfDone n i total)

/-- `len` bytes of an 8-byte pattern. -/
def patternBytes (w : Word) (len : Nat) : List Byte := (List.range (len / 8)).flatMap (fun _ => leBytes 8 w.toNat)

/-- Fill pieces in order; behind the first failure each later 32-byte unit is written or not (R213). -/
def State.fillPieces (s : State) (n : RingId) (i : Index) (w : Word) : List Piece → State
  | [] => s
  | p :: ps =>
    let fill := fun (s : State) (q : Piece) =>
      match s.locate true q.dst q.len with
      | .here o => s.putPiece n i q.pos o (patternBytes w q.len)
      | _ => s
    if s.hasFailed n i then
      let s := (p.cut 32 p.dst).foldl (fun (s : State) q =>
        let r := s.free
        if r.1.getLsbD 0 then fill r.2 q else r.2) s
      s.fillPieces n i w ps
    else (fill s p).fillPieces n i w ps

/-- FILL (R211). -/
def execFill (n : RingId) (i : Index) (s : State) : Result :=
  .next (match s.work n i 0x21 .started with
    | none => s
    | some d =>
      let len := bits (d.word 5) 31 0
      let dst := (d.word 3).toNat
      if bits (d.word 5) 63 32 ≠ 0 || d.word 6 ≠ 0 || d.word 7 ≠ 0 || dst % 8 ≠ 0 || len % 8 ≠ 0 then s.endDesc n i .format 0 0
      else if len = 0 then s.endDesc n i .ok 0 0
      else match firstBad [s.locate true dst len] with
        | some st => s.endDesc n i st 0 0
        | none =>
          let s := s.mapDesc n i fun d => { d with phase := .working }
          let p : Piece := ⟨0, 0, dst, len⟩
          let s := match s.locate true dst len with
            | .here _ => s.fillPieces n i (d.word 4) (p.cut 4096 dst)
            | .there c _ => s.sendPieces n i c (fun s q => (.ok (patternBytes (d.word 4) q.len), s)) (p.cut 4096 dst)
            | .bad _ => s
          s.endIfDone n i len)

/-! ### PUT and GET (R212) -/

/-- A message range of any device: LPDDR6 or cluster SRAM (R212). -/
def State.msgLoc (s : State) (a n : Nat) : Loc :=
  let ok := fun (c : Coord) o =>
    match placeOf o, placeOf (o + n - 1) with
    | .lpddr, .lpddr => Loc.there c o
    | .sram a, .sram b => if a = b then Loc.there c o else .bad .bound
    | .hole, _ => .bad .bound
    | _, .hole => .bad .bound
    | _, _ => .bad .format
  if 2 ^ 64 ≤ a + n then .bad .format
  else match s.decode (BitVec.ofNat 64 a) with
    | .here o => if n = 0 then .there s.self o else ok s.self o
    | .there c o => if n = 0 then .there c o else ok c o
    | .bound => .bad .bound
    | _ => .bad .format

/-- The device that an address names, own or other. -/
def State.deviceOf (s : State) (a : Nat) : Option Coord := (s.whereIs a).map (·.1)

/-- The notify store of a PUT, as a NOTIFY (R212, R263). -/
def State.sendNotify (s : State) (n : RingId) (i : Index) (d : Desc) : State :=
  match s.whereIs (d.word 6).toNat with
  | some (c, o) =>
    (s.request { newReq 3 0x2A c (s.ringAgent n) (s.ringCtx n) o (.desc n i (bits (d.word 5) 31 0)) with
      payload := leBytes 8 (d.word 7).toNat }).mapDesc n i fun d => { d with phase := .working, left := d.left + 1, aux := 2 }
  | none => s

/-- Every byte of a PUT is answered: the notify store follows when there is one and nothing failed (R212). -/
def State.putBytesDone (s : State) (n : RingId) (i : Index) : State :=
  match s.desc n i with
  | none => s
  | some d =>
    if d.left ≠ 0 then s
    else if d.aux = 2 || d.word 6 = 0 || d.failPos.isSome then s.endTransfer n i (bits (d.word 5) 31 0)
    else s.sendNotify n i d

/-- Send the pieces of a PUT, compressed where R266 lets the fabric unit do so. -/
def State.putPieces (s : State) (n : RingId) (i : Index) (c : Coord) (src : Nat) : List (Nat × Nat × Nat) → State
  | [] => s
  | p :: ps =>
    match s.readFor (s.me (s.ringAuth n)) (src + p.2.2) p.2.1 true with
    | (.ok bs, s') =>
      let whole := s.fld ROUTE_CFG ROUTE_CFG_FCOMP = 1 && fabricWhole p.1 p.2.1
      let e := fabricEncode bs
      let small := whole && e.1.length < bs.length
      let r := newReq 3 0x28 c (s.ringAgent n) (s.ringCtx n) p.1 (.desc n i p.2.2)
      ((s'.request (if small then { r with payload := e.1, gmask := e.2, cmp := true, rlen := bs.length } else { r with payload := bs })).awaiting
        n i 1).putPieces n i c src ps
    | (.err st, s') => (s'.failPiece n i p.2.2 st).putPieces n i c src ps
    | (.wait, s') => s'.putPieces n i c src ps

/-- A PUT on its home device into a replica set of its context is a republish (R303): the set. -/
def State.republishSet (s : State) (n : RingId) (d : Desc) : Option Nat :=
  match s.ringAuth n, s.whereIs (d.word 4).toNat with
  | .ctx x, some (c, o) =>
    let len := bits (d.word 5) 31 0
    if len = 0 then none
    else match s.setOf x c o len with
      | some r => if s.member r 0 = s.self then some r else none
      | none => none
  | _, _ => none

/-- The format and mapping of a PUT. -/
def State.putBad (s : State) (d : Desc) : Option Status :=
  let len := bits (d.word 5) 31 0
  let note := (d.word 6).toNat
  let badNote := note ≠ 0 && (note % 8 ≠ 0 || s.deviceOf note = none || s.deviceOf note ≠ s.deviceOf (d.word 4).toNat)
  if bits (d.word 5) 63 32 ≠ 0 || badNote then some .format
  else
    let src : Option Status := match s.locate false (d.word 3).toNat len with
      | .here _ => none
      | .there _ _ => some .format
      | .bad st => some st
    let dst : Option Status := match s.msgLoc (d.word 4).toNat len with
      | .bad st => some st
      | _ => none
    if src = some .format || dst = some .format then some .format else src <|> dst

/-- PUT (R212). A republish waits for REPUBLISH_START. -/
def execPut (n : RingId) (i : Index) (s : State) : Result :=
  .next (match s.work n i 0x30 .started with
    | none => s
    | some d =>
      let len := bits (d.word 5) 31 0
      match s.putBad d with
      | some st => s.endDesc n i st 0 0
      | none =>
        if len = 0 && d.word 6 = 0 then s.endDesc n i .ok 0 0
        else if (s.republishSet n d).isSome then s
        else
          let s := s.mapDesc n i fun d => { d with phase := .working }
          match s.msgLoc (d.word 4).toNat len, s.locate false (d.word 3).toNat len with
          | .there c o, .here src => (s.putPieces n i c src (cuts 8192 o len)).putBytesDone n i
          | _, _ => s)

/-- GET (R212, R302). -/
def execGet (n : RingId) (i : Index) (s : State) : Result :=
  .next (match s.work n i 0x31 .started with
    | none => s
    | some d =>
      let len := bits (d.word 5) 31 0
      let dst : Option Status := match s.locate false (d.word 4).toNat len with
        | .here _ => none
        | .there _ _ => some .format
        | .bad st => some st
      let src : Option Status := match s.msgLoc (d.word 3).toNat len with
        | .bad st => some st
        | _ => none
      if bits (d.word 5) 63 32 ≠ 0 || d.word 6 ≠ 0 || d.word 7 ≠ 0 || src = some .format || dst = some .format then
        s.endDesc n i .format 0 0
      else match src <|> dst with
        | some st => s.endDesc n i st 0 0
        | none =>
          if len = 0 then s.endDesc n i .ok 0 0
          else match s.msgLoc (d.word 3).toNat len with
            | .there c o =>
              (cuts 8192 o len).foldl (fun (s : State) p =>
                (s.request { newReq 3 0x29 (s.redirect (s.ringAuth n) c p.1 p.2.1) (s.ringAgent n) (s.ringCtx n) p.1 (.desc n i p.2.2) with rlen := p.2.1 }).awaiting n i 1)
                (s.mapDesc n i fun d => { d with phase := .working })
            | _ => s)

/-! ### Replies to the requests of a descriptor -/

/-- One request of a descriptor is answered. -/
def State.oneLess (s : State) (n : RingId) (i : Index) : State := s.mapDesc n i fun d => { d with left := d.left - 1 }

/-- A transfer's request was answered: end it when it was the last. -/
def State.transferStep (s : State) (n : RingId) (i : Index) (d : Desc) : State :=
  if d.typ = 0x30 then s.putBytesDone n i else (if d.typ = 0x20 then s.copyFlush n i else s).endIfDone n i d.total

/-- Data for a descriptor: WAIT's word, a load's bytes, a COPY's or GET's bytes written where they go. -/
def State.descData (s : State) (n : RingId) (i : Index) (pos : Nat) (bs : List Byte) : State :=
  match s.desc n i with
  | none => s
  | some d =>
    if d.phase ≠ .working then s
    else
      let s := s.oneLess n i
      if d.typ = 0x02 then s.waitWord n i (BitVec.ofNat 64 (leNat bs))
      else if d.typ = 0x11 || d.typ = 0x12 || d.typ = 0x13 then
        let s := s.mapDesc n i fun d => { d with buf := bs.zipIdx.foldl (fun m x => Maps.set m (pos + x.2) x.1) d.buf }
        if d.typ = 0x11 && d.left = 1 then
          match s.desc n i with
          | some d => s.programWrite n i d
          | none => s
        else s
      else if d.typ = 0x20 then (s.copyArrive n i pos bs).transferStep n i d
      else
        let s := match s.locate false (d.dstAt pos) bs.length with
          | .here o => s.putPiece n i pos o bs
          | _ => s
        s.transferStep n i d

/-- Bytes of a refused write packet that its destination wrote before the first unit that failed: not told in the reply, so an open
value, a whole number of units of the packet (R175, R213). -/
def State.openGood (s : State) (o len : Nat) (st : Status) : Nat × State :=
  if st = .poison || st = .memUncorrectable then
    let (v, s) := s.free
    let us := unitsOf o len
    (max o (us.getD (v.toNat % max 1 us.length) o) - o, s)
  else (0, s)

/-- A request of a descriptor failed. `o` and `len` are the range it writes, 0 bytes for a read. -/
def State.descFail (s : State) (n : RingId) (i : Index) (pos o len : Nat) (st : Status) : State :=
  match s.desc n i with
  | none => s
  | some d =>
    if d.phase ≠ .working then s
    else
      let s := s.oneLess n i
      if d.typ = 0x02 then s.waitFail n i st
      else if d.typ = 0x03 || d.typ = 0x11 || d.typ = 0x12 || d.typ = 0x13 then s.endDesc n i st 0 0
      else
        let (g, s) := s.openGood o len st
        (s.failPiece n i (pos + g) st).transferStep n i d

/-- A write of a descriptor is acknowledged. -/
def State.descAck (s : State) (n : RingId) (i : Index) : State :=
  match s.desc n i with
  | none => s
  | some d =>
    if d.phase ≠ .working then s
    else
      let s := s.oneLess n i
      if d.typ = 0x03 then s.endDesc n i .ok 0 0 else s.transferStep n i d

end Sys2Proof.Machine
end

