-- ==== Sys2Proof/Machine/Errors.lean ====
section
/-! DEFINITION. Device faults, fail-safe, the fence and reset of domains, job aborts, hangs and suspect replay (R234, R380 to R389). -/
namespace Sys2Proof.Machine

open Reg

/-! ### Device faults (R234, R380) -/

/-- Contexts that own an enabled ring. -/
def State.activeCtxs (s : State) : List Ctx :=
  (List.finRange 64).filter fun (x : Ctx) => (List.finRange 1024).any fun (n : RingId) =>
    s.fld (RING_CFG n) RING_CFG_ENABLE = 1 && s.ringAuth n = Auth.ctx x

/-- Ask for a dump; dumps run one at a time in request order (R391). -/
def State.requestDump (s : State) (r : DumpReq) : State := { s with dumpQ := s.dumpQ ++ [r] }

/-- A fault that names this device: the transmitters send only fenced idle flits, every active context is aborted, and the device
is dumped (R234, R380). -/
def State.deviceFault (s : State) (code : Nat) (detail : BitVec 48) : State :=
  let s := s.post (event code detail none)
  let s := (s.setFld ERR_STATUS ERR_STATUS_FAULTED 1).bump ERR_STATUS ERR_STATUS_DEVICE_FAULTS
  let s := { s with txFenced := true }
  let s := s.activeCtxs.foldl (fun (s : State) x => s.abortOrigin x code 0) s
  s.requestDump ⟨2, 0, code⟩

/-! ### Fail-safe (R381) -/

/-- Cause codes of R381. -/
def causeCode : FsCause → Nat
  | .shutdown => 1
  | .bulkLow => 2
  | .railLow => 3
  | .noPair => 4
  | .watchdog => 5

/-- Enter fail-safe: the cause is kept, every output stops, and nothing more is written. -/
def State.failSafe (s : State) (c : FsCause) : State :=
  if s.failsafe then s
  else { s.setFld ERR_STATUS ERR_STATUS_LAST_FS_CAUSE (causeCode c) with failsafe := true, txFenced := true }

/-- FAILSAFE_ENTER. -/
def execFailsafeEnter (c : FsCause) (s : State) : Result := .next (s.failSafe c)

/-- RANGER_WATCHDOG: no heartbeat for 100 ms (R381, R434). -/
def execRangerWatchdog (s : State) : Result := .next (s.failSafe .watchdog)

/-- LOCKSTEP_PAIR: a pair leaves service and its work moves; the loss of the last one is fail-safe (R380). -/
def execLockstepPair (pair : Fin 4) (s : State) : Result :=
  .next (if bit (s.reg ERR_STATUS) (48 + pair.val) = false then s
    else
      let s := s.setReg ERR_STATUS (setBit (s.reg ERR_STATUS) (48 + pair.val) false)
      let s := s.post (event 0x010C (BitVec.ofNat 48 pair.val) none)
      if s.fld ERR_STATUS ERR_STATUS_PAIRS = 0 then s.failSafe .noPair else s)

/-! ### Device reset (R382, R384, R433, R445) -/

/-- The contacts LASER_EN that a reset drives low (R232). -/
def State.laserPins (s : State) : List Output :=
  ((List.range 8).filter (fun m => s.fld (OPTIC_LSM_STATE m) OPTIC_LSM_STATE_LASER_EN = 1)).map (fun m => .pin "LASER_EN" m 0)

/-- The reset of the whole device: everything is as State.reset says but what outlives it: NOR, Trail log, fuses, Hamper, the shared store,
the pins, and LAST_FS_CAUSE but for a loss of power; RETRY_STEPS and RETRY_NEXT, which speak to the next start (R417). The queue of
commands, the record of outputs and the count of free values are the model's own. -/
def State.deviceReset (s : State) (cause : Nat) : State :=
  let r := { State.reset with
    pending := s.pending, out := s.out ++ s.laserPins, freeCtr := s.freeCtr, nor := s.nor, trail := s.trail, trailNext := s.trailNext
    trailSeq := s.trailSeq, fuses := s.fuses, hamper := s.hamper, snap := { Snap.reset with store := s.snap.store }
    boot := { Boot.reset with source := s.boot.source, loopOpen := s.boot.loopOpen, permit := s.boot.permit }
    resetCause := cause }
  let r := r.setFld MEM_SPARE_CTRL MEM_SPARE_CTRL_RETRY_NEXT (s.fld MEM_SPARE_CTRL MEM_SPARE_CTRL_RETRY_NEXT)
  if cause = 1 then r
  else
    (r.setFld ERR_STATUS ERR_STATUS_LAST_FS_CAUSE (s.fld ERR_STATUS ERR_STATUS_LAST_FS_CAUSE)).setFld BOOT_CFG BOOT_CFG_RETRY_STEPS
      (s.fld BOOT_CFG BOOT_CFG_RETRY_STEPS)

/-- Reset cause that follows fail-safe (R421). -/
def State.fsResetCause (s : State) : Nat := if s.fld ERR_STATUS ERR_STATUS_LAST_FS_CAUSE = 5 then 4 else 2

/-! ### The fence (R100, R383) -/

/-- Answers to a descriptor's requests go to nobody. -/
def State.orphanDesc (s : State) (n : RingId) (i : Index) : State :=
  let f := fun (r : Req) => if (r.owner.posOf n i).isSome then { r with owner := .nobody } else r
  { s with fab := { s.fab with waiting := s.fab.waiting.map f, outst := s.fab.outst.map f } }

/-- A descriptor in execution on a fenced domain: held after a hang, else it completes with `FENCED` (R383, R389). -/
def State.fenceDesc (s : State) (hang : Bool) (d : Desc) : State :=
  if d.phase = .done || d.phase = .posting || d.phase = .stopping then s
  else if hang then ((s.dropLoad d).orphanDesc d.ring d.idx).mapDesc d.ring d.idx fun d => { d with held := true }
  else s.stopDesc .fenced false d

/-- Fence one core (R100, R383): what it runs stops, and nothing reaches it. A trap-halt before the fence has decided its launch's status
(R81). -/
def State.fenceCore (s : State) (hang : Bool) (k : CoreId) : State :=
  let c := s.core k
  let s := match c.launch with
    | none => s
    | some l =>
      match hang, c.halting with
      | true, _ => s.mapDesc l.ring l.idx fun d => { d with held := true }
      | false, some t => s.endLaunch k (haltStatus t.status) (some t)
      | false, none => s.endLaunch k .fenced none
  let s := (s.descs.filter (fun (d : Desc) => (d.typ = 0x11 || d.typ = 0x12 || d.typ = 0x13) && coreOf (d.word 3) = k)).foldl
    (fun (s : State) d => s.fenceDesc hang d) s
  (s.orphanCore k).mapCore k fun c =>
    if c.run = .retired then c
    else { c.cutQueue .fenced with run := .fenced, wait := .none, launch := none, halting := none, flips := [] }

/-- Cores of a domain. -/
def domainCores (kind index : Nat) : List CoreId :=
  (List.finRange 128).filter fun (k : CoreId) => if kind = 0 then k.val = index else k.val / 32 = index

/-- Rings of a cluster's DMA engines. -/
def State.dmaRing (s : State) (c : Nat) (n : RingId) : Bool :=
  s.fld (RING_CFG n) RING_CFG_CLASS = 1 && s.fld (RING_CFG n) RING_CFG_ENGINE / 4 = c

/-- Fence a core (kind 0) or a cluster (kind 1). -/
def State.fenceDomain (s : State) (kind index : Nat) (hang : Bool) : State :=
  let s := (domainCores kind index).foldl (fun (s : State) k => s.fenceCore hang k) s
  if kind = 1 then
    let s := (s.descs.filter (fun (d : Desc) => s.dmaRing index d.ring)).foldl (fun (s : State) d => s.fenceDesc hang d) s
    { s with fencedClusters := Maps.add s.fencedClusters index }
  else s

/-- ERR_RESET_STATE.PHASE is that of the oldest reset in progress. -/
def State.syncPhase (s : State) : State :=
  s.setFld ERR_RESET_STATE ERR_RESET_STATE_PHASE ((s.resets.head?.map (·.phase)).getD 0)

/-- A reset's domain includes another. -/
def Reset.spans (r : Reset) (kind index : Nat) : Bool :=
  r.kind = 2 || (r.kind = kind && r.index = index) || (r.kind = 1 && kind = 0 && index / 32 = r.index)

/-- A reset that is fencing, dumping or resetting covers a domain (R382). -/
def Reset.covers (r : Reset) (kind index : Nat) : Bool := r.phase ≠ 4 && r.spans kind index

/-- A hang of a domain whose suspect is being replayed: SUSPECT_REPLAY tells of it (R389). -/
def State.replaying (s : State) (kind index : Nat) : Bool := s.resets.any fun r => r.phase = 4 && r.turn.isSome && r.spans kind index

/-- Request the reset of a core or of a cluster: merged into one in progress that covers it; taking over the smaller ones inside it
(R382, R383). -/
def State.requestReset (s : State) (kind index : Nat) (dump hang : Bool) (cause : Nat) : State :=
  if s.resets.any (fun r => r.covers kind index) || (hang && s.replaying kind index) then s
  else
    let inside := fun (r : Reset) => kind = 1 && r.kind = 0 && r.index / 32 = index
    let hang' := hang || s.resets.any (fun r => inside r && r.hang)
    let guilty := (s.resets.filter inside).flatMap (·.guilty)
    let s := { s with resets := s.resets.filter (fun r => !inside r) }
    let s := s.fenceDomain kind index hang
    { s with resets := s.resets ++ [Reset.mk kind index dump cause hang' 1 none none guilty] }.syncPhase

/-- The DUMP bit of a request. -/
def State.dumpBit (s : State) : Bool := s.fld ERR_RESET_CTRL ERR_RESET_CTRL_DUMP = 1

/-- RESET_CORE: ERR_RESET_CTRL.GO with KIND 0. -/
def execResetCore (src : Source) (k : CoreId) (s : State) : Result :=
  .next (if s.mayUse src then s.requestReset 0 k.val s.dumpBit false 0 else s)

/-- RESET_CLUSTER: GO with KIND 1. -/
def execResetCluster (src : Source) (c : ClusterId) (s : State) : Result :=
  .next (if s.mayUse src then s.requestReset 1 c.val s.dumpBit false 0 else s)

/-- Update the oldest reset in a phase. -/
def State.advanceReset (s : State) (phase : Nat) (f : Reset → Reset) : State :=
  match s.resets.findIdx? (fun r => r.phase = phase) with
  | none => s
  | some i => { s with resets := s.resets.modify i f }.syncPhase

/-- FENCE_DRAINED: the requests addressed to the oldest fencing domain are through; it is dumped, or reset at once (R383). -/
def execFenceDrained (s : State) : Result :=
  .next (match s.resets.find? (fun r => r.phase = 1) with
    | none => s
    | some r =>
      if r.dump then (s.advanceReset 1 fun r => { r with phase := 2 }).requestDump ⟨r.kind, r.index, r.cause⟩
      else s.advanceReset 1 fun r => { r with phase := 3 })

/-! ### The reset of a core (R63, R92, R124, R149, R169, R382, R445) -/

/-- The core after its reset: instruction memory and the column groups in service stay; slots 0 to 7 hold the reference tables. What
its tiles, accumulators and tray hold is lost; here they read zero (log entry 14). -/
def Core.domainReset (c : Core) : Core :=
  Core.withReference { Core.reset with
    imem := c.imem, colgroups := c.colgroups, nextId := c.nextId, run := if c.run = .retired then .retired else .idle }

/-- Clear the tray of a core with its POISON tags. -/
def State.clearTray (s : State) (k : CoreId) : State :=
  let lo := trayOf k
  let hi := lo + 0x400000
  { s with mem := Maps.clear s.mem lo hi, poison := s.poison.filter (fun u => u < lo || hi ≤ u), ecc := Maps.clear s.ecc lo hi }

/-- Reset one core: its arrivals at barriers are withdrawn. -/
def State.resetCore (s : State) (k : CoreId) : State :=
  let bs := (s.barriers.map (fun (b : Barrier) => { b with arrived := b.arrived.filter (fun j => j ≠ k) })).filter
    (fun (b : Barrier) => b.arrived ≠ [])
  ({ s with barriers := bs }.clearTray k).mapCore k Core.domainReset

/-- Reset a domain: a cluster's barriers return to idle and it is served again. -/
def State.resetDomain (s : State) (kind index : Nat) : State :=
  let s := if kind = 1 then
      { s with barriers := s.barriers.filter (fun (b : Barrier) => b.cluster.val ≠ index), fencedClusters := Maps.del s.fencedClusters index }
    else s
  (domainCores kind index).foldl (fun (s : State) k => s.resetCore k) s

/-! ### Suspect replay (R388, R389) -/

/-- Contexts that own held descriptors, ascending. -/
def State.suspects (s : State) : List Ctx :=
  (List.finRange 64).filter fun (x : Ctx) => s.descs.any fun (d : Desc) => d.held && s.ringAuth d.ring = Auth.ctx x

/-- The held descriptors of a context. -/
def State.heldOf (s : State) (x : Ctx) : List Desc := s.descs.filter (fun (d : Desc) => d.held && s.ringAuth d.ring = Auth.ctx x)

/-- Complete a held descriptor with a status, unless it has one. -/
def State.releaseHeld (s : State) (x : Ctx) (st : Status) : State :=
  let s := (s.heldOf x).foldl (fun (s : State) d => s.dropLoad d) s
  { s with descs := s.descs.map fun (d : Desc) =>
      if d.held && s.ringAuth d.ring = Auth.ctx x then
        { d with held := false, phase := .done, status := if d.phase = .done then d.status else st } else d }

/-- Run a context's held descriptors again from their start, from the slot bytes. -/
def State.restartHeld (s : State) (x : Ctx) : State :=
  let s := (s.heldOf x).foldl (fun (s : State) d => (s.dropLoad d).orphanDesc d.ring d.idx) s
  { s with descs := s.descs.map (fun (d : Desc) =>
             if d.held && s.ringAuth d.ring = Auth.ctx x then { newDesc d.ring d.idx d.words d.typ.toNat none 0 with held := true } else d)
           launchQ := s.launchQ.filter (fun l => !(s.heldOf x).any (fun d => d.ring = l.ring && d.idx = l.idx)) }

/-- The end of a reset whose suspects are all dealt with: DOMAIN_RESET names the guilty contexts (R389). -/
def State.endReset (s : State) (r : Reset) : State :=
  let s := { s with resets := s.resets.filter (fun q => q ≠ r) }.syncPhase
  let s := { s with descs := s.descs.map (fun (d : Desc) =>
      if d.held && s.ringAuth d.ring = Auth.ranger && s.suspects = [] then { d with held := false, phase := .done, status := .fenced } else d) }
  s.post (event 0x010F (Config.detail 0x010F (r.kind :: r.index :: r.guilty)) none)

/-- A reset in phase 4 with nobody's turn and no suspect left is over. -/
def State.settleReset (s : State) : State :=
  match s.resets.find? (fun r => r.phase = 4) with
  | some r => if r.turn.isNone && s.suspects = [] then s.endReset r else s
  | none => s

/-- HANG_GUILTY for a context (R389). -/
def State.blame (s : State) (x : Ctx) (kind index : Nat) : State :=
  (s.bump (ERR_CTX x) ERR_CTX_GUILTY).post (event 0x0206 (Config.detail 0x0206 [kind, index]) (some x))

/-- DOMAIN_RESET_DONE: the oldest domain in reset is reset and unfenced. When its reset ended a second hang, the suspect's finished
work posts, the rest completes with `TIMEOUT`, and it is guilty. Then suspect replay goes on, or DOMAIN_RESET is posted (R383, R389). -/
def execDomainResetDone (s : State) : Result :=
  .next (match s.resets.find? (fun r => r.phase = 3) with
    | none => s
    | some r =>
      let s := (s.resetDomain r.kind r.index).wrapInc ERR_RESET_STATE ERR_RESET_STATE_RESETS
      let s := match r.again with
        | some x => (s.releaseHeld x .timeout).blame x r.kind r.index
        | none => s
      let s := s.advanceReset 3 fun q =>
        { q with phase := 4, turn := none, again := none
                 guilty := match q.again with
                   | some x => q.guilty ++ [x.val]
                   | none => q.guilty }
      s.settleReset)

/-- SUSPECT_REPLAY: the turn of suspect `x`. First its held work starts again, or completes with `FENCED` where replay is off. Then it
has either completed, and its completions post, or hung again, and the domain is fenced and reset once more (R389). -/
def execSuspectReplay (x : Ctx) (hung : Bool) (s : State) : Result :=
  .next (match s.resets.find? (fun r => r.phase = 4) with
    | none => s
    | some r =>
      match r.turn with
      | none =>
        if s.suspects.head? ≠ some x then s
        else if s.fld ERR_HANG_CFG ERR_HANG_CFG_REPLAY_EN = 0 || s.fld (ERR_CTX x) ERR_CTX_REPLAY = 0 then
          (s.releaseHeld x .fenced).settleReset
        else (s.restartHeld x).advanceReset 4 fun r => { r with turn := some x }
      | some y =>
        if y ≠ x then s
        else if hung then
          let s := s.fenceDomain r.kind r.index true
          (s.advanceReset 4 fun r => { r with phase := 1, dump := true, turn := none, again := some x })
        else if (s.heldOf x).all (fun d => d.phase = .done) then
          let s := s.advanceReset 4 fun r => { r with turn := none }
          (s.releaseHeld x .ok).settleReset
        else s)

/-! ### Hangs (R388) -/

/-- The core's time counts: it does not wait in WAITV, and no CWAIT or SYNC of its queue has started (R388). -/
def Core.counts (c : Core) : Bool :=
  c.wait ≠ .waitv && !c.queue.any (fun b => b.phase = .started && (b.w.op = 0x31 || b.w.op = 0x33))

/-- The engine holds a started descriptor, and its time counts. -/
def State.engineBusy (s : State) (e : HangEngine) : Bool :=
  match e with
  | .core k => (s.core k).launch.isSome && (s.core k).counts
  | .dma n => s.descs.any fun (d : Desc) =>
      (d.phase = .started || d.phase = .working) && s.fld (RING_CFG d.ring) RING_CFG_CLASS = 1 && s.fld (RING_CFG d.ring) RING_CFG_ENGINE = n.val
  | .device c => s.descs.any fun (d : Desc) =>
      (d.phase = .started || d.phase = .working) && s.fld (RING_CFG d.ring) RING_CFG_CLASS = 2 + c.val

/-- HANG_DETECT: an engine that holds a started descriptor has not moved for HANG_US. Its core or cluster is reset and replayed; a
device engine posts DEVICE_HANG (R380, R388). -/
def execHangDetect (e : HangEngine) (s : State) : Result :=
  .next (if s.fld ERR_HANG_CFG ERR_HANG_CFG_ENABLE = 0 || !s.engineBusy e then s
    else match e with
      | .core k => s.requestReset 0 k.val true true 0x010F
      | .dma n => s.requestReset 1 (n.val / 4) true true 0x010F
      | .device c => s.deviceFault 0x0303 (BitVec.ofNat 48 (2 + c.val)))

/-! ### Aborts (R385 to R387) -/

/-- ERR_ABORT: a write of ERR_ABORT with GO originates an abort of CTX (R385). -/
def State.writeErrAbort (s : State) (v mask : Word) : State :=
  if wrote v mask ERR_ABORT_GO then
    s.abortOrigin ⟨bits v 37 32 % 64, Nat.mod_lt _ (by decide)⟩ 0 (BitVec.ofNat 32 (bits v 31 0))
  else s

/-- ERR_ABORT. -/
def execErrAbort (src : Source) (v : Word) (s : State) : Result := .next (if s.mayUse src then s.writeErrAbort v (-1) else s)

/-- A write of ERR_CTX: 1 in ABORTED clears the abort once DRAINING is 0, and posts ABORT_CLEARED; the other fields by their access
types (R387, R393). -/
def State.writeErrCtx (s : State) (x : Ctx) (v mask : Word) : State :=
  let clears := wrote v mask ERR_CTX_ABORTED && s.aborted x
  let drains := s.fld (ERR_CTX x) ERR_CTX_DRAINING = 1
  let s := s.writeWord .ERR_CTX [x.val] (ERR_CTX x) (setBit v 63 false) mask
  if clears && !drains then
    let s := s.setFld (ERR_CTX x) ERR_CTX_ABORTED 0
    let s := s.clearActive (fun e => e.severity = 2 && e.ctx = some x)
    s.post (event 0x0008 (BitVec.ofNat 48 x.val) (some x))
  else s

/-- ABORT_CLEAR: 1 written to ERR_CTX.ABORTED, the other fields as they are. -/
def execAbortClear (src : Source) (x : Ctx) (s : State) : Result :=
  .next (if s.mayUse src then s.writeErrCtx x ERR_CTX_ABORTED.mask ERR_CTX_ABORTED.mask else s)

/-- Fields of an ABORT payload (R385). -/
def abJob (p : Packet) : Nat := leAt p.payload 0 4
def abCtx (p : Packet) : Ctx := ⟨leAt p.payload 4 1 % 64, Nat.mod_lt _ (by decide)⟩
def abSeq (p : Packet) : BitVec 16 := BitVec.ofNat 16 (leAt p.payload 6 2)
def abOrigin (p : Packet) : Coord := BitVec.ofNat 12 (leAt p.payload 8 2)

/-- The reserved bytes and bits of an ABORT payload are zero; any other notice has no effect (R5, R385). -/
def abortOk (pl : List Byte) : Bool :=
  leAt pl 4 1 < 64 && leAt pl 5 1 = 0 && leAt pl 8 2 < 4096 && (pl.drop 16).all (· = 0)

/-- ABORT: a notice not seen among the last 256 is recorded, acted on when its job is the context's, and sent on; any other is
dropped (R385, R386). -/
def execAbort (p : Packet) (s : State) : Result :=
  .next (match s.takeArrived p with
    | none => s
    | some s =>
      if p.op ≠ 0x32 || p.cls ≠ 4 || p.payload.length ≠ 32 || !p.pcrcOk || !abortOk p.payload then s
      else if s.abortsSeen.contains (abOrigin p, abSeq p) then s
      else
        let s := { s with abortsSeen := ((abOrigin p, abSeq p) :: s.abortsSeen).take 256 }
        let s := if (s.jobOf (abCtx p)).toNat = abJob p then
            s.abortAct (abCtx p) (Config.detail 0x0205 [(abOrigin p).toNat, (abSeq p).toNat]) else s
        s.flood 0x32 p.payload)

end Sys2Proof.Machine
end

