-- ==== Sys2Proof/Machine/Coll.lean ====
section
/-! DEFINITION. Rollcall, collectives at one member, their packets, the tally, lost members, and the operations behind CSEND and CWAIT
(R121, R122, R306 to R329). -/
namespace Sys2Proof.Machine

open Reg

/-! ### Packets of a group (R321) -/

/-- W3 of a COL packet. -/
def w3Of (stage first count off : Nat) : Nat := stage * 2 ^ 61 + first * 2 ^ 48 + count * 2 ^ 35 + off

/-- A 32-byte payload from (position, value) pairs. -/
def fieldsOf (fs : List (Nat × Nat)) : List Byte := leBytes 32 ((fs.map (fun f => f.2 * 256 ^ f.1)).foldl (· + ·) 0)

/-- Fields of a COL packet. -/
def colSeq (p : Packet) : BitVec 32 := BitVec.ofNat 32 (bits p.w2 63 32)
def colGid (p : Packet) : BitVec 32 := BitVec.ofNat 32 (bits p.w2 31 0)
def colStage (p : Packet) : Nat := bits p.w3 63 61
def colFirst (p : Packet) : Nat := bits p.w3 60 48
def colCount (p : Packet) : Nat := bits p.w3 47 35
def colOff (p : Packet) : Nat := bits p.w3 31 0
def ccop (p : Packet) : Nat := leAt p.payload 0 1

/-- Build a COL packet; CDATA is compressed where R266 says. -/
def State.colPacket (s : State) (who : Ctx × Nat) (dst : Coord) (op : Nat) (gid seq : BitVec 32) (w3 : Nat) (pl : List Byte) : Packet :=
  let whole := op = 0x20 && s.fld ROUTE_CFG ROUTE_CFG_FCOMP = 1 && fabricWhole (w3 % 2 ^ 32) pl.length
  let e := fabricEncode pl
  let small := whole && e.1.length < pl.length
  mkPacket { cls := 2, op := op, src := s.self, dst := dst, ctx := who.1.val, agent := who.2, epoch := s.activeEpoch
             cmp := small, gmask := if small then e.2 else 0, rlen := if small then pl.length else 0
             w2 := BitVec.ofNat 64 (seq.toNat * 2 ^ 32 + gid.toNat), w3 := BitVec.ofNat 64 w3 } (if small then e.1 else pl)

/-- Context and AGENT of a group's packets: of the ring whose descriptor they serve; with none, those of the group's context and the
collective engine, or of Ranger (R264). -/
def State.colSender (s : State) (g : Group) (n : Option RingId) : Ctx × Nat :=
  match n with
  | some n => (s.ringCtx n, s.ringAgent n)
  | none => (g.ctx.getD 0, if g.ctx.isSome then 145 else agentRanger)

/-- Send a COL packet of a group; it is kept until it can no longer be asked for again (R322). -/
def State.colSend (s : State) (h : Nat) (n : Option RingId) (dst : Coord) (op : Nat) (seq : BitVec 32) (w3 : Nat) (pl : List Byte) : State :=
  match s.group h with
  | none => s
  | some g =>
    let p := s.colPacket (s.colSender g n) dst op g.gid seq w3 pl
    (s.setGroup { g with sent := g.sent ++ [Sent.mk p 0] }).inject p

/-- Update the current collective of a group. -/
def State.mapColl (s : State) (h : Nat) (f : Coll → Coll) : State :=
  match s.group h with
  | none => s
  | some g => s.setGroup { g with cur := g.cur.map f }

/-- Send the same control packet to every other member. -/
def State.colTell (s : State) (h : Nat) (n : Option RingId) (seq : BitVec 32) (pl : List Byte) (but : Option Nat) : State :=
  match s.group h with
  | none => s
  | some g =>
    (List.range g.count).foldl (fun (s : State) r =>
      if r = g.rank || some r = but then s else s.colSend h n (g.coord r) 0x22 seq 0 pl) s

/-! ### The end of a collective (R326) -/

/-- The current collective of a group completes. -/
def State.finishColl (s : State) (h : Nat) (st cw : Status) : State :=
  match s.group h with
  | none => s
  | some g =>
    match g.cur with
    | none => s
    | some c =>
      let s := if st = .ok then s else s.poisonResult (s.ringAuth c.ring) g c
      let s := if st = .collDigest then s.bump COLL_COUNTS COLL_COUNTS_DIGEST_FAIL else s
      let s := if st = .collOrder then s.bump COLL_COUNTS COLL_COUNTS_ORDER_FAIL else s
      let s := s.setGroup (g.closeOut c cw)
      let w := match c.wfail with
        | some f => if st = .collDigest then f.code else 0
        | none => 0
      let s := s.endDesc c.ring c.idx st 0 (BitVec.ofNat 32 w)
      let s := s.sendVerdict (s.ringAuth c.ring) ⟨g.gid, c.seq, st, crc64 c.ownBytes⟩
      let s := if st = .collDigest || st = .collOrder || st = .memberLost then
          s.post { event 0x0203 (Config.detail 0x0203 [g.gid.toNat, c.seq.toNat]) (s.ringEvtCtx c.ring) with
                   ring := BitVec.ofNat 16 c.ring.val, status := st } c.step else s
      s.settleGroup h

/-- The group is LOST: its current collective and its held ones complete with `MEMBER_LOST` (R322). -/
def State.becomeLost (s : State) (h : Nat) : State :=
  match s.group h with
  | none => s
  | some g =>
    if g.state ≠ 2 && g.state ≠ 4 then s
    else
      let s := (s.setGroup { g with state := 3 }).bump COLL_COUNTS COLL_COUNTS_LOST
      let s := s.finishColl h .memberLost .memberLost
      g.held.foldl (fun (s : State) c =>
        match s.group h with
        | none => s
        | some g => (s.setGroup { g with cur := some c, held := g.held.filter (fun (x : Coll) => x ≠ c) }).finishColl h .memberLost .memberLost) s

/-- A ring of a group's work, if it has done any, for packets that no descriptor sends. -/
def Group.anyRing (g : Group) : Option RingId :=
  match g.cur, g.past with
  | some c, _ => some c.ring
  | none, c :: _ => some c.ring
  | none, [] => none

/-- This device finds member `r` lost: it tells every other member, and the group is LOST (R322). -/
def State.loseMember (s : State) (h r : Nat) : State :=
  match s.group h with
  | none => s
  | some g =>
    if g.state ≠ 2 && g.state ≠ 4 then s
    else (s.colTell h g.anyRing g.nextSeq (fieldsOf [(0, 6), (8, r)]) (some r)).becomeLost h

/-- A device is lost to every group it is a member of. -/
def State.losePeer (s : State) (d : Coord) : State :=
  s.groups.foldl (fun (s : State) g =>
    match g.rankOf d with
    | some r => if r = g.rank then s else s.loseMember g.handle r
    | none => s) s

/-- Parameters or sequences differ: FAIL goes to every other member, and the current collective completes with `COLL_ORDER` (R318). -/
def State.collOrder (s : State) (h : Nat) (seq : BitVec 32) : State :=
  match s.group h with
  | none => s
  | some g =>
    let fail := fieldsOf [(0, 7), (8, Status.collOrder.code)]
    let s := s.colTell h g.anyRing seq fail none
    match g.cur with
    | none => s
    | some c => (if c.seq = seq then s else s.colTell h c.ring c.seq fail none).finishColl h .collOrder .collOrder

/-! ### Progress of the current collective -/

/-- Elements that every flow of node values, and the own contribution, have brought. -/
def Coll.taken (c : Coll) (g : Group) : Nat :=
  let fs := c.ins.filter (fun f => f.edge.stage ≠ 3)
  fs.foldl (fun m f => min m (min (c.readNode f.edge.stage f.edge.count f.edge.start f.edge.elems f.bytes).length
    (c.ownElems g.rank f.edge.start f.edge.elems).length)) (2 ^ 32)

/-- Bytes of a flow that no longer need its grant: combined, or for the result and for copied data, here. -/
def Coll.freed (c : Coll) (g : Group) (f : InFlow) : Nat :=
  if f.edge.stage = 3 || !c.reduces then f.bytes.length
  else
    let t := c.taken g
    min f.bytes.length (if c.lossyLeaf f.edge then t + t / 32 else c.nodeWidth f.edge.stage f.edge.count * t)

/-- Buffer space that each flow may hold: an equal share of RXBUF, a multiple of 1,056 bytes (R318). -/
def Coll.share (c : Coll) (g : Group) : Nat := g.rxbuf * 65536 / max 1 c.ins.length / 1056 * 1056

/-- How far a flow is granted now. -/
def Coll.grantTo (c : Coll) (g : Group) (f : InFlow) : Nat := max f.granted (min (c.wireLen g f.edge) (c.freed g f + c.share g))

/-- The payload of a GRANT. -/
def Coll.grantBody (c : Coll) (g : Group) (e : Edge) (lo hi : Nat) : List Byte :=
  fieldsOf [(0, 4), (8, e.stage), (10, e.first), (12, e.count), (14, c.root), (16, c.wireOff g e + lo), (20, hi - lo), (24, c.kind)
           , (25, c.redop), (26, c.fmt), (27, (if c.lossy then 1 else 0) + (if c.sround then 2 else 0)), (28, c.len)]

/-- Grant what there is room for. -/
def State.collGrants (s : State) (h : Nat) : State :=
  match s.group h with
  | none => s
  | some g =>
    match g.cur with
    | none => s
    | some c =>
      let s := s.setGroup { g with cur := some { c with ins := c.ins.map (fun f => { f with granted := c.grantTo g f }) } }
      c.ins.foldl (fun (s : State) f =>
        let hi := c.grantTo g f
        if f.granted < hi then
          s.colSend h c.ring (g.coord f.edge.src) 0x22 c.seq
            (w3Of f.edge.stage f.edge.first f.edge.count (c.wireOff g f.edge + f.granted)) (c.grantBody g f.edge f.granted hi)
        else s) s

/-- A digest TALLY. -/
def digestBody (d : Word) (off len : Nat) : List Byte := fieldsOf [(0, 0), (8, d.toNat), (16, off), (20, len)]

/-- Send what a flow may send: chunks of up to 8,192 bytes within the granted bytes, as the bytes are there; after the last of them,
the digest (R318, R321, R325). -/
def State.sendFlow (s : State) (h : Nat) (e : Edge) : Nat → State
  | 0 => s
  | k + 1 =>
    match s.group h with
    | none => s
    | some g =>
      match g.cur with
      | none => s
      | some c =>
        match c.outs.find? (fun f => f.edge = e) with
        | none => s
        | some f =>
          let bs := c.outBytes g e
          let len := c.wireLen g e
          let nxt := min (f.sent + 8192) (min f.granted len)
          let upd := fun (s : State) (u : OutFlow → OutFlow) =>
            s.mapColl h fun c => { c with outs := c.outs.map (fun (f : OutFlow) => if f.edge = e then u f else f) }
          if f.sent < nxt && nxt ≤ bs.length then
            let s := s.colSend h c.ring (g.coord e.dst) 0x20 c.seq (w3Of e.stage e.first e.count (c.wireOff g e + f.sent))
              ((bs.drop f.sent).take (nxt - f.sent))
            State.sendFlow (upd s (fun f => { f with sent := nxt })) h e k
          else if f.sent = len && !f.tallied then
            let s := s.colSend h c.ring (g.coord e.dst) 0x21 c.seq (w3Of e.stage e.first e.count (c.wireOff g e))
              (digestBody (crc64 (bs.take len)) (c.wireOff g e) len)
            upd s (fun f => { f with tallied := true })
          else s

/-- Send what every flow may send. -/
def State.sendFlows (s : State) (h : Nat) : State :=
  match (s.group h).bind (·.cur) with
  | none => s
  | some c => c.outs.foldl (fun (s : State) f => s.sendFlow h f.edge (2 ^ 32)) s

/-- Write a piece of the result. -/
def State.putResult (s : State) (a : Auth) (at_ : Nat) (bs : List Byte) : Option Status × State :=
  match s.writeFor (s.me a) false at_ bs true with
  | (.ok _, s) => (none, s.mirror a at_ bs)
  | (.err st, s) => (some st, s)
  | (.wait, s) => (none, s)

/-- Write the result as far as it is here, up to a granule boundary until all of it is here. A write that fails is kept for the
verdict (R326). -/
def State.storeResult (s : State) (h : Nat) : State :=
  match s.group h with
  | none => s
  | some g =>
    match g.cur with
    | none => s
    | some c =>
      let bs := c.resultBytes g
      let o := bits (BitVec.ofNat 64 c.dstAt) 47 0
      let upto := if bs.length = c.result g g.rank then bs.length else (o + bs.length) / 4096 * 4096 - o
      if upto ≤ c.stored then s
      else
        let (st, s) := s.putResult (s.ringAuth c.ring) (o + c.stored) ((bs.take upto).drop c.stored)
        s.mapColl h fun c => { c with stored := upto, wfail := c.wfail <|> st }

/-- The value that owners compare, once it is whole. -/
def Coll.peerValue (c : Coll) (g : Group) (stage : Nat) : Option (List Byte) :=
  let (a, n) := c.piece g (g.posOf g.rank)
  let cnt := if stage = 1 then (g.blocks.getD (g.blockOf (g.podOf g.rank)) []).length else g.blocks.length
  let bs := c.nodeBytes g stage 0 cnt a n
  if bs.length = n * c.nodeWidth stage cnt then some bs else none

/-- Positions of the node that owners compare. -/
def Group.peerCount (g : Group) (stage : Nat) : Nat :=
  if stage = 1 then (g.blocks.getD (g.blockOf (g.podOf g.rank)) []).length else g.blocks.length

/-- Tell the other owners of a node its digest (R325). -/
def State.tellPeers (s : State) (h : Nat) : State :=
  match s.group h with
  | none => s
  | some g =>
    match g.cur with
    | none => s
    | some c =>
      c.peers.foldl (fun (s : State) q =>
        if q.told then s
        else match c.peerValue g q.stage with
          | none => s
          | some bs =>
            let off := (c.piece g (g.posOf g.rank)).1 * c.nodeWidth q.stage 2
            (s.colSend h c.ring (g.coord q.rank) 0x21 c.seq (w3Of q.stage 0 (g.peerCount q.stage) off)
              (digestBody (crc64 bs) off bs.length)).mapColl h fun c =>
                { c with peers := c.peers.map (fun (r : Peer) => if r.rank = q.rank && r.stage = q.stage then { r with told := true } else r) }) s

/-- Everything that the own verdict waits for is here (R325). -/
def Coll.ready (c : Coll) (g : Group) : Bool :=
  c.ins.all (fun f => f.bytes.length = c.wireLen g f.edge && f.digest.isSome)
    && c.peers.all (fun q => q.told && q.digest.isSome)
    && c.stored = c.result g g.rank
    && (g.children g.rank).all (fun l => c.votes.any (fun v => v.1 = l.child))
    && (c.ownBytes.length = c.contribution g g.rank)

/-- The verdict of this member and of those below it: true is a failure. -/
def Coll.verdict (c : Coll) (g : Group) : Bool :=
  c.ins.any (fun f => f.digest ≠ some (crc64 f.bytes))
    || c.peers.any (fun q => q.digest ≠ (c.peerValue g q.stage).map crc64)
    || c.wfail.isSome || c.votes.any (·.2)

/-- A verdict TALLY. -/
def verdictBody (bad : Bool) : List Byte := fieldsOf [(0, 1), (24, if bad then 1 else 0)]

/-- The root's verdict has reached this member: it goes on down the tree, and the collective completes (R325, R326). -/
def State.passDown (s : State) (h : Nat) (bad : Bool) : State :=
  match s.group h with
  | none => s
  | some g =>
    match g.cur with
    | none => s
    | some c =>
      let s := (g.children g.rank).foldl (fun (s : State) l =>
        s.colSend h c.ring (g.coord l.child) 0x21 c.seq (w3Of 3 l.first l.count 0) (verdictBody bad)) s
      if bad then s.finishColl h .collDigest .collDigest else s.finishColl h .ok .ok

/-- Give the verdict once all it waits for is here: up the tree, or at rank 0 down it (R325). -/
def State.vote (s : State) (h : Nat) : State :=
  match s.group h with
  | none => s
  | some g =>
    match g.cur with
    | none => s
    | some c =>
      if c.voted || !c.ready g then s
      else match g.parent g.rank with
        | none => s.passDown h (c.verdict g)
        | some l =>
          (s.mapColl h fun c => { c with voted := true }).colSend h c.ring (g.coord l.parent) 0x21 c.seq
            (w3Of l.stage l.first l.count 0) (verdictBody (c.verdict g))

/-! ### The shadow's side (R373) -/

/-- Compare the own contribution with the source's, and count; the first disagreement is reported. -/
def State.compareContribution (s : State) (x : Option Ctx) (v : Verdict) (own : Word) : State :=
  if own = v.digest then s.bump SNAP_SHADOW_STATE SNAP_SHADOW_STATE_MATCH
  else
    let first := s.fld SNAP_SHADOW_STATE SNAP_SHADOW_STATE_MISMATCH = 0
    let s := s.bump SNAP_SHADOW_STATE SNAP_SHADOW_STATE_MISMATCH
    if first then s.post (event 0x010A (Config.detail 0x010A [v.gid.toNat, v.seq.toNat]) x) else s

/-- A shadow's collective exchanges nothing: it completes once the source has reported its own, and the own contribution is whole, with
the source's status. -/
def State.shadowStep (s : State) (h : Nat) : State :=
  match s.group h with
  | none => s
  | some g =>
    match g.cur with
    | none => s
    | some c =>
      match s.snap.told.find? (fun (v : Verdict) => v.gid = g.gid && v.seq = c.seq) with
      | none => s
      | some v =>
        let whole := c.ownBytes.length = c.contribution g g.rank
        if !whole && v.status = .ok then s
        else
          let s := { s with snap := { s.snap with told := s.snap.told.filter (fun (w : Verdict) => w ≠ v) } }
          let s := if whole then s.compareContribution (s.ringEvtCtx c.ring) v (crc64 c.ownBytes) else s
          s.finishColl h v.status v.status

/-- All that the current collective can do now. -/
def State.collStep (s : State) (h : Nat) : State :=
  match (s.group h).bind (·.cur) with
  | none => s
  | some c =>
    if s.isShadow (s.ringAuth c.ring) then s.shadowStep h
    else ((((s.collGrants h).sendFlows h).storeResult h).tellPeers h).vote h

/-- The source has reported a collective to this shadow. -/
def State.takeReport (s : State) (v : Verdict) : State :=
  let s := { s with snap := { s.snap with told := s.snap.told ++ [v] } }
  match s.groups.find? (fun (g : Group) => g.gid = v.gid) with
  | none => s
  | some g => s.collStep g.handle

/-- A group as the source writes it for its shadow (log entry 20). -/
def groupBytes (g : Group) : List Byte :=
  leBytes 1 g.handle ++ leBytes 1 g.state ++ leBytes 2 g.rank ++ leBytes 4 g.gid.toNat ++ leBytes 4 g.nextSeq.toNat ++ leBytes 2 g.rxbuf
    ++ leBytes 2 g.sbuf ++ leBytes 1 g.alg ++ leBytes 1 g.weight ++ leBytes 2 g.members.length ++ leBytes 4 g.smallMax ++ leBytes 8 0
    ++ g.members.flatMap (fun m => leBytes 2 m.1.toNat ++ leBytes 2 m.2.toNat)

/-- The active groups of a context, as the source writes them. -/
def State.groupsImage (s : State) (x : Ctx) : List Byte :=
  let body := (s.groups.filter (fun (g : Group) => g.ctx = some x && g.state = 2)).flatMap groupBytes
  leBytes 8 (8 + body.length) ++ body

/-- Groups that such bytes describe. -/
def groupsOf (x : Ctx) : Nat → List Byte → List Group
  | 0, _ => []
  | n + 1, l =>
    if l.length < 32 then []
    else
      let k := leAt l 18 2
      let ms := (List.range k).map fun i =>
        ((BitVec.ofNat 12 (leAt l (32 + 4 * i) 2), BitVec.ofNat 12 (leAt l (34 + 4 * i) 2)) : Coord × Coord)
      { handle := leAt l 0 1, ctx := some x, gid := BitVec.ofNat 32 (leAt l 4 4), rank := leAt l 2 2, weight := leAt l 17 1, members := ms
        rxbuf := leAt l 12 2, sbuf := leAt l 14 2, alg := leAt l 16 1, smallMax := leAt l 20 4, state := leAt l 1 1
        nextSeq := BitVec.ofNat 32 (leAt l 8 4), forming := none, mode := 0, start := 0, digest := 0, newMembers := ms, before := 0
        cur := none, held := [], past := [], early := [], sent := [], disband := none } :: groupsOf x n (l.drop (32 + 4 * k))

/-! ### Packets of the current collective -/

/-- The parameters of a GRANT are the own ones (R318). -/
def Coll.agrees (c : Coll) (pl : List Byte) : Bool :=
  leAt pl 14 2 = c.root && leAt pl 24 1 = c.kind && leAt pl 25 1 = c.redop && leAt pl 26 1 = c.fmt
    && leAt pl 27 1 = (if c.lossy then 1 else 0) + (if c.sround then 2 else 0) && leAt pl 28 4 = c.len

/-- An edge between this member and rank `r` that a packet names. -/
def edgeIs (e : Edge) (other stage first count : Nat) (out : Bool) : Bool :=
  (if out then e.dst else e.src) = other && e.stage = stage && e.first = first && e.count = count

/-- A GRANT for the current collective. -/
def State.takeGrant (s : State) (h r : Nat) (c : Coll) (p : Packet) : State :=
  let pl := p.payload
  match s.group h with
  | none => s
  | some g =>
    match c.outs.find? (fun f => edgeIs f.edge r (leAt pl 8 1) (leAt pl 10 2) (leAt pl 12 2) true) with
    | none => s.collOrder h c.seq
    | some f =>
      if !c.agrees pl then s.collOrder h c.seq
      else
        let hi := leAt pl 16 4 + leAt pl 20 4 - c.wireOff g f.edge
        (s.mapColl h fun c =>
          { c with outs := c.outs.map (fun (x : OutFlow) => if x.edge = f.edge then { x with granted := max x.granted hi } else x) }).collStep h

/-- A digest for the current collective: of a flow, or of a node that another owner computes too. -/
def State.takeDigest (s : State) (h r : Nat) (p : Packet) : State :=
  let d : Word := BitVec.ofNat 64 (leAt p.payload 8 8)
  (s.mapColl h fun c =>
    { c with ins := c.ins.map (fun (f : InFlow) =>
               if edgeIs f.edge r (colStage p) (colFirst p) (colCount p) false then { f with digest := some d } else f)
             peers := if colCount p ≤ 1 then c.peers else c.peers.map (fun (q : Peer) =>
               if q.rank = r && q.stage = colStage p && colFirst p = 0 then { q with digest := some d } else q) }).collStep h

/-- A verdict for the current collective, from below or from above. -/
def State.takeVerdict (s : State) (h r : Nat) (p : Packet) : State :=
  match s.group h with
  | none => s
  | some g =>
    let bad : Bool := leAt p.payload 24 1 = 1
    if (g.parent g.rank).map (·.parent) = some r then s.passDown h bad
    else if (g.children g.rank).any (fun l => l.child = r) then
      (s.mapColl h fun c => { c with votes := if c.votes.any (fun v => v.1 = r) then c.votes else c.votes ++ [(r, bad)] }).vote h
    else s

/-- A FAIL for the current collective (R326). -/
def State.takeFail (s : State) (h : Nat) (p : Packet) : State :=
  if leAt p.payload 8 1 = Status.collOrder.code then s.finishColl h .collOrder .collOrder else s.finishColl h .collDigest .collDigest

/-- A packet that was held, or that arrives, for the current collective. -/
def State.takeEarly (s : State) (h : Nat) (p : Packet) : State :=
  match s.group h with
  | none => s
  | some g =>
    match g.cur, g.rankOf p.src with
    | some c, some r =>
      if colSeq p ≠ c.seq then s
      else if p.op = 0x21 then (if ccop p = 0 then s.takeDigest h r p else s.takeVerdict h r p)
      else if ccop p = 4 then s.takeGrant h r c p
      else if ccop p = 7 then s.takeFail h p
      else s
    | _, _ => s

/-! ### Starting (R316, R317, R329) -/

/-- Read a range of the contribution. -/
def State.readOwn (s : State) (a : Auth) (at_ n : Nat) : Option (List Byte) × State :=
  if n = 0 then (some [], s)
  else match s.readFor (s.me a) (bits (BitVec.ofNat 64 at_) 47 0) n true with
    | (.ok bs, s) => (some bs, s)
    | (_, s) => (none, s)

/-- FP32 words of some bytes. -/
def f32sOf (bs : List Byte) : List F32 := (numsOf 4 bs).map (BitVec.ofNat 32)

/-- Quantize the contribution, and leave the residual (R329). None where RESID cannot be read or written. -/
def State.quantize (s : State) (g : Group) (c : Coll) (xs : List Byte) : Option Coll × State :=
  let a := s.ringAuth c.ring
  match s.readOwn a c.resid xs.length with
  | (none, s) => (none, s)
  | (some rs, s) =>
    let vs := List.zipWith f32Add (f32sOf xs) (f32sOf rs)
    let q := quantAll c.job c.step g.srStream (g.rank * vs.length) (vs.length + 1) vs
    let res := (List.zipWith f32Sub vs q.2.2).flatMap (fun v => leBytes 4 v.toNat)
    match s.putResult a (bits (BitVec.ofNat 64 c.resid) 47 0) res with
    | (none, s) => (some { c with qcodes := q.1, scales := q.2.1, own := putAt [] 0 (q.2.2.flatMap (fun v => leBytes 4 v.toNat)) }, s)
    | (some _, s) => (none, s)

/-- The collective fails at this member before it exchanges anything: FAIL goes to every other member (R316, R326). -/
def State.failStart (s : State) (h : Nat) (n : RingId) (seq : BitVec 32) (st cw : Status) : State :=
  (if s.isShadow (s.ringAuth n) then s else s.colTell h n seq (fieldsOf [(0, 7), (8, st.code)]) none).finishColl h st cw

/-- A collective becomes current: its held checks are acted on, an empty one completes, else its contribution is read, its grants are
issued, and what has arrived for it is taken. -/
def State.startColl (s : State) (h : Nat) (c : Coll) : State :=
  match s.group h with
  | none => s
  | some g =>
    let edges := if s.isShadow (s.ringAuth c.ring) then [] else c.edges g
    let c := { c with ins := (edges.filter (fun e => e.dst = g.rank)).map (fun e => InFlow.mk e 0 [] none)
                      outs := (edges.filter (fun e => e.src = g.rank)).map (fun e => OutFlow.mk e 0 0 false)
                      peers := if s.isShadow (s.ringAuth c.ring) then [] else c.peerList g }
    let s := s.setGroup { g with cur := some c }
    if c.check ≠ .ok then s.failStart h c.ring c.seq c.check (if c.check = .format then .format else .collDigest)
    else if c.len = 0 && c.kind ≠ 0 then s.finishColl h .ok .ok
    else
      let begin_ := fun (s : State) =>
        let s := s.collStep h
        (g.early.filter (fun p => colSeq p = c.seq)).foldl (fun (s : State) p => s.takeEarly h p) s
      if c.stream then begin_ s
      else match s.readOwn (s.ringAuth c.ring) c.srcAt (c.contribution g g.rank) with
        | (none, s) => s.failStart h c.ring c.seq .collDigest .collDigest
        | (some bs, s) =>
          if c.lossy then
            match s.quantize g c bs with
            | (none, s) => s.failStart h c.ring c.seq .collDigest .collDigest
            | (some c, s) => begin_ (s.mapColl h fun _ => c)
          else begin_ (s.mapColl h fun c => { c with own := putAt [] 0 bs })

/-- Behind: (NEXT_SEQ - SEQ) mod 2^32 from 1 to 2^31 (R317). -/
def seqBehind (next seq : BitVec 32) : Bool := 1 ≤ (next - seq).toNat && (next - seq).toNat ≤ 2 ^ 31

/-- Where a range of a COLLECTIVE lies: LPDDR6, cluster SRAM or a tray of this device (R313). -/
def State.collRange (s : State) (a n : Nat) : Option Status :=
  if n = 0 then none
  else match s.locate true a n with
    | .bad .format => some .format
    | .bad st => some st
    | .there _ _ => some .format
    | .here o =>
      match placeOfRange o n with
      | .lpddr => none
      | .sram _ => none
      | .tray _ => none
      | _ => some .format

/-- Two address ranges overlap. -/
def overlaps (a n b m : Nat) : Bool := n ≠ 0 && m ≠ 0 && a < b + m && b < a + n

/-- REDOP and FMT of a kind (R315). -/
def redopOk (kind redop fmt : Nat) : Bool :=
  let int := fmt = 0x0A || fmt = 0x0B
  let fp := fmt = 0 || fmt = 1 || fmt = 2
  if kind = 2 || kind = 3 || kind = 4 then
    (1 ≤ redop && redop ≤ 3 && (int || fp)) || (4 ≤ redop && redop ≤ 6 && int)
  else redop = 0

/-- The format checks of R313 to R315, R323 and R329. -/
def Coll.formatOk (c : Coll) (g : Group) (d : Desc) : Bool :=
  let w := d.word 3
  let v := d.word 6
  bits w 7 7 = 0 && bits v 19 16 = 0 && bits v 15 0 ≠ 0
    && (c.stream || c.score = 0) && (!c.stream || c.srcAt = 0) && (c.lossy || c.resid = 0)
    && c.kind ≤ 5 && (elemSize c.fmt).isSome && redopOk c.kind c.redop c.fmt
    && (c.kind ≠ 0 || c.len = 0) && c.len % c.esz = 0 && g.count * c.len ≤ 0xFFFFFFFF
    && c.root < g.count && (c.kind = 1 || c.kind = 2 || c.root = 0)
    && (!c.sround || c.wide)
    && (!c.stream || (c.len ≤ g.sbuf * 65536 && (c.fmt = 0 || c.fmt = 1 || c.fmt = 2 || c.fmt = 0x0A)))
    && (!c.lossy || ((c.kind = 3 || c.kind = 4) && c.redop = 1 && c.fmt = 0 && !c.stream))

/-- Ranges of a COLLECTIVE: contribution, result, residual. -/
def Coll.ranges (c : Coll) (g : Group) : List (Nat × Nat) :=
  let n := c.contribution g g.rank
  [(c.srcAt, if c.stream then 0 else n), (c.dstAt, c.result g g.rank), (c.resid, if c.lossy then n else 0)]

/-- Overlaps that R313 forbids. -/
def Coll.clash (c : Coll) (g : Group) : Bool :=
  match c.ranges g with
  | [a, b, r] =>
    (overlaps a.1 a.2 b.1 b.2 && !(c.kind = 3 && a.1 = b.1)) || overlaps a.1 a.2 r.1 r.2 || overlaps b.1 b.2 r.1 r.2
  | _ => false

/-- The outcome of the checks at start, `FORMAT` before `BOUND` before `PERM` (R313 to R316). -/
def State.collCheck (s : State) (g : Group) (c : Coll) (d : Desc) : Status × State :=
  let places := (c.ranges g).map (fun r => s.collRange r.1 r.2)
  if !c.formatOk g d || places.contains (some .format) || c.clash g then (.format, s)
  else match places.findSome? id with
    | some st => (st, s)
    | none =>
      let a := s.ringAuth c.ring
      let look := fun (acc : Status × State) (k : Kind) (r : Nat × Nat) =>
        if acc.1 ≠ .ok || r.2 = 0 then acc
        else match acc.2.protect (acc.2.me a) k false (bits (BitVec.ofNat 64 r.1) 47 0) r.2 with
          | (.ok _, s) => (.ok, s)
          | (.error st, s) => (st, s)
      match c.ranges g with
      | [x, y, r] => look (look (look (look (.ok, s) .rd x) .wr y) .rd r) .wr r
      | _ => (.ok, s)

/-- The collective that a COLLECTIVE descriptor asks for (R313). -/
def State.collOf (s : State) (n : RingId) (i : Index) (d : Desc) : Coll :=
  let w := d.word 3
  { ring := n, idx := i, seq := BitVec.ofNat 32 (bits w 63 32), kind := bits w 23 20, redop := bits w 19 16, fmt := bits w 15 11
    stream := bit w 10, lossy := bit w 9, sround := bit w 8, score := bits w 6 0, srcAt := (d.word 4).toNat, dstAt := (d.word 5).toNat
    resid := (d.word 7).toNat, len := bits (d.word 6) 63 32, root := bits (d.word 6) 31 20, job := s.jobOf (s.ringCtx n), step := d.step
    check := .ok, own := [], qcodes := [], scales := [], ins := [], outs := [], peers := [], stored := 0, wfail := none, votes := []
    voted := false, cwait := .ok }

/-- A group that descriptors, CSEND and CWAIT may name: active, lost or disbanding. -/
def State.activeGroup (s : State) (h : Nat) : Option Group :=
  match s.group h with
  | some g => if g.state = 2 || g.state = 3 || g.state = 4 then some g else none
  | none => none

/-- COLLECTIVE (R313 to R317, R322). -/
def execCollective (n : RingId) (i : Index) (s : State) : Result :=
  .next (match s.work n i 0x41 .started with
    | none => s
    | some d =>
      let h := bits (d.word 3) 31 24
      let c := s.collOf n i d
      match s.activeGroup h with
      | none => s.endDesc n i .format 0 0
      | some g =>
        if seqBehind g.nextSeq c.seq then (s.bump COLL_COUNTS COLL_COUNTS_ORDER_FAIL).endDesc n i .collOrder 0 0
        else
          let s := s.mapDesc n i fun d => { d with phase := .working }
          let (st, s) := s.collCheck g c d
          let c := { c with check := st }
          if g.state = 3 then (s.setGroup { g with cur := some c }).finishColl h .memberLost .memberLost
          else if c.seq = g.nextSeq && g.cur.isNone then s.startColl h c
          else s.setGroup { g with held := g.held ++ [c] })

/-- COLLECTIVE_CURRENT: NEXT_SEQ has reached a held collective. One that it has passed completes with `COLL_ORDER` (R317). -/
def execCollectiveCurrent (h : Fin 256) (s : State) : Result :=
  .next (match s.group h with
    | none => s
    | some g =>
      if g.cur.isSome then s
      else match g.held.find? (fun c => c.seq = g.nextSeq || seqBehind g.nextSeq c.seq) with
        | none => s
        | some c =>
          let s := s.setGroup { g with held := g.held.erase c }
          if c.seq = g.nextSeq then s.startColl h c
          else ((s.bump COLL_COUNTS COLL_COUNTS_ORDER_FAIL).endDesc c.ring c.idx .collOrder 0 0).settleGroup h)

/-! ### Arriving packets (R312, R318, R321, R322, R325) -/

/-- Entries of the control stores: 4,096 on each edge die (R321). -/
def State.controlFull (s : State) : Bool :=
  8192 ≤ s.joins.length + (s.groups.map (fun (g : Group) => g.early.length)).foldl (· + ·) 0

/-- Every byte of a payload outside some ranges is zero. -/
def zeroOutside (pl : List Byte) (named : List (Nat × Nat)) : Bool :=
  pl.zipIdx.all fun e => e.1 = 0 || named.any (fun r => r.1 ≤ e.2 && e.2 < r.1 + r.2)

/-- The bytes that a control packet's CCOP names, beside its own; none where CCOP is reserved (R321). -/
def ccopNames : Nat → Option (List (Nat × Nat))
  | 1 => some [(8, 15), (24, 4)]
  | 2 => some [(8, 1), (12, 4)]
  | 3 => some []
  | 4 => some [(8, 1), (10, 22)]
  | 5 => some [(8, 1), (10, 4), (16, 4)]
  | 6 => some [(8, 2)]
  | 7 => some [(8, 1)]
  | _ => none

/-- A GRANT's parameters are none that the spec lists as reserved (R314, R315, R321). -/
def grantOk (pl : List Byte) : Bool :=
  leAt pl 8 1 ≤ 3 && leAt pl 24 1 ≤ 5 && (elemSize (leAt pl 26 1)).isSome && redopOk (leAt pl 24 1) (leAt pl 25 1) (leAt pl 26 1)
    && leAt pl 27 1 < 4

/-- A COL packet has no reserved byte set and no reserved encoding in its payload (R5, R321, R325). -/
def colOk (p : Packet) : Bool :=
  if p.op = 0x21 then
    if ccop p = 0 then zeroOutside p.payload [(0, 1), (8, 16)]
    else ccop p = 1 && zeroOutside p.payload [(0, 1), (24, 1)] && leAt p.payload 24 1 ≤ 1
  else if p.op = 0x22 then
    match ccopNames (ccop p) with
    | some l =>
      zeroOutside p.payload ((0, 1) :: l)
        && match ccop p with
          | 1 => leAt p.payload 22 1 ≤ 1
          | 2 => leAt p.payload 8 1 ≤ 2
          | 4 => grantOk p.payload
          | 5 => leAt p.payload 8 1 ≤ 3
          | _ => true
    | none => false
  else true

/-- Take a COL packet out of the arrivals and hand it to its group; one for a GID that is not active is answered with `FORMAT`. -/
def State.colTake (s : State) (p : Packet) (mine : Bool) (run : State → Group → Nat → State) : State :=
  if p.cls ≠ 2 || !mine then s
  else match s.takeArrived p with
    | none => s
    | some s =>
      if !colOk p then s.reply p .format []
      else match s.groups.find? (fun (g : Group) => g.gid = colGid p && g.state ≠ 0) with
      | none => s.reply p .format []
      | some g =>
        match g.rankOf p.src with
        | none => s.reply p .format []
        | some r => run s g r

/-- Hold a control packet for a sequence that is not current yet, while there is room. -/
def State.holdEarly (s : State) (g : Group) (p : Packet) : State :=
  if s.controlFull then s.reply p .retryExhausted [] else s.setGroup { g with early := g.early ++ [p] }

/-- What a sequence number is to a group. -/
inductive SeqIs where
  | current (c : Coll)
  | ahead
  | past (c : Option Coll)
  | lost
  deriving DecidableEq, Repr

def Group.seqIs (g : Group) (seq : BitVec 32) : SeqIs :=
  if g.state = 3 then .lost
  else if g.state = 1 then .ahead
  else if seqBehind g.nextSeq seq then .past (g.past.find? (fun c => c.seq = seq))
  else match g.cur with
    | some c => if c.seq = seq then .current c else .ahead
    | none => .ahead

/-- GRANT. One for a past sequence is a repetition when its parameters are those of the collective that was run; else the sequences
differ (R318). -/
def execGrant (p : Packet) (s : State) : Result :=
  .next (s.colTake p (p.op = 0x22 && ccop p = 4) fun s g r =>
    match g.seqIs (colSeq p) with
    | .current c => s.takeGrant g.handle r c p
    | .ahead => s.holdEarly g p
    | .past (some c) =>
      if c.agrees p.payload && c.outs.any (fun f => edgeIs f.edge r (leAt p.payload 8 1) (leAt p.payload 10 2) (leAt p.payload 12 2) true) then s
      else s.collOrder g.handle (colSeq p)
    | .past none => s.collOrder g.handle (colSeq p)
    | .lost => s)

/-- Send an ACK for a node: every chunk below OFFSET has arrived (R322). -/
def State.ackFlow (s : State) (g : Group) (c : Coll) (f : InFlow) (have_ : Nat) : State :=
  s.colSend g.handle c.ring (g.coord f.edge.src) 0x22 c.seq (w3Of f.edge.stage f.edge.first f.edge.count (c.wireOff g f.edge + have_))
    (fieldsOf [(0, 5), (8, f.edge.stage), (10, f.edge.first), (12, f.edge.count), (16, c.wireOff g f.edge + have_)])

/-- The bytes of a chunk; none where its payload does not decode (R266). -/
def chunkData (p : Packet) : Option (List Byte) := if p.cmp then fabricDecode p.payload p.gmask p.rlen else some p.payload

/-- CDATA: a chunk is stored and acknowledged, and what it completes is combined and sent on. A chunk that is already here is only
acknowledged. -/
def execCdata (p : Packet) (s : State) : Result :=
  .next (
    if p.cls = 2 && p.op = 0x20 && (chunkData p).isNone then
      match s.takeArrived p with
      | none => s
      | some s => (s.bump ROUTE_DISCARDS ROUTE_DISCARDS_PCRC_FAIL).reply p .retryExhausted []
    else
      s.colTake p (p.op = 0x20) fun s g r =>
        let named := fun (f : InFlow) => edgeIs f.edge r (colStage p) (colFirst p) (colCount p) false
        match g.seqIs (colSeq p) with
        | .current c =>
          (match c.ins.find? named with
          | none => s.collOrder g.handle c.seq
          | some f =>
            let f := { f with data := putAt f.data (colOff p - c.wireOff g f.edge) ((chunkData p).getD []) }
            let s := s.mapColl g.handle fun c => { c with ins := c.ins.map (fun (x : InFlow) => if x.edge = f.edge then { x with data := f.data } else x) }
            (s.ackFlow g c f f.bytes.length).collStep g.handle)
        | .ahead => s
        | .past (some c) =>
          (match c.ins.find? named with
          | some f => s.ackFlow g c f (c.wireLen g f.edge)
          | none => s.collOrder g.handle (colSeq p))
        | .past none => s.collOrder g.handle (colSeq p)
        | .lost => s)

/-- Decoded length of a chunk. -/
def chunkLen (p : Packet) : Nat := if p.cmp then p.rlen else p.plen

/-- COLL_ACK: the chunks of the node below OFFSET are confirmed. -/
def execCollAck (p : Packet) (s : State) : Result :=
  .next (s.colTake p (p.op = 0x22 && ccop p = 5) fun s g _ =>
    s.setGroup { g with sent := g.sent.filter (fun x =>
      let q := x.pkt
      !(q.op = 0x20 && q.dst = p.src && colSeq q = colSeq p && colStage q = leAt p.payload 8 1 && colFirst q = leAt p.payload 10 2
        && colCount q = leAt p.payload 12 2 && colOff q + chunkLen q ≤ leAt p.payload 16 4)) })

/-- A packet as it is sent again: by the active table. -/
def State.again (s : State) (p : Packet) : Packet := { p with w0 := setBits p.w0 5 5 (if s.activeEpoch then 1 else 0) }

/-- Send one kept packet again, or find its member lost after the last retry (R322). -/
def State.resend (s : State) (h : Nat) (x : Sent) : State :=
  match s.group h with
  | none => s
  | some g =>
    if !g.sent.contains x then s
    else if s.fld ROUTE_CFG ROUTE_CFG_E2E_RETRIES ≤ x.tries then
      (match g.rankOf x.pkt.dst with
      | some r => (s.setGroup { g with sent := g.sent.erase x }).loseMember h r
      | none => s.setGroup { g with sent := g.sent.erase x })
    else
      let s := s.setGroup { g with sent := g.sent.map (fun y => if y = x then { y with tries := y.tries + 1 } else y) }
      let s := if x.pkt.op = 0x20 then s.bump COLL_COUNTS COLL_COUNTS_RESENDS else s
      s.inject (s.again x.pkt)

/-- CHUNK_RESEND: the `j`-th chunk of the group without an ACK has waited REQ_TIMEOUT_US. -/
def execChunkResend (h : Fin 256) (j : Nat) (s : State) : Result :=
  .next (match s.group h with
    | none => s
    | some g =>
      match (g.sent.filter (fun x => x.pkt.op = 0x20))[j]? with
      | none => s
      | some x => s.resend h x)

/-- An RSP of R281 answers a COL packet: it names the device only. What that device has not taken is sent again, or the member is
lost (R312, R322). -/
def State.colRefused (s : State) (d : Coord) (st : Status) : State :=
  s.groups.foldl (fun (s : State) g =>
    let mine := g.sent.filter (fun x => x.pkt.dst = d)
    if mine = [] then s
    else if st = .format then
      (match g.rankOf d with
      | some r => s.loseMember g.handle r
      | none => s)
    else if st = .retryExhausted || st = .epoch then mine.foldl (fun (s : State) x => s.resend g.handle x) s
    else s) s

/-- LOST: the group is LOST here too. -/
def execLost (p : Packet) (s : State) : Result :=
  .next (s.colTake p (p.op = 0x22 && ccop p = 6) fun s g _ => s.becomeLost g.handle)

/-- FAIL; a control packet of a reserved CCOP is taken with it, and refused. -/
def execFail (p : Packet) (s : State) : Result :=
  .next (s.colTake p (p.op = 0x22 && (ccop p = 7 || (ccopNames (ccop p)).isNone)) fun s g _ =>
    match g.seqIs (colSeq p) with
    | .current _ => s.takeFail g.handle p
    | .ahead => s.holdEarly g p
    | _ => s)

/-- TALLY with a digest; one of a reserved KIND is taken with it, and refused. -/
def execTallyDigest (p : Packet) (s : State) : Result :=
  .next (s.colTake p (p.op = 0x21 && ccop p ≠ 1) fun s g r =>
    match g.seqIs (colSeq p) with
    | .current _ => s.takeDigest g.handle r p
    | .ahead => s.holdEarly g p
    | _ => s)

/-- TALLY with a verdict. -/
def execTallyVerdict (p : Packet) (s : State) : Result :=
  .next (s.colTake p (p.op = 0x21 && ccop p = 1) fun s g r =>
    match g.seqIs (colSeq p) with
    | .current _ => s.takeVerdict g.handle r p
    | .ahead => s.holdEarly g p
    | _ => s)

/-- The first member that the current collective waits for. -/
def Coll.waitsFor (c : Coll) (g : Group) : Nat :=
  let missing := c.ins.filterMap (fun f => if f.bytes.length = c.wireLen g f.edge && f.digest.isSome then none else some f.edge.src)
  let owners := c.peers.filterMap (fun q => if q.digest.isSome then none else some q.rank)
  let unsent := c.outs.filterMap (fun f => if f.granted < c.wireLen g f.edge then some f.edge.dst else none)
  let votes := (g.children g.rank).filterMap (fun l => if c.votes.any (fun v => v.1 = l.child) then none else some l.child)
  (missing ++ unsent ++ owners ++ votes ++ ((g.parent g.rank).map (·.parent)).toList).headD g.rank

/-- COLL_TIMEOUT: TIMEOUT_MS after its start the current collective has not completed (R322). -/
def execCollTimeout (h : Fin 256) (s : State) : Result :=
  .next (match s.group h with
    | none => s
    | some g =>
      match g.cur with
      | none => s
      | some c => if s.isShadow (s.ringAuth c.ring) then s else s.loseMember h (c.waitsFor g))

/-! ### Rollcall (R306 to R312) -/

/-- The list of a ROLLCALL. -/
def listOf (bs : List Byte) : List (Coord × Coord) :=
  (numsOf 4 bs).map (fun v => (BitVec.ofNat 12 (v % 4096), BitVec.ofNat 12 (v / 65536 % 4096)))

/-- Reserved bits of the list are zero, and no COORD comes twice. -/
def listOk (bs : List Byte) : Bool :=
  (numsOf 4 bs).all (fun v => v / 4096 % 16 = 0 && v / 2 ^ 28 = 0) && decide ((listOf bs).map (·.1)).Nodup

/-- The lowest free handle (R306). -/
def State.freeHandle (s : State) : Option Nat := (List.range 256).find? (fun h => (s.group h).isNone)

/-- A group with this GID is here. -/
def State.gidGroup (s : State) (gid : BitVec 32) : Option Group := s.groups.find? (fun (g : Group) => g.gid = gid)

/-- The ROLLCALL in progress of a group ends without READY: it releases what it reserved; a survivor of a REPLACE keeps its group. -/
def State.rollcallFail (s : State) (g : Group) (st : Status) : State :=
  let s := match g.forming with
    | some (n, i) => s.endDesc n i st 0 0
    | none => s
  if g.before = 0 then s.dropGroup g.handle
  else
    { s with joins := s.joins.filter (fun (j : Join) => j.gid ≠ g.gid) }.setGroup
      { g with forming := none, state := g.before, sent := [] }

/-- READY is here: the group is active, and the ROLLCALL completes (R309, R311). -/
def State.rollcallReady (s : State) (g : Group) (alg small : Nat) : State :=
  let s := s.setGroup { g with members := g.newMembers, state := 2, alg := alg, smallMax := small, nextSeq := g.start, past := []
                               forming := none }
  match g.forming with
  | some (n, i) => s.endDesc n i .ok (BitVec.ofNat 64 g.handle) (BitVec.ofNat 32 g.rank)
  | none => s

/-- Rank 0: once every rank has joined, READY or MISMATCH goes to every member (R309). -/
def State.rollcallCheck (s : State) (h : Nat) : State :=
  match s.group h with
  | none => s
  | some g =>
    match g.forming with
    | none => s
    | some (n, _) =>
      let js := s.joins.filter (fun (j : Join) => j.gid = g.gid)
      let ranks := (List.range g.newMembers.length).drop 1
      if g.rank ≠ 0 || !ranks.all (fun r => js.any (fun j => j.rank = r)) then s
      else
        let alike := ranks.all fun r => js.any fun j => j.rank = r && j.digest = g.digest && j.start = g.start && j.mode = g.mode
        let alg := if s.fld COLL_CFG COLL_CFG_ALG = 3 then 0 else s.fld COLL_CFG COLL_CFG_ALG
        let small := s.fld COLL_CFG COLL_CFG_SMALL_MAX
        let pl := if alike then fieldsOf [(0, 2), (8, alg), (12, small)] else fieldsOf [(0, 3)]
        let s := { s with joins := s.joins.filter (fun (j : Join) => j.gid ≠ g.gid) }
        let s := ranks.foldl (fun (s : State) r => s.colSend h n ((g.newMembers.getD r (0, 0)).1) 0x22 g.start 0 pl) s
        match s.group h with
        | none => s
        | some g => if alike then s.rollcallReady g alg small else s.rollcallFail g .format

/-- What a ROLLCALL is refused with at once: the reserved bits and limits of R307. -/
def rollcallBad (d : Desc) : Bool :=
  let w := d.word 3
  let b := d.word 5
  bits w 31 29 ≠ 0 || bits w 28 16 = 0 || 4096 < bits w 28 16 || bits w 15 12 = 0 || 1 < bits w 11 10 || bits w 9 0 ≠ 0
    || bits b 63 48 = 0 || 1024 < bits b 63 48 || 1024 < bits b 47 32 || bits b 31 0 = 0 || bits (d.word 6) 63 32 ≠ 0 || d.word 7 ≠ 0

/-- A survivor's list equals the group's but for the COORD of one rank, which is no member yet (R311). -/
def replaceOk (old new : List (Coord × Coord)) : Bool :=
  old.length = new.length && old.map (·.2) = new.map (·.2)
    && (match (List.zip old new).filter (fun x => x.1.1 ≠ x.2.1) with
      | [x] => !(old.map (·.1)).contains x.2.1
      | _ => false)

/-- The reservation is made, and the member joins (R309). -/
def State.rollcallJoin (s : State) (n : RingId) (i : Index) (g : Group) : State :=
  let s := (s.mapDesc n i fun d => { d with phase := .working }).setGroup g
  if g.rank = 0 then s.rollcallCheck g.handle
  else
    s.colSend g.handle n ((g.newMembers.getD 0 (0, 0)).1) 0x22 g.start 0
      (fieldsOf [(0, 1), (8, g.digest.toNat), (16, g.rank), (18, g.rxbuf), (20, g.sbuf), (22, g.mode), (24, g.start.toNat)])

/-- ROLLCALL (R307 to R311). -/
def execRollcall (n : RingId) (i : Index) (s : State) : Result :=
  .next (match s.work n i 0x40 .started with
    | none => s
    | some d =>
      let w := d.word 3
      let gid : BitVec 32 := BitVec.ofNat 32 (bits w 63 32)
      let count := bits w 28 16
      let rep := bits w 11 10 = 1
      if rollcallBad d then s.endDesc n i .format 0 0
      else match s.locate true (d.word 4).toNat (4 * count) with
        | .bad st => s.endDesc n i st 0 0
        | .there _ _ => s.endDesc n i .format 0 0
        | .here o =>
          match s.readFor (s.me (s.ringAuth n)) o (4 * count) true with
          | (.err st, s) => s.endDesc n i st 0 0
          | (.wait, s) => s
          | (.ok bs, s) =>
            let l := listOf bs
            match l.findIdx? (fun m => m.1 = s.self) with
            | none => s.endDesc n i .format 0 0
            | some rank =>
              let new : Group :=
                { handle := 0, ctx := s.ringEvtCtx n, gid := gid, rank := rank, weight := bits w 15 12, members := l, rxbuf := bits (d.word 5) 63 48
                  sbuf := bits (d.word 5) 47 32, alg := 0, smallMax := 0, state := 1, nextSeq := 0, forming := some (n, i)
                  mode := bits w 11 10, start := BitVec.ofNat 32 (bits (d.word 6) 31 0), digest := crc64 bs, newMembers := l, before := 0
                  cur := none, held := [], past := [], early := [], sent := [], disband := none }
              if !listOk bs || (!rep && l.any (fun m => m.1 ≠ m.2)) then s.endDesc n i .format 0 0
              else match s.gidGroup gid with
                | some g =>
                  if !rep || !(g.state = 2 || g.state = 3) || g.cur.isSome || g.rank ≠ rank || !replaceOk g.members l then
                    s.endDesc n i .format 0 0
                  else if l.any (fun m => !s.present m.1) then s.endDesc n i .bound 0 0
                  else
                    s.rollcallJoin n i { g with state := 1, before := g.state, forming := some (n, i), mode := 1, start := new.start
                                                digest := new.digest, newMembers := l, weight := new.weight, early := [], sent := [] }
                | none =>
                  if l.any (fun m => !s.present m.1) then s.endDesc n i .bound 0 0
                  else match s.freeHandle with
                    | none => s.endDesc n i .bound 0 0
                    | some h =>
                      if s.freeUnits < new.rxbuf + new.sbuf then s.endDesc n i .bound 0 0
                      else s.rollcallJoin n i { new with handle := h })

/-- JOIN at rank 0. It is kept until rank 0 has posted its own ROLLCALL. -/
def execJoin (p : Packet) (s : State) : Result :=
  .next (
    if p.cls ≠ 2 || p.op ≠ 0x22 || ccop p ≠ 1 then s
    else match s.takeArrived p with
      | none => s
      | some s =>
        if !colOk p then s.reply p .format []
        else if s.controlFull then s.reply p .retryExhausted []
        else
          let pl := p.payload
          let j : Join := { gid := colGid p, src := p.src, rank := leAt pl 16 2, digest := BitVec.ofNat 64 (leAt pl 8 8)
                            start := BitVec.ofNat 32 (leAt pl 24 4), mode := leAt pl 22 1 }
          let s := { s with joins := s.joins.filter (fun (x : Join) => !(x.gid = j.gid && x.rank = j.rank)) ++ [j] }
          match s.gidGroup (colGid p) with
          | some g => s.rollcallCheck g.handle
          | none => s)

/-- A READY or MISMATCH of rank 0, for a group that is being formed here. -/
def State.fromRank0 (s : State) (p : Packet) (op : Nat) (run : State → Group → State) : State :=
  if p.cls ≠ 2 || p.op ≠ 0x22 || ccop p ≠ op then s
  else match s.takeArrived p with
    | none => s
    | some s =>
      if !colOk p then s.reply p .format []
      else match s.gidGroup (colGid p) with
      | none => s.reply p .format []
      | some g =>
        if g.forming.isSome && g.rank ≠ 0 && (g.newMembers.head?.map (·.1)) = some p.src then run s g else s

/-- READY. -/
def execReady (p : Packet) (s : State) : Result :=
  .next (s.fromRank0 p 2 fun s g => s.rollcallReady g (leAt p.payload 8 1) (leAt p.payload 12 4))

/-- ROLLCALL_MISMATCH. -/
def execRollcallMismatch (p : Packet) (s : State) : Result := .next (s.fromRank0 p 3 fun s g => s.rollcallFail g .format)

/-- ROLLCALL_TIMEOUT. -/
def execRollcallTimeout (n : RingId) (i : Index) (s : State) : Result :=
  .next (match s.groups.find? (fun (g : Group) => g.forming = some (n, i)) with
    | none => s
    | some g => s.rollcallFail g .timeout)

/-- DISBAND (R312). -/
def execDisband (n : RingId) (i : Index) (s : State) : Result :=
  .next (match s.work n i 0x42 .started with
    | none => s
    | some d =>
      let h := bits (d.word 3) 7 0
      if bits (d.word 3) 63 8 ≠ 0 || !(d.words.drop 4).all (· = 0) then s.endDesc n i .format 0 0
      else match s.group h with
        | none => s.endDesc n i .format 0 0
        | some g =>
          if g.state ≠ 2 && g.state ≠ 3 then s.endDesc n i .format 0 0
          else
            ((s.mapDesc n i fun d => { d with phase := .working }).setGroup { g with state := 4, disband := some (n, i) }).settleGroup h)

/-! ### What CSEND and CWAIT ask (R121, R122, R323) -/

/-- CSEND of core `k` of `len` bytes from offset `off`: none while it waits, else the status it retires with. -/
def State.csend (s : State) (k : CoreId) (h : Nat) (seq : BitVec 32) (fmt off len : Nat) (bs : List (Nat × Byte)) : Option Status × State :=
  match s.activeGroup h with
  | none => (some .format, s)
  | some g =>
    if g.state = 3 then (some .memberLost, s)
    else if seqBehind g.nextSeq seq then (some .collOrder, s)
    else match g.cur with
      | none => (none, s)
      | some c =>
        if c.seq ≠ seq then (none, s)
        else if !c.stream || c.score ≠ k.val then (some .collOrder, s)
        else if fmt ≠ c.fmt then (some .format, s)
        else if c.contribution g g.rank < off + len then (some .bound, s)
        else
          (some .ok, (s.mapColl h fun c =>
            { c with own := bs.foldl (fun (m : List (Nat × Byte)) (x : Nat × Byte) => Maps.set m (off + x.1) x.2) c.own }).collStep h)

/-- CWAIT: none while it waits, else its status (R122). No byte at all is present at once, also of a collective that is not posted yet. -/
def State.cwait (s : State) (h : Nat) (seq : BitVec 32) (spec : Bool) (off len : Nat) : Option Status :=
  match s.activeGroup h with
  | none => some .format
  | some g =>
    let mine := if seqBehind g.nextSeq seq then (g.past.head?.filter (fun c => c.seq = seq)) else
      (if (g.cur.map (·.seq)) = some seq then g.cur else g.held.find? (fun c => c.seq = seq))
    let done := seqBehind g.nextSeq seq
    match mine with
    | none => if done then some .collOrder else if spec && len = 0 then some .ok else none
    | some c =>
      let n := c.result g g.rank
      if !spec || n = 0 then (if done then some c.cwait else none)
      else if n < off + len then some .format
      else if len = 0 || off + len ≤ c.stored then some .ok
      else if done && c.cwait ≠ .ok then some c.cwait
      else none

end Sys2Proof.Machine
end

