-- ==== Sys2Proof/Machine/BroadRun.lean ====
section
/-! DEFINITION. The sequencer: starting and retiring broad instructions, and those of the COLL and CONTROL units (R83 to R86, R98 to R102,
R121 to R126, R141, R142, R298, R299). -/
namespace Sys2Proof.Machine

open Reg

/-! ### Units (R141, R142) -/

/-- The unit of an instruction: 0 MOVE, 1 ARRAY, 2 LANE, 3 COLL, 4 CONTROL. -/
def broadUnit (b : BroadWords) : Nat :=
  match b.op with
  | 0x00 => 0
  | 0x01 => 0
  | 0x02 => 0
  | 0x10 => 1
  | 0x11 => 1
  | 0x12 => if b.dest then 0 else 2
  | 0x30 => 3
  | 0x31 => 4
  | 0x32 => 4
  | 0x33 => 4
  | 0x34 => 4
  | 0x35 => 4
  | _ => 2

/-! ### CSEND (R121) -/

/-- The bytes of a CSEND's span by position, rows one after another, as far as its table's steps cover them. -/
def Core.sendBytes (c : Core) (b : BroadWords) (t : Table) : List (Nat × Byte) :=
  let n := fmtBits b.fmtA / 8
  let x := t.laneCtx b (fun _ => .nearest)
  (List.range b.rows).flatMap fun i => ((List.range b.cols).filter (x.cov i)).flatMap fun j => (List.range n).map fun m =>
    ((i * b.cols + j) * n + m, c.tbyte b.ta (x.src 0 i j).1 ((x.src 0 i j).2 * n + m))

/-- A CSEND that has read its tiles puts its bytes into the contribution, or waits for its collective. -/
def State.pollCsend (s : State) (k : CoreId) (b : Broad) : State :=
  let len := b.w.rows * b.w.cols * (fmtBits b.w.fmtA / 8)
  match s.csend k b.w.group (BitVec.ofNat 32 b.ga.toNat) b.w.fmtA b.gb.toNat len b.buf with
  | (some st, s) => s.finishBroad k b.id st
  | (none, s) => s

/-! ### CWAIT (R122) -/

/-- A CWAIT looks at its collective. -/
def State.pollCwait (s : State) (k : CoreId) (b : Broad) : State :=
  match s.cwait b.w.group (BitVec.ofNat 32 b.ga.toNat) b.w.spec b.gb.toNat b.gc.toNat with
  | some st => s.finishBroad k b.id st
  | none => s

/-! ### HEADCOUNT (R123, R298, R299) -/

/-- The destinations that a HEADCOUNT covers have no write outstanding in either epoch. -/
def State.headZero (s : State) (k : CoreId) (b : Broad) : Bool :=
  let zero := fun d => s.headcount k d false = 0 && s.headcount k d true = 0
  if b.w.scope = 0 then zero (BitVec.ofNat 12 (bits b.ga 11 0)) else (s.headDests k).all zero

/-- HEADCOUNT retires with the oldest unreported failure it covers, and clears them all. -/
def State.pollHeadcount (s : State) (k : CoreId) (b : Broad) : State :=
  let covered := fun (f : BwFail) => decide (b.w.scope = 1) || decide (f.dst = BitVec.ofNat 12 (bits b.ga 11 0))
  if (s.core k).queue.head?.map (·.id) ≠ some b.id || !s.headZero k b then s
  else
    let st := (((s.core k).bwFail.find? covered).map (·.status)).getD .ok
    (s.mapCore k fun c => { c with bwFail := c.bwFail.filter (fun f => !covered f) }).finishBroad k b.id st

/-! ### SYNC (R124) -/

/-- The SYNC that core `k` waits in. -/
def Core.syncHead (c : Core) : Option Broad :=
  c.queue.find? (fun b => b.w.op = 0x33 && b.phase = .started && b.left = 1)

/-- Everybody has arrived: the barrier is idle again, and each SYNC retires with `OK`. -/
def State.releaseBarrier (s : State) (r : Barrier) : State :=
  let s := { s with barriers := s.barriers.filter (fun (x : Barrier) => !(x.cluster = r.cluster && x.num = r.num)) }
  r.arrived.foldl (fun (s : State) k =>
    match (s.core k).syncHead with
    | some b => s.finishBroad k b.id .ok
    | none => s) s

/-- A SYNC arrives at its barrier once every earlier broad instruction has retired and every earlier access to the own device is
performed. An arrival of another context, or with another COUNT, does not count. -/
def State.pollSync (s : State) (k : CoreId) (b : Broad) : State :=
  let own := (s.fab.waiting ++ s.fab.outst).any (fun (r : Req) => r.owner.ofCore k && r.dst = s.self)
  if (s.core k).queue.head?.map (·.id) ≠ some b.id || b.left = 1 || own then s
  else
    let x := (s.core k).ctx
    let old := s.barriers.find? (fun (r : Barrier) => r.cluster = clusterOf k && r.num = b.w.barrier)
    let r := old.getD ⟨clusterOf k, b.w.barrier, b.w.count, x, []⟩
    if r.ctx ≠ x then s.finishBroad k b.id .perm
    else if r.count ≠ b.w.count then s.finishBroad k b.id .format
    else
      let r := { r with arrived := r.arrived ++ [k] }
      let s := s.mapBroad k b.id fun b => { b with left := 1 }
      let rest := s.barriers.filter (fun (x : Barrier) => !(x.cluster = r.cluster && x.num = r.num))
      if r.arrived.length = r.count then s.releaseBarrier r else { s with barriers := rest ++ [r] }

/-- Withdraw the arrival of core `k`; a barrier without arrivals is idle. -/
def State.withdraw (s : State) (k : CoreId) : State :=
  { s with barriers := (s.barriers.map (fun (b : Barrier) => { b with arrived := b.arrived.filter (fun j => j ≠ k) })).filter
             (fun (b : Barrier) => b.arrived ≠ []) }

/-- SYNC_TIMEOUT: the arrival is withdrawn. -/
def execSyncTimeout (k : CoreId) (s : State) : Result :=
  .next (match (s.core k).syncHead with
    | some b => (s.withdraw k).finishBroad k b.id .timeout
    | none => s)

/-! ### FARINV (R125) -/

/-- A line, keyed by its space-0b01 address, overlaps `n` bytes from address `a`. Addresses of other encodings match no line. -/
def farMatch (a n : Nat) (d : Coord) (base : Nat) : Bool :=
  let at_ := 2 ^ 62 + d.toNat * 2 ^ 48 + base
  n ≠ 0 && a / 2 ^ 60 = 4 && at_ < a + n && a < at_ + 64

/-- FARINV: every line, or those of a range, are invalid, also those that a load in flight would fill. -/
def State.farinv (s : State) (k : CoreId) (all : Bool) (a n : Nat) : State :=
  let hit := fun d base => all || farMatch a n d base
  (s.spoilFills (fun j => j = k) hit).mapCore k fun c => { c with cache := c.cache.filter (fun l => !hit l.coord l.base) }

/-! ### Waiting instructions -/

/-- What a started instruction of the COLL or CONTROL unit can do now. -/
def State.poll (s : State) (k : CoreId) (b : Broad) : State :=
  match b.w.op with
  | 0x30 => s.pollCsend k b
  | 0x31 => s.pollCwait k b
  | 0x32 => s.pollHeadcount k b
  | 0x33 => s.pollSync k b
  | 0x35 => if (s.core k).flips.any (fun f => f.tblsel = some b.id) then s else s.finishBroad k b.id .ok
  | _ => s

/-- Every waiting instruction of the COLL and CONTROL units. -/
def State.pollAll (s : State) (k : CoreId) : State :=
  ((s.core k).queue.filter (fun b => b.phase = .started && !b.due && 3 ≤ broadUnit b.w)).foldl (fun (s : State) b =>
    match s.broad k b.id with
    | some b => if b.phase = .started then s.poll k b else s
    | none => s) s

/-! ### Starting (R98, R142) -/

/-- The checks of an instruction that takes no table; none when it goes on. -/
def State.controlCheck (s : State) (b : Broad) : Option Status :=
  let w := b.w
  match w.op with
  | 0x31 =>
    if 2 ^ 32 ≤ b.ga.toNat || (s.activeGroup w.group).isNone || bits w.w3 31 0 = 0 || (w.spec && 2 ^ 32 ≤ b.gc.toNat) then some .format
    else none
  | 0x32 => if w.scope = 0 && !s.present (BitVec.ofNat 12 (bits b.ga 11 0)) then some .format else none
  | 0x33 => if w.count = 0 then some .ok else if 32 < w.count || bits w.w3 15 0 = 0 then some .format else none
  | 0x34 => if !w.dest && 2 ^ 32 ≤ b.gb.toNat then some .format else none
  | 0x35 => if w.isEmpty then some .ok else none
  | _ => none

/-- The sequencer's next instruction may start: its unit is free, and every earlier one has started (R142). A write to a 33rd destination
waits (R298). -/
def State.mayStartBroad (s : State) (k : CoreId) (b : Broad) : Bool :=
  !(s.core k).queue.any (fun x => x.phase = .started && broadUnit x.w = broadUnit b.w)
    && !(s.broadDests b).any (fun d => s.headFull k d)

/-- An instruction before entry `id` still waits for bytes of another device: steps behind it are held (R101). -/
def State.dataHeld (s : State) (k : CoreId) (id : Nat) : Bool :=
  ((s.core k).queue.takeWhile (fun x => x.id ≠ id)).any (fun x => x.phase = .started && x.left ≠ 0 && broadUnit x.w < 3)

/-- The steps of an instruction whose checks have passed: its whole effect, or as much of it as it can have now. -/
def State.beginBroad (s : State) (k : CoreId) (b : Broad) (t : Table) : State :=
  let s := s.mapBroad k b.id fun b => { b with due := false, pauses := some t.pauseCycles }
  if b.w.op = 0x30 then
    if 2 ^ 32 ≤ b.ga.toNat then s.finishBroad k b.id .format
    else (s.mapBroad k b.id fun b => { b with buf := (s.core k).sendBytes b.w t }).pollAll k
  else s.runBroad k b t

/-- Instructions whose steps were held go on, oldest first, once nothing before them waits for bytes (R101, R142). -/
def State.runDue (s : State) (k : CoreId) : State :=
  ((s.core k).queue.filter (·.due)).foldl (fun (s : State) b =>
    if s.dataHeld k b.id then s
    else match (s.core k).tableOf b with
      | some t => s.beginBroad k b t
      | none => s.finishBroad k b.id .format) s

/-- Start one instruction: its checks, then its steps, or the wait for what they need. -/
def State.startBroad (s : State) (k : CoreId) (b : Broad) : State :=
  let s := s.mapBroad k b.id fun b => { b with phase := .started }
  if broadUnit b.w = 4 then
    match s.controlCheck b with
    | some st => s.finishBroad k b.id st
    | none =>
      if b.w.op = 0x34 then (s.farinv k b.w.dest b.ga.toNat b.gb.toNat).finishBroad k b.id .ok
      else s.pollAll k
  else match s.startCheck k b with
    | (.retire st, s) => s.finishBroad k b.id st
    | (.run t, s) => if s.dataHeld k b.id then s.mapBroad k b.id fun b => { b with due := true } else s.beginBroad k b t

/-- BROAD_START: the oldest queued instruction starts when its unit is free. -/
def execBroadStart (k : CoreId) (s : State) : Result :=
  let s := s.pollAll k
  .next (match (s.core k).queue.find? (fun b => b.phase = .queued) with
    | none => s
    | some b => if s.mayStartBroad k b && !s.coresPaused then s.startBroad k b else s)

/-! ### Retiring (R85, R86) -/

/-- The pause cycles that an instruction took: those of its steps' PAUSE fields, and those of throttling and stalls, which are a matter of
time and so an open value; an instruction that ran no step takes none (R148, R150, log entry 27). -/
def State.countPauses (s : State) (k : CoreId) (b : Broad) : State :=
  match b.pauses with
  | none => s
  | some n =>
    let r := s.free
    r.2.mapCore k fun c => { c with pauseCycles := c.pauseCycles + BitVec.ofNat 64 n + r.1 }

/-- BROAD_RETIRE: the oldest instruction retires once it has finished. -/
def execBroadRetire (k : CoreId) (s : State) : Result :=
  let s := s.pollAll k
  .next (match (s.core k).queue with
    | b :: _ => if b.phase = .finished && !s.coresPaused then (s.countPauses k b).retireHead k b else s
    | [] => s)

/-- CWAIT_TIMEOUT: a collective that completes in the same cycle counts as complete. -/
def execCwaitTimeout (k : CoreId) (s : State) : Result :=
  let s := s.pollAll k
  .next (match (s.core k).queue.find? (fun b => b.w.op = 0x31 && b.phase = .started) with
    | some b => s.finishBroad k b.id .timeout
    | none => s)

end Sys2Proof.Machine
end

