-- ==== Sys2Proof/Machine/Line.lean ====
section
/-! DEFINITION. The line code of a channel: the Reed-Solomon codeword of a flit and its PAM4 symbols (R254, R255). -/
namespace Sys2Proof.Machine

/-- Multiply by the field's root x in GF(2^10) on x^10 + x^3 + 1. -/
def gfTimesX (a : BitVec 10) : BitVec 10 := if a.getLsbD 9 then (a <<< 1) ^^^ 0x009#10 else a <<< 1

/-- Product in GF(2^10): `k` bits of `b` from bit `k - 1` down. -/
def gfMulBits (a b : BitVec 10) : Nat → BitVec 10
  | 0 => 0
  | k + 1 => if b.getLsbD k then gfTimesXs k a ^^^ gfMulBits a b k else gfMulBits a b k
where
  gfTimesXs : Nat → BitVec 10 → BitVec 10
    | 0, a => a
    | k + 1, a => gfTimesXs k (gfTimesX a)

def gfMul (a b : BitVec 10) : BitVec 10 := gfMulBits a b 10

/-- α^i for α = x. -/
def gfPow : Nat → BitVec 10
  | 0 => 1
  | i + 1 => gfTimesX (gfPow i)

/-- Coefficients, highest power first, of p(x) * (x - r). -/
def mulRoot (p : List (BitVec 10)) (r : BitVec 10) : List (BitVec 10) :=
  List.zipWith (· ^^^ ·) (p ++ [0]) (0 :: p.map (fun c => gfMul c r))

/-- The generator polynomial: the product of (x - α^i) for i from 0 to 15, highest power first. -/
def rsGenerator : List (BitVec 10) := (List.range 16).foldl (fun p i => mulRoot p (gfPow i)) [1]

/-- One step of the division by the generator: `r` holds the 16 coefficients of the remainder, highest power first. -/
def rsStep (g r : List (BitVec 10)) (d : BitVec 10) : List (BitVec 10) :=
  let f := d ^^^ r.headD 0
  List.zipWith (· ^^^ ·) (r.drop 1 ++ [0]) (g.map (fun c => gfMul f c))

/-- The 16 parity symbols of 272 data symbols, the coefficient of x^15 first. -/
def rsParity (data : List (BitVec 10)) : List (BitVec 10) :=
  data.foldl (rsStep (rsGenerator.drop 1)) (List.replicate 16 0)

/-- The data symbols of a flit: its 2,720 bits as one little-endian number, symbol k being bits [10k + 9:10k] (R254). -/
def flitSymbols (f : Flit) : List (BitVec 10) :=
  let n := leNat (leBytes 16 f.ctl.toNat ++ f.payload ++ leBytes 4 f.crc.toNat)
  (List.range 272).map fun k => BitVec.ofNat 10 (n / 2 ^ (10 * k))

/-- The symbols of an alignment block (R255). -/
def blockSymbols (b : BitVec 2880) : List (BitVec 10) := (List.range 288).map fun k => BitVec.ofNat 10 (b.toNat / 2 ^ (10 * k))

/-- The codeword of a flit in the order sent. -/
def codeword (f : Flit) : List (BitVec 10) :=
  let d := flitSymbols f
  d ++ rsParity d

/-- PAM4 level of a bit pair by Gray code, 0 the lowest. -/
def pam4Level (pair : Nat) : Nat :=
  match pair with
  | 0 => 0
  | 1 => 1
  | 3 => 2
  | _ => 3

/-- The five PAM4 levels of a 10-bit symbol, most significant pair first. -/
def pam4 (a : BitVec 10) : List Nat := [4, 3, 2, 1, 0].map fun i => pam4Level (bits a (2 * i + 1) (2 * i))

/-- What an output puts on its line (R255): the PAM4 levels of a codeword or of an alignment block; nothing for other outputs. -/
def Output.levels : Output → List Nat
  | .flit _ f => (codeword f).flatMap pam4
  | .block _ b => (blockSymbols b).flatMap pam4
  | _ => []

end Sys2Proof.Machine
end

