-- ==== Sys2Proof/Machine/Light.lean ====
section
/-! DEFINITION. Channels, maps, the flits that are not data, sweeps and calibration: the operations that the optical rows share
(R226 to R244, R253 to R259). Channels are numbered as OPTIC_CH_STATE: c = 16 F + 8 direction + line. -/
namespace Sys2Proof.Machine

open Reg

/-! ### Channels and maps -/

def chan (F : Nat) (rx : Bool) (w : Nat) : Nat := 16 * F + (if rx then 8 else 0) + w
def chFiber (c : Nat) : Nat := c / 16
def chRx (c : Nat) : Bool := c / 8 % 2 = 1
def chLine (c : Nat) : Nat := c % 8
/-- Engine of a fiber pair (R226). -/
def engOf (F : Nat) : Nat := F / 8

/-- The eight channels of a fiber direction. -/
def dirChans (F : Nat) (rx : Bool) : List Nat := (List.range 8).map (chan F rx)

def State.chState (s : State) (c : Nat) : Nat := s.fld (OPTIC_CH_STATE c) OPTIC_CH_STATE_STATE
def State.setChState (s : State) (c st : Nat) : State := s.setFld (OPTIC_CH_STATE c) OPTIC_CH_STATE_STATE st
def State.fibState (s : State) (F : Nat) : Nat := s.fld (OPTIC_FIB_STATE F) OPTIC_FIB_STATE_STATE

/-- Set a pair's STATE; FIB_UP follows. -/
def State.setFib (s : State) (F st : Nat) : State :=
  let s := s.setFld (OPTIC_FIB_STATE F) OPTIC_FIB_STATE_STATE st
  let e := OPTIC_ENG_STATE (engOf F)
  s.setReg e (setBit (s.reg e) (8 + F % 8) (st = 2))

/-- The far device recorded for a pair (R236). -/
def State.farCoord (s : State) (F : Nat) : Coord := BitVec.ofNat 12 (s.fld (OPTIC_FIB_STATE F) OPTIC_FIB_STATE_FAR_COORD)
def State.farFiber (s : State) (F : Nat) : Nat := s.fld (OPTIC_FIB_STATE F) OPTIC_FIB_STATE_FAR_FIBER

/-- From stage 3 on lines 4 to 7 are in no map (R407). -/
def State.fewerLines (s : State) (m : Nat) : Nat := if 3 ≤ s.stage then m % 16 else m

def mapField (rx : Bool) : Field := if rx then OPTIC_FIB_STATE_RX_MAP else OPTIC_FIB_STATE_TX_MAP
def State.chMap (s : State) (F : Nat) (rx : Bool) : Nat := s.fld (OPTIC_FIB_STATE F) (mapField rx)
def State.setChMap (s : State) (F : Nat) (rx : Bool) (m : Nat) : State := s.setFld (OPTIC_FIB_STATE F) (mapField rx) (s.fewerLines m)
def State.inMap (s : State) (c : Nat) : Bool := (s.chMap (chFiber c) (chRx c)).testBit (chLine c)

def withBit (m w : Nat) (v : Bool) : Nat := if v then (if m.testBit w then m else m + 2 ^ w) else (if m.testBit w then m - 2 ^ w else m)

/-- Bits of a map. -/
def popcount (n m : Nat) : Nat := ((List.range n).filter (fun i => m.testBit i)).length

/-- A transmit channel carries light: its line is lit at the engine, and the engine is powered (R230, R232). -/
def State.txLit (s : State) (c : Nat) : Bool :=
  let e := engOf (chFiber c)
  let st := s.fld (OPTIC_ENG_STATE e) OPTIC_ENG_STATE_STATE
  (st = 1 || st = 2 || st = 3) && s.fld (OPTIC_LSM_STATE e) OPTIC_LSM_STATE_LASER_EN = 1
    && (s.fld (OPTIC_LSM_STATE e) OPTIC_LSM_STATE_LINE_LIT).testBit (chLine c)

/-- A line is lit for a ring's sweep (R244): by the module on transmit, by the report of the receive side on receive. -/
def State.lit (s : State) (c : Nat) : Bool :=
  if chRx c then s.chState c ≠ 0 && s.chState c ≠ 5 && !s.opt.rxDark.contains c else s.txLit c

/-! ### Flits sent (R253, R255, R258, R259) -/

/-- The number that the next data flit of a link will carry: the first one to be replayed while the link is down, or resets
(R253, R255, R257). -/
def State.nextSeq (s : State) (F ftype : Nat) : BitVec 24 :=
  let l := s.link (s.farCoord F)
  if l.resetting || (ftype = 4 && s.fibState F ≠ 2 && (s.txChannels (s.farCoord F)).isEmpty) then (l.replay.head?.map Flit.seq).getD l.txSeq
  else l.txSeq

/-- The control field of a flit that is not data. -/
def State.ctlOf (s : State) (c ftype extra : Nat) : BitVec 128 :=
  let l := s.link (s.farCoord (chFiber c))
  BitVec.ofNat 128 (ftype + chLine c * 2 ^ 4 + chFiber c * 2 ^ 8 + s.self.toNat * 2 ^ 14 + (s.nextSeq (chFiber c) ftype).toNat * 2 ^ 26
    + l.rxSeq.toNat * 2 ^ 50 + (if l.nak then 2 ^ 74 else 0) + 15 * 2 ^ 119 + extra)

def chanId (c : Nat) : ChanId := ⟨c % 1024, Nat.mod_lt _ (by decide)⟩

/-- CPOOL and CREDIT fields from what a link owes, and what it owes then (R272). -/
def creditFields (owed : List (Nat × Nat)) : Nat × List (Nat × Nat) :=
  let one := fun (l : List (Nat × Nat)) (lo : Nat) =>
    match l with
    | [] => (31 * 2 ^ lo, [])
    | (p, n) :: r => if n ≤ 4095 then (p * 2 ^ lo + n * 2 ^ (lo + 5), r) else (p * 2 ^ lo + 4095 * 2 ^ (lo + 5), (p, n - 4095) :: r)
  let a := one owed 75
  let b := one a.2 92
  (a.1 + b.1, b.2)

/-- Only fenced idle flits may go out on a pair: this device is dark, or the pair is being quiesced (R234, R249, R258). -/
def State.onlyFenced (s : State) (F : Nat) : Bool := s.dark || s.txOff F || s.fibState F = 3

/-- An idle flit, fenced where only those may go out; `chg` is a map change: MAPDIR and NEWMAP (R258). -/
def State.sendIdle (s : State) (c : Nat) (chg : Option (Bool × Nat)) : State :=
  let l := s.link (s.farCoord (chFiber c))
  let dark := s.onlyFenced (chFiber c)
  let cr := if dark then (31 * 2 ^ 75 + 31 * 2 ^ 92, l.owed) else creditFields l.owed
  let m := match chg with
    | some (d, m) => if dark then 0 else 2 ^ 109 + (if d then 2 ^ 110 else 0) + m * 2 ^ 111
    | none => 0
  let ctl := s.ctlOf c (if dark then 3 else 2) (cr.1 + m)
  let s := if dark then s else s.setLink { l with owed := cr.2 }
  let (pay, s) := s.prbs (chanId c) 320
  s.lineOut (chanId c) (mkFlit ctl pay)

/-- The transmit channel of a pair that an idle or control flit goes out on: the first in the map, else the first lit. -/
def State.lane (s : State) (F : Nat) : Option Nat :=
  ((dirChans F false).find? (fun c => s.inMap c)) <|> ((dirChans F false).find? (fun c => s.txLit c))

/-- Announce the transmit map (MAPDIR 0), from the next data flit on. -/
def State.announce (s : State) (F : Nat) : State :=
  match s.lane F with
  | some c => s.sendIdle c (some (false, s.chMap F false))
  | none => s

/-- Ask the far transmitter for a map (MAPDIR 1). -/
def State.askMap (s : State) (F m : Nat) : State :=
  let m := s.fewerLines m
  let s := { s with opt := { s.opt with asked := Maps.set s.opt.asked F m } }
  match s.lane F with
  | some c => s.sendIdle c (some (true, m))
  | none => s

/-- Put a control flit on the line once; not while only fenced idle flits may leave after a device fault (R234). -/
def State.putControl (s : State) (F : Nat) (payload : List Byte) : State :=
  if s.txOff F then s
  else
    match s.lane F with
    | some c => s.lineOut (chanId c) (mkFlit (s.ctlOf c 5 (31 * 2 ^ 75 + 31 * 2 ^ 92)) (padTo 320 payload))
    | none => s

/-- What a control flit is about: its operation, its pair, and its line where the operation names one (R259). -/
def ctrlSubject (payload : List Byte) : List Byte := payload.take 3

/-- Send a control flit that is repeated until it is answered; one about the same line takes the place of an earlier one (R259). -/
def State.sendControl (s : State) (F : FiberId) (op : Byte) (payload : List Byte) : State :=
  if s.txOff F then s
  else
    let l := s.link (s.farCoord F)
    let s := s.setLink { l with ctrl := l.ctrl.filter (fun x => !(x.fiber = F && ctrlSubject x.payload = ctrlSubject payload))
                                          ++ [⟨F, op, payload, 1⟩] }
    s.putControl F payload

/-- Answers are sent once. -/
def State.sendAnswer (s : State) (F : FiberId) (payload : List Byte) : State := s.putControl F payload

/-- Receiver quality figures: measured, so open values (R259). -/
def State.quality (s : State) : List Byte × State :=
  let (a, s) := s.free
  let (b, s) := s.free
  let (c, s) := s.free
  let (d, s) := s.free
  (leBytes 8 a.toNat ++ leBytes 8 b.toNat ++ leBytes 8 c.toNat ++ leBytes 8 d.toNat, s)

/-- Lines of a pair that this end receives correctly: 64 flits with matching indices (R255). -/
def State.rxGood (s : State) (F : Nat) : Nat :=
  (List.range 8).foldl (fun m w => withBit m w (Maps.get 0 s.opt.confirm (chan F true w) = 64)) 0

/-- A training flit on a transmit channel (R255). -/
def State.sendTraining (s : State) (c : Nat) : State :=
  if s.txOff (chFiber c) then s
  else
    let n := Maps.get 0 s.opt.tcount c
    let (q, s) := s.quality
    let (pat, s) := s.prbs (chanId c) 280
    let pay := leBytes 4 n ++ leBytes 1 (Maps.get 0 s.opt.tphase c) ++ leBytes 1 (s.rxGood (chFiber c)) ++ [0, 0] ++ q ++ pat
    let s := { s with opt := { s.opt with tcount := Maps.put 0 s.opt.tcount c ((n + 1) % 2 ^ 32) } }
    s.lineOut (chanId c) (mkFlit (s.ctlOf c 4 (31 * 2 ^ 75 + 31 * 2 ^ 92)) pay)

/-! ### Leaving and entering the map (R235) -/

/-- A channel leaves the map, both ends being told, and reads `st`. -/
def State.outCh (s : State) (c st : Nat) : State :=
  let F := chFiber c
  let was := s.inMap c
  let s := s.setChState c st
  let s := { s with opt := { s.opt with confirm := Maps.erase s.opt.confirm c } }
  if was then
    let m := withBit (s.chMap F (chRx c)) (chLine c) false
    let s := s.setChMap F (chRx c) m
    if chRx c then s.askMap F m else s.announce F
  else s

/-- A sweep is settling or ramping on a fiber direction. -/
def State.sweeping (s : State) (F : Nat) (rx : Bool) : Bool :=
  s.opt.sweeps.any fun w => chFiber w.ch = F && chRx w.ch = rx && (w.phase = 1 || w.phase = 2)

/-- The ring of a channel that is out is on its own line, so that only its confirmation is missing. -/
def State.ready (s : State) (c : Nat) : Bool :=
  let st := s.chState c
  st ≠ 0 && st ≠ 1 && st ≠ 6 && st ≠ 7 && !s.opt.frozen.contains c
    && !s.opt.sweeps.any (fun w => w.ch = c && w.phase ≠ 3)
    && (st ≠ 8 || !s.sweeping (chFiber c) (chRx c))
    && (Maps.get Pass.none s.opt.passes (engOf (chFiber c))).cur ≠ some (c % 128, false)

/-! ### Calibration (R240 to R242) -/

def State.pass (s : State) (e : Nat) : Pass := Maps.get Pass.none s.opt.passes e
def State.setPass (s : State) (e : Nat) (p : Pass) : State := { s with opt := { s.opt with passes := Maps.put Pass.none s.opt.passes e p } }

/-- Calibration of a channel may start: its pair is in service and nothing of its fiber direction is out (R241). -/
def State.canCal (s : State) (c : Nat) : Bool :=
  s.fibState (chFiber c) = 2 && (dirChans (chFiber c) (chRx c)).all (fun d => s.chState d = 2) && !s.opt.frozen.contains c

/-- A channel goes out for calibration. -/
def State.startCal (s : State) (e c : Nat) : State :=
  let s := s.setPass e { s.pass e with cur := some (c % 128, false) }
  let s := { s with opt := { s.opt with tphase := Maps.erase s.opt.tphase c } }
  s.outCh c 3

/-- Take the next channel of engine `e`, if none is out: one that SER_LIMIT asks for, then the pass in order, each deferred once; a
pass with nothing left has ended. -/
def State.nextCal (s : State) (e : Nat) : Nat → State
  | 0 => s
  | fuel + 1 =>
    let p := s.pass e
    if p.cur.isSome then s
    else
      match s.opt.urgent.find? (fun c => engOf (chFiber c) = e && s.canCal c) with
      | some c => { s with opt := { s.opt with urgent := s.opt.urgent.erase c } }.startCal e c
      | none =>
        match p.todo with
        | [] => if p.running then (s.setPass e { p with running := false }).wrapInc (OPTIC_ENG_STATE e) OPTIC_ENG_STATE_CAL_PASSES else s
        | (i, again) :: rest =>
          let c := 128 * e + i
          let f := s.fibState (chFiber c)
          if f = 3 || f = 5 then (s.setPass e { p with todo := rest }).nextCal e fuel
          else if s.canCal c then (s.setPass e { p with todo := rest }).startCal e c
          else if again then
            ((s.setPass e { p with todo := rest }).bump (OPTIC_ENG_STATE e) OPTIC_ENG_STATE_CAL_SKIPS).nextCal e fuel
          else (s.setPass e { p with todo := rest ++ [(i, true)] }).nextCal e fuel

/-- Go on with an engine's calibration. -/
def State.goCal (s : State) (e : Nat) : State := s.nextCal e (2 * (s.pass e).todo.length + 1)

/-- Calibration of channel `c` is over, if it was the one out. -/
def State.endCal (s : State) (c : Nat) : State :=
  let e := engOf (chFiber c)
  match (s.pass e).cur with
  | some (i, _) => if i = c % 128 then (s.setPass e { s.pass e with cur := none }).goCal e else s
  | none => s

/-! ### Sweeps (R244) -/

/-- Start the lowest waiting sweep of a fiber direction whose line is lit, when none is under way. -/
def State.startSweep (s : State) (F : Nat) (rx : Bool) : State :=
  if s.sweeping F rx then s
  else
    match (dirChans F rx).find? (fun c => s.opt.sweeps.any (fun w => w.ch = c && w.phase = 0) && s.lit c && !s.opt.frozen.contains c) with
    | none => s
    | some c =>
      let s := { s with opt := { s.opt with sweeps := s.opt.sweeps.map (fun (w : Sweep) => if w.ch = c then { w with phase := 1, count := 0 } else w) } }
      (s.bump (OPTIC_CH_STATE c) OPTIC_CH_STATE_RELOCKS).setChState c 1

/-- Ring `c` is to be relocked by sweep; the channel leaves the map. A frozen ring is not swept (R245). -/
def State.relock (s : State) (c : Nat) : State :=
  let s := s.outCh c (if s.chState c = 1 then 1 else 4)
  if s.opt.frozen.contains c || s.opt.sweeps.any (fun w => w.ch = c && w.phase ≠ 3) then s
  else
    let old := s.opt.sweeps.find? (fun w => w.ch = c)
    let s := { s with opt := { s.opt with sweeps := s.opt.sweeps.filter (fun (w : Sweep) => w.ch ≠ c) ++ [Sweep.mk c 0 0 ((old.map (fun (x : Sweep) => x.tries)).getD 0)] } }
    s.startSweep (chFiber c) (chRx c)

/-- Channel `c` is back in the map: its sweep and its calibration are over. -/
def State.backIn (s : State) (c : Nat) : State :=
  let s := s.setChState c 2
  let s := { s with opt := { s.opt with sweeps := s.opt.sweeps.filter (fun w => w.ch ≠ c) } }
  s.endCal c

/-! ### A pair leaves service -/

/-- A pair leaves service with STATE `st`: both maps empty, its channels read `ch` unless they failed or are dark, and their sweeps and
calibrations end. -/
def State.fiberOut (s : State) (F st ch : Nat) : State :=
  let s := ((s.setFib F st).setChMap F false 0).setChMap F true 0
  let cs := dirChans F false ++ dirChans F true
  let s := { s with opt := { s.opt with
    sweeps := s.opt.sweeps.filter (fun w => chFiber w.ch ≠ F)
    confirm := Maps.clear s.opt.confirm (16 * F) (16 * F + 16)
    tphase := Maps.clear s.opt.tphase (16 * F) (16 * F + 16)
    fenced := s.opt.fenced.filter (· ≠ F)
    rxDark := s.opt.rxDark.filter (fun c => chFiber c ≠ F)
    asked := Maps.erase s.opt.asked F } }
  let s := cs.foldl (fun (s : State) c => if s.chState c = 6 then s else s.setChState c ch) s
  cs.foldl (fun (s : State) c => s.endCal c) s

/-! ### Light source modules (R232, R234) -/

/-- Lines of module `m` that light when its lasers go on: not those that stay dark until it is replaced; the line that the spare carries;
of the others, those with their POWER in range and no FAULT (R246, R247, R250). -/
def State.linesLit (s : State) (m : Nat) : Nat :=
  let r := OPTIC_LSM_STATE m
  (List.range 8).foldl (fun l w => withBit l w (!(Maps.get 0 s.opt.dead m).testBit w
    && ((s.fld r OPTIC_LSM_STATE_SPARE_USED = 1 && s.fld r OPTIC_LSM_STATE_SPARE_LINE = w)
      || ((Maps.get 255 s.opt.power m).testBit w && !(s.fld r OPTIC_LSM_STATE_LASER_FAULT).testBit w)))) 0

/-- Drive LASER_EN of module `m` as R232 says; STATE, LINE_LIT and the contact follow. -/
def State.driveLaser (s : State) (m : Nat) : State :=
  let r := OPTIC_LSM_STATE m
  let e := s.fld (OPTIC_ENG_STATE m) OPTIC_ENG_STATE_STATE
  let on := s.fld (OPTIC_LSM_CTRL m) OPTIC_LSM_CTRL_ENABLE = 1 && s.fld r OPTIC_LSM_STATE_PRESENT = 1
    && s.fld r OPTIC_LSM_STATE_STATE ≠ 4 && (e = 1 || e = 2) && !s.failsafe && !s.inRecovery && !(s.opt.shut && !(s.snap.salvage && m < 4))
  if on && s.fld r OPTIC_LSM_STATE_LASER_EN = 0 then
    let s := (s.setFld r OPTIC_LSM_STATE_LASER_EN 1).setFld r OPTIC_LSM_STATE_LINE_LIT (s.linesLit m)
    let s := s.setFld r OPTIC_LSM_STATE_STATE (if Maps.get 0 s.opt.dead m = 0 then 2 else 3)
    s.emit (.pin "LASER_EN" m 1)
  else if !on && s.fld r OPTIC_LSM_STATE_LASER_EN = 1 then
    let s := (s.setFld r OPTIC_LSM_STATE_LASER_EN 0).setFld r OPTIC_LSM_STATE_LINE_LIT 0
    let s := if s.fld r OPTIC_LSM_STATE_STATE = 2 || s.fld r OPTIC_LSM_STATE_STATE = 3 then s.setFld r OPTIC_LSM_STATE_STATE 1 else s
    s.emit (.pin "LASER_EN" m 0)
  else s

/-- Write a module's CTRL over its sideband. -/
def State.writeCtrl (s : State) (m : ModuleId) (v : BitVec 16) : State :=
  { s with opt := { s.opt with ctrl := Maps.put 0 s.opt.ctrl m v } }.emit (.sideband m 0x04 v)

/-- Pairs in service of engine `m` whose transmit direction has lost all its light read 0, and INFO is posted (R237). -/
def State.dimPairs (s : State) (m : Nat) : State :=
  (List.range 8).foldl (fun (s : State) i =>
    let F := 8 * m + i
    if s.fibState F = 2 && !(dirChans F false).any s.txLit then (s.fiberOut F 0 0).post (event 0x0004 (BitVec.ofNat 48 F) none) else s) s

/-- The light of module `m` is gone: the transmit channels of its engine leave their maps. -/
def State.darken (s : State) (m : Nat) : State :=
  (((List.range 8).flatMap fun i => dirChans (8 * m + i) false).foldl
    (fun (s : State) c => if s.chState c = 6 || s.chState c = 7 then s else (s.outCh c 5).endCal c) s).dimPairs m

/-- Sweeps that waited for a line of module `m` start where it is lit (R244). -/
def State.sweepLit (s : State) (m : Nat) : State := (List.range 8).foldl (fun (s : State) i => s.startSweep (8 * m + i) false) s

end Sys2Proof.Machine
end

