-- ==== Sys2Proof/Machine/Optics.lean ====
section
/-! DEFINITION. The optical rows: light source modules, lock loops, calibration, sweeps, laser faults, spare fibers, exchange of engines
(R226 to R251). -/
namespace Sys2Proof.Machine

open Reg

/-! ### Light source modules (R232 to R234) -/

/-- LASER_SHUTDOWN: 10 µs after a device fault or in fail-safe every LASER_EN goes low and the transmitters are dark (R234). In fail-safe
the reset of the whole device begins then (R381). -/
def execLaserShutdown (s : State) : Result :=
  .next (if !s.txFenced then s
    else
      let s := { s with opt := { s.opt with shut := true } }
      let s := (List.range 8).foldl (fun (s : State) m => if s.snap.salvage && m < 4 then s else (s.driveLaser m).darken m) s
      if s.failsafe then s.deviceReset s.fsResetCause else s)

/-- The sideband of a module does not answer: the module is unusable (R233). -/
def State.sidebandLost (s : State) (m : ModuleId) : State :=
  let r := OPTIC_LSM_STATE m
  if s.fld r OPTIC_LSM_STATE_STATE = 4 then s
  else
    let s := s.setFld r OPTIC_LSM_STATE_STATE 4
    let s := (s.driveLaser m).darken m
    s.post (event 0x0106 (BitVec.ofNat 48 m.val) none)

/-- Detail of LASER_FAILED. -/
def laserDetail (m line : Nat) : BitVec 48 := Config.detail 0x0105 [m, line]

/-- A line stays dark until its module is replaced; a module with its lasers on reads 3 (R247). -/
def State.lineLost (s : State) (m : ModuleId) (line : Nat) : State :=
  let r := OPTIC_LSM_STATE m
  let s := { s with opt := { s.opt with dead := Maps.put 0 s.opt.dead m (withBit (Maps.get 0 s.opt.dead m) line true) } }
  let s := if s.fld r OPTIC_LSM_STATE_STATE = 2 then s.setFld r OPTIC_LSM_STATE_STATE 3 else s
  s.post (event 0x0105 (laserDetail m line) none)

/-- Line `w` of module `m` is dark: its transmit rings are frozen, its channels leave their maps and their calibrations end
(R245, R247). On a quiesced engine nothing changes (R249). -/
def State.freezeLine (s : State) (m : ModuleId) (w : Nat) : State :=
  let e := s.fld (OPTIC_ENG_STATE m) OPTIC_ENG_STATE_STATE
  let s := s.setFld (OPTIC_LSM_STATE m) OPTIC_LSM_STATE_LINE_LIT (withBit (s.fld (OPTIC_LSM_STATE m) OPTIC_LSM_STATE_LINE_LIT) w false)
  if e = 3 || e = 4 then s
  else
    (((List.range 8).map fun i => chan (8 * m.val + i) false w).foldl
      (fun (s : State) c =>
        let s := { s with opt := { s.opt with frozen := Maps.add s.opt.frozen c
                                              sweeps := s.opt.sweeps.filter (fun w => w.ch ≠ c) } }
        let s := if s.chState c = 6 || s.chState c = 7 then s else s.outCh c 5
        (s.endCal c).startSweep (chFiber c) false) s).dimPairs m

/-- Laser `w` is reported failed (R246, R247): the spare is tuned to its line when it is free and sound. -/
def State.laserFault (s : State) (m : ModuleId) (w : Nat) : State :=
  let r := OPTIC_LSM_STATE m
  if s.fld r OPTIC_LSM_STATE_SPARE_USED = 0 && s.fld r OPTIC_LSM_STATE_SPARE_FAULT = 0 && Maps.get 8 s.opt.settling m = 8 then
    let s := { s with opt := { s.opt with settling := Maps.put 8 s.opt.settling m w } }
    let v : BitVec 16 := setBits (setBits (Maps.get 0 s.opt.ctrl m) 2 0 w) 3 3 1
    (s.writeCtrl m v).post (event 0x0105 (laserDetail m w) none)
  else s.lineLost m w

/-- What STATUS has reported of module `m` is acted on: a spare that fails while it carries a line leaves it dark; each laser reported
failed is covered or lost, once (R246, R247). -/
def State.settleFaults (s : State) (m : ModuleId) : State :=
  let r := OPTIC_LSM_STATE m
  let s := if s.fld r OPTIC_LSM_STATE_SPARE_FAULT = 1 && s.fld r OPTIC_LSM_STATE_SPARE_USED = 1 then
      let w := s.fld r OPTIC_LSM_STATE_SPARE_LINE
      let s := (s.setFld r OPTIC_LSM_STATE_SPARE_USED 0).setFld r OPTIC_LSM_STATE_SPARE_LINE 0
      (s.freezeLine m w).lineLost m w
    else s
  let open_ := fun (w : Nat) => (s.fld r OPTIC_LSM_STATE_LASER_FAULT).testBit w && !(Maps.get 0 s.opt.dead m).testBit w
    && Maps.get 8 s.opt.settling m ≠ w && !(s.fld r OPTIC_LSM_STATE_SPARE_USED = 1 && s.fld r OPTIC_LSM_STATE_SPARE_LINE = w)
  ((List.range 8).filter open_).foldl (fun (s : State) w => s.laserFault m w) s

/-- The lasers of module `m` go on where R232 lets them; what its STATUS reported before is acted on then, and waiting sweeps start. -/
def State.lightModule (s : State) (m : ModuleId) : State :=
  let s := s.driveLaser m
  if s.fld (OPTIC_LSM_STATE m) OPTIC_LSM_STATE_LASER_EN = 0 then s else (s.settleFaults m).sweepLit m

/-- LSM_ALERT: STATUS is read; `none` when three transactions in a row are not acknowledged, those of an earlier write among them
(R233, R246, R247, log entry 81). A module that reads STATE 4 is unusable and is not read. -/
def execLsmAlert (m : ModuleId) (status : Option (BitVec 16)) (s : State) : Result :=
  .next (
    let r := OPTIC_LSM_STATE m
    if s.fld r OPTIC_LSM_STATE_PRESENT = 0 || s.fld r OPTIC_LSM_STATE_STATE = 4 then s
    else match status with
    | none => s.sidebandLost m
    | some v =>
      let s := (s.setFld r OPTIC_LSM_STATE_LASER_FAULT (bits v 15 8)).setFld r OPTIC_LSM_STATE_SPARE_FAULT (bits v 7 7)
      let e := s.fld (OPTIC_ENG_STATE m) OPTIC_ENG_STATE_STATE
      if e = 3 || e = 4 then s else s.settleFaults m)

/-- LSM_PRESENCE_CHANGE: a module is seated or removed; a seated one that is enabled gets LASER_ON, and is unusable if it does not
acknowledge that (R232, R233). With a module the lines that it left dark go (R247). -/
def execLsmPresenceChange (m : ModuleId) (present : Seating) (s : State) : Result :=
  .next (
    let r := OPTIC_LSM_STATE m
    match present with
    | .seated acked =>
      if s.fld r OPTIC_LSM_STATE_PRESENT = 1 then s
      else
        let s := (s.setFld r OPTIC_LSM_STATE_PRESENT 1).setFld r OPTIC_LSM_STATE_STATE 1
        if s.fld (OPTIC_LSM_CTRL m) OPTIC_LSM_CTRL_ENABLE = 0 then s
        else if !acked then s.sidebandLost m
        else (s.writeCtrl m 0x0100).lightModule m
    | .removed =>
      if s.fld r OPTIC_LSM_STATE_PRESENT = 0 then s
      else
        let s := s.setFld r OPTIC_LSM_STATE_PRESENT 0
        let s := (s.driveLaser m).darken m
        let s := { s with opt := { s.opt with
          ctrl := Maps.erase s.opt.ctrl m, settling := Maps.erase s.opt.settling m, power := Maps.erase s.opt.power m
          dead := Maps.erase s.opt.dead m, frozen := s.opt.frozen.filter (fun c => engOf (chFiber c) ≠ m.val) } }
        s.setReg r 0)

/-- OPTIC_LSM_ENABLE: 0 holds LASER_EN low; 1 reads ID, sets LASER_ON, checks each POWER against its calibrated range with the spare
off, and lets LASER_EN go high (R232, R249, R250). A module without the ID is handled as one that does not answer, and a line whose POWER
is out of its range as dark (log entry 15). -/
def State.lsmEnable (s : State) (m : ModuleId) (enable : Bool) (id : Option (BitVec 16)) (powersOk : BitVec 8) : State :=
  let s := s.setFld (OPTIC_LSM_CTRL m) OPTIC_LSM_CTRL_ENABLE (b2n enable)
  let r := OPTIC_LSM_STATE m
  if !enable then (s.driveLaser m).darken m
  else if s.fld r OPTIC_LSM_STATE_PRESENT = 0 || s.fld r OPTIC_LSM_STATE_STATE = 4 then s
  else if id ≠ some 0x7405 then s.sidebandLost m
  else
    let s := { s with opt := { s.opt with power := Maps.put 255 s.opt.power m powersOk.toNat, settling := Maps.erase s.opt.settling m } }
    let s := (s.setFld r OPTIC_LSM_STATE_SPARE_USED 0).setFld r OPTIC_LSM_STATE_SPARE_LINE 0
    (s.writeCtrl m 0x0100).lightModule m

/-- OPTIC_LSM_ENABLE. -/
def execOpticLsmEnable (src : Source) (m : ModuleId) (enable : Bool) (id : Option (BitVec 16)) (powersOk : BitVec 8) (s : State) : Result :=
  .next (if s.mayUse src then s.lsmEnable m enable id powersOk else s)

/-! ### Idle flits, loss of light, lock loops (R236 to R239) -/

/-- IDLE_FLIT_TIMER: a lit transmit channel sends an idle flit, in a map or out of it; a training flit while its pair is not in service
and while it is out for calibration, and a fenced idle flit where only those may go out; a map still asked for is asked again (R234, R236,
R249, R255, R258). -/
def execIdleFlitTimer (c : ChanId) (s : State) : Result :=
  .next (
    let F := chFiber c.val
    if chRx c.val || !s.txLit c.val then s
    else if s.txOff F || s.fibState F = 3 then s.sendIdle c.val none
    else if s.fibState F = 2 && s.inMap c.val then
      s.sendIdle c.val ((s.opt.asked.find? (fun a => a.1 = F)).map (fun a => (true, a.2)))
    else if s.fibState F = 2 && s.chState c.val ≠ 3 then s.sendIdle c.val none
    else s.sendTraining c.val)

/-- LIGHT_LOST: the receive direction of a pair in service goes dark (R237); a pair that only trains reads dark again. -/
def execLightLost (f : FiberId) (s : State) : Result :=
  .next (
    let st := s.fibState f
    if st = 2 then ((s.fiberOut f 0 0)).post (event 0x0004 (BitVec.ofNat 48 f.val) none)
    else if st = 1 || st = 4 then s.fiberOut f 0 0
    else s)

/-- LOCK_LOOP_UPDATE: the loop moves a ring's heater to hold it on its line; not while the heater is frozen or sweeps (R238, R245). -/
def execLockLoopUpdate (c : ChanId) (heater : BitVec 16) (s : State) : Result :=
  .next (if s.opt.frozen.contains c.val || s.chState c.val = 1 || s.chState c.val = 0 then s
    else s.setFld (OPTIC_CH_STATE c) OPTIC_CH_STATE_HEATER heater.toNat)

/-- The tones found on line w: bit v for the tone of ring v. -/
def toneAt (tones : List (BitVec 8)) (w : Nat) : Nat := (tones.getD w 0).toNat

/-- LINE_MONITOR: the ring tones on each line of a transmit fiber (R238, R239). A ring is found off its own line when its tone shows on
another one. -/
def execLineMonitor (f : FiberId) (tones : List (BitVec 8)) (s : State) : Result :=
  .next (
    let s := (List.range 8).foldl (fun (s : State) w =>
      s.setFld (OPTIC_CH_STATE (chan f false w)) OPTIC_CH_STATE_TONES (min 3 (popcount 8 (toneAt tones w)))) s
    let ts := (List.range 8).foldl (fun m w => Maps.put 0 m (chan f false w) (toneAt tones w)) s.opt.tones
    let s := { s with opt := { s.opt with tones := ts } }
    if s.fibState f ≠ 2 then s
    else
      let several := fun w => decide (2 ≤ popcount 8 (toneAt tones w))
      let leaves := fun v => (several v) || (List.range 8).any (fun w => several w && (toneAt tones w).testBit v)
      let stray := fun v => (List.range 8).any (fun w => w ≠ v && several w && (toneAt tones w).testBit v)
      let lost := (List.range 8).filter (fun w => toneAt tones w = 0 && s.inMap (chan f false w))
      let s := ((List.range 8).filter leaves).foldl (fun (s : State) v =>
        if s.inMap (chan f false v) then s.outCh (chan f false v) 4 else s) s
      ((List.range 8).filter (fun v => stray v || lost.contains v)).foldl (fun (s : State) v =>
        if s.chState (chan f false v) = 6 || s.chState (chan f false v) = 7 then s else s.relock (chan f false v)) s)

/-! ### Calibration (R240 to R242) -/

/-- Begin a pass over the 128 channels of an engine. -/
def State.startPass (s : State) (e : Nat) : State :=
  if s.fld (OPTIC_ENG_STATE e) OPTIC_ENG_STATE_STATE ≠ 2 || (s.pass e).running then s
  else (s.setPass e { s.pass e with todo := (List.range 128).map (fun i => (i, false)), running := true }).goCal e

/-- CAL_PASS_START: a scheduled pass (R240). -/
def execCalPassStart (e : EngineId) (s : State) : Result :=
  .next (if e.val = 8 || s.fld OPTIC_CAL_CFG OPTIC_CAL_CFG_ENABLE = 0 || s.fld OPTIC_CAL_CFG OPTIC_CAL_CFG_PERIOD_MS = 0 then s else s.startPass e)

/-- CAL_NOW: 1 written to OPTIC_ENG_CTRL.CAL_NOW (R251). -/
def State.calNow (s : State) (e : EngineId) : State := if e.val = 8 then s else s.startPass e

/-- CAL_NOW. -/
def execCalNow (src : Source) (e : EngineId) (s : State) : Result := .next (if s.mayUse src then s.calNow e else s)

/-- CAL_SCAN_DONE: the scan of the channel that is out ends with a setpoint, or the ring goes to a relock sweep (R242). -/
def execCalScanDone (c : ChanId) (setpoint : Option (BitVec 16)) (s : State) : Result :=
  .next (
    let e := engOf (chFiber c)
    if (s.pass e).cur ≠ some (c.val % 128, false) then s
    else match setpoint with
    | some h =>
      let s := s.setPass e { s.pass e with cur := some (c.val % 128, true) }
      let s := { s with opt := { s.opt with confirm := Maps.erase s.opt.confirm c } }
      s.setFld (OPTIC_CH_STATE c) OPTIC_CH_STATE_HEATER h.toNat
    | none => (s.relock c).endCal c)

/-- SER_WINDOW: a 1 ms window of a channel ends with too many corrected symbols; at most once per 100 ms the channel is the next to be
calibrated (R242). -/
def execSerWindow (c : ChanId) (corrected : Nat) (s : State) : Result :=
  .next (
    let lim := s.fld OPTIC_CAL_CFG OPTIC_CAL_CFG_SER_LIMIT
    let at_ := s.opt.urgentAt.find? (fun a => a.1 = c.val)
    let soon := match at_ with
      | some a => decide (s.devTime.toNat < a.2 + 100000000)
      | none => false
    if s.fld OPTIC_CAL_CFG OPTIC_CAL_CFG_ENABLE = 0 || lim = 0 || corrected ≤ lim || soon || s.opt.urgent.contains c.val then s
    else
      ({ s with opt := { s.opt with urgent := s.opt.urgent ++ [c.val]
                                    urgentAt := Maps.set s.opt.urgentAt c s.devTime.toNat } }).goCal (engOf (chFiber c)))

/-! ### Sweeps (R244) -/

/-- The receive side's report of the lines that carry light on the fiber of pair `F`. -/
def State.rxLight (s : State) (F lit : Nat) : State :=
  let mark := fun (l : List Nat) (c : Nat) => if lit.testBit (chLine c) then Maps.del l c else Maps.add l c
  { s with opt := { s.opt with rxDark := (dirChans F true).foldl mark s.opt.rxDark } }

/-- SWEEP_STEP: the sweep of ring `c` settles, with a report of the lines lit at the receive side; meets a crossing; or fails. It locks at
the crossing whose count is the number of lit lines from 0 to its own, and is deferred while its own line is dark. -/
def execSweepStep (c : ChanId) (ev : SweepEvent) (s : State) : Result :=
  .next (
    let F := chFiber c
    let rx := chRx c
    match s.opt.sweeps.find? (fun w => w.ch = c.val) with
    | none => s
    | some w =>
      let put := fun (s : State) (v : Sweep) => { s with opt := { s.opt with sweeps := s.opt.sweeps.map (fun (x : Sweep) => if x.ch = c.val then v else x) } }
      match ev with
      | .settled lit =>
        let s := if rx then s.rxLight F lit.toNat else s
        if w.phase ≠ 1 then s.startSweep F rx
        else if !s.lit c then ((put s { w with phase := 0, count := 0 }).setChState c 4).startSweep F rx
        else
          let s := ((List.range (chLine c)).map (chan F rx)).foldl (fun (s : State) d => if s.inMap d then s.outCh d 8 else s) s
          put s { w with phase := 2 }
      | .crossing line heater =>
        if w.phase ≠ 2 || !(s.lit (chan F rx line.toNat) || line.toNat = chLine c) then s
        else
          let goal := ((List.range (chLine c)).filter (fun v => s.lit (chan F rx v))).length + 1
          if w.count + 1 = goal then
            let s := put s { w with phase := 3, count := w.count + 1 }
            let s := (s.setFld (OPTIC_CH_STATE c) OPTIC_CH_STATE_HEATER heater.toNat).setChState c 4
            let s := { s with opt := { s.opt with confirm := Maps.erase s.opt.confirm c } }
            s.startSweep F rx
          else put s { w with count := w.count + 1 }
      | .failed =>
        if w.phase = 0 then s
        else if 2 ≤ w.tries then
          let s := { s with opt := { s.opt with sweeps := s.opt.sweeps.filter (fun x => x.ch ≠ c.val) } }
          let s := (s.outCh c 6).startSweep F rx
          s.post (event 0x0104 (BitVec.ofNat 48 c.val) none)
        else
          let s := put s { w with phase := 0, count := 0, tries := w.tries + 1 }
          (s.outCh c 4).startSweep F rx)

/-! ### Laser faults (R245 to R247) -/

/-- LINE_POWER_LOW: a line falls below half its calibrated power. -/
def execLinePowerLow (m : ModuleId) (line : Fin 8) (s : State) : Result := .next (s.freezeLine m line)

/-- SPARE_SETTLED: the spare has settled on the failed line, its laser goes off and the spare on; or it has not, and the line stays dark. -/
def execSpareSettled (m : ModuleId) (settled : Bool) (s : State) : Result :=
  .next (
    let w := Maps.get 8 s.opt.settling m
    if w = 8 then s
    else
      let s := { s with opt := { s.opt with settling := Maps.erase s.opt.settling m } }
      if settled && s.fld (OPTIC_LSM_STATE m) OPTIC_LSM_STATE_SPARE_FAULT = 0 then
        let r := OPTIC_LSM_STATE m
        let s := s.writeCtrl m (setBits (setBits (Maps.get 0 s.opt.ctrl m) 7 7 1) 3 3 0)
        let s := (s.setFld r OPTIC_LSM_STATE_SPARE_USED 1).setFld r OPTIC_LSM_STATE_SPARE_LINE w
        (s.setFld r OPTIC_LSM_STATE_LINE_LIT (withBit (s.fld r OPTIC_LSM_STATE_LINE_LIT) w (s.fld r OPTIC_LSM_STATE_LASER_EN = 1))).sweepLit m
      else s.lineLost m w)

/-- RINGS_REACQUIRED: bit i of `fibers`: the ring of fiber i reacquired from its held setpoint; any other goes to a relock sweep. -/
def execRingsReacquired (m : ModuleId) (fibers : BitVec 8) (s : State) : Result :=
  .next (
    let r := OPTIC_LSM_STATE m
    if s.fld r OPTIC_LSM_STATE_SPARE_USED = 0 then s
    else
      let w := s.fld r OPTIC_LSM_STATE_SPARE_LINE
      (List.range 8).foldl (fun (s : State) i =>
        let c := chan (8 * m.val + i) false w
        if !s.opt.frozen.contains c then s
        else
          let s := { s with opt := { s.opt with frozen := s.opt.frozen.filter (· ≠ c) } }
          if fibers.getLsbD i then (if s.chState c = 5 then s.setChState c 4 else s) else s.relock c) s)

/-! ### Spare fibers (R248) -/

/-- The fiber pair of spare x (R227). -/
def spareFiber (x : Nat) : Nat := 8 * ([2, 5, 7].getD x 2) + 5

/-- A pair needs a spare: failed or crossed, or short of channels in a direction, whatever else it reads; a quiesced or substituted pair
does not. -/
def State.shortPair (s : State) (F : Nat) : Bool :=
  let k := min 8 (s.fld OPTIC_SUBST_CFG OPTIC_SUBST_CFG_MIN_CH)
  let st := s.fibState F
  st = 4 || st = 6 || (st ≠ 3 && st ≠ 5 && (popcount 8 (s.chMap F false) < k || popcount 8 (s.chMap F true) < k))

def State.spareFree (s : State) (x : Nat) : Bool :=
  s.fld (OPTIC_SUBST x) OPTIC_SUBST_ACTIVE = 0 && s.fld (OPTIC_SUBST x) OPTIC_SUBST_REQUESTED = 0 && s.fld (OPTIC_SUBST x) OPTIC_SUBST_PIN = 0

/-- The spare that covers, or is asked to cover, a pair. -/
def State.spareOf (s : State) (F : Nat) : Option Nat :=
  [0, 1, 2].find? fun x => (s.fld (OPTIC_SUBST x) OPTIC_SUBST_ACTIVE = 1 || s.fld (OPTIC_SUBST x) OPTIC_SUBST_REQUESTED = 1)
    && s.fld (OPTIC_SUBST x) OPTIC_SUBST_FIBER = F

/-- SUBST_POLICY: the policy requests a spare for a pair, on another engine where it can. -/
def execSubstPolicy (f : FiberId) (s : State) : Result :=
  .next (
    if s.fld OPTIC_SUBST_CFG OPTIC_SUBST_CFG_AUTO = 0 || !s.shortPair f || (s.spareOf f).isSome
      || [0, 1, 2].any (fun x => spareFiber x = f.val) then s
    else
      let free := [0, 1, 2].filter s.spareFree
      match (free.find? (fun x => engOf (spareFiber x) ≠ engOf f)) <|> free.head? with
      | none => s
      | some x =>
        let s := (s.setFld (OPTIC_SUBST x) OPTIC_SUBST_REQUESTED 1).setFld (OPTIC_SUBST x) OPTIC_SUBST_FIBER f.val
        let s := s.setFld (OPTIC_SUBST x) OPTIC_SUBST_FAR_COORD (s.farCoord f).toNat
        s.post (event 0x0108 (Config.detail 0x0108 [x, f.val, (s.farCoord f).toNat]) none))

/-- The spare takes over the traffic of its pair. -/
def State.substitute (s : State) (x : Nat) : State :=
  let s := (s.setFld (OPTIC_SUBST x) OPTIC_SUBST_REQUESTED 0).setFld (OPTIC_SUBST x) OPTIC_SUBST_ACTIVE 1
  s.fiberOut (s.fld (OPTIC_SUBST x) OPTIC_SUBST_FIBER) 5 7

/-- The spare's fields clear, all but PIN; INFO is posted. -/
def State.clearSpare (s : State) (x : Nat) : State :=
  let F := s.fld (OPTIC_SUBST x) OPTIC_SUBST_FIBER
  let s := s.setReg (OPTIC_SUBST x) (s.reg (OPTIC_SUBST x) &&& OPTIC_SUBST_PIN.mask)
  s.post (event 0x0005 (Config.detail 0x0005 [x, F]) none)

/-- Traffic moves back to the pair: all its channels are in their maps. -/
def State.moveBack (s : State) (F : Nat) : State :=
  let s := ((s.setFib F 2).setChMap F false 255).setChMap F true 255
  (dirChans F false ++ dirChans F true).foldl (fun (s : State) c => s.setChState c 2) s

/-- The substitution of spare `x` ends: traffic moves back to a pair that is whole, and any other trains again. -/
def State.endSubst (s : State) (x : Nat) : State :=
  let F := s.fld (OPTIC_SUBST x) OPTIC_SUBST_FIBER
  (if s.rxGood F = 255 then s.moveBack F else s.fiberOut F 1 3).clearSpare x

/-- SUBST_RELEASED: the failed pair has been whole for 60 s. -/
def execSubstReleased (x : Fin 3) (s : State) : Result :=
  .next (if s.fld (OPTIC_SUBST x) OPTIC_SUBST_ACTIVE = 0 then s
    else
      let F := s.fld (OPTIC_SUBST x) OPTIC_SUBST_FIBER
      ((s.moveBack F).fiberOut (spareFiber x) 1 3).clearSpare x)

/-! ### Exchange of engines (R249, R250) -/

/-- Pairs in service outside engine `e`. -/
def State.pairsOff (s : State) (e : Nat) : List Nat := (List.range 64).filter fun F => s.fibState F = 2 && engOf F ≠ e

/-- The fibers of the block ports and of the system ports (R227). -/
def blockFibers : List Nat := (List.range 8).map (fun e => 8 * e + 6) ++ (List.range 4).map (fun e => 8 * e + 7)
def systemFibers : List Nat := (List.range 4).map (fun e => 8 * (e + 4) + 7)

/-- The loaded topology names a block port, or a system port, of this device. -/
def State.usesBlock (s : State) : Bool :=
  let t := s.topo s.activeEpoch
  (List.range 256).any fun i =>
    let w := t.word (0x240 + 4 * i)
    i / 16 ≠ podOf s.self && bit w 31 && bits w 3 0 = slotOf s.self

def State.usesSystem (s : State) : Bool :=
  let t := s.topo s.activeEpoch
  (List.range 16).any fun b =>
    let w := t.word (0x640 + 4 * b)
    b ≠ blockOf s.self && bit w 31 && bits w 3 0 = slotOf s.self

/-- Quiescing engine `e` would cut off a pod peer of the loaded topology, or all block ports or all system ports that it uses
(log entry 16). -/
def State.quiesceCuts (s : State) (e : Nat) : Bool :=
  let t := s.topo s.activeEpoch
  let left := s.pairsOff e
  s.fld ROUTE_TBL_STATE ROUTE_TBL_STATE_ACTIVE_VALID = 1
    && ((List.range 16).any (fun sl =>
          let c := coordOf (blockOf s.self) (podOf s.self) sl
          sl ≠ slotOf s.self && t.present c && !left.any (fun F => s.farCoord F = c))
        || (s.usesBlock && !left.any (fun F => blockFibers.contains F))
        || (s.usesSystem && !left.any (fun F => systemFibers.contains F)))

/-- A write of QUIESCE = 1 to engine `e` (R249), its FORCE bit already stored. The bit is stored but where the write is refused; an engine
that is neither in bring-up nor in service has nothing to quiesce (R8, R251). -/
def State.quiesce (s : State) (e : EngineId) : State :=
  let r := OPTIC_ENG_STATE e
  if s.fld r OPTIC_ENG_STATE_STATE ≠ 1 && s.fld r OPTIC_ENG_STATE_STATE ≠ 2 then s.setFld (OPTIC_ENG_CTRL e) OPTIC_ENG_CTRL_QUIESCE 1
  else if e.val ≠ 8 && s.fld (OPTIC_ENG_CTRL e) OPTIC_ENG_CTRL_FORCE = 0 && s.quiesceCuts e then s.setFld r OPTIC_ENG_STATE_QUIESCE_REFUSED 1
  else
    let s := (s.setFld (OPTIC_ENG_CTRL e) OPTIC_ENG_CTRL_QUIESCE 1).setFld r OPTIC_ENG_STATE_STATE 3
    if e.val = 8 then s
    else
      let s := [0, 1, 2].foldl (fun (s : State) x =>
        if engOf (spareFiber x) = e.val && s.fld (OPTIC_SUBST x) OPTIC_SUBST_ACTIVE = 1 then
          s.endSubst x else s) s
      let s := s.setPass e { s.pass e with todo := [], running := false }
      (List.finRange 8).foldl (fun (s : State) (i : Fin 8) =>
        let F : FiberId := ⟨(8 * e.val + i.val) % 64, Nat.mod_lt _ (by decide)⟩
        if s.fibState F = 0 then s
        else (s.sendControl F 0x03 [0x03, BitVec.ofNat 8 F.val]).fiberOut F 3 7) s

/-- QUIESCE: QUIESCE = 1 written with FORCE as given. -/
def execQuiesce (src : Source) (e : EngineId) (force : Bool) (s : State) : Result :=
  .next (if s.mayUse src then (s.setFld (OPTIC_ENG_CTRL e) OPTIC_ENG_CTRL_FORCE (b2n force)).quiesce e else s)

/-- QUIESCE_DONE: the replay buffers have drained; transmitters go dark, LASER_EN low, the socket is unpowered. -/
def execQuiesceDone (e : EngineId) (s : State) : Result :=
  .next (if s.fld (OPTIC_ENG_STATE e) OPTIC_ENG_STATE_STATE ≠ 3 then s
    else
      let s := s.setFld (OPTIC_ENG_STATE e) OPTIC_ENG_STATE_STATE 4
      if e.val = 8 then s.emit (.pin "SOCKET_POWER" 8 0)
      else (s.driveLaser e.val).emit (.pin "SOCKET_POWER" e.val 0))

/-- Every ring of engine `e` is to be swept, the fibers side by side (R250). -/
def State.sweepAll (s : State) (e : Nat) : State :=
  let cs := (List.range 128).map (128 * e + ·)
  let s := { s with opt := { s.opt with
    sweeps := s.opt.sweeps.filter (fun w => engOf (chFiber w.ch) ≠ e) ++ cs.map (fun c => ⟨c, 0, 0, 0⟩) } }
  let s := cs.foldl (fun (s : State) c => s.setChState c 4) s
  (List.range 8).foldl (fun (s : State) i => (s.startSweep (8 * e + i) false).startSweep (8 * e + i) true) s

/-- A socket is powered and its part code read (R250): code 0 is an empty socket (log entry 17). -/
def State.powerSocket (s : State) (e : EngineId) (part : BitVec 16) : State :=
  let r := OPTIC_ENG_STATE e
  let s := s.setFld (OPTIC_ENG_CTRL e) OPTIC_ENG_CTRL_QUIESCE 0
  let s := s.setFld r OPTIC_ENG_STATE_PART part.toNat
  if part = 0 then s.setFld r OPTIC_ENG_STATE_STATE 0
  else if part.toNat ≠ (if e.val = 8 then 0x7411 else 0x7410) then
    (s.setFld r OPTIC_ENG_STATE_STATE 6).post (event 0x0107 (Config.detail 0x0107 [e.val, part.toNat]) none)
  else
    let s := (s.setFld r OPTIC_ENG_STATE_STATE 1).emit (.pin "SOCKET_POWER" e.val 1)
    if e.val = 8 then s
    else
      let m : ModuleId := ⟨e.val % 8, Nat.mod_lt _ (by decide)⟩
      let s := (List.range 8).foldl (fun (s : State) i =>
        let F := 8 * e.val + i
        let s := if s.fibState F = 5 then s else s.fiberOut F 1 3
        { s with opt := { s.opt with frozen := s.opt.frozen.filter (fun c => chFiber c ≠ F) } }) s
      let s := (s.sweepAll e.val).lightModule m
      ((List.range 8).filter (Maps.get 0 s.opt.dead m).testBit).foldl (fun (s : State) w => s.freezeLine m w) s

/-- ENGINE_BRING_UP: 0 written to QUIESCE; an engine without power is powered (R250, R251). -/
def execEngineBringUp (src : Source) (e : EngineId) (part : BitVec 16) (s : State) : Result :=
  .next (
    let st := s.fld (OPTIC_ENG_STATE e) OPTIC_ENG_STATE_STATE
    if !s.mayUse src then s
    else if st = 0 || st = 4 || st = 6 then s.powerSocket e part
    else s.setFld (OPTIC_ENG_CTRL e) OPTIC_ENG_CTRL_QUIESCE 0)

/-- The sweeps of a bring-up are over and its channels calibrated: heater setpoints are measured, so open values. A channel that is not in
a map by then waits for its link (R250, log entry 82). -/
def State.endSweeps (s : State) (e : Nat) : State :=
  let s := { s with opt := { s.opt with sweeps := s.opt.sweeps.filter (fun w => engOf (chFiber w.ch) ≠ e) } }
  ((List.range 128).map (128 * e + ·)).foldl (fun (s : State) c =>
    let (v, s) := s.free
    let s := s.setFld (OPTIC_CH_STATE c) OPTIC_CH_STATE_HEATER (v.toNat % 65536)
    if s.chState c = 1 || s.chState c = 4 then s.setChState c 3 else s) s

/-- Bring-up of an engine ends: it is in service; a pair whose bit in `fibers` is 0 carries no light and is absent (R237, R250). -/
def State.engineUp (s : State) (e : EngineId) (fibers : BitVec 8) : State :=
  let s := s.setFld (OPTIC_ENG_STATE e) OPTIC_ENG_STATE_STATE 2
  if e.val = 8 then s
  else (List.range 8).foldl (fun (s : State) i =>
    let F := 8 * e.val + i
    if !fibers.getLsbD i && s.fibState F = 1 then s.fiberOut F 0 0 else s) (s.endSweeps e)

/-- ENGINE_UP. -/
def execEngineUp (e : EngineId) (fibers : BitVec 8) (s : State) : Result :=
  .next (if s.fld (OPTIC_ENG_STATE e) OPTIC_ENG_STATE_STATE ≠ 1 then s else s.engineUp e fibers)

end Sys2Proof.Machine
end

