-- ==== Sys2Proof/Machine/Link.lean ====
section
/-! DEFINITION. The receiving side of links: checks, block lock, link-up, maps, control flits, sequence and replay, whole packets, and
their way through this device (R237, R243, R252 to R260, R265, R269 to R273, R280, R281). -/
namespace Sys2Proof

open Machine

def Flit.mapChg (f : Flit) : Bool := bit f.ctl 109
def Flit.mapDir (f : Flit) : Bool := bit f.ctl 110
def Flit.newMap (f : Flit) : Nat := bits f.ctl 118 111
def Flit.creditA (f : Flit) : Nat × Nat := (bits f.ctl 79 75, bits f.ctl 91 80)
def Flit.creditB (f : Flit) : Nat × Nat := (bits f.ctl 96 92, bits f.ctl 108 97)
/-- The SEQ that the next data flit will carry, as a received flit tells it (R253). -/
def Flit.next (f : Flit) : BitVec 24 := if f.ftype = 1 then f.seq + 1 else f.seq
/-- Byte `i` of the payload. -/
def Flit.byte (f : Flit) (i : Nat) : Nat := (f.payload.getD i 0).toNat

end Sys2Proof

namespace Sys2Proof.Machine

open Reg

/-! ### Answers of a device that drops a packet (R281) -/

/-- Answer for a dropped packet; a dropped RSP is not answered. The answer names the packet's destination as its source, so that its
requester knows the pair it belongs to (log entry 80). -/
def State.answerDrop (s : State) (p : Packet) (st : Status) : State := if p.cls = 1 then s else s.replyFrom p.dst p st []

/-! ### Replay (R256, R257) -/

/-- `e` is not ahead of `a` in the sequence of 24 bits. -/
def seqLe (e a : BitVec 24) : Bool := (a - e).toNat < 2 ^ 23

/-- The far end has every data flit before `a`. -/
def State.ackTo (s : State) (nb : Coord) (a : BitVec 24) : State :=
  let l := s.link nb
  let rest := l.replay.filter (fun f => !seqLe (f.seq + 1) a)
  if !seqLe a l.txSeq || rest.length = l.replay.length then s
  else s.setLink { l with replay := rest, replays := 0, unacked := l.unacked.filter (fun u => !seqLe u.1 a) }

/-- Send the unacknowledged data flits again, in SEQ order. -/
def State.replayAll (s : State) (nb : Coord) : State :=
  (s.link nb).replay.foldl (fun (s : State) f =>
    let l := s.link nb
    let chans := s.txChannels nb
    if chans.isEmpty then s
    else
      let c := chans.getD (l.dealt % max 1 chans.length) 0
      let ctl := setBits (setBits (setBits f.ctl 6 4 (c.val % 8)) 13 8 (c.val / 16)) 73 50 l.rxSeq.toNat
      (s.setLink { l with dealt := l.dealt + 1 }).lineOut c (mkFlit ctl f.payload)) s

/-- The link resets: its channels retrain, the replay buffers stay (R257). -/
def State.linkReset (s : State) (nb : Coord) : State :=
  let fs := s.fibersTo nb
  let s := s.setLink { s.link nb with resetting := true, replays := 0, nak := false, early := [] }
  fs.foldl (fun (s : State) (F : FiberId) => (s.bump (ROUTE_FIB_CNT F) ROUTE_FIB_CNT_RESETS).fiberOut F.val 1 3) s

/-- A NAK: the flits from ACK on are replayed; after the sixteenth replay of one flit the link resets instead. -/
def State.nakIn (s : State) (nb : Coord) (F : Nat) : State :=
  let s := s.bump (ROUTE_FIB_CNT F) ROUTE_FIB_CNT_REPLAYS
  let l := s.link nb
  if l.replay = [] then s
  else if 16 ≤ l.replays then s.linkReset nb
  else (s.setLink { l with replays := l.replays + 1 }).replayAll nb

/-- Credits returned (R272). -/
def State.creditIn (s : State) (nb : Coord) (c : Nat × Nat) : State :=
  if 30 ≤ c.1 then s
  else
    let l := s.link nb
    s.setLink { l with used := Maps.put 0 l.used c.1 (Maps.get 0 l.used c.1 - c.2) }

/-! ### Held packets (R272, R273, R281) -/

/-- Classes in the order in which an output takes them: MGT, RSP, then COL, REQ and MSG in turn (R273). -/
def classOrder (turn : Nat) : List Nat := [4, 1] ++ (List.range 3).map (fun i => [2, 0, 3].getD ((turn + i) % 3) 0)

/-- The group that a held COL packet counts for in the round robin of R324; every other class is one flow. -/
def Held.flow (h : Held) : Nat := if h.pkt.cls = 2 then (colGid h.pkt).toNat else 0

/-- The held packets of a class that can go to `nb`: each the oldest of its pool and its flow, with credits for all its units. -/
def State.sendable (s : State) (nb : Coord) (cls : Nat) : List Held :=
  let cs := s.fab.held.filter (fun h => h.nb = nb && h.pkt.cls = cls)
  cs.filter fun h =>
    s.hasCredit nb h.pkt
      && (cs.takeWhile (fun g => g ≠ h)).all (fun g => g.flow ≠ h.flow
        || poolOf g.pkt.cls g.pkt.leg g.pkt.hop ≠ poolOf h.pkt.cls h.pkt.leg h.pkt.hop)

/-- Bytes that a group may send a round: WEIGHT × 8,192; a group of which this device has no record counts as of weight 1
(R324, log entry 80). -/
def State.quantum (s : State) (gid : Nat) : Nat :=
  8192 * max 1 (((s.groups.find? (fun (g : Group) => g.gid.toNat = gid && g.state ≠ 0)).map (·.weight)).getD 1)

/-- The deficits of the groups that have a packet to send; a group new among them starts with nothing, one without a packet loses what it
had. -/
def deficitsFor (old : List (Nat × Nat)) (ready : List Nat) : List (Nat × Nat) :=
  old.filter (fun e => ready.contains e.1)
    ++ (ready.eraseDups.filter (fun g => !old.any (fun e => e.1 = g))).map (fun g => (g, 0))

/-- Deficit round robin: the first group whose deficit covers its packet sends it; the turn passes, and the next group gains its quantum,
until one does. -/
def State.drr (s : State) (ready : List Held) : Nat → List (Nat × Nat) → Option Held × List (Nat × Nat)
  | 0, l => (none, l)
  | _ + 1, [] => (none, [])
  | n + 1, (g, d) :: rest =>
    match ready.find? (fun h => h.flow = g && h.pkt.plen ≤ d) with
    | some h => (some h, (g, d - h.pkt.plen) :: rest)
    | none =>
      match rest ++ [(g, d)] with
      | [] => (none, [])
      | (h, e) :: more => s.drr ready n ((h, e + s.quantum h) :: more)

/-- The held packet of a class that goes next to `nb`, and the deficits then: COL packets share their turn by R324, those of every other
class go in their order. -/
def State.nextOf (s : State) (nb : Coord) (cls : Nat) : Option (Held × List (Nat × Nat)) :=
  let ready := s.sendable nb cls
  let old := (s.link nb).deficit
  if cls = 2 then
    let l := deficitsFor old (ready.map Held.flow)
    let r := s.drr ready (2 * l.length + 1) l
    r.1.map (fun h => (h, r.2))
  else ready.head?.map (fun h => (h, old))

/-- The held packet that goes next to `nb`, in the order of the classes, and the deficits of the groups then. -/
def State.nextHeld (s : State) (nb : Coord) : Option (Held × List (Nat × Nat)) :=
  (classOrder (s.link nb).turn).findSome? (s.nextOf nb)

/-- Send one held packet to `nb`. -/
def State.sendHeld (s : State) (nb : Coord) : State :=
  if !s.linkUp nb then s
  else match s.nextHeld nb with
    | none => s
    | some (h, l) =>
      let s := { s with fab := { s.fab with held := s.fab.held.erase h } }
      let s := s.setLink { s.link nb with deficit := l }
      let s := s.sendPacket nb h.pkt
      match h.via with
      | some (from_, p) => s.owe from_ p
      | none => s

/-- Send up to `n` held packets. -/
def State.pumpHeld (s : State) (nb : Coord) : Nat → State
  | 0 => s
  | n + 1 => (s.sendHeld nb).pumpHeld nb n

/-- A link that returns to service takes what is held for it. -/
def State.pump (s : State) (nb : Coord) : State := s.pumpHeld nb s.fab.held.length

/-- CREDIT_SEND: credits for a held packet are there. -/
def execCreditSend (nb : Coord) (s : State) : Result := .next (s.sendHeld nb)

/-- LINK_HOLD_TIMEOUT: the oldest packet held for a dark or fenced next hop has waited LINK_HOLD_US: it is dropped and answered with
`EPOCH` (R281). -/
def execLinkHoldTimeout (nb : Coord) (s : State) : Result :=
  .next (if !s.dark && s.linkUp nb then s
    else match s.fab.held.find? (fun h => h.nb = nb) with
      | none => s
      | some h =>
        let s := { s with fab := { s.fab with held := s.fab.held.erase h } }
        let s := match h.via with
          | some (from_, p) => s.owe from_ p
          | none => s
        s.answerDrop h.pkt .epoch)

/-! ### Every flit received (R236, R237, R243, R256) -/

/-- A flit is discarded as bad (R256). -/
def State.badFlit (s : State) (c : ChanId) : State :=
  let s := { s with opt := { s.opt with confirm := Maps.erase s.opt.confirm c } }
  s.bump (ROUTE_FIB_CNT (chFiber c)) ROUTE_FIB_CNT_FLIT_BAD

/-- A pair is crossed (R237). -/
def State.crossed (s : State) (F fidx : Nat) : State :=
  let far := s.farCoord F
  (s.fiberOut F 6 3).post (event 0x0103 (Config.detail 0x0103 [F, fidx, far.toNat]) none)

/-- A flit of line v arrived on receive channel w (R243): the channel leaves the map, the far end is told. -/
def State.mismatch (s : State) (c : ChanId) (v : Nat) : State :=
  let F : FiberId := ⟨chFiber c % 64, Nat.mod_lt _ (by decide)⟩
  let s := { s with opt := { s.opt with confirm := Maps.erase s.opt.confirm c } }
  let s := s.bump (OPTIC_CH_STATE c) OPTIC_CH_STATE_MISMATCHES
  let s := if s.inMap c then s.outCh c 4 else s
  s.sendControl F 0x01 [0x01, BitVec.ofNat 8 F.val, BitVec.ofNat 8 (chLine c), BitVec.ofNat 8 v]

/-- A good flit counts toward the confirmation of its channel; the sixty-fourth brings a channel that is out back (R239). -/
def State.confirmed (s : State) (c : ChanId) : State :=
  let F := chFiber c
  let n := min 64 (Maps.get 0 s.opt.confirm c + 1)
  let s := { s with opt := { s.opt with confirm := Maps.put 0 s.opt.confirm c n } }
  if n = 64 && s.fibState F = 2 && !s.inMap c && s.ready c then s.askMap F (withBit (s.chMap F true) (chLine c) true) else s

/-- A good flit on a channel tells how far its data has gone (R256). -/
def State.note (s : State) (c : ChanId) (f : Flit) : State := { s with opt := { s.opt with seen := Maps.set s.opt.seen c f.next } }

/-- The checks that every received flit passes; whether it is to be acted on. The indices are compared with the recorded ones on a pair
in service; only an IDLE flit that returns a fenced pair to service is not compared, since its indices are recorded afresh (R237, R258, log
entry 18). -/
def State.flitIn (s : State) (c : ChanId) (f : Flit) (symErrs : Nat) : Bool × State :=
  let F := chFiber c
  let t := f.ftype
  if !chRx c then (false, s)
  else if !s.opt.locked.contains c.val || 8 < symErrs || !f.crcOk || t = 0 || 5 < t || f.payload.length ≠ 320 then (false, s.badFlit c)
  else
    let s := if 0 < symErrs then s.bump (ROUTE_FIB_CNT F) ROUTE_FIB_CNT_FEC_CORR else s
    if s.fibState F = 2 && !(t = 2 && s.opt.fenced.contains F) && (f.fidx ≠ s.farFiber F || f.scoord ≠ s.farCoord F) then
      (false, s.crossed F f.fidx)
    else if f.widx ≠ chLine c then (false, s.mismatch c f.widx)
    else (true, (s.note c f).confirmed c)

/-- ACK, NAK and credits of a flit (R253, R256, R272). -/
def State.controlIn (s : State) (c : ChanId) (f : Flit) : State :=
  let nb := f.scoord
  let s := s.ackTo nb f.ack
  let s := if f.nak then s.nakIn nb (chFiber c) else s
  let s := (s.creditIn nb f.creditA).creditIn nb f.creditB
  if s.fab.held = [] then s else s.pump nb

/-! ### Data flits (R252, R256, R260, R280) -/

/-- The packet that some whole units hold. -/
def packetOf (l : List Byte) : Packet :=
  let w1 := wordAt l 8
  let n := bits w1 13 0
  { w0 := wordAt l 0, w1 := w1, w2 := wordAt l 16, w3 := wordAt l 24, payload := (l.drop 32).take n
    pcrc := BitVec.ofNat 32 (leAt l (32 + n) 4) }

/-- What a flit's units are taken into: the part of a packet, the units it lacks, the packets complete, whether padding was met. -/
structure Taking where
  part : List Byte
  lacks : Nat
  whole : List Packet
  stop : Bool
  deriving DecidableEq, Repr

/-- One unit in order (R260). -/
def Taking.unit (t : Taking) (u : List Byte) : Taking :=
  if t.stop then t
  else if t.lacks = 0 then
    if u.all (· = 0xFF) then { t with stop := true }
    else
      let n := bits (wordAt u 8) 13 0
      let more := if n = 0 then 0 else (n + 4 + 31) / 32
      if more = 0 then { t with whole := t.whole ++ [packetOf u] } else { t with part := u, lacks := more }
  else if t.lacks = 1 then { t with part := [], lacks := 0, whole := t.whole ++ [packetOf (t.part ++ u)] }
  else { t with part := t.part ++ u, lacks := t.lacks - 1 }

/-- The ten units of a flit. -/
def unitsIn : Nat → List Byte → List (List Byte)
  | 0, _ => []
  | n + 1, l => l.take 32 :: unitsIn n (l.drop 32)

/-- A data flit in its order: its units are taken, from FIRST on when no packet is begun; whole packets wait for their route. -/
def State.takeData (s : State) (nb : Coord) (f : Flit) : State :=
  let l := s.link nb
  let us := (unitsIn 10 f.payload).drop (if l.lacks = 0 then f.first else 0)
  let t := us.foldl Taking.unit ⟨l.part, l.lacks, [], false⟩
  let s := s.setLink { l with rxSeq := l.rxSeq + 1, nak := false, part := t.part, lacks := t.lacks, met := true }
  let s := if l.nak then { s with opt := { s.opt with seen := [] } } else s
  { s with fab := { s.fab with inbox := s.fab.inbox ++ t.whole.map (fun p => (nb, p)) } }

/-- Flits that came ahead of their place are taken as far as the sequence goes on (R252). -/
def State.takeAhead (s : State) (nb : Coord) : Nat → State
  | 0 => s
  | n + 1 =>
    let l := s.link nb
    match l.early.find? (fun e => e.2.seq = l.rxSeq) with
    | none => s
    | some e => ((s.setLink { l with early := l.early.erase e }).takeData nb e.2).takeAhead nb n

/-- Receive channels in the maps of a link. -/
def State.rxChannels (s : State) (nb : Coord) : List Nat :=
  ((List.range 64).filter (fun F => s.fibState F = 2 && s.farCoord F = nb)).flatMap fun F => (dirChans F true).filter s.inMap

/-- The next data flit is lost: every channel that could still bring it has gone past it (R256, log entry 80). -/
def State.gap (s : State) (nb : Coord) : Bool :=
  let q := (s.link nb).rxSeq
  !(s.link nb).nak && !(s.rxChannels nb).isEmpty
    && (s.rxChannels nb).all (fun c => (s.opt.seen.find? (fun e => e.1 = c)).any (fun e => !seqLe e.2 q))

/-- A gap is answered with NAK, and what arrived behind it is discarded (R256). -/
def State.answerGap (s : State) (nb : Coord) (F : Nat) : State :=
  if !s.gap nb then s
  else
    let s := s.setLink { s.link nb with nak := true, early := [] }
    match s.lane F with
    | some t => s.sendIdle t none
    | none => s

/-- Flits of one channel that the deskew buffer holds: 2 µs of 13.6 ns (R254, R255). -/
def deskewDepth : Nat := 147

/-- A data flit that is ahead of its place waits in the deskew buffer of its channel; behind a gap that is answered it is discarded. -/
def State.holdData (s : State) (nb : Coord) (c : Nat) (f : Flit) : State :=
  let l := s.link nb
  if l.nak || deskewDepth ≤ (l.early.filter (fun e => e.1 = c)).length || l.early.any (fun e => e.2.seq = f.seq) then s
  else s.setLink { l with early := l.early ++ [(c, f)] }

/-- DATA_FLIT: symErrs is how many symbols of the codeword were wrong. Before the device has flipped a topology table it discards data
unacknowledged (R384); a flit ahead of its place waits for the ones before it, a gap is answered with NAK, and a repeated flit is dropped
(R252, R256). -/
def execDataFlit (c : ChanId) (f : Flit) (symErrs : Nat) (s : State) : Result :=
  .next (
    match s.flitIn c f symErrs with
    | (false, s) => s
    | (true, s) =>
      if f.ftype ≠ 1 || !s.fab.flipped || s.fibState (chFiber c) ≠ 2 then s
      else
        let nb := f.scoord
        let s := s.controlIn c f
        let l := s.link nb
        if f.seq = l.rxSeq then (s.takeData nb f).takeAhead nb l.early.length
        else if seqLe f.seq l.rxSeq then s
        else (s.holdData nb c f).answerGap nb (chFiber c))

/-! ### Idle flits and map changes (R235, R258) -/

/-- The far transmitter announced its map: the receive map of this end (MAPDIR 0). -/
def State.farMap (s : State) (F m : Nat) : State :=
  let m := s.fewerLines m
  let s := { s with opt := { s.opt with asked := s.opt.asked.filter (fun a => a.1 ≠ F) } }
  let s := (List.range 8).foldl (fun (s : State) w =>
    let c := chan F true w
    let s := s.setChMap F true (withBit (s.chMap F true) w (m.testBit w && (s.chState c = 2 || s.ready c)))
    if m.testBit w && s.ready c then s.backIn c
    else if !m.testBit w && s.chState c = 2 then s.setChState c 3 else s) s
  match (s.pass (engOf F)).cur with
  | some (i, false) =>
    if chRx i && chFiber (128 * engOf F + i) = F && m.testBit (chLine i) then
      let c := 128 * engOf F + i
      let p := s.pass (engOf F)
      let s := s.setPass (engOf F) { p with cur := none, todo := p.todo ++ [(i, true)] }
      ((s.setChState c 2).setChMap F true (withBit (s.chMap F true) (chLine c) true)).goCal (engOf F)
    else s
  | _ => s

/-- The far receiver asks for a transmit map (MAPDIR 1), and is answered with the map announced. While this end has a channel of the
direction out for calibration, its own request proceeds (R241). -/
def State.wantMap (s : State) (F m : Nat) : State :=
  let m := s.fewerLines m
  let own := match (s.pass (engOf F)).cur with
    | some (i, false) => !chRx i && chFiber (128 * engOf F + i) = F
    | _ => false
  let s := (List.range 8).foldl (fun (s : State) w =>
    let c := chan F false w
    if m.testBit w then
      if !s.inMap c && s.txLit c && s.ready c then (s.setChMap F false (withBit (s.chMap F false) w true)).backIn c else s
    else if s.inMap c && !own then (s.setChMap F false (withBit (s.chMap F false) w false)).setChState c 3 else s) s
  s.announce F

/-- IDLE_FLIT. -/
def execIdleFlit (c : ChanId) (r : Received) (s : State) : Result :=
  .next (
    match s.flitIn c r.flit r.symErrs with
    | (false, s) => s
    | (true, s) =>
      let F := chFiber c
      if r.flit.ftype ≠ 2 || s.fibState F ≠ 2 then s
      else
        let nb := r.flit.scoord
        let s := if s.opt.fenced.contains F then
            let s := { s with opt := { s.opt with fenced := s.opt.fenced.filter (· ≠ F) } }
            let s := (s.setFld (OPTIC_FIB_STATE F) OPTIC_FIB_STATE_FAR_FIBER r.flit.fidx).setFld (OPTIC_FIB_STATE F) OPTIC_FIB_STATE_FAR_COORD nb.toNat
            s.pump nb
          else s
        let s := (s.controlIn c r.flit).answerGap nb F
        if !r.flit.mapChg then s else if r.flit.mapDir then s.wantMap F r.flit.newMap else s.farMap F r.flit.newMap)

/-- Contexts of this device that hold a group with a neighbour in it, or have a request outstanding to it (R385). -/
def State.ctxsWith (s : State) (nb : Coord) : List Ctx :=
  (List.finRange 64).filter fun (x : Ctx) =>
    s.groups.any (fun (g : Group) => g.ctx = some x && (g.rankOf nb).isSome)
      || s.fab.outst.any (fun (r : Req) => r.dst = nb && r.ctx = x && r.agent ≠ agentRanger)

/-- A pair reads fenced. As its link turns fenced, the neighbour is lost to its groups, and the contexts that use it are aborted (R322,
R385). The notice names no event code, since this origin posts none (DESIGN CHOICE, log entry 63). -/
def State.farFence (s : State) (F : Nat) : State :=
  let nb := s.farCoord F
  let u := { s with opt := { s.opt with fenced := Maps.add s.opt.fenced F } }.losePeer nb
  if s.farFenced nb then u else (s.ctxsWith nb).foldl (fun (s : State) x => s.abortOrigin x 0 0) u

/-- FENCED_IDLE: the link is fenced (R258). -/
def execFencedIdle (c : ChanId) (r : Received) (s : State) : Result :=
  .next (
    match s.flitIn c r.flit r.symErrs with
    | (false, s) => s
    | (true, s) =>
      let F := chFiber c
      if r.flit.ftype ≠ 3 || s.fibState F ≠ 2 then s
      else s.farFence F)

/-! ### Link-up (R236, R255) -/

/-- The first channel of a link enters its map: SEQ 0 at the first link-up after a reset of this device. Later the values that the flit
carries resume it: SEQ names the first flit that the far end will send, so one that lies ahead tells that those before it are lost. A far
end that starts at 0 again has been reset itself (R255, R257, log entry 80). -/
def State.resumeSeq (s : State) (nb : Coord) (f : Flit) : State :=
  let l := s.link nb
  let known := l.replay.any (fun g => g.seq = f.ack) || f.ack = l.txSeq
  if !l.met then s.setLink { l with met := true }
  else if !l.resetting && f.seq = 0 && f.ack = 0 && !(l.rxSeq = 0 && known) then
    let s := s.setLink { l with rxSeq := 0, txSeq := 0, replay := [], replays := 0, unacked := [], part := [], lacks := 0, nak := false, early := [] }
    l.unacked.foldl (fun (s : State) u => s.answerDrop u.2 .retryExhausted) s
  else
    let s := if seqLe f.seq l.rxSeq then s else s.setLink { l with rxSeq := f.seq, part := [], lacks := 0, nak := false, early := [] }
    if known then s.ackTo nb f.ack else s

/-- Line w of a pair is up in both directions: its channels enter the maps, and the pair is in service. A substituted pair carries no
traffic. -/
def State.lineUp (s : State) (F w : Nat) (f : Flit) : State :=
  if s.fibState F = 5 then s
  else
    let first := (s.txChannels f.scoord).isEmpty
    let s := if s.fibState F = 2 then s else s.setFib F 2
    let s := (s.setChMap F false (withBit (s.chMap F false) w true)).setChMap F true (withBit (s.chMap F true) w true)
    let s := (s.backIn (chan F false w)).backIn (chan F true w)
    let s := if first then s.resumeSeq f.scoord f else s
    let s := match [0, 1, 2].find? (fun x => spareFiber x = F && s.fld (OPTIC_SUBST x) OPTIC_SUBST_REQUESTED = 1
        && s.fld (OPTIC_SUBST x) OPTIC_SUBST_FAR_COORD = f.scoord.toNat) with
      | some x => s.substitute x
      | none => s
    s.pump f.scoord

/-- TRAINING_FLIT: at link-up the far indices are recorded and the phases of R255 advance; on a pair in service a channel that the far
end calibrates is answered with quality figures (R240, R259). On a channel in the map, TPHASE 0 tells that the far end resets the link
(R257, log entry 80). -/
def execTrainingFlit (c : ChanId) (r : Received) (s : State) : Result :=
  .next (
    match s.flitIn c r.flit r.symErrs with
    | (false, s) => s
    | (true, s) =>
      let F := chFiber c
      let w := chLine c
      let e := s.fld (OPTIC_ENG_STATE (engOf F)) OPTIC_ENG_STATE_STATE
      if r.flit.ftype ≠ 4 || !(e = 1 || e = 2) || s.fibState F = 6 then s
      else
        let s := if s.fibState F = 0 || s.fibState F = 3 then
            (s.fiberOut F 1 3) else s
        let s := if s.fibState F = 2 then s
          else (s.setFld (OPTIC_FIB_STATE F) OPTIC_FIB_STATE_FAR_FIBER r.flit.fidx).setFld (OPTIC_FIB_STATE F) OPTIC_FIB_STATE_FAR_COORD r.flit.scoord.toNat
        let t := chan F false w
        if s.fibState F = 2 && (s.inMap t || s.inMap c) then
          let head : List Byte := [0x04, BitVec.ofNat 8 F, BitVec.ofNat 8 w]
          if s.inMap c then (if r.flit.byte 4 = 0 then s.linkReset (s.farCoord F) else s)
          else if (s.link (s.farCoord F)).ctrl.any (fun x => x.fiber.val = F && ctrlSubject x.payload = head) then s
          else
            let (q, s) := s.quality
            s.sendControl ⟨F % 64, Nat.mod_lt _ (by decide)⟩ 0x04 (head ++ List.replicate 5 0 ++ q)
        else
          let far := r.flit.byte 4
          let mine := Maps.get 0 s.opt.tphase t
          let next := if !s.txLit t then mine else if mine = 0 && Maps.get 0 s.opt.confirm c = 64 then 1
            else if mine = 1 && (far = 1 || far = 2) then 2 else mine
          let s := { s with opt := { s.opt with tphase := Maps.put 0 s.opt.tphase t next } }
          if next ≠ mine then s.sendTraining t
          else if mine = 2 && far = 2 && s.txLit t then s.lineUp F w r.flit else s)

/-! ### Alignment blocks (R255) -/

/-- ALIGNMENT_BLOCK: three good blocks in a row give block lock, four bad ones in a row lose it; BCOUNT measures the skew. -/
def execAlignmentBlock (c : ChanId) (blk : BitVec 2880) (s : State) : Result :=
  .next (if !chRx c then s
    else if bits blk 63 0 = blockMarker && bits blk 2879 2816 = 2 ^ 64 - 1 - blockMarker then
      let n := min 3 (Maps.get 0 s.opt.good c + 1)
      { s with opt := { s.opt with good := Maps.put 0 s.opt.good c n, bad := Maps.erase s.opt.bad c
                                   blockCount := Maps.set s.opt.blockCount c (bits blk 108 85)
                                   locked := if n = 3 then Maps.add s.opt.locked c else s.opt.locked } }
    else
      let n := min 4 (Maps.get 0 s.opt.bad c + 1)
      { s with opt := { s.opt with bad := Maps.put 0 s.opt.bad c n, good := Maps.erase s.opt.good c
                                   locked := if n = 4 then Maps.del s.opt.locked c else s.opt.locked
                                   confirm := if n = 4 then Maps.erase s.opt.confirm c else s.opt.confirm } })

/-! ### Control flits (R243, R259) -/

def fiberOf (c : ChanId) : FiberId := ⟨c.val / 16, by omega⟩

/-- A control flit with operation `op` that is to be acted on. -/
def State.controlFlit (s : State) (c : ChanId) (f : Flit) (symErrs op : Nat) : Bool × State :=
  match s.flitIn c f symErrs with
  | (false, s) => (false, s)
  | (true, s) =>
    let s := (s.controlIn c f).answerGap f.scoord (chFiber c)
    (f.ftype = 5 && f.byte 0 = op, s)

/-- Stop the repetition of a control flit. -/
def State.stopControl (s : State) (F : FiberId) (p : Ctrl → Bool) : State :=
  let l := s.link (s.farCoord F)
  s.setLink { l with ctrl := l.ctrl.filter (fun x => !(x.fiber = F && p x)) }

/-- ANSWER for an operation. -/
def State.answerControl (s : State) (F : FiberId) (op : Nat) : State :=
  s.sendAnswer F [0x05, BitVec.ofNat 8 op, BitVec.ofNat 8 F.val]

/-- MISMATCH: the tone of ring v on line w makes ring v be relocked; without it the transmitter is correct (R243). -/
def execMismatch (c : ChanId) (r : Received) (s : State) : Result :=
  .next (
    match s.controlFlit c r.flit r.symErrs 1 with
    | (false, s) => s
    | (true, s) =>
      let F := fiberOf c
      let w := r.flit.byte 2 % 8
      let v := r.flit.byte 3 % 8
      if (Maps.get 0 s.opt.tones (chan F false w)).testBit v then (s.relock (chan F false v)).answerControl F 1
      else s.sendAnswer F [0x02, BitVec.ofNat 8 F.val, BitVec.ofNat 8 w])

/-- TX_OK: the far transmitter of line w is correct, so the own receive ring is relocked (R243). -/
def execTxOk (c : ChanId) (r : Received) (s : State) : Result :=
  .next (
    match s.controlFlit c r.flit r.symErrs 2 with
    | (false, s) => s
    | (true, s) =>
      let F := fiberOf c
      let w := r.flit.byte 2 % 8
      let s := s.stopControl F (fun x => x.op = 0x01 && (x.payload.getD 2 0).toNat = w)
      if s.chState (chan F true w) = 6 || s.chState (chan F true w) = 7 then s else s.relock (chan F true w))

/-- QUIESCE_NOTICE: the far end quiesces the pair (R249). -/
def execQuiesceNotice (c : ChanId) (r : Received) (s : State) : Result :=
  .next (
    match s.controlFlit c r.flit r.symErrs 3 with
    | (false, s) => s
    | (true, s) => (s.answerControl (fiberOf c) 3).fiberOut (fiberOf c) 3 7)

/-- CAL_QUALITY: quality figures of the far receiver for a transmit channel (R240). -/
def execCalQuality (c : ChanId) (r : Received) (s : State) : Result :=
  .next (
    match s.controlFlit c r.flit r.symErrs 4 with
    | (false, s) => s
    | (true, s) =>
      let t := chan (fiberOf c) false (r.flit.byte 2 % 8)
      { s with opt := { s.opt with quality := Maps.set s.opt.quality t ((r.flit.payload.drop 8).take 32) } }.answerControl (fiberOf c) 4)

/-- ANSWER: the oldest control flit of the pair with the operation that it answers is not repeated any more. It names no line (log entry
80). -/
def execAnswer (c : ChanId) (r : Received) (s : State) : Result :=
  .next (
    match s.controlFlit c r.flit r.symErrs 5 with
    | (false, s) => s
    | (true, s) =>
      let l := s.link (s.farCoord (fiberOf c))
      s.setLink { l with ctrl := l.ctrl.eraseP (fun x => x.fiber = fiberOf c && x.op.toNat = r.flit.byte 1) })

/-- The control flit of an operation that has been sent the fewest times: the one that is due. -/
def dueCtrl (l : List Ctrl) : Option Ctrl :=
  l.foldl (fun b x => match b with
    | none => some x
    | some y => if x.sends < y.sends then some x else some y) none

/-- CONTROL_RESEND: 2 µs without an answer; after 8 sends it is not sent again. -/
def execControlResend (f : FiberId) (ctrl : Byte) (s : State) : Result :=
  .next (
    let l := s.link (s.farCoord f)
    match dueCtrl (l.ctrl.filter (fun x => x.fiber = f && x.op = ctrl)) with
    | none => s
    | some x =>
      if 8 ≤ x.sends then s.stopControl f (fun y => y.op = ctrl)
      else
        let s := s.setLink { l with ctrl := l.ctrl.map (fun (y : Ctrl) => if y = x then { y with sends := y.sends + 1 } else y) }
        s.putControl f x.payload)

/-! ### Link resets (R257) -/

/-- LINK_ACK_TIMEOUT: 100 µs without progress of ACK while data is unacknowledged. -/
def execLinkAckTimeout (nb : Coord) (s : State) : Result :=
  .next (if (s.link nb).replay = [] || (s.link nb).resetting then s else s.linkReset nb)

/-- LINK_RESUME: the link carries data again within 1 ms; replay resumes from the first unacknowledged flit. -/
def execLinkResume (nb : Coord) (s : State) : Result :=
  .next (if !(s.link nb).resetting || (s.txChannels nb).isEmpty then s
    else ((s.setLink { s.link nb with resetting := false }).replayAll nb).pump nb)

/-- LINK_FAIL: it does not; its unacknowledged packets are answered, and a packet received in part is discarded (R257, R280, R281). -/
def execLinkFail (nb : Coord) (s : State) : Result :=
  .next (
    let l := s.link nb
    if !l.resetting then s
    else
      let s := s.setLink { l with resetting := false, replay := [], replays := 0, unacked := [], part := [], lacks := 0, used := [], owed := [] }
      let s := ((List.range 64).filter (fun F => s.fibState F = 1 && s.farCoord F = nb)).foldl (fun (s : State) F => s.fiberOut F 4 3) s
      l.unacked.foldl (fun (s : State) u => s.answerDrop u.2 .retryExhausted) s)

/-! ### Packets at a hop (R265, R269 to R271, R277, R279) -/

/-- Put the packet on its way to `nb`, holding the pool it came in. -/
def State.forward (s : State) (from_ : Coord) (p : Packet) (nb : Coord) (q : Packet) : State :=
  let q := s.marked nb q
  if s.linkUp nb && s.hasCredit nb q && !(s.fab.held.any (fun h => h.nb = nb)) then (s.sendPacket nb q).owe from_ p
  else { s with fab := { s.fab with held := s.fab.held ++ [⟨nb, q, some (from_, p)⟩] } }

/-- A packet dropped at a hop: its pool is free, and the source is answered. -/
def State.drop (s : State) (from_ : Coord) (p : Packet) (st : Status) : State := (s.owe from_ p).answerDrop p st

/-- PACKET_FORWARD: a whole packet that came from `nb`. -/
def execPacketForward (nb : Coord) (p : Packet) (s : State) : Result :=
  .next (
    if !s.fab.inbox.contains (nb, p) then s
    else
      let s := { s with fab := { s.fab with inbox := s.fab.inbox.erase (nb, p) } }
      let t := s.topo p.epoch
      if !p.hchkOk then (s.bump ROUTE_DISCARDS ROUTE_DISCARDS_HCHK_FAIL).owe nb p
      else if s.snap.salvage && p.cls ≠ 4 && !(p.cls = 1 && p.rclass = 4) then s.drop nb p .fenced
      else if !t.accepted || t.retired then (s.bump ROUTE_DISCARDS ROUTE_DISCARDS_EPOCH_DISC).drop nb p .epoch
      else if s.route p.epoch p.dst = .nowhere then (s.bump ROUTE_DISCARDS ROUTE_DISCARDS_MISROUTE).drop nb p .epoch
      else match (s.route p.epoch p.dst).next with
        | none =>
          if !p.wellFormed then s.drop nb p .format
          else if !p.pcrcOk then (s.bump ROUTE_DISCARDS ROUTE_DISCARDS_PCRC_FAIL).drop nb p .retryExhausted
          else { s with fab := { s.fab with arrived := s.fab.arrived ++ [⟨some nb, p⟩] } }
        | some next =>
          let boundary := !p.leg && blockOf nb ≠ blockOf s.self && blockOf p.dst = blockOf s.self
          let leaves := p.leg && blockOf p.dst ≠ blockOf s.self
          if leaves || (!boundary && 2 ≤ p.hop) then (s.bump ROUTE_DISCARDS ROUTE_DISCARDS_MISROUTE).drop nb p .epoch
          else
            let q := if boundary then { p with w0 := setBits p.w0 4 3 0, w1 := setBits p.w1 60 60 1 }
              else { p with w0 := setBits p.w0 4 3 (p.hop + 1) }
            s.forward nb p next q)

end Sys2Proof.Machine
end

