-- ==== Sys2Proof/Machine/Fabric.lean ====
section
/-! DEFINITION. Requests at their destination in TAG order, hole drains, atomics and the dedup cache, topology tables and flips, region
tables, replica sets (R263, R267, R268, R277 to R279, R282, R287, R288, R290 to R305). -/
namespace Sys2Proof.Machine

open Reg

/-! ### Order of a pair at the destination (R282, R296, R384) -/

/-- Key of (class, device). -/
def pairKey (cls : Nat) (d : Coord) : Nat := 4096 * cls + d.toNat

/-- Where a request stands in its pair: due, already passed with the status that was answered, or beyond the next one. -/
inductive Turn where
  | now
  | passed (st : Status)
  | beyond
  deriving DecidableEq, Repr

/-- The next expected TAG of (class, source); the first request or hole drain of a pair since the reset sets it. -/
def State.expectedTag (s : State) (p : Packet) : BitVec 16 :=
  ((s.fab.expected.find? (fun e => e.1 = pairKey p.cls p.src)).map (·.2)).getD p.tag

/-- Already passed: (e - tag) mod 2^16 from 1 to 32,768. -/
def tagPassed (e tag : BitVec 16) : Bool := 1 ≤ (e - tag).toNat && (e - tag).toNat ≤ 32768

def State.turnOf (s : State) (p : Packet) : Turn :=
  let e := s.expectedTag p
  if p.tag = e then .now
  else if tagPassed e p.tag then
    .passed (((Maps.get [] s.fab.answered (pairKey p.cls p.src)).find? (fun a => a.1 = p.tag)).map (·.2) |>.getD .ok)
  else .beyond

/-- The request has taken its place: the next TAG is expected, and its status is kept for a duplicate (R282, R290). -/
def State.placed (s : State) (p : Packet) (st : Status) : State :=
  let k := pairKey p.cls p.src
  let l := ((p.tag, st) :: Maps.get [] s.fab.answered k).take 64
  { s with fab := { s.fab with expected := Maps.set s.fab.expected k (p.tag + 1), answered := Maps.put [] s.fab.answered k l } }

/-- What a request answers. -/
structure Answer where
  st : Status
  data : List Byte
  s : State

/-- Serve an arrived request of class `cls` and operation `op`: in TAG order once; a duplicate is answered again through `again`
without effect; one beyond the next is dropped unanswered. -/
def State.serve (s : State) (p : Packet) (cls op : Nat) (run : State → Answer) (again : Status → State → Answer) : State :=
  if p.cls ≠ cls || p.op ≠ op then s
  else match s.takeArrived p with
    | none => s
    | some s =>
      match s.turnOf p with
      | .now =>
        let r := run s
        (r.s.placed p r.st).reply p r.st r.data
      | .passed st =>
        let r := again st s
        r.s.reply p r.st r.data
      | .beyond => s

/-- Who makes a remote access (R289). -/
def whoOf (p : Packet) : Who := ⟨if p.agent = agentRanger then .ranger else .ctx p.ctx, p.src⟩

/-- The answer of a memory access; accesses of the fabric unit wait out their regulator (log entry 12). -/
def answerOf (r : MemOut × State) : Answer :=
  match r with
  | (.ok bs, s) => ⟨.ok, bs, s⟩
  | (.err st, s) => ⟨st, [], s⟩
  | (.wait, s) => ⟨.ok, [], s⟩

/-- A duplicate that only repeats its status. -/
def sayAgain (st : Status) (s : State) : Answer := ⟨st, [], s⟩

/-! ### Loads, stores, messages (R200, R263, R266, R289) -/

/-! ### Snapshot-engine and mirror traffic (R365, R366, R373) -/

/-- Range of SNAP_KEEP slot `r`. -/
def State.keepRange (s : State) (r : Nat) : Nat × Nat :=
  (s.fld (SNAP_KEEP_RANGE r) SNAP_KEEP_RANGE_BASE * 0x200000, s.fld (SNAP_KEEP_RANGE r) SNAP_KEEP_RANGE_SIZE * 0x200000)

/-- A slot admits a request of the snapshot engine for `n` bytes at its address. -/
def State.keepAdmits (s : State) (p : Packet) (n : Nat) : Bool :=
  (List.range 16).any fun r =>
    s.fld (SNAP_KEEP r) SNAP_KEEP_VALID = 1 && s.fld (SNAP_KEEP r) SNAP_KEEP_OWNER = p.src.toNat && s.fld (SNAP_KEEP r) SNAP_KEEP_CTX = p.ctx.val
      && (s.keepRange r).1 ≤ p.addr && p.addr + n ≤ (s.keepRange r).1 + (s.keepRange r).2

/-- The range touches a reserve that some slot names. -/
def State.keepTouches (s : State) (o n : Nat) : Bool :=
  (List.range 16).any fun r =>
    s.fld (SNAP_KEEP r) SNAP_KEEP_VALID = 1 && (s.keepRange r).1 < o + n && o < (s.keepRange r).1 + (s.keepRange r).2

/-- A message of the snapshot engine, or of the fabric unit for a shadow. -/
def ofSnap (p : Packet) : Bool := p.cls = 3 && p.agent = 146
def ofMirror (p : Packet) : Bool := p.cls = 3 && p.agent = agentFabric

/-- A read by the snapshot engine: a reserve by its slot; elsewhere, live memory by the region tables (R366, log entry 24). -/
def State.readSnap (s : State) (p : Packet) : Answer :=
  if s.keepAdmits p p.rlen then answerOf (s.readFor ⟨.ranger, p.src⟩ p.addr p.rlen true)
  else if s.keepTouches p.addr p.rlen then ⟨.perm, [], s⟩
  else answerOf (s.readFor (whoOf p) p.addr p.rlen true)

/-- A write by the snapshot engine: only into a reserve. -/
def State.writeSnap (s : State) (p : Packet) (bs : List Byte) : Answer :=
  if s.keepAdmits p bs.length then { answerOf (s.writeFor ⟨.ranger, p.src⟩ false p.addr bs true) with data := [] } else ⟨.perm, [], s⟩

/-- The shadow asks the source for its groups. -/
def State.readMirror (s : State) (p : Packet) : Answer :=
  if s.isSource (.ctx p.ctx) && p.src = s.mirrorPeer && groupsAddr ≤ p.addr then
    ⟨.ok, padTo p.rlen (((s.groupsImage p.ctx).drop (p.addr - groupsAddr)).take p.rlen), s⟩
  else ⟨.perm, [], s⟩

/-- A mirrored write, or a report of a collective: a shadow accepts it from its source only. -/
def State.writeMirror (s : State) (p : Packet) (bs : List Byte) : Answer :=
  if !(s.isShadow (.ctx p.ctx) && p.src = s.mirrorPeer) then ⟨.perm, [], s⟩
  else if p.addr = verdictAddr then ⟨.ok, [], s.takeReport (verdictOf bs)⟩
  else { answerOf (s.writeFor ⟨.ranger, p.src⟩ false p.addr bs true) with data := [] }

/-- Read for a remote request: memory, or a doorbell page. -/
def State.readRemote (s : State) (p : Packet) : Answer :=
  if ofSnap p then s.readSnap p else if ofMirror p then s.readMirror p else
  match placeOfRange p.addr p.rlen with
  | .door _ _ => answerOf (s.peek (whoOf p) p.addr p.rlen)
  | .setup _ => ⟨.perm, [], s⟩
  | _ => answerOf (s.readFor (whoOf p) p.addr p.rlen true)

/-- Write for a remote request: memory, or a doorbell page. -/
def State.writeRemote (s : State) (p : Packet) (bs : List Byte) : Answer :=
  if ofSnap p then s.writeSnap p bs else if ofMirror p then s.writeMirror p bs else
  match placeOfRange p.addr bs.length with
  | .door _ _ => { answerOf (s.poke (whoOf p) false p.addr bs) with data := [] }
  | .setup _ => ⟨.perm, [], s⟩
  | _ =>
    let r := answerOf (s.writeFor (whoOf p) false p.addr bs true)
    { r with data := [], s := if r.st = .ok then r.s.mirror (whoOf p).auth p.addr bs else r.s }

/-- REQ_LOAD. -/
def execReqLoad (p : Packet) (s : State) : Result :=
  let bad := p.plen ≠ 0 || p.rlen = 0 || 4096 < p.rlen
  let read := fun (s : State) => if bad then ⟨.format, [], s⟩ else s.readRemote p
  .next (s.serve p 0 0x00 read (fun st s => if st = .ok then read s else ⟨st, [], s⟩))

/-- REQ_STORE. -/
def execReqStore (p : Packet) (s : State) : Result :=
  let bad := p.plen = 0 || 4096 < p.plen || p.rlen ≠ 0
  .next (s.serve p 0 0x01 (fun s => if bad then ⟨.format, [], s⟩ else s.writeRemote p p.payload) sayAgain)

/-- The bytes of a PUT: decoded when CMP is set; none where decoding fails (R266). -/
def putDataOf (p : Packet) : Option (List Byte) :=
  if p.cmp then fabricDecode p.payload p.gmask p.rlen else some p.payload

/-- MSG_PUT. A payload that does not decode is handled as a failed CRC-32C (R265, R266). -/
def execMsgPut (p : Packet) (s : State) : Result :=
  let bad := p.plen = 0 || (!p.cmp && p.rlen ≠ 0) || (p.cmp && p.rlen ≠ 4096 && p.rlen ≠ 8192)
  .next (
    if p.cls = 3 && p.op = 0x28 && !bad && (putDataOf p).isNone then
      match s.takeArrived p with
      | none => s
      | some s => (s.bump ROUTE_DISCARDS ROUTE_DISCARDS_PCRC_FAIL).reply p .retryExhausted []
    else
      s.serve p 3 0x28 (fun s => if bad then ⟨.format, [], s⟩ else s.writeRemote p ((putDataOf p).getD [])) sayAgain)

/-- MSG_GET: its reply is compressed where R266 says. -/
def execMsgGet (p : Packet) (s : State) : Result :=
  let bad := p.plen ≠ 0 || p.rlen = 0 || p.cmp
  let read := fun (s : State) => if bad then ⟨.format, [], s⟩ else s.readRemote p
  .next (s.serve p 3 0x29 read (fun st s => if st = .ok then read s else ⟨st, [], s⟩))

/-- NOTIFY: an aligned 8-byte store; on a doorbell page it rings the doorbell. -/
def execNotify (p : Packet) (s : State) : Result :=
  let bad := p.plen ≠ 8 || p.rlen ≠ 0 || p.addr % 8 ≠ 0
  .next (s.serve p 3 0x2A (fun s => if bad then ⟨.format, [], s⟩ else s.writeRemote p p.payload) sayAgain)

/-! ### Hole drains (R291, R292) -/

/-- A range that a hole drain lists: offset, context, Ranger's authority, length. -/
structure Lost where
  off : Nat
  ctx : Ctx
  sys : Bool
  len : Nat
  deriving DecidableEq, Repr

/-- Entry i of a hole drain's payload. -/
def lostAt (pl : List Byte) (i : Nat) : Lost :=
  let a := leAt pl (32 + 16 * i) 8
  ⟨a % 2 ^ 48, ⟨a / 2 ^ 48 % 64, Nat.mod_lt _ (by decide)⟩, a / 2 ^ 55 % 2 = 1, leAt pl (40 + 16 * i) 2⟩

def Lost.bytes (l : Lost) : List Byte :=
  leBytes 8 (l.off + l.ctx.val * 2 ^ 48 + (if l.sys then 2 ^ 55 else 0)) ++ leBytes 8 l.len

/-- The payload of a hole drain. -/
def drainPayload (resume : BitVec 16) (ls : List Lost) : List Byte :=
  padTo 32 (leBytes 2 resume.toNat ++ leBytes 1 ls.length) ++ ls.flatMap Lost.bytes

/-- A replica set of which `src` is the home holds a range, and this device is a member: what the home lost there was a republish (R303,
R304, log entry 83). -/
def State.republished (s : State) (src : Coord) (l : Lost) : Bool :=
  (List.range 64).any fun r =>
    s.fld (FAB_REPL_CFG r) FAB_REPL_CFG_VALID = 1 && (l.sys || s.fld (FAB_REPL_CFG r) FAB_REPL_CFG_CTX = l.ctx.val)
      && (s.members r).head? = some src && (s.members r).contains s.self
      && (s.setRange r).1 ≤ l.off && l.off + l.len ≤ (s.setRange r).1 + (s.setRange r).2

/-- Poison the units of one listed range that its authority may write. -/
def State.poisonLost (s : State) (src : Coord) (l : Lost) : State :=
  let mem := match placeOfRange l.off l.len with
    | .lpddr => true
    | .sram _ => true
    | _ => false
  if !mem || l.len = 0 then s
  else match s.protect ⟨if l.sys then .ranger else .ctx l.ctx, src⟩ .wr (s.republished src l) l.off l.len with
    | (.ok _, s) =>
      let us := unitsOf l.off l.len
      (s.poisonUnits us).bumpBy FAB_HOLE_STATE FAB_HOLE_STATE_UNITS_POISONED us.length
    | (.error _, s) => s

/-- The payload of a hole drain has no reserved bit set and lists lengths from 1 to 8,192 (R5, R291). -/
def drainOk (p : Packet) : Bool :=
  let n := leAt p.payload 2 1
  32 ≤ p.plen && p.plen = 32 + 16 * n && n ≤ 64 && ((p.payload.take 32).drop 3).all (· = 0)
    && (List.range n).all (fun i =>
      leAt p.payload (38 + 16 * i) 1 / 64 % 2 = 0 && leAt p.payload (39 + 16 * i) 1 = 0 && leAt p.payload (42 + 16 * i) 6 = 0
        && 1 ≤ (lostAt p.payload i).len && (lostAt p.payload i).len ≤ 8192)

/-- DRAIN: a marker is answered in its place. A hole drain is accepted out of order: its ranges are poisoned and RESUME is the next TAG
expected; one that is sent again after it was applied is only answered (log entry 19). -/
def execDrain (p : Packet) (s : State) : Result :=
  .next (
    if p.op ≠ 0x0C || !(p.cls = 0 || p.cls = 3 || p.cls = 4) then s
    else if p.plen = 0 then s.serve p p.cls 0x0C (fun s => ⟨.ok, [], s⟩) sayAgain
    else
      let n := leAt p.payload 2 1
      if !drainOk p then s.serve p p.cls 0x0C (fun s => ⟨.format, [], s⟩) sayAgain
      else match s.takeArrived p with
        | none => s
        | some s =>
          let known := s.fab.expected.any (fun e => e.1 = pairKey p.cls p.src)
          if known && p.retry && tagPassed (s.expectedTag p) p.tag then s.reply p .ok []
          else
            let s := ((List.range n).map (lostAt p.payload)).foldl (fun (s : State) l => s.poisonLost p.src l) s
            let resume : BitVec 16 := BitVec.ofNat 16 (leAt p.payload 0 2)
            let k := pairKey p.cls p.src
            let s := { s with fab := { s.fab with expected := Maps.set s.fab.expected k resume, answered := Maps.erase s.fab.answered k } }
            (s.bump FAB_HOLE_STATE FAB_HOLE_STATE_RECEIVED).reply p .ok [])

/-! ### Atomics (R294 to R297) -/

/-- SOURCES counts the sources that hold entries. -/
def State.countSources (s : State) : State :=
  s.setFld FAB_DEDUP_STATE FAB_DEDUP_STATE_SOURCES (min 1024 ((s.fab.dedup.map (·.src)).eraseDups).length)

/-- Record an atomic; the oldest of 64 entries of its source gives way. Entries stand newest first. -/
def State.remember (s : State) (d : Dedup) : State :=
  let rest := s.fab.dedup.filter (fun e => !(e.src = d.src && e.tag = d.tag))
  let mine := rest.filter (fun e => e.src = d.src)
  let rest := rest.filter (fun e => !(mine.drop 63).contains e)
  { s with fab := { s.fab with dedup := d :: rest } }.countSources

/-- The payload and operand of an atomic break its row (R263, R294). -/
def atomicBadOf (p : Packet) : Bool :=
  (match p.op with
    | 0x09 => p.plen ≠ 8
    | 0x0A => p.plen ≠ 32 || p.operand ≠ 0
    | 0x0B => p.plen ≠ 0 || bits p.operand 63 32 ≠ 0
    | _ => p.plen ≠ 0) || p.rlen ≠ 0

/-- An atomic at its target. -/
def State.atomicRequest (s : State) (p : Packet) (op : Nat) : State :=
  let n := atomicWidth op
  let perform := fun (s : State) =>
    let r : Answer :=
      if atomicBadOf p then ⟨.format, [], s⟩
      else
        let o := if op = 0x0A then leAt p.payload 0 16 else p.operand.toNat
        let c := if op = 0x0A then leAt p.payload 16 16 else leAt p.payload 0 8
        let r := answerOf (s.atomicHere (whoOf p) op p.addr o c true)
        { r with s := if r.st = .ok then r.s.mirror (whoOf p).auth p.addr (r.s.bytes p.addr n) else r.s }
    { r with s := r.s.remember ⟨p.src, p.ctx, p.tag, op, p.addr, r.st, r.data, r.s.devTime.toNat⟩ }
  let again := fun (_ : Status) (s : State) =>
    match s.fab.dedup.find? (fun e => e.src = p.src && e.tag = p.tag) with
    | some e =>
      if e.ctx = p.ctx && e.op = op && e.addr = p.addr then (⟨e.status, e.old, s.bump FAB_DEDUP_STATE FAB_DEDUP_STATE_HITS⟩ : Answer)
      else ⟨.format, [], s⟩
    | none => ⟨.atomicUnknown, s.bytes p.addr n, s.bump FAB_DEDUP_STATE FAB_DEDUP_STATE_UNKNOWN⟩
  s.serve p 0 op perform again

/-- REQ_AADD. -/
def execReqAadd (p : Packet) (s : State) : Result := .next (s.atomicRequest p 0x02)
/-- REQ_AMIN. -/
def execReqAmin (p : Packet) (s : State) : Result := .next (s.atomicRequest p 0x03)
/-- REQ_AMAX. -/
def execReqAmax (p : Packet) (s : State) : Result := .next (s.atomicRequest p 0x04)
/-- REQ_AAND. -/
def execReqAand (p : Packet) (s : State) : Result := .next (s.atomicRequest p 0x05)
/-- REQ_AOR. -/
def execReqAor (p : Packet) (s : State) : Result := .next (s.atomicRequest p 0x06)
/-- REQ_AXOR. -/
def execReqAxor (p : Packet) (s : State) : Result := .next (s.atomicRequest p 0x07)
/-- REQ_ASWAP. -/
def execReqAswap (p : Packet) (s : State) : Result := .next (s.atomicRequest p 0x08)
/-- REQ_ACAS. -/
def execReqAcas (p : Packet) (s : State) : Result := .next (s.atomicRequest p 0x09)
/-- REQ_ACAS2. -/
def execReqAcas2 (p : Packet) (s : State) : Result := .next (s.atomicRequest p 0x0A)
/-- REQ_AFADD: in arrival order (R33). -/
def execReqAfadd (p : Packet) (s : State) : Result := .next (s.atomicRequest p 0x0B)

/-- Nanoseconds that an entry stays in the dedup cache: HOLD_US, never below 500 µs (R295). -/
def State.holdTime (s : State) : Nat := 1000 * max 500 (s.fld FAB_DEDUP_CFG FAB_DEDUP_CFG_HOLD_US)

/-- DEDUP_EXPIRE: an entry that is older than HOLD_US leaves the cache. -/
def execDedupExpire (src : Coord) (tag : BitVec 16) (s : State) : Result :=
  .next { s with fab := { s.fab with
    dedup := s.fab.dedup.filter (fun e => !(e.src = src && e.tag = tag && s.holdTime < s.devTime.toNat - e.time)) } }.countSources

/-! ### Republish at a member and notices (R300, R303) -/

/-- Fields of the republish header. -/
def rpKind (p : Packet) : Nat := leAt p.payload 0 1
def rpSet (p : Packet) : Nat := leAt p.payload 1 1
def rpOffset (p : Packet) : Nat := leAt p.payload 8 6
def rpLength (p : Packet) : Nat := leAt p.payload 16 4

/-- KIND is not reserved, the reserved bytes of the header are zero and its lengths agree. -/
def rpOk (p : Packet) : Bool :=
  32 ≤ p.plen && rpKind p ≤ 1 && rpSet p < 64 && ((p.payload.drop 2).take 6).all (· = 0) && ((p.payload.drop 14).take 2).all (· = 0)
    && ((p.payload.drop 20).take 12).all (· = 0) && (if rpKind p = 0 then p.plen = 32 + rpLength p else p.plen = 32)

/-- REPUBLISH_DATA: a member writes the bytes when its own declaration names the sender as home; a reserved KIND is refused (R5, R303). -/
def execRepublishData (p : Packet) (s : State) : Result :=
  .next (
    if rpKind p = 1 then s
    else
      s.serve p 0 0x0D (fun s =>
        let r := rpSet p
        let bs := p.payload.drop 32
        if !rpOk p then ⟨.format, [], s⟩
        else if s.fld (FAB_REPL_CFG r) FAB_REPL_CFG_VALID = 0 || s.member r 0 ≠ p.src || !(s.members r).contains s.self
            || rpOffset p < (s.setRange r).1 || (s.setRange r).1 + (s.setRange r).2 < rpOffset p + bs.length then ⟨.perm, [], s⟩
        else
          let r := answerOf (s.writeFor (whoOf p) true (rpOffset p) bs true)
          { r with data := [], s := if r.st = .ok then r.s.mirror (whoOf p).auth (rpOffset p) bs else r.s }) sayAgain)

/-- A notice invalidates, in every core, the lines of any member that overlap the range; fills in flight are not installed. -/
def State.applyNotice (s : State) (r o n : Nat) : State :=
  let ms := s.members r
  let hit := fun (c : Coord) (b : Nat) => ms.contains c && b < o + n && o < b + 64
  (s.mapCores fun _ c => { c with cache := c.cache.filter (fun (l : Line) => !hit l.coord l.base) }).spoilFills (fun _ => true) hit

/-- REPUBLISH_NOTICE. -/
def execRepublishNotice (p : Packet) (s : State) : Result :=
  .next (
    if rpKind p ≠ 1 then s
    else
      s.serve p 0 0x0D (fun s =>
        if !rpOk p then ⟨.format, [], s⟩
        else ⟨.ok, [], if s.fld (FAB_REPL_CFG (rpSet p)) FAB_REPL_CFG_VALID = 1 then s.applyNotice (rpSet p) (rpOffset p) (rpLength p) else s⟩)
        sayAgain)

/-! ### Topology tables (R267, R268, R277 to R279) -/

/-- Set a flag of ROUTE_TBL_STATE. -/
def State.tblFlag (s : State) (f : Field) (v : Nat) : State := s.setFld ROUTE_TBL_STATE f v

/-- ROUTE_TBL_LOAD: a write of LOAD. The fabric unit reads the table with Ranger's authority (log entry 9). -/
def State.tblLoad (s : State) : State :=
  let a := s.reg ROUTE_TBL_SRC
  if s.fld ROUTE_TBL_STATE ROUTE_TBL_STATE_LOADING = 1 || s.fld ROUTE_TBL_STATE ROUTE_TBL_STATE_DRAINING = 1 || a.toNat % 64 ≠ 0 then
    s.tblFlag ROUTE_TBL_STATE_LOAD_ERR 1
  else
    let s := (s.tblFlag ROUTE_TBL_STATE_LOADING 1).tblFlag ROUTE_TBL_STATE_SHADOW_READY 0
    let s := { s with fab := { s.fab with loading := [], loadFail := none } }
    let s := s.setTopo (!s.activeEpoch) Topo.empty
    match s.locate true a.toNat 1664 with
    | .bad st => { s with fab := { s.fab with loadFail := some st } }
    | .here o =>
      match s.readFor (s.me .ranger) o 1664 true with
      | (.ok bs, s) => { s with fab := { s.fab with loading := bs.zipIdx.map (fun (x : Byte × Nat) => (x.2, x.1)) } }
      | (.err st, s) => { s with fab := { s.fab with loadFail := some st } }
      | (.wait, s) => s
    | .there c o =>
      match remoteBad o 1664 with
      | some st => { s with fab := { s.fab with loadFail := some st } }
      | none =>
        (cuts 4096 o 1664).foldl (fun (s : State) x =>
          s.request { newReq 0 0x00 c agentRanger 0 x.1 .topo with rlen := x.2.1, operand := BitVec.ofNat 64 x.2.2 }) s

/-- ROUTE_TBL_LOAD. -/
def execRouteTblLoad (src : Source) (s : State) : Result := .next (if s.mayUse src then s.tblLoad else s)

/-- The fiber pair of a block port and of a system port (R227). -/
def blockPortFiber (p : Nat) : Nat := if p < 8 then 8 * p + 6 else 8 * (p - 8) + 7
def systemPortFiber (q : Nat) : Nat := 8 * (q + 4) + 7

/-- A port is in service and its circuit lands on `c`; a substituted pair's spare serves it. -/
def State.portLands (s : State) (F : Nat) (c : Nat) : Bool := (s.fibState F = 2 || s.fibState F = 5) && (s.farCoord F).toNat = c

/-- The byte offset of the first field of a table that fails the checks of R268, in the order of the table. -/
def State.tableFault (s : State) (t : Topo) : Option Nat :=
  let w0 := t.word 0
  let me := bits w0 11 0
  let blk := me / 256
  let pod := me / 16 % 16
  let slot := me % 16
  let mine : Coord := BitVec.ofNat 12 me
  let selfBad := bits w0 31 12 ≠ 0 || (s.fld ROUTE_TBL_STATE ROUTE_TBL_STATE_ACTIVE_VALID = 1 && mine ≠ s.self)
  let reserved := (List.range 14).find? (fun i => t.word (8 + 4 * i) ≠ 0)
  let dev := (List.range 256).find? fun i =>
    let e := t.word (0x240 + 4 * i)
    let c : Coord := BitVec.ofNat 12 (blk * 256 + i)
    let valid := bit e 31
    let bad := if c = mine then valid
      else if i / 16 = pod then bits e 30 4 ≠ 0 || (valid && bits e 3 0 = slot)
      else bits e 30 12 ≠ 0 || (valid && 11 < bits e 7 4)
        || (valid && bits e 3 0 = slot && !s.portLands (blockPortFiber (bits e 7 4)) (blk * 256 + i / 16 * 16 + bits e 11 8))
    bad || (!valid && e ≠ 0) || (c ≠ mine && t.present c && !valid)
  let sys := (List.range 16).find? fun b =>
    let e := t.word (0x640 + 4 * b)
    let valid := bit e 31
    let other := b ≠ blk && (List.range 8).any (fun j => t.word (0x40 + 32 * b + 4 * j) ≠ 0)
    bits e 7 6 ≠ 0 || bits e 30 16 ≠ 0 || (!valid && e ≠ 0) || (other && !valid)
      || (valid && bits e 3 0 = slot && !s.portLands (systemPortFiber (bits e 5 4)) (b * 256 + bits e 15 8))
  if selfBad then some 0
  else match reserved with
    | some i => some (8 + 4 * i)
    | none =>
      if !t.present mine then some 0x40
      else match dev with
        | some i => some (0x240 + 4 * i)
        | none => sys.map (fun b => 0x640 + 4 * b)

/-- The words of a table from its bytes. -/
def topoOf (m : List (Nat × Byte)) : List (Nat × BitVec 32) :=
  (List.range 416).foldl (fun (l : List (Nat × BitVec 32)) i =>
    Maps.put 0 l i (BitVec.ofNat 32 (leNat ((List.range 4).map (fun j => Maps.get 0 m (4 * i + j)))))) []

/-- MAXREQ and MAXKIB as they act (R283). -/
def State.maxReq (s : State) : Nat := max 1 (min 64 (s.fld ROUTE_WIN_CFG ROUTE_WIN_CFG_MAXREQ))
def State.maxKib (s : State) : Nat := max 1 (min 512 (s.fld ROUTE_WIN_CFG ROUTE_WIN_CFG_MAXKIB))

/-- Requests of some kind are waiting or outstanding. -/
def State.asks (s : State) (f : Owner → Bool) : Bool := (s.fab.waiting ++ s.fab.outst).any (fun r => f r.owner)

def Owner.isTopo : Owner → Bool
  | .topo => true
  | _ => false

/-- ROUTE_TBL_CHECKED: every byte is here; the table is accepted, its windows starting at MAXREQ, or rejected (R268, R276). -/
def execRouteTblChecked (s : State) : Result :=
  .next (
    if s.fld ROUTE_TBL_STATE ROUTE_TBL_STATE_LOADING = 0 || s.asks Owner.isTopo then s
    else
      let t : Topo := ⟨topoOf s.fab.loading, true, false⟩
      let failed := s.fab.loadFail
      let s := { s with fab := { s.fab with loading := [], loadFail := none } }.tblFlag ROUTE_TBL_STATE_LOADING 0
      match failed with
      | some _ => s.tblFlag ROUTE_TBL_STATE_LOAD_ERR 1
      | none =>
        match s.tableFault t with
        | some off => (s.tblFlag ROUTE_TBL_STATE_LOAD_ERR 1).tblFlag ROUTE_TBL_STATE_ERR_OFFSET off
        | none =>
          let s := (s.setTopo (!s.activeEpoch) t).tblFlag ROUTE_TBL_STATE_SHADOW_READY 1
          { s with fab := { s.fab with windows := [] } })

/-! ### Pairs at the source -/

def State.pair (s : State) (cls : Nat) (d : Coord) : Pair := Maps.get Pair.reset s.fab.pairs (pairKey cls d)
def State.setPair (s : State) (cls : Nat) (d : Coord) (p : Pair) : State :=
  { s with fab := { s.fab with pairs := Maps.put Pair.reset s.fab.pairs (pairKey cls d) p } }

/-- The packet of an outstanding request (R261, R263): RLEN is sent where the reply is data of a length it names, or as the decoded length. -/
def State.packetFor (s : State) (r : Req) : Packet :=
  let named := r.op = 0x00 || r.op = 0x29 || r.op = 0x30 || r.op = 0x34 || r.cmp
  mkPacket { cls := r.cls, op := r.op, src := s.self, dst := r.dst, ctx := r.ctx, agent := r.agent, epoch := r.epoch
             retry := 0 < r.retries, tag := r.tag, rlen := if named then r.rlen else 0, cmp := r.cmp, gmask := r.gmask
             w2 := BitVec.ofNat 64 r.addr, w3 := if r.cls = 0 && 0x02 ≤ r.op && r.op ≤ 0x0B then r.operand else 0 } r.payload

/-! ### Windows and reply buffers (R274 to R276) -/

/-- Bytes of reply that a request asks for. -/
def Req.wants (r : Req) : Nat :=
  if r.cls = 0 && 0x02 ≤ r.op && r.op ≤ 0x0B then atomicWidth r.op
  else if r.cmp then 0
  else r.rlen

/-- Units that a request reserves in the reply buffer (R275). -/
def Req.reserves (r : Req) : Nat := if r.wants = 0 then 1 else 1 + ceilDiv (r.wants + 4) 32

/-- Payload bytes and requested reply bytes (R274). -/
def Req.load (r : Req) : Nat := r.payload.length + r.wants

/-- Units of 32 bytes in the reply buffers of both edge dies (R275). -/
def replyUnits : Nat := 524288

/-- The window toward a destination; it starts at MAXREQ (R276). -/
def State.window (s : State) (d : Coord) : Window :=
  ((s.fab.windows.find? (fun e => e.1 = d.toNat)).map (·.2)).getD ⟨s.maxReq, 0, 0⟩

/-- w[d]: without THROTTLE it stays at MAXREQ. -/
def State.windowSize (s : State) (d : Coord) : Nat :=
  if s.fld ROUTE_WIN_CFG ROUTE_WIN_CFG_THROTTLE = 1 then max 1 (min s.maxReq (s.window d).w) else s.maxReq

/-- Window, byte limit and reply reservation allow one more request (R274, R275). -/
def State.mayInject (s : State) (r : Req) : Bool :=
  let out := s.fab.outst.filter (fun q => q.dst = r.dst)
  let w := s.windowSize r.dst
  let load := r.load + (out.map Req.load).foldl (· + ·) 0
  let kept := r.reserves + (s.fab.outst.map Req.reserves).foldl (· + ·) 0
  out.length < w && (out.isEmpty || load * s.maxReq ≤ s.maxKib * 1024 * w) && kept ≤ replyUnits

/-! ### Requests sent -/

/-- Inject a request under the next TAG of its pair in an epoch; it is outstanding from now on (R274, R282). RESUME of a hole drain is the
TAG after its own (R291). -/
def State.sendReq (s : State) (r : Req) (epoch : Bool) : State :=
  let p := s.pair r.cls r.dst
  let pl := if r.owner = .hole then leBytes 2 (p.next + 1).toNat ++ r.payload.drop 2 else r.payload
  let r := { r with tag := p.next, epoch := epoch, payload := pl }
  let s := s.setPair r.cls r.dst { p with next := p.next + 1 }
  let s := { s with fab := { s.fab with outst := s.fab.outst ++ [r] } }
  s.inject (s.packetFor r)

/-- Send a request again under the TAG it has. -/
def State.resendReq (s : State) (r : Req) : State :=
  { s with fab := { s.fab with outst := s.fab.outst ++ [r] } }.inject (s.packetFor r)

/-- A marker of the fabric unit goes out when window and reply buffer have room, and until then waits in front of its pair's requests
(R274, R275). -/
def State.sendMark (s : State) (r : Req) : State :=
  if !s.mayInject r then { s with fab := { s.fab with waiting := r :: s.fab.waiting } }
  else if r.retries = 0 then s.sendReq r r.epoch
  else s.resendReq r

/-- Send a hole drain that lists `ls`, in the context of the lost request (R291, R384). -/
def State.sendHole (s : State) (cls : Nat) (d : Coord) (x : Ctx) (ls : List Lost) : State :=
  let r := { newReq cls 0x0C d agentFabric x 0 .hole with payload := drainPayload 0 ls, epoch := s.activeEpoch }
  ((s.setPair cls d { s.pair cls d with hole := true }).bump FAB_HOLE_STATE FAB_HOLE_STATE_SENT).sendMark r

/-! ### Flips (R278, R279, R293, R384) -/

/-- Pairs with requests outstanding, each once. -/
def State.busyPairs (s : State) : List (Nat × Coord) := (s.fab.outst.map (fun r => (r.cls, r.dst))).eraseDups

/-- Mark the old-epoch requests of a pair off with a DRAIN, and hold the new ones. -/
def State.drainPair (s : State) (old : Bool) (q : Nat × Coord) : State :=
  (s.setPair q.1 q.2 { s.pair q.1 q.2 with hold := true }).sendMark { newReq q.1 0x0C q.2 agentFabric 0 0 .drain with epoch := old }

/-- A broken pair sends its hole drain again after a flip; from then on its requests are held for the ACK (R293, log entry 32). -/
def State.retryBroken (s : State) (e : Nat × Pair) : State :=
  match e.2.broken, e.2.drain with
  | true, some r =>
    (s.setPair r.cls r.dst { s.pair r.cls r.dst with broken := false, hole := true }).sendMark
      { r with retries := 1, epoch := s.activeEpoch, last := none }
  | _, _ => s

/-- A write of FLIP: the shadow version becomes active. -/
def State.flipTable (s : State) : State :=
  if s.fld ROUTE_TBL_STATE ROUTE_TBL_STATE_SHADOW_READY = 0 then s.post (event 0x0003 0 none)
  else
    let old := s.activeEpoch
    let t := s.topo (!old)
    let s := (s.tblFlag ROUTE_TBL_STATE_ACTIVE (b2n (!old))).tblFlag ROUTE_TBL_STATE_ACTIVE_VALID 1
    let s := (s.tblFlag ROUTE_TBL_STATE_SHADOW_READY 0).tblFlag ROUTE_TBL_STATE_DRAINING 1
    let s := (s.tblFlag ROUTE_TBL_STATE_SELF (bits (t.word 0) 11 0)).tblFlag ROUTE_TBL_STATE_JOBTAG (t.word 4).toNat
    let s := { s with fab := { s.fab with flipped := true } }
    let s := s.busyPairs.foldl (fun (s : State) q => s.drainPair old q) s
    s.fab.pairs.foldl (fun (s : State) e => s.retryBroken e) s

/-- FLIP. -/
def execFlip (src : Source) (s : State) : Result := .next (if s.mayUse src then s.flipTable else s)

/-- EPOCH_RETIRE: DRAIN_US after a flip the superseded version is retired (R278). -/
def execEpochRetire (s : State) : Result :=
  .next (if s.fld ROUTE_TBL_STATE ROUTE_TBL_STATE_DRAINING = 0 then s
    else
      let v := !s.activeEpoch
      (s.setTopo v { s.topo v with retired := true }).tblFlag ROUTE_TBL_STATE_DRAINING 0)

/-! ### Region tables (R287, R288) -/

/-- An entry of a table, with whether it passes the check; none when it is not valid. -/
def regionOf (bs : List Byte) : Option (Region × Bool) :=
  let a := wordAt bs 0
  let b := wordAt bs 8
  if !bit a 63 then none
  else
    let r : Region := ⟨bit a 62, BitVec.ofNat 2 (bits a 61 60), bit a 59, bit a 58, bit a 57, bits a 47 0, bits b 47 0⟩
    some (r, bits a 56 48 = 0 && bits b 63 48 = 0 && wordAt bs 16 = 0 && wordAt bs 24 = 0 && r.base % 4096 = 0 && r.limit % 4096 = 0)

/-- Cut bytes into entries of 32. -/
def entries32 : Nat → List Byte → List (List Byte)
  | 0, _ => []
  | n + 1, l => l.take 32 :: entries32 n (l.drop 32)

/-- The bytes of the table of a context (R288). -/
def State.tableBytes (s : State) (x : Nat) : MemOut × State :=
  s.readFor (s.me .ranger) (s.fld FAB_RT_BASE FAB_RT_BASE_BASE * 2 ^ 23 + 0x20000 * x) 0x20000 true

/-- Check the bytes of a table; none when it is rejected or could not be read. -/
def regionsIn (r : MemOut × State) : Option (List Region) × State :=
  match r with
  | (.ok bs, s) =>
    let es := (entries32 (bs.length / 32) bs).filterMap regionOf
    (if es.all (·.2) then some (es.map (·.1)) else none, s)
  | (_, s) => (none, s)

/-- Read and check the table of a context. -/
def State.readTable (s : State) (x : Nat) : Option (List Region) × State := regionsIn (s.tableBytes x)

/-- A write of FAB_RT_CTRL: CTX and ALL take effect; LOAD begins a load unless one is in progress (R288). -/
def State.writeRtCtrl (s : State) (v mask : Word) : State :=
  let s := s.writeWord .FAB_RT_CTRL [] FAB_RT_CTRL (setBit v 8 false) mask
  if !wrote v mask FAB_RT_CTRL_LOAD || s.fld FAB_RT_STATUS FAB_RT_STATUS_BUSY = 1 then s
  else
    let xs := if s.fld FAB_RT_CTRL FAB_RT_CTRL_ALL = 1 then List.range 64 else [s.fld FAB_RT_CTRL FAB_RT_CTRL_CTX]
    let r := xs.foldl (fun (r : List (Nat × Option (List Region)) × State) x =>
      let t := r.2.readTable x
      (r.1 ++ [(x, t.1)], t.2)) ([], s)
    let s := r.2.setFld FAB_RT_STATUS FAB_RT_STATUS_BUSY 1
    { s with fab := { s.fab with regionLoad := xs, regionNew := r.1 } }

/-- FAB_RT_LOAD. -/
def execFabRtLoad (src : Source) (v : Word) (s : State) : Result := .next (if s.mayUse src then s.writeRtCtrl v (-1) else s)

/-- FAB_RT_LOAD_DONE: each table is accepted, or its context shut out; BUSY clears (R288). -/
def execFabRtLoadDone (s : State) : Result :=
  .next (if s.fld FAB_RT_STATUS FAB_RT_STATUS_BUSY = 0 then s
    else
      let s := s.fab.regionNew.foldl (fun (s : State) (e : Nat × Option (List Region)) =>
        match e.2 with
        | some rs =>
          { s.setReg FAB_RT_VALID (setBit (s.reg FAB_RT_VALID) e.1 true) with
            fab := { s.fab with regions := Maps.put [] s.fab.regions e.1 rs } }
        | none =>
          let s := s.setReg FAB_RT_VALID (setBit (s.reg FAB_RT_VALID) e.1 false)
          let s := { s with fab := { s.fab with regions := Maps.erase s.fab.regions e.1 } }
          (s.setFld FAB_RT_STATUS FAB_RT_STATUS_ERR 1).setFld FAB_RT_STATUS FAB_RT_STATUS_ERR_CTX e.1) s
      { s with fab := { s.fab with regionLoad := [], regionNew := [] } }.setFld FAB_RT_STATUS FAB_RT_STATUS_BUSY 0)

/-! ### Replica sets (R301, R303, R304) -/

/-- The checks of R301 on a declaration as it stands in the registers. -/
def State.replOk (s : State) (r : Nat) : Bool :=
  let n := s.fld (FAB_REPL_CFG r) FAB_REPL_CFG_COUNT
  let g := s.setRange r
  let place := if g.2 = 0 then placeOf g.1 else
    (match placeOf g.1, placeOf (g.1 + g.2 - 1) with
      | .lpddr, .lpddr => .lpddr
      | .sram a, .sram b => if a = b then .sram a else .hole
      | _, _ => .hole)
  1 ≤ n && n ≤ 16 && (s.members r).all (fun c => blockOf c = blockOf s.self)
    && (match place with
      | .lpddr => true
      | .sram _ => true
      | _ => false)

/-- A write of FAB_REPL_CFG: VALID is checked when it is set. -/
def State.writeRepl (s : State) (r : Nat) (v mask : Word) : State :=
  let was := s.fld (FAB_REPL_CFG r) FAB_REPL_CFG_VALID = 1
  let s' := s.writeWord .FAB_REPL_CFG [r] (FAB_REPL_CFG r) (setBit v 63 was) mask
  if mask.getLsbD 63 = false then s'
  else if v.getLsbD 63 = false then s'.setFld (FAB_REPL_CFG r) FAB_REPL_CFG_VALID 0
  else if was then s'
  else if s'.replOk r then s'.setFld (FAB_REPL_CFG r) FAB_REPL_CFG_VALID 1
  else s'.setFld FAB_RT_STATUS FAB_RT_STATUS_REPL_ERR 1

/-- REPL_DECLARE: a write of FAB_REPL_CFG with VALID = 1. -/
def execReplDeclare (src : Source) (set : Fin 64) (v : Word) (s : State) : Result :=
  .next (if s.mayUse src && v.getLsbD 63 then s.writeRepl set v (-1) else s)

/-- The republish header. -/
def republishHeader (kind r off len : Nat) : List Byte :=
  leBytes 1 kind ++ leBytes 1 r ++ List.replicate 6 0 ++ leBytes 6 off ++ [0, 0] ++ leBytes 4 len ++ List.replicate 12 0

/-- Devices that the notice of a set goes to, this one left out. -/
def State.noticeTo (s : State) (r : Nat) : List Coord :=
  let all := (List.range 256).map (fun i => (BitVec.ofNat 12 (blockOf s.self * 256 + i) : Coord))
  let cs := match s.fld (FAB_REPL_CFG r) FAB_REPL_CFG_SCOPE with
    | 1 => all.filter (fun c => podOf c = podOf s.self && s.present c)
    | 2 => all.filter (fun c => s.present c)
    | _ => s.members r
  cs.filter (fun c => c ≠ s.self)

/-- All members have answered: the notices go out, this device's own caches included (step 4 of R303). -/
def State.sendNotices (s : State) (n : RingId) (i : Index) (d : Desc) (r o len : Nat) : State :=
  let s := s.applyNotice r o len
  let cs := s.noticeTo r
  let s := s.mapDesc n i fun d => { d with aux := 4, left := cs.length }
  cs.foldl (fun (s : State) c =>
    s.request { newReq 0 0x0D c (s.ringAgent n) (s.ringCtx n) o (.notice n i) with payload := republishHeader 1 r o (bits (d.word 5) 31 0) }) s

/-- The notify store of a republish, or its end (step 5). -/
def State.endRepublish (s : State) (n : RingId) (i : Index) (d : Desc) : State :=
  if d.word 6 = 0 then s.endTransfer n i (bits (d.word 5) 31 0) else s.sendNotify n i d

/-- A republish goes on once nothing of its step is left. -/
def State.republishStep (s : State) (n : RingId) (i : Index) : State :=
  match s.desc n i with
  | none => s
  | some d =>
    if d.left ≠ 0 || d.phase ≠ .working then s
    else match s.republishSet n d, s.whereIs (d.word 4).toNat with
      | some r, some (_, o) =>
        if d.aux = 3 then
          let s := s.sendNotices n i d r o (bits (d.word 5) 31 0)
          match s.desc n i with
          | some d => if d.left = 0 then s.endRepublish n i d else s
          | none => s
        else if d.aux = 4 then s.endRepublish n i d
        else s
      | _, _ => s.endRepublish n i d

/-- Write the home's own copy of one piece, and send it to the other members (steps 2 and 3). -/
def State.republishPiece (s : State) (n : RingId) (i : Index) (r src : Nat) (c : Nat × Nat × Nat) : State :=
  match s.readFor (s.me (s.ringAuth n)) (src + c.2.2) c.2.1 true with
  | (.ok bs, s) =>
    match s.writeFor (s.me (s.ringAuth n)) true c.1 bs true with
    | (.err st, s) => s.failPiece n i c.2.2 st
    | (_, s) =>
      (((s.members r).drop 1).filter (fun m => m ≠ s.self)).zipIdx.foldl (fun (s : State) m =>
        (s.request { newReq 0 0x0D m.1 (s.ringAgent n) (s.ringCtx n) c.1 (.deskData n i c.2.2) with
          payload := republishHeader 0 r c.1 c.2.1 ++ bs }).awaiting n i 1) s
  | (.err st, s) => s.failPiece n i c.2.2 st
  | (.wait, s) => s

/-- An earlier republish of the same set has not completed. -/
def State.republishBusy (s : State) (n : RingId) (i : Index) (r : Nat) : Bool :=
  ((s.descs.takeWhile (fun (e : Desc) => !(e.ring = n && e.idx = i)))).any fun (e : Desc) =>
    e.typ = 0x30 && (e.phase = .started || e.phase = .working) && s.republishSet e.ring e = some r

/-- REPUBLISH_START: the republishes of a set run one at a time, in the order their descriptors started (R303). -/
def execRepublishStart (n : RingId) (i : Index) (s : State) : Result :=
  .next (match s.work n i 0x30 .started with
    | none => s
    | some d =>
      match (if (s.putBad d).isSome then none else s.republishSet n d), s.whereIs (d.word 4).toNat, s.locate false (d.word 3).toNat (bits (d.word 5) 31 0) with
      | some r, some (_, o), .here src =>
        if s.republishBusy n i r then s
        else
          let s := s.mapDesc n i fun d => { d with phase := .working, aux := 3 }
          ((cuts 4096 o (bits (d.word 5) 31 0)).foldl (fun (s : State) c => s.republishPiece n i r src c) s).republishStep n i
      | _, _, _ => s)

end Sys2Proof.Machine
end

