-- ==== Sys2Proof/Machine/FrontNet.lean ====
section
/-! DEFINITION. Frames and packets of the front ports: what is accepted, what is answered, how frames are built (R333 to R335, R353). -/
namespace Sys2Proof.Machine

open Reg

/-! ### Network byte order and checks -/

/-- Big-endian value of bytes `i` to `i + n - 1`. -/
def beAt (l : List Byte) (i n : Nat) : Nat := ((l.drop i).take n).foldl (fun a b => 256 * a + b.toNat) 0

/-- `n` big-endian bytes of a number. -/
def beBytes (n v : Nat) : List Byte := (leBytes n v).reverse

/-- Sum of the big-endian 16-bit words of some bytes, the last one padded with zero. -/
def sum16 : List Byte → Nat
  | [] => 0
  | [a] => 256 * a.toNat
  | a :: b :: l => 256 * a.toNat + b.toNat + sum16 l

/-- A ones' complement sum folded to 16 bits. -/
def fold16 (n : Nat) : Nat :=
  let f := fun (n : Nat) => n % 65536 + n / 65536
  f (f (f n))

/-- The Internet checksum of some bytes that follow a sum. -/
def checksum (before : Nat) (l : List Byte) : Nat := 65535 - fold16 (before + sum16 l)

/-- Bytes that hold their own checksum are whole. -/
def sumOk (before : Nat) (l : List Byte) : Bool := fold16 (before + sum16 l) = 65535

/-! ### Addresses of a port -/

/-- An IPv4 address in the IPv6 form ::ffff:a.b.c.d. -/
def mapped (a : Nat) : BitVec 128 := BitVec.ofNat 128 (0xFFFF * 2 ^ 32 + a % 2 ^ 32)

def State.portMac (s : State) (p : PortId) : BitVec 48 := BitVec.ofNat 48 (s.fld (FRONT_PORT_CFG p) FRONT_PORT_CFG_MAC)
def State.portIp4 (s : State) (p : PortId) : Nat := s.fld (FRONT_PORT_IP4 p) FRONT_PORT_IP4_ADDR
def State.portIp6 (s : State) (p : PortId) : BitVec 128 :=
  BitVec.ofNat 128 ((s.reg (FRONT_PORT_IP6_HI p)).toNat * 2 ^ 64 + (s.reg (FRONT_PORT_IP6_LO p)).toNat)

/-- The own addresses of a port. -/
def State.ownAddr (s : State) (p : PortId) (a : BitVec 128) : Bool :=
  (s.portIp4 p ≠ 0 && a = mapped (s.portIp4 p)) || (s.portIp6 p ≠ 0 && a = s.portIp6 p)

/-- Bit `p` of QUIESCE and of QDONE. -/
def State.quiesced (s : State) (p : PortId) : Bool := bit (s.reg FRONT_CTRL) p
def State.quiesceDone (s : State) (p : PortId) : Bool := bit (s.reg FRONT_CTRL) (2 + p.val)

/-- The port is in use and its link up; a recovery keeps it dark (R418). -/
def State.portUp (s : State) (p : PortId) : Bool :=
  !s.inRecovery && s.fld (FRONT_PORT_CFG p) FRONT_PORT_CFG_ENABLE = 1 && s.fld (FRONT_PORT_STATE p) FRONT_PORT_STATE_LINK = 1

/-- The port sends: it is in use, and neither quiesced nor in fail-safe (R354, R381). -/
def State.portSends (s : State) (p : PortId) : Bool := s.portUp p && !s.quiesceDone p && !s.failsafe

/-- The port takes frames (R354). -/
def State.portTakes (s : State) (p : PortId) : Bool := s.portUp p && !s.quiesced p

def State.countDiscard (s : State) (p : PortId) : State := s.bump (FRONT_PORT_STATE p) FRONT_PORT_STATE_DISCARDS

/-! ### Flow records (R341) -/

def Flow.port (f : Flow) : Nat := leAt f.rec_ 0 1
def Flow.v6 (f : Flow) : Bool := leAt f.rec_ 1 1 = 6
/-- Addresses and ports stand in network byte order. -/
def Flow.udp (f : Flow) : Nat := beAt f.rec_ 2 2
def recAddr (r : List Byte) (v6 : Bool) (i : Nat) : BitVec 128 := if v6 then BitVec.ofNat 128 (beAt r i 16) else mapped (beAt r i 4)
def Flow.group (f : Flow) : BitVec 128 := recAddr f.rec_ f.v6 0x08
def Flow.srcf (f : Flow) : Bool := leAt f.rec_ 7 1 % 2 = 1
def Flow.source (f : Flow) : BitVec 128 := recAddr f.rec_ f.v6 0x18

/-! ### Groups joined -/

def ptpGroup4 : BitVec 128 := mapped 0xE0000181
def ptpGroup6 : BitVec 128 := 0xFF0E0000000000000000000000000181#128

/-- FF0x::181 of any scope, or 224.0.1.129. -/
def isPtpGroup (a : BitVec 128) : Bool := a = ptpGroup4 || (bits a 127 116 = 0xFF0 && bits a 111 0 = 0x181)

/-- The PTP unit listens on a port (R337, R354). -/
def State.ptpOn (s : State) (p : PortId) : Bool := s.fld FRONT_TIME_CFG FRONT_TIME_CFG_SOURCE = 0 && !s.quiesced p

/-- Flows of a port. -/
def State.flowsOn (s : State) (p : PortId) : List Flow := s.front.flows.filter (fun f => f.port = p)

/-- Groups joined on a port, with the one source that is asked for. -/
def State.joined (s : State) (p : PortId) : List (BitVec 128 × Option (BitVec 128)) :=
  (if s.ptpOn p then [(ptpGroup4, none), (ptpGroup6, none)] else [])
    ++ (s.flowsOn p).map (fun f => (f.group, if f.srcf then some f.source else none))

def isMapped (a : BitVec 128) : Bool := bits a 127 32 = 0xFFFF

/-- MAC address of a multicast group. -/
def groupMac (a : BitVec 128) : BitVec 48 :=
  if isMapped a then BitVec.ofNat 48 (0x01005E000000 + bits a 22 0) else BitVec.ofNat 48 (0x333300000000 + bits a 31 0)

/-- A destination MAC address that the port accepts (R334). -/
def State.takesMac (s : State) (p : PortId) (m : BitVec 48) : Bool :=
  m = s.portMac p || m = 0xFFFFFFFFFFFF#48 || (s.joined p).any (fun g => groupMac g.1 = m)

/-! ### Frames out (R334, R335) -/

/-- Send an Ethernet frame; it is tagged exactly when VLAN_EN is 1, padded to 64 bytes and closed by its FCS. -/
def State.sendFrame (s : State) (p : PortId) (dst : BitVec 48) (typ : Nat) (body : List Byte) : State :=
  if s.portSends p then
    let tag := if s.fld (FRONT_PORT_CFG p) FRONT_PORT_CFG_VLAN_EN = 1 then
      beBytes 2 0x8100 ++ beBytes 2 (s.fld (FRONT_PORT_CFG p) FRONT_PORT_CFG_VID) else []
    let f := padTo 60 (beBytes 6 dst.toNat ++ beBytes 6 (s.portMac p).toNat ++ tag ++ beBytes 2 typ ++ body)
    s.emit (.frame p (f ++ leBytes 4 (crc32 f).toNat))
  else s

/-- Sum of the pseudo header of an upper protocol. -/
def pseudoSum (v6 : Bool) (src dst : BitVec 128) (proto len : Nat) : Nat :=
  if v6 then sum16 (beBytes 16 src.toNat ++ beBytes 16 dst.toNat ++ beBytes 4 len ++ beBytes 4 proto)
  else sum16 (beBytes 4 (bits src 31 0) ++ beBytes 4 (bits dst 31 0) ++ beBytes 2 proto ++ beBytes 2 len)

/-- Send an IP packet: DF, TTL or hop limit 64, no options or extension headers. The IPv4 identification is open (log entry 21). -/
def State.sendIp (s : State) (p : PortId) (mac : BitVec 48) (src dst : BitVec 128) (proto : Nat) (body : List Byte) : State :=
  if isMapped dst then
    let (v, s) := s.free
    let h := beBytes 2 0x4500 ++ beBytes 2 (20 + body.length) ++ beBytes 2 (bits v 15 0) ++ beBytes 2 0x4000 ++ beBytes 2 (64 * 256 + proto)
    let t := beBytes 4 (bits src 31 0) ++ beBytes 4 (bits dst 31 0)
    s.sendFrame p mac 0x0800 (h ++ beBytes 2 (checksum (sum16 h) t) ++ t ++ body)
  else
    s.sendFrame p mac 0x86DD (beBytes 4 0x60000000 ++ beBytes 2 body.length ++ beBytes 1 proto ++ beBytes 1 64
      ++ beBytes 16 src.toNat ++ beBytes 16 dst.toNat ++ body)

/-- The own address of the family of `dst`. -/
def State.srcAddr (s : State) (p : PortId) (dst : BitVec 128) : BitVec 128 := if isMapped dst then mapped (s.portIp4 p) else s.portIp6 p

/-- Send a UDP datagram; its checksum is always computed, and a computed 0 is sent as 0xFFFF. -/
def State.sendUdp (s : State) (p : PortId) (mac : BitVec 48) (dst : BitVec 128) (sport dport : Nat) (data : List Byte) : State :=
  let src := s.srcAddr p dst
  let n := 8 + data.length
  let h := beBytes 2 sport ++ beBytes 2 dport ++ beBytes 2 n
  let c := checksum (pseudoSum (!isMapped dst) src dst 17 n + sum16 h) data
  s.sendIp p mac src dst 17 (h ++ beBytes 2 (if c = 0 then 0xFFFF else c) ++ data)

/-- A message with its checksum put in at byte `i`. -/
def withSum (before : Nat) (i : Nat) (m : List Byte) : List Byte := m.take i ++ beBytes 2 (checksum before m) ++ m.drop (i + 2)

/-! ### PTP messages (R337) -/

def ptpType (m : List Byte) : Nat := leAt m 0 1 % 16

/-- DOMAIN as it acts. -/
def State.ptpDomain (s : State) : Nat := min 127 (s.fld FRONT_TIME_CFG FRONT_TIME_CFG_DOMAIN)

/-- A message of version 2 in the own domain, of its length at least. -/
def State.ptpOk (s : State) (m : List Byte) (len : Nat) : Bool :=
  len ≤ m.length && leAt m 1 1 % 16 = 2 && leAt m 4 1 = s.ptpDomain

/-- A message that the unit handles: a Sync, a Follow_Up, a Delay_Resp or an Announce of its domain. -/
def State.ptpTakes (s : State) (m : List Byte) : Bool :=
  match ptpType m with
  | 0 => s.ptpOk m 44
  | 8 => s.ptpOk m 44
  | 9 => s.ptpOk m 54
  | 11 => s.ptpOk m 64
  | _ => false

/-! ### Packets in -/

/-- An IP packet that R335 takes: version, addresses, protocol, the bytes above it. -/
structure IpPacket where
  v6 : Bool
  src : BitVec 128
  dst : BitVec 128
  proto : Nat
  body : List Byte
  deriving DecidableEq, Repr

/-- Take an IP packet apart; none where R335 discards it. -/
def ipOf (b : List Byte) : Option IpPacket :=
  if leAt b 0 1 / 16 = 4 then
    let n := beAt b 2 2
    if leAt b 0 1 ≠ 0x45 || n < 20 || b.length < n || !sumOk 0 (b.take 20) || beAt b 6 2 % 2 ^ 14 ≠ 0 then none
    else some ⟨false, mapped (beAt b 12 4), mapped (beAt b 16 4), leAt b 9 1, (b.take n).drop 20⟩
  else
    let n := beAt b 4 2
    let nh := leAt b 6 1
    if leAt b 0 1 / 16 ≠ 6 || b.length < 40 + n || !(nh = 6 || nh = 17 || nh = 58) then none
    else some ⟨true, BitVec.ofNat 128 (beAt b 8 16), BitVec.ofNat 128 (beAt b 24 16), nh, (b.take (40 + n)).drop 40⟩

/-- A UDP datagram: source port, destination port, data. -/
def udpOf (i : IpPacket) : Option (Nat × Nat × List Byte) :=
  let n := beAt i.body 4 2
  let c := beAt i.body 6 2
  if i.proto ≠ 17 || n < 8 || i.body.length < n then none
  else if (c = 0 && i.v6) || (c ≠ 0 && !sumOk (pseudoSum i.v6 i.src i.dst 17 n) (i.body.take n)) then none
  else some (beAt i.body 0 2, beAt i.body 2 2, (i.body.take n).drop 8)

/-- A TCP segment: source port, destination port, data. -/
def tcpOf (i : IpPacket) : Option (Nat × Nat × List Byte) :=
  let h := 4 * (leAt i.body 12 1 / 16)
  if i.proto ≠ 6 || h < 20 || i.body.length < h || !sumOk (pseudoSum i.v6 i.src i.dst 6 i.body.length) i.body then none
  else some (beAt i.body 0 2, beAt i.body 2 2, i.body.drop h)

/-- The packet is addressed to a flow (R344). -/
def Flow.addressed (f : Flow) (p : PortId) (i : IpPacket) (dport : Nat) : Bool :=
  f.port = p && f.v6 = i.v6 && f.group = i.dst && f.udp = dport && (!f.srcf || f.source = i.src)

/-- What becomes of an untagged frame without FCS that R334 accepts: taken by a protocol, taken by Ranger's address resolution without a
trace, or none where it is outside R335. -/
def State.classify (s : State) (p : PortId) (f : List Byte) : Option (List Rx) :=
  let body := f.drop 14
  let mac : BitVec 48 := BitVec.ofNat 48 (beAt f 6 6)
  let conns := s.front.conns.any (fun c => c.port = p)
  match beAt f 12 2 with
  | 0x0806 =>
    if body.length < 28 || beAt body 0 6 ≠ 0x000108000604 || s.portIp4 p = 0 || beAt body 24 4 ≠ s.portIp4 p then none
    else if beAt body 6 2 = 1 then some [.resolve f]
    else if beAt body 6 2 = 2 && conns then some []
    else none
  | 0x0800 => if leAt body 0 1 / 16 = 4 then go body mac conns else none
  | 0x86DD => if leAt body 0 1 / 16 = 6 then go body mac conns else none
  | _ => none
where
  /-- An IP packet. -/
  go (body : List Byte) (mac : BitVec 48) (conns : Bool) : Option (List Rx) :=
    match ipOf body with
    | none => none
    | some i =>
      let own := s.ownAddr p i.dst
      match i.proto with
      | 1 => if !i.v6 && own && beAt i.body 0 2 = 0x0800 && 8 ≤ i.body.length && sumOk 0 i.body then some [.echo f] else none
      | 2 =>
        if !i.v6 && leAt i.body 0 1 = 0x11 && 12 ≤ i.body.length && sumOk 0 i.body && (own || (s.joined p).any (fun g => g.1 = i.dst)) then
          some [.query f] else none
      | 58 =>
        if !i.v6 || !sumOk (pseudoSum true i.src i.dst 58 i.body.length) i.body then none
        else match leAt i.body 0 1 with
          | 128 => if own && 8 ≤ i.body.length then some [.echo f] else none
          | 130 => if 28 ≤ i.body.length && (own || (s.joined p).any (fun g => g.1 = i.dst)) then some [.query f] else none
          | 135 =>
            if 24 ≤ i.body.length && s.portIp6 p ≠ 0 && BitVec.ofNat 128 (beAt i.body 8 16) = s.portIp6 p then some [.resolve f] else none
          | 136 => if own && conns then some [] else none
          | _ => none
      | 6 =>
        match tcpOf i with
        | some (sp, _, data) =>
          if own && s.front.conns.any (fun c => c.port = p && c.peer = ⟨i.src, BitVec.ofNat 16 sp⟩) then
            some [.tcp ⟨i.src, BitVec.ofNat 16 sp⟩ data] else none
        | none => none
      | 17 =>
        match udpOf i with
        | none => none
        | some (sp, dp, data) =>
          if isPtpGroup i.dst && (dp = 319 || dp = 320) && s.ptpOn p then (if s.ptpTakes data then some [.ptp data] else none)
          else if (s.flowsOn p).any (fun w => w.addressed p i dp) then some [.video body]
          else if own && s.fld FRONT_EXR_CFG FRONT_EXR_CFG_ENABLE = 1 && dp = s.fld FRONT_EXR_CFG FRONT_EXR_CFG_UDP_PORT then
            some [.exr mac i.src (BitVec.ofNat 16 sp) data]
          else none
      | _ => none

/-- The frame without tag and FCS when R334 accepts it. -/
def State.accepts (s : State) (p : PortId) (f : List Byte) : Option (List Byte) :=
  let g := f.take (f.length - 4)
  let tagged := fun (i : Nat) => beAt g i 2 = 0x8100 || beAt g i 2 = 0x88A8
  if f.length < 64 || 9216 < f.length || f.drop (f.length - 4) ≠ leBytes 4 (crc32 g).toNat then none
  else if !s.takesMac p (BitVec.ofNat 48 (beAt g 0 6)) then none
  else if s.fld (FRONT_PORT_CFG p) FRONT_PORT_CFG_VLAN_EN = 0 then (if tagged 12 then none else some g)
  else if beAt g 12 2 = 0x8100 && beAt g 14 2 % 4096 = s.fld (FRONT_PORT_CFG p) FRONT_PORT_CFG_VID && !tagged 16 then
    some (g.take 12 ++ g.drop 16)
  else none

/-- The frame's FCS is bad. -/
def fcsBad (f : List Byte) : Bool := f.drop (f.length - 4) ≠ leBytes 4 (crc32 (f.take (f.length - 4))).toNat

/-- FRAME_RX. A port out of use takes nothing. -/
def execFrameRx (port : PortId) (frame : List Byte) (s : State) : Result :=
  .next (
    if !s.portTakes port then s
    else
      let s := if fcsBad frame then s.bump (FRONT_PORT_STATE port) FRONT_PORT_STATE_FCS_ERR else s
      match (s.accepts port frame).bind (s.classify port) with
      | none => s.countDiscard port
      | some rs => { s with front := { s.front with rx := s.front.rx ++ rs.map (fun r => (port, r)) } })

/-- Take what a port has accepted out of its queue. -/
def State.takeRx (s : State) (p : PortId) (r : Rx) : Option State :=
  if s.front.rx.contains (p, r) then some { s with front := { s.front with rx := s.front.rx.erase (p, r) } } else none

/-! ### Answers -/

/-- Answer an ARP request or a neighbour solicitation for an own address. -/
def State.resolveReply (s : State) (p : PortId) (f : List Byte) : State :=
  let b := f.drop 14
  let mac := s.portMac p
  if beAt f 12 2 = 0x0806 then
    s.sendFrame p (BitVec.ofNat 48 (beAt b 8 6)) 0x0806
      (beBytes 6 0x000108000604 ++ beBytes 2 2 ++ beBytes 6 mac.toNat ++ beBytes 4 (s.portIp4 p) ++ (b.drop 8).take 10)
  else match ipOf b with
    | none => s
    | some i =>
      let all : BitVec 128 := 0xFF020000000000000000000000000001#128
      let dst := if i.src = 0 then all else i.src
      let m := [136, 0, 0, 0, if i.src = 0 then 0x20 else 0x60, 0, 0, 0] ++ beBytes 16 (s.portIp6 p).toNat ++ [2, 1] ++ beBytes 6 mac.toNat
      s.sendIp p (if i.src = 0 then groupMac all else BitVec.ofNat 48 (beAt f 6 6)) (s.portIp6 p) dst 58
        (withSum (pseudoSum true (s.portIp6 p) dst 58 m.length) 2 m)

/-- ARP_REQUEST. -/
def execArpRequest (port : PortId) (frame : List Byte) (s : State) : Result :=
  .next (match s.takeRx port (.resolve frame) with
    | none => s
    | some s => s.resolveReply port frame)

/-- Send an echo reply. -/
def State.echoReply (s : State) (p : PortId) (f : List Byte) : State :=
  match ipOf (f.drop 14) with
  | none => s
  | some i =>
    let m := (if i.v6 then [129, 0, 0, 0] else [0, 0, 0, 0]) ++ i.body.drop 4
    s.sendIp p (BitVec.ofNat 48 (beAt f 6 6)) i.dst i.src i.proto
      (withSum (if i.v6 then pseudoSum true i.dst i.src 58 m.length else 0) 2 m)

/-- ICMP_ECHO: up to 1,000 answers in each second of device time. -/
def execIcmpEcho (port : PortId) (frame : List Byte) (s : State) : Result :=
  .next (match s.takeRx port (.echo frame) with
    | none => s
    | some s =>
      let sec := s.devTime.toNat / 1000000000
      let e := Maps.get (0, 0) s.front.echoes port
      let n := if e.1 = sec then e.2 else 0
      if 1000 ≤ n then s.countDiscard port
      else { s with front := { s.front with echoes := Maps.put (0, 0) s.front.echoes port (sec, n + 1) } }.echoReply port frame)

/-- A group record: its type, the group, its sources. -/
def groupRecord (typ : Nat) (v6 : Bool) (g : BitVec 128) (src : Option (BitVec 128)) : List Byte :=
  let addr := fun (a : BitVec 128) => if v6 then beBytes 16 a.toNat else beBytes 4 (bits a 31 0)
  beBytes 2 (typ * 256) ++ beBytes 2 (match src with
    | some _ => 1
    | none => 0) ++ addr g ++ (match src with
    | some a => addr a
    | none => [])

/-- Send an IGMPv3 or MLDv2 report of some group records. -/
def State.sendReport (s : State) (p : PortId) (v6 : Bool) (n : Nat) (records : List Byte) : State :=
  let dst : BitVec 128 := if v6 then 0xFF020000000000000000000000000016#128 else mapped 0xE0000016
  let m := [if v6 then 143 else 0x22, 0, 0, 0, 0, 0] ++ beBytes 2 n ++ records
  if (if v6 then s.portIp6 p = 0 else s.portIp4 p = 0) then s
  else s.sendIp p (groupMac dst) (s.srcAddr p dst) dst (if v6 then 58 else 2)
    (withSum (if v6 then pseudoSum true (s.portIp6 p) dst 58 m.length else 0) 2 m)

/-- IGMP_QUERY: a report for the groups joined, or for the one group asked for. -/
def execIgmpQuery (port : PortId) (frame : List Byte) (s : State) : Result :=
  .next (match s.takeRx port (.query frame) with
    | none => s
    | some s =>
      match ipOf (frame.drop 14) with
      | none => s
      | some i =>
        let asked : BitVec 128 := if i.v6 then BitVec.ofNat 128 (beAt i.body 8 16) else mapped (beAt i.body 4 4)
        let any_ := if i.v6 then asked = 0 else asked = mapped 0
        let gs := ((s.joined port).filter (fun g => isMapped g.1 = !i.v6 && (any_ || g.1 = asked))).eraseDups
        if gs = [] then s
        else s.sendReport port i.v6 gs.length (gs.flatMap (fun g => groupRecord (if g.2.isSome then 1 else 2) i.v6 g.1 g.2)))

/-- NVME_TCP_SEGMENT: the data of a segment goes to the host's end of its connection. -/
def execNvmeTcpSegment (port : PortId) (conn : TcpConn) (data : List Byte) (s : State) : Result :=
  .next (match s.takeRx port (.tcp conn data) with
    | none => s
    | some s => { s with front := { s.front with conns := s.front.conns.map (fun (c : Conn) =>
        if c.port = port && c.peer = conn then { c with got := c.got ++ data } else c) } })

/-- Ranger opens a connection to a target of the shared store on the first port in use; the target's address is open (R353). -/
def State.openConn (s : State) (t : Nat) : State :=
  let a := Config.target t
  let peer : TcpConn := ⟨a.setWidth 128, BitVec.ofNat 16 (a.toNat / 2 ^ 128)⟩
  match (List.finRange 2).find? (fun (p : PortId) => s.portTakes p) with
  | none => s
  | some p =>
    if s.front.conns.any (fun c => c.port = p && c.peer = peer) then s
    else { s with front := { s.front with conns := s.front.conns ++ [⟨p, peer, []⟩] } }

/-- PORT_LINK_CHANGE. -/
def execPortLinkChange (port : PortId) (up : Bool) (s : State) : Result :=
  .next (s.setFld (FRONT_PORT_STATE port) FRONT_PORT_STATE_LINK (b2n up))

end Sys2Proof.Machine
end

