-- ==== Sys2Proof/Machine/FrontTime.lean ====
section
/-! DEFINITION. Device time: corrections, the PTP unit, time over the fabric, holdover (R336 to R339). -/
namespace Sys2Proof.Machine

open Reg

/-! ### Corrections (R336) -/

/-- A positive correction above 1 µs steps device time; every other one is slewed. -/
def State.correct (s : State) (c : Int) : State :=
  if 1000 < c then { s with devTime := s.devTime + BitVec.ofInt 64 c, slew := 0, timeSet := true } else { s with slew := c, timeSet := true }

/-- A correction within 32-bit two's complement, saturating. -/
def sat32 (c : Int) : Nat := (BitVec.ofInt 32 (max (-(2 ^ 31 : Int)) (min c (2 ^ 31 - 1)))).toNat

def State.timeSource (s : State) : Nat := s.fld FRONT_TIME_CFG FRONT_TIME_CFG_SOURCE
def State.timeState (s : State) : Nat := s.fld FRONT_TIME_STATE FRONT_TIME_STATE_STATE

/-- An offset has been measured and is applied: the device is LOCKED; when that ends HOLDOVER, an INFO event says so (R338, R339). -/
def State.lockTime (s : State) (c : Int) (depth : Nat) : State :=
  let was := s.timeState
  let s := ((s.correct c).setFld FRONT_TIME_STATE FRONT_TIME_STATE_OFFSET_NS (sat32 c)).setFld FRONT_TIME_STATE FRONT_TIME_STATE_STATE 2
  let s := s.setFld FRONT_TIME_STATE FRONT_TIME_STATE_DEPTH depth
  if was = 3 then (s.clearActive (fun e => e.code = 0x0109)).post (event 0x0006 (BitVec.ofInt 48 c) none) else s

/-- HOLDOVER begins (R339). -/
def State.holdover (s : State) : State :=
  if s.timeState = 3 then s
  else (s.setFld FRONT_TIME_STATE FRONT_TIME_STATE_STATE 3).post (event 0x0109 (BitVec.ofNat 48 s.timeSource) none)

/-! ### PTP messages (R337) -/

def ptpSeq (m : List Byte) : BitVec 16 := BitVec.ofNat 16 (beAt m 30 2)
def ptpIdent (m : List Byte) : List Byte := (m.drop 20).take 10

/-- The correction field, in 2^-16 ns, as whole ns. -/
def ptpCorr (m : List Byte) : Int := (BitVec.ofNat 64 (beAt m 8 8)).toInt / 65536

/-- The timestamp at byte 34, in ns. -/
def ptpStamp (m : List Byte) : Int := ((beAt m 34 6 * 1000000000 + beAt m 40 4 : Nat) : Int)

/-- Port identity of the own clock on a port (log entry 22). -/
def State.ptpSelf (s : State) (p : PortId) : List Byte :=
  let m := beBytes 6 (s.portMac p).toNat
  m.take 3 ++ [0xFF, 0xFE] ++ m.drop 3 ++ beBytes 2 (1 + p.val)

/-- Take a PTP message out of a port's queue, while time comes from PTP. -/
def State.takePtp (s : State) (p : PortId) (m : List Byte) : Option State :=
  if s.timeSource = 0 then s.takeRx p (.ptp m) else none

/-- A lexicographic comparison of bytes. -/
def bytesLt : List Byte → List Byte → Bool
  | [], [] => false
  | [], _ => true
  | _, [] => false
  | a :: l, b :: m => if a = b then bytesLt l m else a.toNat < b.toNat

/-- One master is better than another: by the grandmaster's data set, then fewer steps, then the sender's identity. -/
def Master.better (a b : Master) : Bool :=
  if a.data ≠ b.data then bytesLt a.data b.data
  else if a.steps ≠ b.steps then a.steps < b.steps
  else bytesLt (a.ident ++ [BitVec.ofNat 8 a.port.val]) (b.ident ++ [BitVec.ofNat 8 b.port.val])

def bestMaster : List Master → Option Master
  | [] => none
  | m :: l =>
    match bestMaster l with
    | none => some m
    | some b => if m.better b then some m else some b

/-- Choose the best master heard; a change begins a new measurement. -/
def State.chooseMaster (s : State) : State :=
  let c := (bestMaster s.front.masters).map (fun m => (m.port, m.ident))
  if c = s.front.chosen then s
  else
    let s := { s with front := { s.front with chosen := c, sync := none } }
    match c with
    | none => s
    | some (p, _) =>
      let s := s.setFld FRONT_TIME_STATE FRONT_TIME_STATE_PORT p
      if s.timeState = 0 then s.setFld FRONT_TIME_STATE FRONT_TIME_STATE_STATE 1 else s

/-- PTP_ANNOUNCE. -/
def execPtpAnnounce (port : PortId) (msg : PtpMessage) (s : State) : Result :=
  let m := msg.bytes
  .next (match s.takePtp port m with
    | none => s
    | some s =>
      if !s.ptpOk m 64 || ptpType m ≠ 0xB then s
      else
        let w : Master := ⟨port, ptpIdent m, (m.drop 47).take 14, beAt m 61 2⟩
        let rest := s.front.masters.filter (fun (x : Master) => !(x.port = port && x.ident = w.ident))
        { s with front := { s.front with masters := rest ++ [w] } }.chooseMaster)

/-- A Delay_Req. -/
def State.delayReq (s : State) (p : PortId) : List Byte :=
  [0x01, 0x12] ++ beBytes 2 44 ++ [BitVec.ofNat 8 s.ptpDomain, 0, 0, 0] ++ List.replicate 12 0 ++ s.ptpSelf p
    ++ beBytes 2 s.front.dseq.toNat ++ [0x01, 0x7F] ++ List.replicate 10 0

/-- t1 is known: a Delay_Req leaves, and t3 is the device time at which it does (log entry 22). -/
def State.sendDelayReq (s : State) (p : PortId) (y : PtpSync) (t1 : Int) : State :=
  let dst := if s.portIp4 p ≠ 0 then ptpGroup4 else ptpGroup6
  let m := s.delayReq p
  let y := { y with t1 := some t1, dseq := some s.front.dseq, t3 := s.devTime }
  let s := { s with front := { s.front with sync := some y, dseq := s.front.dseq + 1 } }
  s.sendUdp p (groupMac dst) dst 319 319 m

/-- PTP_SYNC: a Sync of the chosen master, stamped `t2`, or its Follow_Up. -/
def execPtpSync (port : PortId) (msg : PtpMessage) (t2 : Word) (s : State) : Result :=
  let m := msg.bytes
  .next (match s.takePtp port m with
    | none => s
    | some s =>
      if !s.ptpOk m 44 || s.front.chosen ≠ some (port, ptpIdent m) then s
      else if ptpType m = 0 then
        let y : PtpSync := ⟨ptpSeq m, none, t2, ptpCorr m, none, 0⟩
        if bit (m.getD 6 0) 1 then { s with front := { s.front with sync := some y } }
        else s.sendDelayReq port y (ptpStamp m + ptpCorr m)
      else if ptpType m = 8 then
        match s.front.sync with
        | some y => if y.seq = ptpSeq m && y.t1.isNone then s.sendDelayReq port y (ptpStamp m + y.corr + ptpCorr m) else s
        | none => s
      else s)

/-- PTP_DELAY_RESP: the answer to the own Delay_Req completes a measurement; the offset of the own clock is taken off device time. -/
def execPtpDelayResp (port : PortId) (msg : PtpMessage) (s : State) : Result :=
  let m := msg.bytes
  .next (match s.takePtp port m with
    | none => s
    | some s =>
      match s.front.sync with
      | none => s
      | some y =>
        if !s.ptpOk m 54 || ptpType m ≠ 9 || s.front.chosen ≠ some (port, ptpIdent m) || (m.drop 44).take 10 ≠ s.ptpSelf port
            || y.dseq ≠ some (ptpSeq m) then s
        else match y.t1 with
          | none => s
          | some t1 =>
            let t4 := ptpStamp m - ptpCorr m
            let offset : Int := (((y.t2.toNat : Int) - t1) - (t4 - (y.t3.toNat : Int))) / 2
            { s with front := { s.front with sync := none } }.lockTime (-offset) 0)

/-- ANNOUNCE_TIMEOUT: the chosen master has gone silent (R339). -/
def execAnnounceTimeout (s : State) : Result :=
  .next (match s.front.chosen with
    | none => s
    | some (p, i) =>
      if s.timeSource ≠ 0 then s
      else
        let ms := s.front.masters.filter (fun (m : Master) => !(m.port = p && m.ident = i))
        ({ s with front := { s.front with masters := ms } }.holdover).chooseMaster)

/-- The PTP unit leaves a port (R354). -/
def State.stopPtp (s : State) (p : PortId) : State :=
  let had := s.front.chosen.isSome
  let ms := s.front.masters.filter (fun (m : Master) => m.port ≠ p)
  let s := { s with front := { s.front with masters := ms } }.chooseMaster
  if had && s.front.chosen.isNone && s.timeSource = 0 then s.holdover else s

/-! ### Time over the fabric (R338) -/

/-- FABRIC_TIME_TICK: a TIME request leaves at `t1`; after 16 in a row without an applicable reply the device is in HOLDOVER. -/
def execFabricTimeTick (t1 : Word) (s : State) : Result :=
  .next (
    if s.timeSource ≠ 1 then s
    else
      let s := if 16 ≤ s.front.misses then s.holdover else s
      let s := { s with front := { s.front with misses := min 16 (s.front.misses + 1) } }
      s.request { newReq 4 0x34 (BitVec.ofNat 12 (s.fld FRONT_TIME_CFG FRONT_TIME_CFG_UP_COORD)) agentFabric 0 0 (.time t1) with rlen := 32 })

/-- The reply to a TIME request arrives at `t4`. -/
def State.timeReply (s : State) (t1 t4 : Word) (pl : List Byte) : State :=
  let t2 := leAt pl 0 8
  let t3 := leAt pl 8 8
  let depth := leAt pl 17 1
  if s.timeSource ≠ 1 || leAt pl 16 1 ≠ 2 || 4 ≤ depth then s
  else
    let offset : Int := (((t2 : Int) - (t1.toNat : Int)) - ((t4.toNat : Int) - (t3 : Int))) / 2
    { s with front := { s.front with misses := 0 } }.lockTime offset (depth + 1)

/-- TIME_REQUEST: t2 is latched, and the reply leaves at t3. -/
def execTimeRequest (p : Packet) (t2 t3 : Word) (s : State) : Result :=
  let bad := p.plen ≠ 0 || p.rlen ≠ 32 || p.addr ≠ 0
  let run := fun (s : State) =>
    if bad then (⟨.format, [], s⟩ : Answer)
    else ⟨.ok, padTo 32 (leBytes 8 t2.toNat ++ leBytes 8 t3.toNat ++ leBytes 1 s.timeState
      ++ leBytes 1 (s.fld FRONT_TIME_STATE FRONT_TIME_STATE_DEPTH)), s⟩
  .next (s.serve p 4 0x34 run (fun st s => if st = .ok then run s else ⟨st, [], s⟩))

/-- A write of FRONT_TIME_CFG: another source begins anew. -/
def State.writeTimeCfg (s : State) (v mask : Word) : State :=
  let was := min 2 s.timeSource
  let s := s.writeWord .FRONT_TIME_CFG [] FRONT_TIME_CFG v mask
  if min 2 s.timeSource = was then s
  else
    let s := { s with front := { s.front with masters := [], chosen := none, sync := none, misses := 0 } }
    let s := (s.setFld FRONT_TIME_STATE FRONT_TIME_STATE_STATE (if s.timeSource = 1 then 1 else 0)).setFld FRONT_TIME_STATE FRONT_TIME_STATE_DEPTH 0
    s.clearActive (fun e => e.code = 0x0109)

end Sys2Proof.Machine
end

