-- ==== Sys2Proof/Machine/FrontVideo.lean ====
section
/-! DEFINITION. Video flows: their records, frames, packets, trailers and frame records (R340 to R348). -/
namespace Sys2Proof.Machine

open Reg

/-! ### The flow record (R341, R342) -/

def Flow.pt (f : Flow) : Nat := leAt f.rec_ 0x04 1
def Flow.fmtCode (f : Flow) : Nat := leAt f.rec_ 0x05 1
def Flow.timeout (f : Flow) : Nat := leAt f.rec_ 0x06 1
def Flow.width (f : Flow) : Nat := leAt f.rec_ 0x28 2
def Flow.height (f : Flow) : Nat := leAt f.rec_ 0x2A 2
def Flow.period (f : Flow) : Nat := leAt f.rec_ 0x2C 4
def Flow.slotBase (f : Flow) : Word := wordAt f.rec_ 0x30
def Flow.recBase (f : Flow) : Word := wordAt f.rec_ 0x38
def Flow.cidx (f : Flow) : Word := wordAt f.rec_ 0x40
def Flow.pitchY (f : Flow) : Nat := leAt f.rec_ 0x48 4
def Flow.pitchC (f : Flow) : Nat := leAt f.rec_ 0x4C 4
def Flow.k (f : Flow) : Nat := leAt f.rec_ 0x50 1
def Flow.fp (f : Flow) (i : Nat) : F32 := BitVec.ofNat 32 (leAt f.rec_ i 4)

/-- PLANEFMT as a format. -/
def Flow.fmt (f : Flow) : Fmt := if f.fmtCode = 1 then .bf16 else if f.fmtCode = 3 then .e4m3 else .e5m2
/-- Bytes of an element. -/
def Flow.esz (f : Flow) : Nat := if f.fmtCode = 1 then 2 else 1

/-- Y and C of R342. -/
def Flow.sizeY (f : Flow) : Nat := f.pitchY * f.height
def Flow.sizeC (f : Flow) : Nat := f.pitchC * f.height
/-- S of R342. -/
def Flow.slotSize (f : Flow) : Nat := 4096 * ceilDiv (f.sizeY + 2 * f.sizeC + 16416) 4096

/-- A multicast address. -/
def isMulticast (a : BitVec 128) : Bool := if isMapped a then bits a 31 28 = 0xE else bits a 127 120 = 0xFF

/-- The values of a flow record keep their limits, and its reserved bytes are zero. -/
def Flow.limitsOk (f : Flow) : Bool :=
  f.port ≤ 1 && (leAt f.rec_ 1 1 = 4 || leAt f.rec_ 1 1 = 6) && 1 ≤ f.udp && 96 ≤ f.pt && f.pt ≤ 127
    && (f.fmtCode = 1 || f.fmtCode = 3 || f.fmtCode = 4) && 1 ≤ f.timeout && f.timeout ≤ 15 && leAt f.rec_ 7 1 ≤ 1
    && isMulticast f.group && (f.srcf || leAt f.rec_ 0x18 16 = 0)
    && f.width % 2 = 0 && 2 ≤ f.width && f.width ≤ 7680 && 1 ≤ f.height && f.height ≤ 4320 && 1 ≤ f.period
    && f.slotBase.toNat % 4096 = 0 && f.recBase.toNat % 32 = 0 && f.cidx.toNat % 8 = 0
    && f.pitchY % 64 = 0 && f.width * f.esz ≤ f.pitchY && f.pitchC % 64 = 0 && f.width / 2 * f.esz ≤ f.pitchC
    && 1 ≤ f.k && f.k ≤ 10 && leAt f.rec_ 0x51 3 = 0 && (f.rec_.drop 0x64).all (· = 0)
    && [0x54, 0x58, 0x5C, 0x60].all (fun i => !(f32 (f.fp i)).isNan && !(f32 (f.fp i)).isInf)

/-- A local offset of an address on this device. -/
def State.localOff (s : State) (a : Word) : Option Nat :=
  match s.decode a with
  | .here o => some o
  | _ => none

/-- The record breaks nothing of R341. -/
def State.flowOk (s : State) (f : Flow) : Bool :=
  f.limitsOk && (s.localOff f.slotBase).isSome && (s.localOff f.recBase).isSome && (s.localOff f.cidx).isSome

def Flow.auth (f : Flow) : Auth :=
  match f.ctx with
  | some x => .ctx x
  | none => .ranger

/-- Whether a flow may write a range: `BOUND` where it is unmapped, `PERM` where it may not (R340). -/
def State.flowRange (s : State) (f : Flow) (a : Word) (n : Nat) : Option Status × State :=
  match s.protect (s.me f.auth) .wr false (bits a 47 0) n with
  | (.ok (.setup _), s) => (some .perm, s)
  | (.ok (.door _ _), s) => (some .perm, s)
  | (.ok _, s) => (none, s)
  | (.error st, s) => (some st, s)

/-! ### Flows in the state -/

def State.flow (s : State) (n : Nat) : Option Flow := s.front.flows.find? (fun f => f.num = n)

def State.setFlow (s : State) (f : Flow) : State :=
  { s with front := { s.front with flows := s.front.flows.map (fun g => if g.num = f.num then f else g) } }

/-- Report that a group is joined or left: IGMPv3 and MLDv2 state changes (log entry 21). -/
def State.tellGroup (s : State) (f : Flow) (join : Bool) : State :=
  let typ := match join, f.srcf with
    | true, true => 5
    | true, false => 4
    | false, true => 6
    | false, false => 3
  if h : f.port < 2 then
    s.sendReport ⟨f.port, h⟩ f.v6 1 (groupRecord typ f.v6 f.group (if f.srcf then some f.source else none))
  else s

/-! ### Slots, trailers, records -/

/-- A write of the flow at a local address; agents outside a mirrored device write like this too (R373). -/
def State.flowWrite (s : State) (f : Flow) (o : Nat) (bs : List Byte) : Option Status × State :=
  match s.writeFor (s.me f.auth) false o bs true with
  | (.ok _, s) => (none, s.mirror f.auth o bs)
  | (.err st, s) => (some st, s)
  | (.wait, s) => (none, s)

/-- Local offset of the slot of frame index `i`. -/
def Flow.slotOff (f : Flow) (i : BitVec 32) : Nat := bits f.slotBase 47 0 + i.toNat % 2 ^ f.k * f.slotSize

/-- NPKT (R343). -/
def Frame.npkt (fr : Frame) : Nat :=
  match fr.marker with
  | some m => (m - fr.firstSeq).toNat + 1
  | none => fr.taken.foldl (fun m q => max m ((q - fr.firstSeq).toNat + 1)) 0

/-- The trailer and the bitmap (R342, R343). -/
def Frame.trailer (fr : Frame) : List Byte :=
  let offs := fr.taken.map (fun q => (q - fr.firstSeq).toNat)
  padTo 32 (leBytes 4 fr.firstSeq.toNat ++ leBytes 4 fr.npkt ++ leBytes 4 fr.pixels ++ leBytes 1 (if fr.marker.isSome then 1 else 0))
    ++ (List.range 16384).map (fun j =>
      BitVec.ofNat 8 ((offs.filter (fun o => o / 8 = j && o < fr.npkt)).foldl (fun a o => a ||| 2 ^ (o % 8)) 0))

/-- The frame record (R348). -/
def Frame.record (fr : Frame) (flow k : Nat) : List Byte :=
  leBytes 8 fr.firstNs.toNat ++ leBytes 4 fr.idx.toNat ++ leBytes 4 fr.ts.toNat ++ leBytes 8 fr.lastNs.toNat ++ leBytes 4 fr.taken.length
    ++ leBytes 1 flow ++ leBytes 1 0 ++ leBytes 1 fr.status.code ++ leBytes 1 (2 * 3 + phaseOf fr.idx.toNat k)

/-- R347: marker, every sequence number up to it, every pixel. -/
def Frame.complete (fr : Frame) (f : Flow) : Bool :=
  fr.marker.isSome && (fr.taken.filter (fun q => (q - fr.firstSeq).toNat < fr.npkt)).length = fr.npkt && fr.pixels = f.width * f.height

/-- Post the records of closed frames in index order, as far as no open one stands before them (R348). -/
def State.postFrames (s : State) (n : Nat) : Nat → Option Status × State
  | 0 => (none, s)
  | j + 1 =>
    match s.flow n with
    | none => (none, s)
    | some f =>
      match f.frames with
      | fr :: rest =>
        if !fr.closed then (none, s)
        else
          let (st, s) := s.flowWrite f (bits f.recBase 47 0 + 32 * (fr.idx.toNat % 2 ^ f.k)) (fr.record n f.k)
          let s := s.setFlow { f with frames := rest }
          let s := if fr.status = .incomplete then s.bump (FRONT_FLOW_STATE n) FRONT_FLOW_STATE_INCOMPLETE else s
          let (st', s) := s.postFrames n j
          (st <|> st', s)
      | [] => (none, s)

/-- The frame of a flow that is open with a timestamp. -/
def Flow.openAt (f : Flow) (ts : BitVec 32) : Option Frame := f.frames.find? (fun fr => fr.ts = ts && !fr.closed)

/-- The earlier of two statuses, and the later state. -/
def firstOf (a : Option Status) (b : Option Status × State) : Option Status × State := (a <|> b.1, b.2)

/-- Close one frame: its trailer is written, its status settled, and it posts behind the frames before it. -/
def State.shutFrame (s : State) (n : Nat) (ts : BitVec 32) (f : Flow) (fr : Frame) : Option Status × State :=
  let w := s.flowWrite f (f.slotOff fr.idx + f.sizeY + 2 * f.sizeC) fr.trailer
  let done : Frame := { fr with closed := true, status := if fr.complete f then .ok else .incomplete }
  firstOf w.1 ((w.2.setFlow { f with frames := f.frames.map (fun (x : Frame) => if x.ts = ts then done else x) }).postFrames n (f.frames.length + 1))

/-- Close the frame with timestamp `ts`: its trailer and bitmap, then the records whose turn it is. -/
def State.closeFrame (s : State) (n : Nat) (ts : BitVec 32) : Option Status × State :=
  match s.flow n with
  | none => (none, s)
  | some f =>
    match f.openAt ts with
    | none => (none, s)
    | some fr => s.shutFrame n ts f fr

/-- Timestamps of the open frames, oldest first. -/
def Flow.openTs (f : Flow) : List (BitVec 32) := (f.frames.filter (fun fr => !fr.closed)).map (·.ts)

/-- Close every open frame of a flow. -/
def State.closeAll (s : State) (n : Nat) : Option Status × State :=
  match s.flow n with
  | none => (none, s)
  | some f => f.openTs.foldl (fun (r : Option Status × State) ts =>
      let q := r.2.closeFrame n ts
      (r.1 <|> q.1, q.2)) (none, s)

/-- End a flow: its frames close and post, its group is left, STATE reads 0. -/
def State.endFlow (s : State) (n : Nat) : State :=
  let s := (s.closeAll n).2
  match s.flow n with
  | none => s
  | some f =>
    (({ s with front := { s.front with flows := s.front.flows.filter (fun g => g.num ≠ n) } }).tellGroup f false).setFld
      (FRONT_FLOW_STATE n) FRONT_FLOW_STATE_STATE 0

/-- A refused write of a slot or a record closes the flow, with a STEP_FAULT event (R348). -/
def State.afterWrite (r : Option Status × State) (n : Nat) : State :=
  match r with
  | (none, s) => s
  | (some st, s) =>
    match s.flow n with
    | none => s
    | some f => (s.endFlow n).post { event 0x0204 (BitVec.ofNat 48 n) f.ctx with status := st }

/-! ### Packets (R344 to R346) -/

/-- An SRD: row, pixel offset, its pixel groups. -/
structure Srd where
  row : Nat
  off : Nat
  data : List Byte
  deriving DecidableEq, Repr

/-- The SRD headers of a payload, up to `n`: length, row, offset. None where the chain is too long or a header is malformed. -/
def srdHeads (f : Flow) : Nat → List Byte → Option (List (Nat × Nat × Nat))
  | 0, _ => none
  | n + 1, l =>
    let len := beAt l 0 2
    let row := beAt l 2 2 % 2 ^ 15
    let off := beAt l 4 2 % 2 ^ 15
    if l.length < 6 || 2 ^ 15 ≤ beAt l 2 2 || f.height ≤ row || off % 2 ≠ 0 || len % 5 ≠ 0 || f.width < off + 2 * (len / 5) then none
    else if 2 ^ 15 ≤ beAt l 4 2 then (srdHeads f n (l.drop 6)).map ((len, row, off) :: ·)
    else some [(len, row, off)]

/-- Give each header its bytes. -/
def srdData : List (Nat × Nat × Nat) → List Byte → Option (List Srd)
  | [], _ => some []
  | (len, row, off) :: hs, l => if l.length < len then none else (srdData hs (l.drop len)).map (⟨row, off, l.take len⟩ :: ·)

/-- A packet of a flow: its timestamp, its extended sequence number, its marker bit, its SRDs. -/
structure VideoPacket where
  ts : BitVec 32
  seq : BitVec 32
  marker : Bool
  srds : List Srd
  deriving DecidableEq, Repr

/-- Read an RTP packet of a flow; none where R344 calls it malformed. -/
def Flow.parse (f : Flow) (d : List Byte) : Option VideoPacket :=
  let b0 := leAt d 0 1
  let h := 12 + 4 * (b0 % 16)
  let h := if b0 / 16 % 2 = 1 then h + 4 + 4 * beAt d (h + 2) 2 else h
  let pad := if b0 / 32 % 2 = 1 then leAt d (d.length - 1) 1 else 0
  let l := (d.take (d.length - pad)).drop h
  if b0 / 64 ≠ 2 || leAt d 1 1 % 128 ≠ f.pt || d.length < h + pad + 2 then none
  else
    match srdHeads f 3 (l.drop 2) with
    | none => none
    | some hs =>
      (srdData hs (l.drop (2 + 6 * hs.length))).map fun srds =>
        ⟨BitVec.ofNat 32 (beAt d 4 4), BitVec.ofNat 32 (beAt l 0 2 * 65536 + beAt d 2 2), 128 ≤ leAt d 1 1, srds⟩

/-- The element that a 10-bit code is written as (R345). -/
def Flow.element (f : Flow) (luma : Bool) (code : Nat) : List Byte :=
  let off := f32 (f.fp (if luma then 0x54 else 0x5C))
  let scale := f32 (f.fp (if luma then 0x58 else 0x60))
  leBytes f.esz (f.fmt.convert .nearest true (((Fv.ofInt code).sub off).mul scale))

/-- The codes Cb, Y0, Cr, Y1 of the pixel groups. -/
def pixelGroups : Nat → List Byte → List (Nat × Nat × Nat × Nat)
  | 0, _ => []
  | n + 1, l =>
    let v := beAt l 0 5
    (v / 2 ^ 30, v / 2 ^ 20 % 1024, v / 2 ^ 10 % 1024, v % 1024) :: pixelGroups n (l.drop 5)

/-- Write the pixels of one SRD into a slot. -/
def State.putSrd (s : State) (f : Flow) (slot : Nat) (d : Srd) : Option Status × State :=
  let gs := pixelGroups (d.data.length / 5) d.data
  let y := gs.flatMap (fun g => f.element true g.2.1 ++ f.element true g.2.2.2)
  let cb := gs.flatMap (fun g => f.element false g.1)
  let cr := gs.flatMap (fun g => f.element false g.2.2.1)
  let co := d.row * f.pitchC + d.off / 2 * f.esz
  let (a, s) := s.flowWrite f (slot + d.row * f.pitchY + d.off * f.esz) y
  let (b, s) := s.flowWrite f (slot + f.sizeY + co) cb
  let (c, s) := s.flowWrite f (slot + f.sizeY + f.sizeC + co) cr
  (a <|> b <|> c, s)

def State.countBad (s : State) (n : Nat) : State := s.bump (FRONT_FLOW_STATE n) FRONT_FLOW_STATE_BAD
def State.countLate (s : State) (n : Nat) : State := s.bump (FRONT_FLOW_STATE n) FRONT_FLOW_STATE_LATE

/-- Take a packet into an open frame (R344, R346, R347). -/
def State.takeVideo (s : State) (n : Nat) (f : Flow) (fr : Frame) (v : VideoPacket) (rxNs : Word) : State :=
  if 131072 ≤ (v.seq - fr.firstSeq).toNat || fr.taken.contains v.seq then s.countBad n
  else
    let r := v.srds.foldl (fun (r : Option Status × State) d =>
      match r.1 with
      | some _ => r
      | none => r.2.putSrd f (f.slotOff fr.idx) d) (none, s)
    match r.1 with
    | some _ => State.afterWrite r n
    | none =>
      let fr' : Frame := { fr with lastNs := rxNs, taken := v.seq :: fr.taken, marker := if v.marker then some v.seq else fr.marker
                                   pixels := fr.pixels + (v.srds.map (fun d => 2 * (d.data.length / 5))).foldl (· + ·) 0 }
      let isNewest := f.newest = some v.ts
      let s := r.2.setFlow { f with frames := f.frames.map (fun (x : Frame) => if x.ts = v.ts && !x.closed then fr' else x)
                                    mark := if v.marker && isNewest then some v.seq else f.mark }
      if fr'.complete f then State.afterWrite (s.closeFrame n v.ts) n else s

/-- t is newer than u as a serial number (R346). -/
def newer (t u : BitVec 32) : Bool := 1 ≤ (t - u).toNat && (t - u).toNat < 2 ^ 31

/-- Open a frame for a packet (R346). The consumer word is read each time; one that cannot be read leaves the ring full
(log entry 23). -/
def State.openFrame (s : State) (n : Nat) (f : Flow) (v : VideoPacket) (rxNs : Word) : State :=
  let (m, s) := s.readFor (s.me f.auth) (bits f.cidx 47 0) 8 true
  let full : Bool := match m with
    | .ok bs => 2 ^ f.k ≤ (f.next - BitVec.ofNat 32 (leAt bs 0 4)).toNat
    | _ => true
  if full then
    (s.setFlow { f with newest := some v.ts, mark := none }).bump (FRONT_FLOW_STATE n) FRONT_FLOW_STATE_DROPPED_FRAMES
  else
    let first := match f.mark with
      | some q => q + 1
      | none => v.seq
    let fr : Frame := { ts := v.ts, idx := f.next, firstSeq := first, firstNs := rxNs, lastNs := rxNs, taken := [], marker := none, pixels := 0
                        closed := false, status := .ok }
    let f := { f with frames := f.frames ++ [fr], newest := some v.ts, next := f.next + 1, mark := none }
    (s.setFlow f).takeVideo n f fr v rxNs

/-- The close time of a frame (R347). -/
def Frame.closeNs (fr : Frame) (f : Flow) : Nat := fr.firstNs.toNat + f.timeout * f.period

/-- Place a packet (R346). -/
def State.placeVideo (s : State) (n : Nat) (v : VideoPacket) (rxNs : Word) : State :=
  match s.flow n with
  | none => s
  | some f =>
    match f.frames.find? (fun fr => fr.ts = v.ts && !fr.closed) with
    | some fr => s.takeVideo n f fr v rxNs
    | none =>
      if (match f.newest with
          | some u => newer v.ts u
          | none => true) then
        let s := if 2 ≤ f.openTs.length then State.afterWrite (s.closeFrame n (f.openTs.headD 0)) n else s
        match s.flow n with
        | none => s
        | some f => s.openFrame n f v rxNs
      else s.countLate n

/-- A packet for flow `n`: frames whose close time its stamp has reached close first (R347). -/
def State.videoTo (s : State) (n : Nat) (data : List Byte) (rxNs : Word) : State :=
  match s.flow n with
  | none => s
  | some f =>
    let due := ((f.frames.filter (fun fr => !fr.closed && fr.closeNs f ≤ rxNs.toNat)).map (·.ts))
    let s := due.foldl (fun (s : State) ts => State.afterWrite (s.closeFrame n ts) n) s
    match f.parse data with
    | none => s.countBad n
    | some v => s.placeVideo n v rxNs

/-- VIDEO_PACKET: a packet goes to every flow that it is addressed to; `rxNs` is its PCS receive timestamp. -/
def execVideoPacket (port : PortId) (pkt : RtpPacket) (rxNs : Word) (s : State) : Result :=
  .next (match s.takeRx port (.video pkt.bytes) with
    | none => s
    | some s =>
      match ipOf pkt.bytes with
      | none => s
      | some i =>
        match udpOf i with
        | none => s
        | some (_, dp, data) =>
          ((s.flowsOn port).filter (fun f => f.addressed port i dp)).foldl (fun (s : State) f => s.videoTo f.num data rxNs) s)

/-- FRAME_TIMEOUT: the oldest open frame of the flow has reached its close time. -/
def execFrameTimeout (flow : Fin 128) (s : State) : Result :=
  .next (match s.flow flow with
    | none => s
    | some f =>
      match f.openTs with
      | ts :: _ => State.afterWrite (s.closeFrame flow ts) flow
      | [] => s)

/-! ### FLOW_OPEN and FLOW_CLOSE (R340) -/

/-- The two ranges of a flow, its slots and its record ring: BOUND before any other status. -/
def bothRanges (a : Option Status) (b : Option Status × State) : Option Status × State :=
  (if a = some .bound || b.1 = some .bound then some .bound else a <|> b.1, b.2)

/-- A flow whose ranges are settled: it opens and its group is joined, or it ends with their status. -/
def openedFlow (n : RingId) (i : Index) (f : Flow) (r : Option Status × State) : State :=
  match r.1 with
  | some st => r.2.endDesc n i st 0 0
  | none =>
    let s := { r.2 with front := { r.2.front with flows := r.2.front.flows ++ [f] } }
    ((s.setFld (FRONT_FLOW_STATE f.num) FRONT_FLOW_STATE_STATE 1).tellGroup f true).endDesc n i .ok 0 0

/-- The ranges of a flow, translated in turn. -/
def State.flowRanges (s : State) (f : Flow) : Option Status × State :=
  let a := s.flowRange f f.slotBase (2 ^ f.k * f.slotSize)
  bothRanges a.1 (a.2.flowRange f f.recBase (2 ^ f.k * 32))

/-- Take a flow whose record stands: its slots and its record ring are translated, then its group is joined. -/
def State.admitFlow (s : State) (n : RingId) (i : Index) (f : Flow) : State :=
  if !s.flowOk f then s.endDesc n i .format 0 0 else openedFlow n i f (s.flowRanges f)

/-- What a read of a flow's record answers. -/
def State.flowRead (n : RingId) (i : Index) (num : Nat) (r : MemOut × State) : State :=
  match r.1 with
  | .err st => r.2.endDesc n i st 0 0
  | .wait => r.2
  | .ok bs => r.2.admitFlow n i
      { num := num, ctx := r.2.ringEvtCtx n, rec_ := bs, frames := [], newest := none, next := 0, mark := none }

/-- The words of a flow's opening that must read zero, and a number already open. -/
def State.flowOpenBad (s : State) (d : Desc) : Bool :=
  bits (d.word 3) 63 7 ≠ 0 || (d.words.drop 5).any (· ≠ 0) || (s.flow (bits (d.word 3) 6 0)).isSome

/-- FLOW_OPEN. -/
def execFlowOpen (n : RingId) (i : Index) (s : State) : Result :=
  .next (match s.work n i 0x60 .started with
    | none => s
    | some d =>
      if s.flowOpenBad d then s.endDesc n i .format 0 0
      else match s.locate true (d.word 4).toNat 128 with
        | .bad st => s.endDesc n i st 0 0
        | .there _ _ => s.endDesc n i .format 0 0
        | .here o => State.flowRead n i (bits (d.word 3) 6 0) (s.readFor (s.me (s.ringAuth n)) o 128 true))

/-- FLOW_CLOSE. -/
def execFlowClose (n : RingId) (i : Index) (s : State) : Result :=
  .next (match s.work n i 0x61 .started with
    | none => s
    | some d =>
      let num := bits (d.word 3) 6 0
      if bits (d.word 3) 63 7 ≠ 0 || (d.words.drop 4).any (· ≠ 0) then s.endDesc n i .format 0 0
      else ((State.afterWrite (s.closeAll num) num).endFlow num).endDesc n i .ok 0 0)

end Sys2Proof.Machine
end

