-- ==== Sys2Proof/Machine/FrontExr.lean ====
section
/-! DEFINITION. EXR requests and replies, and the quiescing of front ports (R349 to R352, R354). -/
namespace Sys2Proof.Machine

open Reg

/-! ### The endpoint table (R350) -/

def Endpoint.valid (e : Endpoint) : Bool := leAt e.entry 0 1 % 2 = 1
def Endpoint.plen (e : Endpoint) : Nat := leAt e.entry 0x01 1
def Endpoint.prefix_ (e : Endpoint) : BitVec 128 := BitVec.ofNat 128 (beAt e.entry 0x08 16)
def Endpoint.ring (e : Endpoint) : RingId := ringOf (leAt e.entry 0x18 2)
def Endpoint.m (e : Endpoint) : Nat := leAt e.entry 0x1A 1
def Endpoint.argWord (e : Endpoint) : Nat := leAt e.entry 0x1B 1
def Endpoint.slotBytes (e : Endpoint) : Nat := leAt e.entry 0x1C 4
def Endpoint.templateAt (e : Endpoint) : Word := wordAt e.entry 0x20
def Endpoint.reqSlot (e : Endpoint) (i : Nat) : Word := wordAt e.entry 0x28 + BitVec.ofNat 64 (i * e.slotBytes)
def Endpoint.rspSlot (e : Endpoint) (i : Nat) : Word := wordAt e.entry 0x30 + BitVec.ofNat 64 (i * e.slotBytes)

/-- A VALID entry keeps the layout, its template aside. -/
def State.endpointOk (s : State) (e : Endpoint) : Bool :=
  leAt e.entry 0 1 = 1 && e.plen ≤ 128 && leAt e.entry 2 6 = 0 && leAt e.entry 0x38 8 = 0 && leAt e.entry 0x18 2 < 1024
    && s.fld (RING_CFG e.ring) RING_CFG_ENABLE = 1 && 4 ≤ e.m && e.m ≤ 12 && e.argWord ≤ 3
    && e.slotBytes % 64 = 0 && 64 ≤ e.slotBytes && e.slotBytes ≤ 8256 && e.templateAt.toNat % 64 = 0 && (s.localOff e.templateAt).isSome

/-- Read memory of this device with Ranger's authority. -/
def State.readHere (s : State) (a : Word) (n : Nat) : Option (List Byte) × State :=
  match s.decode a with
  | .here o =>
    match s.readFor (s.me .ranger) o n true with
    | (.ok bs, s) => (some bs, s)
    | (_, s) => (none, s)
  | _ => (none, s)

/-- Read the templates of the VALID entries; none where an entry or its template breaks R350. -/
def State.loadEndpoints (s : State) : List (Nat × Endpoint) → Option (List (Nat × Endpoint)) × State
  | [] => (some [], s)
  | (i, e) :: l =>
    if !s.endpointOk e then (none, s)
    else match s.readHere e.templateAt 64 with
      | (none, s) => (none, s)
      | (some t, s) =>
        if !typeOk (s.fld (RING_CFG e.ring) RING_CFG_CLASS) (leAt t 0 1) then (none, s)
        else
          let (r, s) := s.loadEndpoints l
          (r.map ((i, { e with template := t }) :: ·), s)

/-- Read and check the endpoint table. -/
def State.exrTable (s : State) : Option (List (Nat × Endpoint)) × State :=
  let a := s.reg FRONT_EXR_TABLE
  if s.fld FRONT_EXR_CFG FRONT_EXR_CFG_UDP_PORT = 0 || a.toNat % 64 ≠ 0 then (none, s)
  else match s.readHere a 4096 with
    | (none, s) => (none, s)
    | (some bs, s) =>
      let es := ((List.range 64).map (fun i => (i, Endpoint.mk ((bs.drop (64 * i)).take 64) []))).filter (fun e => e.2.valid)
      let rings := es.map (fun e => e.2.ring)
      if rings.eraseDups.length ≠ rings.length then (none, s) else s.loadEndpoints es

/-- Requests in execution: the engine drains while there are some. -/
def State.settleExr (s : State) : State :=
  if s.exr = [] && s.fld FRONT_EXR_CFG FRONT_EXR_CFG_ENABLE = 0 then
    { s with front := { s.front with recent := [] } }.setFld FRONT_EXR_STATE FRONT_EXR_STATE_DRAINING 0
  else s

/-- A write of FRONT_EXR_CFG (R350, R351, R355). -/
def State.writeExrCfg (s : State) (v mask : Word) : State :=
  let on := s.fld FRONT_EXR_CFG FRONT_EXR_CFG_ENABLE = 1
  let drains := s.fld FRONT_EXR_STATE FRONT_EXR_STATE_DRAINING = 1
  let fail := fun (s : State) => s.setFld FRONT_EXR_STATE FRONT_EXR_STATE_ERR 1
  let s := if on || drains then s else s.writeWord .FRONT_EXR_CFG [] FRONT_EXR_CFG (setBit v 63 false) mask
  if mask.getLsbD 63 = false then s
  else if v.getLsbD 63 then
    if on then s
    else if drains then fail s
    else match s.exrTable with
      | (none, s) => fail s
      | (some es, s) => { s with front := { s.front with endpoints := es } }.setFld FRONT_EXR_CFG FRONT_EXR_CFG_ENABLE 1
  else if on then
    ((s.setFld FRONT_EXR_CFG FRONT_EXR_CFG_ENABLE 0).setFld FRONT_EXR_STATE FRONT_EXR_STATE_DRAINING 1).settleExr
  else s

/-- A write of FRONT_EXR_TABLE: ignored while the engine is enabled or drains. -/
def State.writeExrTable (s : State) (v mask : Word) : State :=
  if s.fld FRONT_EXR_STATE FRONT_EXR_STATE_DRAINING = 1 then s else s.writeWord .FRONT_EXR_TABLE [] FRONT_EXR_TABLE v mask

/-- EXR_ENABLE: a write of FRONT_EXR_CFG with ENABLE = 1. -/
def execExrEnable (src : Source) (v : Word) (s : State) : Result :=
  .next (if s.mayUse src && v.getLsbD 63 then s.writeExrCfg v (-1) else s)

/-- EXR_DISABLE: a write of FRONT_EXR_CFG with ENABLE = 0. -/
def execExrDisable (src : Source) (v : Word) (s : State) : Result :=
  .next (if s.mayUse src && !v.getLsbD 63 then s.writeExrCfg v (-1) else s)

/-! ### Datagrams (R349, R352) -/

/-- A datagram of the engine. -/
def exrBytes (op endpoint status : Nat) (ctag : Word) (r0 : Word) (r1 : BitVec 32) (trunc : Bool) (payload : List Byte) : List Byte :=
  leBytes 2 0x5845 ++ leBytes 1 1 ++ leBytes 1 op ++ leBytes 1 endpoint ++ leBytes 1 status ++ leBytes 2 payload.length
    ++ leBytes 8 ctag.toNat ++ leBytes 8 r0.toNat ++ leBytes 4 r1.toNat ++ leBytes 4 (if trunc then 1 else 0) ++ payload

/-- Send a datagram to a client, from the EXR port. -/
def State.exrSend (s : State) (p : PortId) (mac : BitVec 48) (dst : BitVec 128) (dport : BitVec 16) (data : List Byte) : State :=
  s.sendUdp p mac dst (s.fld FRONT_EXR_CFG FRONT_EXR_CFG_UDP_PORT) dport.toNat data

def State.countReject (s : State) : State := s.bump FRONT_EXR_STATE FRONT_EXR_STATE_REJECTS

/-- Refuse a request. -/
def State.exrReject (s : State) (p : PortId) (mac : BitVec 48) (src : BitVec 128) (sport : BitVec 16) (data : List Byte) (st : Status) : State :=
  s.countReject.exrSend p mac src sport (exrBytes 3 (leAt data 4 1) st.code (wordAt data 8) 0 0 false [])

/-- The payload of a reply: the bytes that its slot holds, or none with TRUNC. -/
def State.exrPayload (s : State) (e : Endpoint) (slot : Nat) : (List Byte × Bool) × State :=
  let read := fun (s : State) (a : Word) n =>
    match s.decode a with
    | .here o => s.readFor (s.me (s.ringAuth e.ring)) o n true
    | _ => (.err .bound, s)
  match read s (e.rspSlot slot) 4 with
  | (.ok bs, s) =>
    let n := leAt bs 0 4
    if n ≤ 8192 && n + 4 ≤ e.slotBytes then
      if n = 0 then (([], false), s)
      else match read s (e.rspSlot slot + 4) n with
        | (.ok bs, s) => ((bs, false), s)
        | (_, s) => (([], true), s)
    else (([], true), s)
  | (_, s) => (([], true), s)

/-- Send the reply of a completed request again; LENGTH 0 with TRUNC once its slot has been used for another. -/
def State.exrAgain (s : State) (r : Recent) (st : Status) (r0 : Word) (r1 : BitVec 32) : State :=
  let e := Maps.get Endpoint.none s.front.endpoints r.key.endpoint.toNat
  let (b, s) := if r.reused then (([], true), s) else s.exrPayload e r.slot
  s.exrSend r.port r.mac r.key.addr r.key.port (exrBytes 2 r.key.endpoint.toNat st.code r.key.ctag r0 r1 b.2 b.1)

/-- The words of a template with SEQ, TAG and the two addresses put in (R350, R352). -/
def Endpoint.descriptor (e : Endpoint) (endpoint slot : Nat) (seq : Nat) : List Byte :=
  let ws := wordsOf e.template
  let ws := ws.set 0 (setBits (ws.getD 0 0) 63 32 seq)
  let ws := ws.set 1 (BitVec.ofNat 64 (endpoint * 2 ^ 56 + slot))
  let ws := ws.set (3 + e.argWord) (e.reqSlot slot)
  let ws := ws.set (4 + e.argWord) (e.rspSlot slot)
  ws.flatMap (fun w => leBytes 8 w.toNat)

/-- A write by the engine for a request's ring: here, mirrored as an agent outside the device makes it (R373), or as STORE requests to
another device of the block (R22, R31). Answers how many of them are out. -/
def State.exrWrite (s : State) (n : RingId) (i : Index) (a : Word) (bs : List Byte) : Except Status Nat × State :=
  match s.decode a with
  | .here o =>
    match s.writeFor (s.me (s.ringAuth n)) false o bs true with
    | (.err st, s) => (.error st, s)
    | (_, s) => (.ok 0, s.mirror (s.ringAuth n) o bs)
  | .there c o =>
    if !s.inReach c then (.error .bound, s)
    else match remoteBad o bs.length with
      | some st => (.error st, s)
      | none => (.ok (cutCount 4096 o bs.length), s.requestStores c agentFront (s.ringCtx n) o bs (fun _ => .exr n i))
  | .format => (.error .format, s)
  | _ => (.error .bound, s)

/-- The lowest free slot of an endpoint; none while its ring has no room. -/
def State.exrSlot (s : State) (ep : Nat) (e : Endpoint) : Option Nat :=
  let p := s.fld (RING_STATE e.ring) RING_STATE_PIDX
  let c := s.fld (RING_STATE e.ring) RING_STATE_CIDX
  if 2 ^ s.fld (RING_CFG e.ring) RING_CFG_LOG2SIZE ≤ (p + 2 ^ 32 - c) % 2 ^ 32 then none
  else (List.range (2 ^ e.m)).find? (fun i => !s.exr.any (fun (r : ExrReq) => r.endpoint = ep && r.slot = i))

/-- Write a request's descriptor to its ring slot and the datagram to its request slot: how many writes are out, and the first status that
is not `OK`. -/
def State.exrPost (s : State) (ep : Nat) (e : Endpoint) (slot : Nat) (data : List Byte) : (Nat × Option Status) × State :=
  let n := e.ring
  let pidx := s.fld (RING_STATE n) RING_STATE_PIDX
  let at_ := s.reg (RING_BASE n) + BitVec.ofNat 64 (64 * (pidx % 2 ^ s.fld (RING_CFG n) RING_CFG_LOG2SIZE))
  match s.exrWrite n (BitVec.ofNat 32 pidx) at_ (e.descriptor ep slot pidx) with
  | (.error st, s) => ((0, some st), s)
  | (.ok j, s) =>
    match s.exrWrite n (BitVec.ofNat 32 pidx) (e.reqSlot slot) data with
    | (.error st, s) => ((j, some st), s)
    | (.ok k, s) => ((j + k, none), s)

/-- Refuse a request that could not be posted. -/
def State.exrRefuse (s : State) (r : ExrReq) (st : Status) : State :=
  s.countReject.exrSend r.port r.mac r.addr r.sport (exrBytes 3 r.endpoint st.code r.ctag 0 0 false [])

/-- A request's bytes and its descriptor are written: the doorbell rings and the request is posted, its key held; or it is refused. -/
def State.exrPosted (s : State) (r : ExrReq) : State :=
  match r.fail with
  | some st => (s.exrRefuse r st).settleExr
  | none =>
    match s.doorbell (s.ringAuth r.ring) r.ring 0 8 (BitVec.ofNat 64 (r.ring.val * 2 ^ 48 + (r.idx.toNat + 1) % 2 ^ 32)) with
    | (.ok, s) =>
      let old := s.front.recent.map (fun (q : Recent) =>
        if q.key.endpoint.toNat = r.endpoint && q.slot = r.slot then { q with reused := true } else q)
      let key : ExrKey := ⟨r.addr, r.sport, BitVec.ofNat 8 r.endpoint, r.ctag⟩
      { s with exr := s.exr ++ [r], front := { s.front with recent := old ++ [Recent.mk key r.port r.mac r.slot none false] }
        }.wrapInc FRONT_EXR_STATE FRONT_EXR_STATE_REQUESTS
    | (st, s) => (s.exrRefuse r st).settleExr

/-- One of a request's writes to another device is answered. -/
def State.exrAck (s : State) (n : RingId) (i : Index) (st : Status) : State :=
  match s.exr.find? (fun (r : ExrReq) => r.ring = n && r.idx = i && r.left ≠ 0) with
  | none => s
  | some r =>
    let r' := { r with left := r.left - 1, fail := r.fail <|> (if st = .ok then none else some st) }
    if r'.left = 0 then { s with exr := s.exr.erase r }.exrPosted r'
    else { s with exr := s.exr.map (fun q => if q = r then r' else q) }

/-- The source lies in an endpoint's prefix. -/
def Endpoint.admits (e : Endpoint) (src : BitVec 128) : Bool := src.toNat / 2 ^ (128 - e.plen) = e.prefix_.toNat / 2 ^ (128 - e.plen)

/-- Handle one datagram (R352). Where the spec names no answer — LENGTH above 8,192, a full recent table, a slot or ring that refuses the
write — see log entry 23. -/
def State.exrTake (s : State) (p : PortId) (mac : BitVec 48) (src : BitVec 128) (sport : BitVec 16) (data : List Byte) : State :=
  let len := leAt data 6 2
  let ep := leAt data 4 1
  let key : ExrKey := ⟨src, sport, BitVec.ofNat 8 ep, wordAt data 8⟩
  let no := fun (s : State) st => s.exrReject p mac src sport data st
  if data.length < 32 || leAt data 0 2 ≠ 0x5845 || leAt data 2 1 ≠ 1 || len + 32 ≠ data.length then s.countDiscard p
  else if leAt data 3 1 ≠ 1 || leAt data 5 1 ≠ 0 || leAt data 0x1C 4 ≠ 0 || 8192 < len then no s .format
  else match s.front.endpoints.find? (fun e => e.1 = ep) with
    | none => no s .perm
    | some (_, e) =>
      if !e.admits src then no s .perm
      else if e.slotBytes < 32 + len then no s .bound
      else match s.front.recent.find? (fun (r : Recent) => r.key = key) with
        | some r =>
          (match r.reply with
            | some (st, r0, r1) => s.exrAgain r st r0 r1
            | none => s)
        | none =>
          match (if 4096 ≤ s.front.recent.length then none else s.exrSlot ep e) with
          | none => no s .throttled
          | some slot =>
            let idx : Index := BitVec.ofNat 32 (s.fld (RING_STATE e.ring) RING_STATE_PIDX)
            let (w, s) := s.exrPost ep e slot data
            let r : ExrReq :=
              { ring := e.ring, idx := idx, slot := slot, endpoint := ep, port := p, mac := mac, addr := src, sport := sport
                ctag := key.ctag, left := w.1, fail := w.2, cpl := none }
            if w.1 = 0 then s.exrPosted r else { s with exr := s.exr ++ [r] }

/-- EXR_DATAGRAM: the oldest such datagram of the port is handled, behind a request that is still being posted (R352); with the engine off it
is discarded (R349, R351). -/
def execExrDatagram (port : PortId) (src : BitVec 128) (srcPort : BitVec 16) (data : List Byte) (s : State) : Result :=
  let mine := fun (x : PortId × Rx) =>
    match x.2 with
    | .exr _ a q d => x.1 = port && a = src && q = srcPort && d = data
    | _ => false
  .next (if s.exr.any (fun (r : ExrReq) => r.left ≠ 0) then s else match s.front.rx.find? mine with
    | some (_, .exr mac a q d) =>
      match s.takeRx port (.exr mac a q d) with
      | none => s
      | some s => if s.fld FRONT_EXR_CFG FRONT_EXR_CFG_ENABLE = 0 then s.countDiscard port else s.exrTake port mac src srcPort data
    | _ => s)

/-- EXR_REPLY: the completion of a posted request is here; its reply is sent and its slots are free. -/
def execExrReply (n : RingId) (i : Index) (s : State) : Result :=
  .next (match s.exr.find? (fun (r : ExrReq) => r.ring = n && r.idx = i) with
    | none => s
    | some r =>
      match r.cpl with
      | none => s
      | some (st, r0, r1) =>
        let key : ExrKey := ⟨r.addr, r.sport, BitVec.ofNat 8 r.endpoint, r.ctag⟩
        let e := Maps.get Endpoint.none s.front.endpoints r.endpoint
        let s := { s with exr := s.exr.filter (fun (q : ExrReq) => q ≠ r) }
        let s :=
          if s.portSends r.port then
            let (b, s) := s.exrPayload e r.slot
            let s := s.exrSend r.port r.mac r.addr r.sport (exrBytes 2 r.endpoint st.code r.ctag r0 r1 b.2 b.1)
            { s with front := { s.front with recent := s.front.recent.map (fun (q : Recent) =>
                if q.key = key then { q with reply := some (st, r0, r1) } else q) } }
          else s.countReject
        s.settleExr)

/-- EXR_KEY_EXPIRE: a key has been held for 1 s. -/
def execExrKeyExpire (key : ExrKey) (s : State) : Result :=
  .next { s with front := { s.front with recent := s.front.recent.filter (fun (r : Recent) => r.key ≠ key) } }

/-! ### Quiescing (R354) -/

/-- QUIESCE of one port is written. -/
def State.quiescePort (s : State) (p : PortId) (on : Bool) : State :=
  let was := s.quiesced p
  let s := s.setReg FRONT_CTRL (setBit (s.reg FRONT_CTRL) p on)
  if on && !was then
    let s := (s.flowsOn p).foldl (fun (s : State) f => State.afterWrite (s.closeAll f.num) f.num) s
    ({ s with front := { s.front with conns := s.front.conns.filter (fun (c : Conn) => c.port ≠ p) } }).stopPtp p
  else if !on then s.setReg FRONT_CTRL (setBit (s.reg FRONT_CTRL) (2 + p.val) false)
  else s

/-- A write of FRONT_CTRL. -/
def State.writeFrontCtrl (s : State) (v mask : Word) : State :=
  (List.finRange 2).foldl (fun (s : State) p => if mask.getLsbD p.val then s.quiescePort p (v.getLsbD p.val) else s) s

/-- PORT_QUIESCE. -/
def execPortQuiesce (src : Source) (v : BitVec 2) (s : State) : Result :=
  .next (if s.mayUse src then s.writeFrontCtrl (v.setWidth 64) (-1) else s)

/-- PORT_QUIESCE_DONE. -/
def execPortQuiesceDone (port : PortId) (s : State) : Result :=
  .next (if s.quiesced port then s.setReg FRONT_CTRL (setBit (s.reg FRONT_CTRL) (2 + port.val) true) else s)

end Sys2Proof.Machine
end

