-- ==== Sys2Proof/Machine/Sha.lean ====
section
/-! DEFINITION. SHA-384 (FIPS 180-4), which R414, R421, R425 and R435 name. -/
namespace Sys2Proof.Machine

/-- The largest `r` below 2^`n` with r^`k` ≤ `x`, found bit by bit from the top. -/
def rootBelow (k x : Nat) : Nat → Nat → Nat
  | 0, r => r
  | n + 1, r => rootBelow k x n (if (r + 2 ^ n) ^ k ≤ x then r + 2 ^ n else r)

/-- The first 64 bits behind the point of the `k`-th root of `p`. -/
def rootFraction (k p : Nat) : Word := BitVec.ofNat 64 (rootBelow k (p * 2 ^ (64 * k)) 72 0)

/-- The primes below 410: 80 of them. -/
def shaPrimes : List Nat := (List.range 410).filter fun p => 2 ≤ p && (List.range p).all fun d => d < 2 || p % d ≠ 0

/-- The constant of each round comes from the cube root of a prime. -/
def shaRoundWords : List Word := shaPrimes.map (rootFraction 3)

/-- The eight words of a hash in progress. -/
structure ShaWords where
  a : Word
  b : Word
  c : Word
  d : Word
  e : Word
  f : Word
  g : Word
  h : Word

/-- The hash of nothing: square roots of the ninth prime and the seven after it. -/
def shaStart : ShaWords :=
  let r := fun i => rootFraction 2 (shaPrimes.getD (8 + i) 0)
  ⟨r 0, r 1, r 2, r 3, r 4, r 5, r 6, r 7⟩

/-- The word turned right by each of `l`, all added bit by bit. -/
def turned (x : Word) (l : List Nat) : Word := l.foldl (fun s n => s ^^^ x.rotateRight n) 0

/-- The next word of a message schedule whose last sixteen words, newest first, begin `w`. -/
def shaNext (w : List Word) : Word :=
  let old := fun i => w.getD (i - 1) 0
  old 16 + (turned (old 15) [1, 8] ^^^ old 15 >>> 7) + old 7 + (turned (old 2) [19, 61] ^^^ old 2 >>> 6)

/-- One round with its schedule word and its constant added together. -/
def ShaWords.round (s : ShaWords) (x : Word) : ShaWords :=
  let choice := fun i => if s.e.getLsbD i then s.f.getLsbD i else s.g.getLsbD i
  let most := fun i => (s.a.getLsbD i).toNat + (s.b.getLsbD i).toNat + (s.c.getLsbD i).toNat ≥ 2
  let pick := fun (q : Nat → Bool) => (List.range 64).foldl (fun (v : Word) i => if q i then v ||| (1 <<< i) else v) 0
  let p := s.h + x + turned s.e [14, 18, 41] + pick choice
  ⟨p + turned s.a [28, 34, 39] + pick (fun i => most i), s.a, s.b, s.c, s.d + p, s.e, s.f, s.g⟩

/-- The rounds of one block: `w` is the schedule so far, newest first, its oldest word that is still unused at place `i` from there. -/
def shaRounds : List Word → List Word → ShaWords → ShaWords
  | [], _, s => s
  | k :: ks, w, s => shaRounds ks (shaNext w :: w.take 15) (s.round (k + w.getD 15 0))

/-- Take one block of 128 bytes into the hash; its words are big-endian. -/
def ShaWords.block (s : ShaWords) (l : List Byte) : ShaWords :=
  let w := (List.range 16).map fun i => BitVec.ofNat 64 (leNat ((l.drop (120 - 8 * i)).take 8).reverse)
  let t := shaRounds shaRoundWords w s
  ⟨s.a + t.a, s.b + t.b, s.c + t.c, s.d + t.d, s.e + t.e, s.f + t.f, s.g + t.g, s.h + t.h⟩

/-- SHA-384 of some bytes: one bit, zeros and the length in bits fill the last block, and six words are the digest. -/
def sha384 (l : List Byte) : List Byte :=
  let n := (l.length + 17 + 127) / 128
  let m := padTo (128 * n - 16) (l ++ [0x80]) ++ (leBytes 16 (8 * l.length)).reverse
  let s := (List.range n).foldl (fun (s : ShaWords) i => s.block ((m.drop (128 * i)).take 128)) shaStart
  [s.a, s.b, s.c, s.d, s.e, s.f].flatMap fun w => (leBytes 8 w.toNat).reverse

end Sys2Proof.Machine
end

