-- ==== Sys2Proof/Machine/Trail.lean ====
section
/-! DEFINITION. The Trail log (R420, R421) and the bytes of the boot NOR (R413). -/
namespace Sys2Proof.Machine

open Reg

/-! ### NOR bytes -/

/-- A byte of the boot NOR outside the Trail log; erased NOR reads 0xFF. -/
def State.norByte (s : State) (o : Nat) : Byte := Maps.get 0xFF s.nor o

def State.norBytes (s : State) (o n : Nat) : List Byte := (List.range n).map (fun i => s.norByte (o + i))

/-- Program NOR bytes, erased before. -/
def State.norWrite (s : State) (o : Nat) (bs : List Byte) : State :=
  { s with nor := bs.zipIdx.foldl (fun m x => Maps.put 0xFF m (o + x.2) x.1) s.nor }

/-- Erase a range of NOR. -/
def State.norErase (s : State) (o n : Nat) : State := { s with nor := Maps.clear s.nor o (o + n) }

/-! ### Records -/

/-- Places of the Trail log: 60 sectors of 1,024 records. -/
def trailPlaces : Nat := 61440

/-- A record of the given type and body (R420). -/
def State.trailBytes (s : State) (typ : Nat) (body : List Byte) : List Byte :=
  let l := leBytes 4 0x54524C31 ++ leBytes 1 typ ++ leBytes 3 0 ++ leBytes 8 s.trailSeq
    ++ leBytes 4 (s.fld BOOT_STATE BOOT_STATE_START) ++ leBytes 4 0 ++ leBytes 8 (if s.timeSet then s.devTime.toNat else 0)
    ++ padTo 216 (body.take 216)
  l ++ leBytes 8 (crc64 l).toNat

/-- Write one record at the next place. -/
def State.trailPut (s : State) (bs : List Byte) : State :=
  { s with trail := s.trail ++ [⟨s.trailNext, bs⟩], trailNext := (s.trailNext + 1) % trailPlaces, trailSeq := s.trailSeq + 1 }

def recType (bs : List Byte) : Nat := leAt bs 4 1
def recBody (bs : List Byte) : List Byte := bs.drop 0x20

/-- Newest record of a type, if any. -/
def State.newestRec (s : State) (typ : Nat) : Option (List Byte) := ((s.trail.filter (fun r => recType r.bytes = typ)).getLast?).map (·.bytes)

/-- Firmware slot base, and the bytes of the image there. -/
def slotBase (b : Nat) : Nat := 0x4000000 * b
def State.imageLen (s : State) (b : Nat) : Nat := 256 + leNat (s.norBytes (slotBase b + 0x10) 4)
def State.imageBytes (s : State) (b : Nat) : List Byte := s.norBytes (slotBase b) (min 0x4000000 (s.imageLen b))

/-- A PRESENCE record of DOWNGRADE that names an image still in a slot (R420, R421). -/
def State.keepsDowngrade (s : State) (bs : List Byte) : Bool :=
  recType bs = 6 && leAt bs 0x20 1 = 4 && leAt bs 0x24 1 = 0
    && [0, 1].any (fun b => sha384 (s.imageBytes b) = (bs.drop 0x30).take 48)

/-- Records that are appended again before the oldest sector is erased (R420). -/
def State.keptRecs (s : State) : List (Nat × List Byte) :=
  let one := fun t => (s.newestRec t).toList.map (fun b => (t, (recBody b).take 216))
  one 3 ++ ((s.trail.filter (fun r => s.keepsDowngrade r.bytes)).map (fun r => (6, (recBody r.bytes).take 216))) ++ one 7

/-- The write finds only the last free sector left: it would begin the one sector that holds no record. -/
def State.trailFull (s : State) : Bool :=
  s.trailNext % 1024 = 0 && s.trail.any (fun r => r.place / 1024 = (s.trailNext / 1024 + 1) % 60)

/-- Append a record (R420). -/
def State.appendTrail (s : State) (typ : Nat) (body : List Byte) : State :=
  let s :=
    if s.trailFull then
      let old := (s.trailNext / 1024 + 1) % 60
      let s' := s.keptRecs.foldl (fun (s : State) r => s.trailPut (s.trailBytes r.1 r.2)) s
      { s' with trail := s'.trail.filter (fun r => r.place / 1024 ≠ old) }
    else s
  s.trailPut (s.trailBytes typ body)

/-- Little-endian bytes of a list of bits. -/
def bitBytes (n : Nat) (f : Nat → Bool) : List Byte := packBits n ((List.range (8 * n)).map f)

/-- The sparing record: failed physical channels and MEM_CHMAP (R183, R421). -/
def State.recordSparing (s : State) : State :=
  let failed := fun pc => pc < 104 && (let st := s.fld (MEM_CH_STATE pc) MEM_CH_STATE_STATE; st = 2 || st = 4 || st = 5)
  s.appendTrail 3 (bitBytes 13 failed ++ (List.range 96).map (fun l => BitVec.ofNat 8 (s.fld (MEM_CHMAP l) MEM_CHMAP_PHYS)))

end Sys2Proof.Machine
end

