-- ==== Sys2Proof/Machine/MemRows.lean ====
section
/-! DEFINITION. What the LPDDR6 controllers do on their own or by their registers: scrub, regulators, sparing, temperature, dirty
bitmaps, loop-back, self-refresh (R175, R176, R183 to R187, R190 to R193). -/
namespace Sys2Proof.Machine

open Reg

/-! ### Scrub and regulators -/

/-- PATROL_SCRUB: a background read of the aligned unit at local offset `unit` meets `found`, and acts on it as a read would, with no
status to anyone (R175, R176). -/
def execPatrolScrub (unit : Nat) (found : EccFinding) (s : State) : Result :=
  let u := unit / 64 * 64
  let mem := match placeOf u with
    | .lpddr => true
    | .sram _ => true
    | .tray _ => true
    | _ => false
  .next (if !mem || s.fld MEM_SCRUB_CFG MEM_SCRUB_CFG_ENABLE = 0 || 1 ≤ s.stage || s.unitFenced u then s
    else
      let s := match found with
        | .clean => s
        | .correctable => if s.poisoned u then s else { s with ecc := Maps.set s.ecc u false }
        | .uncorrectable => if s.poisoned u then s else { s with ecc := Maps.set s.ecc u true }
      let (bad, s) := s.granuleScan u
      if bad then s else (s.touchUnit u).2)

/-- REGULATOR_RETEST: `dt` ns after its last refill, the half-bucket of context `x` on edge die `die` is refilled, and an access that
waited on it may test it again (R186). -/
def execRegulatorRetest (x : Ctx) (die : Fin 2) (dt : Nat) (s : State) : Result :=
  let key := 2 * x.val + die.val
  let cap : Int := s.fld (MEM_CTX x) MEM_CTX_DEPTH * 1024
  let t : Int := Maps.get 0 s.buckets key
  let t' := min cap (t + (s.fld (MEM_CTX x) MEM_CTX_RATE * dt : Nat))
  .next { s with buckets := Maps.put 0 s.buckets key t', regWait := Maps.del s.regWait key }

/-! ### Channels (R178, R183 to R185) -/

/-- The spare channels of an edge die. -/
def sparesOf (die : Nat) : List Nat := if die = 0 then [48, 49, 50, 51] else [100, 101, 102, 103]

/-- The logical channel that a physical channel serves, if any. -/
def State.servedBy (s : State) (pc : Nat) : Option Nat :=
  (List.range 96).find? (fun l => s.fld (MEM_CHMAP l) MEM_CHMAP_PHYS = pc)

def State.memChState (s : State) (pc : Nat) : Nat := s.fld (MEM_CH_STATE pc) MEM_CH_STATE_STATE

/-- A channel takes a state; outside states 1, 2, 4 and 5 its loop-back is off (R193). -/
def State.setMemChState (s : State) (pc st : Nat) : State :=
  let s := s.setFld (MEM_CH_STATE pc) MEM_CH_STATE_STATE st
  if st = 0 || st = 3 then s.setFld (MEM_CH_LB pc) MEM_CH_LB_MODE 0 else s

/-- The lowest free spare of the edge die, else of the other die (R183). A spare that ran loop-back serves only after the next start has
trained it again (R193). -/
def State.freeSpare (s : State) (die : Nat) : Option Nat :=
  (sparesOf die ++ sparesOf (1 - die)).find? (fun pc => s.memChState pc = 1 && !s.looped.contains pc)

/-- Edge die of a physical channel. -/
def dieOfPhys (pc : Nat) : Nat := if pc < 52 then 0 else 1

/-- A channel fails in service (R185): it is fenced; with no spare free, the device is at fault. -/
def State.channelFail (s : State) (pc : PhysChan) : State :=
  if s.memChState pc ≠ 0 then s
  else
    let s := (s.setMemChState pc 2).bump MEM_STATUS MEM_STATUS_FAILED
    match s.freeSpare (dieOfPhys pc) with
    | some _ => s
    | none => s.deviceFault 0x0301 (BitVec.ofNat 48 pc.val)

/-- CHANNEL_FAILED. -/
def execChannelFailed (pc : PhysChan) (s : State) : Result := .next (s.channelFail pc)

/-- RESET_CHANNEL: handled as a failure of the channel (R382). -/
def execResetChannel (src : Source) (pc : PhysChan) (s : State) : Result :=
  .next (if s.mayUse src then s.channelFail pc else s)

/-- DEVICE_FAULT names this channel already. -/
def State.channelFaulted (s : State) (pc : PhysChan) : Bool := s.active.any (fun e => e.code = 0x0301 && e.detail = BitVec.ofNat 48 pc.val)

/-- SPARE_RECALIBRATED: a free spare takes the place of the failed channel `pc` in MEM_CHMAP and is filled; where another failure has
taken the last one since, the device is at fault (R183, R185). -/
def execSpareRecalibrated (pc : PhysChan) (s : State) : Result :=
  .next (if s.memChState pc ≠ 2 then s
    else match s.servedBy pc, s.freeSpare (dieOfPhys pc) with
      | some l, some sp =>
        let s := s.setFld (MEM_CHMAP l) MEM_CHMAP_PHYS sp
        let s := s.setFld MEM_STATUS MEM_STATUS_SPARES_FREE (s.fld MEM_STATUS MEM_STATUS_SPARES_FREE - 1)
        s.setMemChState sp 3
      | some _, none => if s.channelFaulted pc then s else s.deviceFault 0x0301 (BitVec.ofNat 48 pc.val)
      | none, _ => s)

/-- Granules of LPDDR6 that logical channel `l` serves (R179). -/
def granulesOf (l : Nat) : List Nat := (List.range (lpddrTop / 4096)).filter (fun g => lchan (4096 * g) = l)

/-- Every unit of a logical channel becomes zero with its POISON tag set, and its 2 MiB granules dirty (R185, R190). The values are
given for every unit, not computed one write at a time. -/
def State.fillPoison (s : State) (l : Nat) : State :=
  let mine := fun (o : Nat) => o < lpddrTop && lchan o = l
  let s := { s with mem := s.mem.filter (fun e => !mine e.1), ecc := s.ecc.filter (fun e => !mine e.1)
                    cfmt := s.cfmt.filter (fun e => !mine (4096 * e.1)) }
  (granulesOf l).foldl (fun (s : State) g =>
    ((List.range 64).foldl (fun (s : State) j => s.setPoison (4096 * g + 64 * j)) s).markDirty (4096 * g)) s

/-- SPARE_FILL_DONE: the spare `pc` is written; the channel is unfenced, the sparing record updated and CHANNEL_SPARED posted (R185). -/
def execSpareFillDone (pc : PhysChan) (s : State) : Result :=
  .next (if s.memChState pc ≠ 3 then s
    else match s.servedBy pc with
      | none => s
      | some l =>
        let s := ((s.fillPoison l).setMemChState pc 0).recordSparing
        s.post (event 0x0101 (Config.detail 0x0101 [l, pc.val]) none))

/-- LOOPBACK_MODE: a write of MEM_CH_LB.MODE clears ERRORS; outside states 1, 2, 4 and 5 it is ignored and MODE reads 0 (R193). -/
def State.writeLoopback (s : State) (pc : Nat) (v mask : Word) : State :=
  if MEM_CH_LB_MODE.mask &&& mask = 0 then s
  else
    let st := s.memChState pc
    let s := s.setFld (MEM_CH_LB pc) MEM_CH_LB_ERRORS 0
    if st = 1 || st = 2 || st = 4 || st = 5 then
      let s := if bits (v &&& mask) 1 0 = 1 || bits (v &&& mask) 1 0 = 2 then { s with looped := Maps.add s.looped pc } else s
      s.setFld (MEM_CH_LB pc) MEM_CH_LB_MODE (bits (v &&& mask) 1 0)
    else s.setFld (MEM_CH_LB pc) MEM_CH_LB_MODE 0

/-- LOOPBACK_MODE. -/
def execLoopbackMode (src : Source) (pc : PhysChan) (mode : BitVec 2) (s : State) : Result :=
  .next (if s.mayUse src then s.writeLoopback pc (mode.setWidth 64) (-1) else s)

/-! ### Package temperature (R187) -/

/-- The level that a temperature gives a package at level `old`: a level is left only HYST below its threshold. -/
def State.pkgLevel (s : State) (old : Nat) (t : Int) : Nat :=
  let th := fun (l : Nat) => (bits (s.reg MEM_THERM_CFG) (8 * l + 7) (8 * l) : Int)
  let hyst : Int := bits (s.reg MEM_THERM_CFG) 7 0
  let up := if th 3 ≤ t then 3 else if th 2 ≤ t then 2 else if th 1 ≤ t then 1 else 0
  let stay := [3, 2, 1].find? (fun l => l ≤ old && th l - hyst < t)
  max up (stay.getD 0)

/-- The level of a package: that of its own readout, and at least the one at which its field's thermistor holds it (R187, R401). Its four
channels follow; an entry into level 3 is posted, and leaving it ends the condition. -/
def State.setPkgLevel (s : State) (p : Nat) : State :=
  let old := s.fld (MEM_PKG_TEMP p) MEM_PKG_TEMP_LEVEL
  let l := max (Maps.get 0 s.power.pkg p) (if p < 13 then s.power.west else s.power.east)
  let s := s.setFld (MEM_PKG_TEMP p) MEM_PKG_TEMP_LEVEL l
  let s := (List.range 4).foldl (fun (s : State) q => s.setFld (MEM_CH_STATE (4 * p + q)) MEM_CH_STATE_THROTTLE l) s
  if l = 3 && old ≠ 3 then s.post (event 0x0102 (BitVec.ofNat 48 p) none)
  else if old = 3 && l ≠ 3 then s.clearActive (fun e => e.code = 0x0102 && e.detail = BitVec.ofNat 48 p)
  else s

/-- PKG_TEMP_READ: a package's own readout `t`. -/
def execPkgTempRead (p : Fin 26) (t : BitVec 8) (s : State) : Result :=
  let own := s.pkgLevel (Maps.get 0 s.power.pkg p) t.toInt
  let s := { s with power := { s.power with pkg := Maps.put 0 s.power.pkg p own } }
  .next ((s.setFld (MEM_PKG_TEMP p) MEM_PKG_TEMP_TEMP t.toNat).setPkgLevel p)

/-! ### Dirty bitmaps (R190, R191, R362) -/

/-- Bytes of a dirty bitmap. -/
def dirtyLen : Nat := 142976

/-- The bytes of a bitmap. -/
def bitmapBytes (ds : List Nat) : List Byte := bitBytes dirtyLen (fun i => ds.contains i)

/-- The swap point (R191). -/
def State.swap (s : State) : State :=
  if s.fld MEM_DIRTY_STATUS MEM_DIRTY_STATUS_BUSY = 1 then s.setFld MEM_DIRTY_STATUS MEM_DIRTY_STATUS_OVERRUN 1
  else
    let s := { s with dirtyFrozen := s.dirtyActive, dirtyActive := [], dirtyAt := s.fld MEM_DIRTY_BASE MEM_DIRTY_BASE_BASE * 4096 }
    let s := s.wrapInc MEM_DIRTY_STATUS MEM_DIRTY_STATUS_SWAPS
    if lpddrTop < s.dirtyAt + dirtyLen then
      s.setFld MEM_DIRTY_STATUS MEM_DIRTY_STATUS_FAULT 1
    else s.setFld MEM_DIRTY_STATUS MEM_DIRTY_STATUS_BUSY 1

/-- A write of MEM_DIRTY_CTRL: ENABLE from 0 to 1 clears the active bitmap; 1 in SWAP swaps. While the snapshot engine owns dirty
tracking it is ignored (R190, R191, R362). -/
def State.writeDirtyCtrl (s : State) (v mask : Word) : State :=
  if s.fld SNAP_CFG SNAP_CFG_ENABLE = 1 then s
  else
    let was := s.fld MEM_DIRTY_CTRL MEM_DIRTY_CTRL_ENABLE
    let now := if MEM_DIRTY_CTRL_ENABLE.mask &&& mask = 0 then was else bits v 1 1
    let s := s.setFld MEM_DIRTY_CTRL MEM_DIRTY_CTRL_ENABLE now
    let s := if was = 0 && now = 1 then { s with dirtyActive := [] } else s
    if wrote v mask MEM_DIRTY_CTRL_SWAP then s.swap else s

/-- MEM_DIRTY_ENABLE: ENABLE written 1. -/
def execMemDirtyEnable (src : Source) (s : State) : Result :=
  .next (if s.mayUse src then s.writeDirtyCtrl MEM_DIRTY_CTRL_ENABLE.mask MEM_DIRTY_CTRL_ENABLE.mask else s)

/-- SWAP: 1 written to SWAP. -/
def execSwap (src : Source) (s : State) : Result :=
  .next (if s.mayUse src then s.writeDirtyCtrl MEM_DIRTY_CTRL_SWAP.mask MEM_DIRTY_CTRL_SWAP.mask else s)

/-- Write the frozen bitmap: it becomes visible, or its write fails and FAULT is set; it sets no dirty bits (R190, R191). -/
def State.putBitmap (s : State) (bs : List Byte) : State :=
  let dirty := s.dirtyActive
  let r := s.store .ranger s.dirtyAt bs true
  let s := { r.2 with dirtyActive := dirty }.setFld MEM_DIRTY_STATUS MEM_DIRTY_STATUS_BUSY 0
  match r.1 with
  | .ok _ => s
  | _ => s.setFld MEM_DIRTY_STATUS MEM_DIRTY_STATUS_FAULT 1

/-- DIRTY_BITMAP_WRITTEN. -/
def execDirtyBitmapWritten (s : State) : Result :=
  .next (if s.fld MEM_DIRTY_STATUS MEM_DIRTY_STATUS_BUSY = 0 then s else s.putBitmap (bitmapBytes s.dirtyFrozen))

end Sys2Proof.Machine
end

