-- ==== Sys2Proof/Machine/Snap.lean ====
section
/-! DEFINITION. Plans, images, captures, cascades, restores, digests, the interval policy, salvage and shadows (R356 to R374). -/
namespace Sys2Proof.Machine

open Reg

/-! ### Plans (R356) -/

def granuleSize : Nat := 0x200000

def planKeeper (p : List Byte) : Coord := BitVec.ofNat 12 (leAt p 0 4 % 4096)
def planRanges (p : List Byte) : Nat := leAt p 4 4
def planResOff (p : List Byte) : Nat := leAt p 8 8
def planResSize (p : List Byte) : Nat := leAt p 0x10 8
def planHbase (p : List Byte) : Nat := leAt p 0x18 4
def planHunits (p : List Byte) : Nat := leAt p 0x1C 4
def planTarget (p : List Byte) : Nat := leAt p 0x20 1
def planLba (p : List Byte) : Nat := leAt p 0x28 8
def planLbas (p : List Byte) : Nat := leAt p 0x30 8

/-- The keep list: address and length of each range. -/
def keepOf (l : List Byte) : List (Nat × Nat) := (List.range (l.length / 16)).map (fun i => (leAt l (16 * i) 8, leAt l (16 * i + 8) 8))

/-- The granules of a keep list in its order, by offset. -/
def keepGranules (l : List (Nat × Nat)) : List Nat := l.flatMap (fun e => (List.range (e.2 / granuleSize)).map (fun j => e.1 + granuleSize * j))

/-- PLAN_DIGEST (R357). -/
def planDigest (l : List (Nat × Nat)) : Word := crc64 (l.flatMap (fun e => leBytes 8 e.1 ++ leBytes 8 e.2))

/-- A keep list keeps its limits: at most 142,848 granules, each range in LPDDR6 or one cluster SRAM, without overlap. -/
def keepOk (l : List (Nat × Nat)) : Bool :=
  let at_ := fun (e : Nat × Nat) =>
    match placeOf e.1, placeOf (e.1 + e.2 - 1) with
    | .lpddr, .lpddr => true
    | .sram a, .sram b => a = b
    | _, _ => false
  (l.map (fun e => e.2 / granuleSize)).foldl (· + ·) 0 ≤ 142848 && l.all (fun e => e.1 < 2 ^ 48 && e.1 % granuleSize = 0 && e.2 ≠ 0 && e.2 % granuleSize = 0 && at_ e)
    && l.zipIdx.all (fun a => (l.drop (a.2 + 1)).all (fun b => a.1.1 + a.1.2 ≤ b.1 || b.1 + b.2 ≤ a.1.1))

/-- The rest of a plan keeps its limits. -/
def State.planOk (s : State) (p : List Byte) (l : List (Nat × Nat)) : Bool :=
  let k := planKeeper p
  let size := granuleSize * ((keepGranules l).length + 1)
  leAt p 0 4 < 4096 && k ≠ s.self && blockOf k = blockOf s.self && podOf k = podOf s.self
    && planResOff p % granuleSize = 0 && planResSize p % (2 * granuleSize) = 0 && planResSize p ≤ 558 * 2 ^ 30
    && planHbase p ≤ 3724 && planHunits p % 2 = 0 && planHbase p + planHunits p ≤ 3725
    && (planTarget p ≤ 3 || planTarget p = 0xFF) && leAt p 0x21 7 = 0 && planLbas p % 2 = 0
    && (if planTarget p = 0xFF then planLbas p = 0 else 2 * size ≤ planLbas p * 4096)
    && 2 * size ≤ planResSize p && 2 * size ≤ planHunits p * 2 ^ 30

/-- Read bytes on the ring's device for a descriptor. -/
def State.readRing (s : State) (n : RingId) (a : Word) (len : Nat) : Except Status (List Byte) × State :=
  match s.locate true a.toNat len with
  | .bad st => (.error st, s)
  | .there _ _ => (.error .format, s)
  | .here o =>
    match s.readFor (s.me (s.ringAuth n)) o len true with
    | (.ok bs, s) => (.ok bs, s)
    | (.err st, s) => (.error st, s)
    | (.wait, s) => (.ok [], s)

/-- Read a plan and its list; with `whole`, all of R356 is checked, else only NRANGES and LIST. -/
def State.readPlan (s : State) (n : RingId) (a : Word) (whole : Bool) : Except Status (List Byte × List Byte) × State :=
  match s.readRing n a 64 with
  | (.error st, s) => (.error st, s)
  | (.ok p, s) =>
    if planRanges p = 0 || 256 < planRanges p then (.error .format, s)
    else match s.readRing n (wordAt p 0x38) (16 * planRanges p) with
      | (.error st, s) => (.error st, s)
      | (.ok l, s) =>
        if !keepOk (keepOf l) || (whole && !s.planOk p (keepOf l)) then (.error .format, s)
        else if whole && !s.present (planKeeper p) then (.error .bound, s)
        else (.ok (p, l), s)

/-! ### Images (R357) -/

/-- Fields of an image header. -/
structure SnapHeader where
  state : Nat
  ctx : Nat
  owner : Nat
  gen : Nat
  step : Nat
  job : Nat
  granules : Nat
  plan : Word
  digest : Word
  runS : Nat
  fails : Nat
  ns : Word
  deriving DecidableEq, Repr

def SnapHeader.bytes (h : SnapHeader) : List Byte :=
  leBytes 4 0x534E4150 ++ leBytes 1 h.state ++ leBytes 1 h.ctx ++ leBytes 2 h.owner ++ leBytes 4 h.gen ++ leBytes 4 h.step ++ leBytes 4 h.job
    ++ leBytes 4 h.granules ++ leBytes 8 h.plan.toNat ++ leBytes 8 h.digest.toNat ++ leBytes 8 h.runS ++ leBytes 4 h.fails ++ leBytes 4 0
    ++ leBytes 8 h.ns.toNat

/-- A header as it stands in an image; STATE is 0 without the magic number. -/
def headerOf (b : List Byte) : SnapHeader :=
  { state := if leAt b 0 4 = 0x534E4150 then leAt b 4 1 else 0, ctx := leAt b 5 1, owner := leAt b 6 2 % 4096, gen := leAt b 8 4
    step := leAt b 0xC 4, job := leAt b 0x10 4, granules := leAt b 0x14 4, plan := wordAt b 0x18, digest := wordAt b 0x20
    runS := leAt b 0x28 8, fails := leAt b 0x30 4, ns := wordAt b 0x38 }

/-- The image is complete for this plan of a context. -/
def SnapHeader.holds (h : SnapHeader) (x : Ctx) (plan : Word) : Bool := h.state = 2 && h.ctx = x.val && h.plan = plan

def State.hamperByte (s : State) (o : Nat) : Byte := Maps.get 0 s.hamper o
def State.hamperBytes (s : State) (o n : Nat) : List Byte := (List.range n).map (fun i => s.hamperByte (o + i))
def State.hamperWrite (s : State) (o : Nat) (bs : List Byte) : State := { s with hamper := putBytes s.hamper o bs }

/-- Place of image `m` (2 to 5) in Hamper or in the shared store. -/
def imageAt (p : List Byte) (m : Nat) : Nat :=
  if m < 4 then planHbase p * 2 ^ 30 + (m - 2) * (planHunits p * 2 ^ 29)
  else planTarget p * 2 ^ 56 + planLba p * 4096 + (m - 4) * (planLbas p * 2048)

def State.imageRead (s : State) (p : List Byte) (m off n : Nat) : List Byte :=
  if m < 4 then s.hamperBytes (imageAt p m + off) n else (List.range n).map (fun i => Maps.get 0 s.snap.store (imageAt p m + off + i))

def State.imageWrite (s : State) (p : List Byte) (m off : Nat) (bs : List Byte) : State :=
  if m < 4 then s.hamperWrite (imageAt p m + off) bs
  else { s with snap := { s.snap with store := putBytes s.snap.store (imageAt p m + off) bs } }

/-! ### The work area (R362) -/

def State.snapCtx (s : State) (x : Ctx) : SnapCtx := Maps.get SnapCtx.reset s.snap.ctxs x
def State.mapSnap (s : State) (x : Ctx) (f : SnapCtx → SnapCtx) : State :=
  { s with snap := { s.snap with ctxs := Maps.put SnapCtx.reset s.snap.ctxs x (f (s.snapCtx x)) } }

def State.workBase (s : State) : Nat := s.fld SNAP_WORK_BASE SNAP_WORK_BASE_BASE * granuleSize

/-- The pending bitmap of image `m` of a context. -/
def State.pendAt (s : State) (x m : Nat) : Nat := s.workBase + 0x23000 * (1 + 6 * x + m)

/-- Bit `b` is pending. -/
def State.pends (s : State) (x : Ctx) (m b : Nat) : Bool := (s.byte (s.pendAt x m + b / 8)).getLsbD (b % 8)

/-- Set bit `b` of the bitmap at `a`, as the snapshot engine writes it: the first status that is not `OK` is kept. -/
def State.orPend (r : Option Status × State) (a b : Nat) : Option Status × State :=
  match r.2.load .ranger (a + b / 8) 1 true with
  | (.ok bs, s) =>
    match s.store .ranger (a + b / 8) (bs.map (· ||| BitVec.ofNat 8 (2 ^ (b % 8)))) true with
    | (.err st, s) => (r.1 <|> some st, s)
    | (_, s) => (r.1, s)
  | (.err st, s) => (r.1 <|> some st, s)
  | (.wait, s) => (r.1, s)

/-- The snapshot engine's write of a frozen bitmap at offset 0 of the work area, which sets no dirty bit (R190, R362). -/
def State.putFrozen (s : State) (bs : List Byte) : Option Status × State :=
  let r := s.store .ranger s.workBase bs true
  match r.1 with
  | .err st => (some st, { r.2 with dirtyActive := s.dirtyActive })
  | _ => (none, { r.2 with dirtyActive := s.dirtyActive })

/-- Every bit of `frozen` is set in the bitmaps at `areas`. -/
def State.orAreas (r : Option Status × State) (areas frozen : List Nat) : Option Status × State :=
  areas.foldl (fun r a => frozen.foldl (fun r b => State.orPend r a b) r) r

/-- A harvest: a SWAP whose bitmap is written to the work area and ORed into every pending bitmap (R191, R362). An area that does not
fit, and any of its writes that fails, set FAULT and fail the harvest; the frozen bits then go back to the active bitmap, so that none is
lost. DESIGN CHOICE (log entry 78): the spec does not say where they stay. -/
def State.harvest (s : State) : Option Status × State :=
  let frozen := s.dirtyActive
  if lpddrTop < s.workBase + 0x4000000 then (some .bound, s.setFld MEM_DIRTY_STATUS MEM_DIRTY_STATUS_FAULT 1)
  else
    let s := ({ s with dirtyFrozen := frozen, dirtyActive := [] }).wrapInc MEM_DIRTY_STATUS MEM_DIRTY_STATUS_SWAPS
    match State.orAreas (s.putFrozen (bitmapBytes frozen)) ((List.range 384).map fun j => s.workBase + 0x23000 * (1 + j)) frozen with
    | (none, s) =>
      let up := fun (c : SnapCtx) => { c with since := c.since.map (fun (e : Nat × List Nat) => (e.1, frozen.foldl Maps.add e.2)) }
      (none, { s with snap := { s.snap with ctxs := s.snap.ctxs.map (fun (e : Nat × SnapCtx) => (e.1, up e.2)) } })
    | (some st, s) => (some st, { s with dirtyActive := frozen.foldl Maps.add s.dirtyActive }.setFld MEM_DIRTY_STATUS MEM_DIRTY_STATUS_FAULT 1)

/-- The pending bitmap of image `m` is written anew, and nothing is harvested for it any more. -/
def State.putPending (s : State) (x : Ctx) (m : Nat) (bs : List Byte) : State :=
  (s.store .ranger (s.pendAt x m) bs true).2.mapSnap x fun c => { c with since := Maps.erase c.since m }

/-- Image `m` has completed: its bitmap holds what was harvested since it began (R362, R363). -/
def State.clearPending (s : State) (x : Ctx) (m : Nat) : State := s.putPending x m (bitmapBytes (Maps.get [] (s.snapCtx x).since m))

/-- The granules of a keep list that image `m` lacks, by their place in the list. -/
def State.lacking (s : State) (x : Ctx) (m : Nat) (all : Bool) (l : List (Nat × Nat)) : List Nat :=
  ((keepGranules l).zipIdx.filter (fun g => all || (match dirtyBit g.1 with
    | some b => s.pends x m b
    | none => true))).map (·.2)

/-- A write of SNAP_CFG: setting ENABLE takes over dirty tracking, and no image counts as completed (R362). -/
def State.writeSnapCfg (s : State) (v mask : Word) : State :=
  let was := s.fld SNAP_CFG SNAP_CFG_ENABLE
  let s := s.writeWord .SNAP_CFG [] SNAP_CFG v mask
  if was = 0 && s.fld SNAP_CFG SNAP_CFG_ENABLE = 1 then
    let s := if s.fld MEM_DIRTY_CTRL MEM_DIRTY_CTRL_ENABLE = 0 then { s with dirtyActive := [] } else s
    let s := s.setFld MEM_DIRTY_CTRL MEM_DIRTY_CTRL_ENABLE 1
    let s := s.setFld MEM_DIRTY_BASE MEM_DIRTY_BASE_BASE (s.workBase / 4096)
    { s with snap := { s.snap with ctxs := s.snap.ctxs.map (fun (e : Nat × SnapCtx) => (e.1, { e.2 with fresh := [] })) } }
  else s

/-- SNAP_ENABLE: a write of SNAP_CFG. -/
def execSnapEnable (src : Source) (v : Word) (s : State) : Result := .next (if s.mayUse src then s.writeSnapCfg v (-1) else s)

/-! ### The interval policy (R368) -/

/-- interval_s. -/
def State.interval (s : State) (x : Ctx) : Nat :=
  let c := s.snapCtx x
  let (n, k) := c.cost.getD (0, 0)
  let f := fun (g : Field) => s.fld POLICY_SNAP_CFG g
  let rule := isqrt (2 * n * (c.runS + 3600 * f POLICY_SNAP_CFG_M_PRIOR_H) / (4 ^ k * 1000000000 * (c.fails + 1)))
  let t := min (f POLICY_SNAP_CFG_T_MAX_S) (max rule (max (10 * n / (4 ^ k * 1000000000)) (f POLICY_SNAP_CFG_T_MIN_S)))
  if f POLICY_SNAP_CFG_PIN_S ≠ 0 then f POLICY_SNAP_CFG_PIN_S else t

/-- Show the observations in POLICY_SNAP_STATE. -/
def State.showPolicy (s : State) (x : Ctx) : State :=
  let c := s.snapCtx x
  let (n, k) := c.cost.getD (0, 0)
  let r := POLICY_SNAP_STATE x
  (((s.setFld r POLICY_SNAP_STATE_FAILS (min 0x7FFF c.fails)).setFld r POLICY_SNAP_STATE_C_DS (min 0xFFFF (n / (4 ^ k * 100000000)))).setFld r
    POLICY_SNAP_STATE_INTERVAL_S (min 0xFFFF (s.interval x))).setFld r POLICY_SNAP_STATE_RUN_H (min 0xFFFF (c.runS / 3600))

/-- An `OK` capture that started at `t0` and ends now: C moves by a quarter of the difference, DUE clears. -/
def State.captured (s : State) (x : Ctx) (t0 : Word) : State :=
  let d := (s.devTime - t0).toNat
  let s := s.mapSnap x fun c =>
    { c with last := some t0, cost := match c.cost with
                | none => some (d, 0)
                | some (n, k) => some (3 * n + d * 4 ^ k, k + 1) }
  (s.showPolicy x).setFld (POLICY_SNAP_STATE x) POLICY_SNAP_STATE_DUE 0

/-- Whole seconds of device time since an instant. -/
def State.secondsSince (s : State) (t : Word) : Nat := (s.devTime - t).toNat / 1000000000

/-- SNAPSHOT_DUE: interval_s has passed since the start of the newest `OK` capture. -/
def execSnapshotDue (x : Ctx) (s : State) : Result :=
  .next (if !(s.snapCtx x).last.any (fun t => s.interval x ≤ s.secondsSince t) || s.fld (POLICY_SNAP_STATE x) POLICY_SNAP_STATE_DUE = 1 then s
    else (s.setFld (POLICY_SNAP_STATE x) POLICY_SNAP_STATE_DUE 1).post (event 0x0007 (BitVec.ofNat 48 (s.interval x)) (some x)))

/-- RUN_SECOND: a whole second in which a LAUNCH of the context was running. -/
def execRunSecond (x : Ctx) (s : State) : Result :=
  .next (if s.coresOf x = [] then s else (s.mapSnap x fun c => { c with runS := c.runS + 1 }).showPolicy x)

/-! ### Pieces of a descriptor -/

/-- What the engine notes with its descriptor, beside the pieces it has received: the plan, the list, its header, the digest of granule j. -/
def atPlan : Nat := 2 ^ 40
def atList : Nat := 2 ^ 40 + 1
def atHeader : Nat := 2 ^ 40 + 2
def atDigest : Nat := 2 ^ 41
/-- Positions of headers and of the digest table among the pieces received. -/
def posHeader : Nat := 2 ^ 32
def posTable : Nat := 2 ^ 33

def Desc.part (d : Desc) (k : Nat) : List Byte := Maps.get [] d.parts k
/-- The pieces at positions `lo` to `hi`, joined. -/
def Desc.joined (d : Desc) (lo hi : Nat) : List Byte := (d.parts.filter (fun e => lo ≤ e.1 && e.1 < hi)).flatMap (·.2)

def State.notePart (s : State) (n : RingId) (i : Index) (k : Nat) (bs : List Byte) : State :=
  s.mapDesc n i fun d => { d with parts := Maps.put [] d.parts k bs }

def Desc.keep (d : Desc) : List (Nat × Nat) := keepOf (d.part atList)

/-- Ask a device for bytes by GETs; their positions count from `pos`. -/
def State.snapAsk (s : State) (n : RingId) (i : Index) (c : Coord) (o len pos : Nat) : State :=
  (cuts 8192 o len).foldl (fun (s : State) p =>
    (s.request { newReq 3 0x29 c (s.ringAgent n) (s.ringCtx n) p.1 (.desc n i (pos + p.2.2)) with rlen := p.2.1 }).awaiting n i 1) s

/-- Ask a faulted device for bytes of a Hamper image, or with `len` 0 for both headers (R372). -/
def State.salvageAsk (s : State) (n : RingId) (i : Index) (c : Coord) (x : Nat) (image off len pos : Nat) : State :=
  (s.request { newReq 4 0x35 c agentRanger 0 0 (.desc n i pos) with
    payload := leBytes 1 x ++ leBytes 1 image ++ leBytes 2 0 ++ leBytes 4 len ++ leBytes 8 off, rlen := max 128 len }).awaiting n i 1

/-- Send bytes by PUTs, compressed where R266 lets the fabric unit do so. -/
def State.snapPut (s : State) (n : RingId) (i : Index) (c : Coord) (o : Nat) (bs : List Byte) : State :=
  (cuts 8192 o bs.length).foldl (fun (s : State) p =>
    let b := (bs.drop p.2.2).take p.2.1
    let e := fabricEncode b
    let r := newReq 3 0x28 c (s.ringAgent n) (s.ringCtx n) p.1 (.desc n i 0)
    let small := s.fld ROUTE_CFG ROUTE_CFG_FCOMP = 1 && fabricWhole p.1 p.2.1 && e.1.length < b.length
    (s.request (if small then { r with payload := e.1, gmask := e.2, cmp := true, rlen := b.length } else { r with payload := b })).awaiting n i 1) s

/-! ### SNAP_CAPTURE (R359, R363) -/

/-- Image `m` of layer 1 at the keeper. -/
def keeperAt (p : List Byte) (m : Nat) : Nat := planResOff p + m * (planResSize p / 2)

def Desc.gen (d : Desc) : Nat := bits (d.word 3) 31 0

/-- Another descriptor of this type and context runs. -/
def State.snapBusy (s : State) (n : RingId) (i : Index) (typ : Byte) : Bool :=
  s.descs.any (fun (e : Desc) => e.typ = typ && e.phase = .working && s.ringCtx e.ring = s.ringCtx n && !(e.ring = n && e.idx = i))

/-- The header of this capture, in a state. -/
def State.captureHeader (s : State) (d : Desc) (x : Ctx) (st : Nat) (digest ns : Word) : SnapHeader :=
  { state := st, ctx := x, owner := s.self.toNat, gen := d.gen, step := d.step.toNat, job := (s.jobOf x).toNat
    granules := (keepGranules d.keep).length, plan := planDigest d.keep, digest := digest, runS := (s.snapCtx x).runS
    fails := (s.snapCtx x).fails, ns := ns }

/-- Copy granules to the keeper, taking the digest of each; the first read that fails ends the capture. -/
def State.copyGranules (s : State) (n : RingId) (i : Index) (p : List Byte) (m : Nat) (gs : List Nat) : List Nat → State
  | [] => s
  | j :: js =>
    match s.readFor (s.me (s.ringAuth n)) (gs.getD j 0) granuleSize true with
    | (.err st, s) => s.endDesc n i st 0 0
    | (.wait, s) => s
    | (.ok bs, s) =>
      let s := s.notePart n i (atDigest + j) (leBytes 8 (crc64 bs).toNat)
      (s.snapPut n i (planKeeper p) (keeperAt p m + granuleSize * (j + 1)) bs).copyGranules n i p m gs js

/-- Both headers as received: a salvage answer brings them in one piece. -/
def Desc.headers (d : Desc) : List SnapHeader :=
  let all := d.joined posHeader (posHeader + 2)
  [headerOf (all.take 64), headerOf (all.drop 64)]

/-- Is the capture of image `m` full: asked for, or no fresh image of this owner to add to. -/
def State.fullCopy (s : State) (x : Ctx) (m : Nat) (d : Desc) : Bool :=
  let h := d.headers.getD m (headerOf [])
  bits (d.word 3) 32 32 = 1 || !(h.holds x (planDigest d.keep) && h.owner = s.self.toNat && (s.snapCtx x).fresh.contains m)

/-- The complete images of a plan that the layers hold beside image `m`, by their headers: the other one of layer 1 as the keeper
answered, those of layers 2 and 3 as they stand (R359, R361). -/
def State.foundImages (s : State) (x : Ctx) (m : Nat) (d : Desc) : List (Nat × List Byte) :=
  let p := d.part atPlan
  let heads := (1 - m, (d.headers.getD (1 - m) (headerOf [])).bytes)
    :: (List.range (if planTarget p = 0xFF then 2 else 4)).map fun j => (2 + j, s.imageRead p (2 + j) 0 64)
  heads.filter fun e => (headerOf e.2).holds x (planDigest d.keep)

/-- The context's record of its images as a copy of image `m` begins: `m` is no longer whole. A cascade that reads it is abandoned, and so
are those of another plan (R361). -/
def State.openImage (s : State) (x : Ctx) (m : Nat) (d : Desc) : State :=
  let hdrs := s.foundImages x m d
  s.mapSnap x fun c =>
    let same : Bool := c.plan = d.part atPlan && c.list = d.keep
    { c with plan := d.part atPlan, list := d.keep, hdrs := hdrs, fresh := Maps.del c.fresh m, since := Maps.set c.since m []
             layer2 := if same && (c.layer2.map (·.src)) ≠ some m then c.layer2 else none
             layer3 := if same then c.layer3 else none }

/-- The descriptor's note of the copy: its header, whether it is full, and what it will copy. -/
def State.noteCopy (s : State) (n : RingId) (i : Index) (full : Bool) (todo : Nat) (hdr : List Byte) : State :=
  (s.notePart n i atHeader (hdr ++ [if full then 1 else 0])).mapDesc n i fun d =>
    { d with aux := 2, r0 := BitVec.ofNat 64 (granuleSize * todo), r1 := BitVec.ofNat 32 todo }

/-- An image that is added to needs its old table. -/
def State.askTable (s : State) (n : RingId) (i : Index) (d : Desc) (m : Nat) (full : Bool) : State :=
  if full then s else s.snapAsk n i (planKeeper (d.part atPlan)) (keeperAt (d.part atPlan) m + 4096) (8 * (keepGranules d.keep).length) posTable

/-- Copy to image `m`, the dirty maps being harvested: the header first, the old table asked for, then the granules. -/
def State.copyFrom (s : State) (n : RingId) (i : Index) (d : Desc) (m : Nat) : State :=
  let x := s.ringCtx n
  let full := s.fullCopy x m d
  let todo := s.lacking x m full d.keep
  let hdr := ((s.openImage x m d).captureHeader d x 1 0 s.devTime).bytes
  let p := d.part atPlan
  ((((s.openImage x m d).noteCopy n i full todo.length hdr).snapPut n i (planKeeper p) (keeperAt p m) hdr).askTable n i d m full).copyGranules
    n i p m (keepGranules d.keep) todo

/-- Both headers of the keeper are here: the generation is checked, the dirty bits are harvested, the image is opened with STATE 1 and the
pending granules are sent (steps 1 to 4). -/
def State.captureCopy (s : State) (n : RingId) (i : Index) (d : Desc) : State :=
  if (d.headers.filter (fun h => h.holds (s.ringCtx n) (planDigest d.keep))).any (fun h => d.gen ≤ h.gen) then s.endDesc n i .format 0 0
  else match s.harvest with
    | (some st, s) => s.endDesc n i st 0 0
    | (none, s) => s.copyFrom n i d (d.gen % 2)

/-- The digest table of a capture: new digests, and those of the granules that were not pending. -/
def Desc.table (d : Desc) : List Byte :=
  let old := d.joined posTable (posTable + 2 ^ 32)
  (List.range (keepGranules d.keep).length).flatMap fun j =>
    if d.part (atDigest + j) = [] then padTo 8 ((old.drop (8 * j)).take 8) else d.part (atDigest + j)

/-- Every granule is there: the digest table follows, and on a full capture the zeros of granule 0 (step 5). -/
def State.captureTable (s : State) (n : RingId) (i : Index) (d : Desc) : State :=
  let p := d.part atPlan
  let a := keeperAt p (d.gen % 2)
  let t := d.table
  let full := (d.part atHeader).getD 64 0 = 1
  let s := s.mapDesc n i fun d => { d with aux := 3 }
  let s := s.snapPut n i (planKeeper p) (a + 4096) (if full then t ++ List.replicate (granuleSize - 4096 - t.length) 0 else t)
  if full then s.snapPut n i (planKeeper p) (a + 64) (List.replicate (4096 - 64) 0) else s

/-- Then the header with STATE 2. -/
def State.captureCommit (s : State) (n : RingId) (i : Index) (d : Desc) : State :=
  let p := d.part atPlan
  let h := { headerOf (d.part atHeader) with state := 2, digest := crc64 d.table }
  ((s.notePart n i atHeader h.bytes).mapDesc n i fun d => { d with aux := 4 }).snapPut n i (planKeeper p) (keeperAt p (d.gen % 2)) h.bytes

/-- The image is complete (step 6). -/
def State.captureEnd (s : State) (n : RingId) (i : Index) (d : Desc) : State :=
  let x := s.ringCtx n
  let m := d.gen % 2
  let h := d.part atHeader
  let s := s.clearPending x m
  let s := s.mapSnap x fun c => { c with hdrs := Maps.put [] c.hdrs m h, fresh := Maps.add c.fresh m }
  let s := s.setFld (SNAP_CTX_GEN x) SNAP_CTX_GEN_GEN_L1 d.gen
  (s.captured x (headerOf h).ns).endDesc n i .ok d.r0 d.r1

/-- SNAP_CAPTURE. -/
def execSnapCapture (n : RingId) (i : Index) (s : State) : Result :=
  .next (match s.work n i 0x50 .started with
    | none => s
    | some d =>
      if bits (d.word 3) 63 33 ≠ 0 || (d.words.drop 5).any (· ≠ 0) then s.endDesc n i .format 0 0
      else if s.fld SNAP_CFG SNAP_CFG_ENABLE = 0 then s.endDesc n i .fenced 0 0
      else if 1 ≤ s.stage || s.snapBusy n i 0x50 || s.fld MEM_DIRTY_STATUS MEM_DIRTY_STATUS_BUSY = 1 then s
      else match s.readPlan n (d.word 4) true with
        | (.error st, s) => s.endDesc n i st 0 0
        | (.ok (p, l), s) =>
          let s := ((s.notePart n i atPlan p).notePart n i atList l).mapDesc n i fun d => { d with aux := 1 }
          (List.range 2).foldl (fun (s : State) m => s.snapAsk n i (planKeeper p) (keeperAt p m) 64 (posHeader + m)) s)

/-! ### SNAP_RESTORE (R366) -/

def Desc.source (d : Desc) : Nat := bits (d.word 3) 34 32
def Desc.from_ (d : Desc) : Coord := BitVec.ofNat 12 (bits (d.word 5) 11 0)

/-- Local images that a source reads: the own Hamper, or the shared store. -/
def localImage (src m : Nat) : Nat := if src = 1 then 2 + m else 4 + m

/-- Ask for bytes of image `m` of the descriptor's source; a local source answers at once. -/
def State.askImage (s : State) (n : RingId) (i : Index) (d : Desc) (m off len pos : Nat) : State :=
  let p := d.part atPlan
  match d.source with
  | 0 => s.snapAsk n i (planKeeper p) (keeperAt p m + off) len pos
  | 2 => (cuts 8192 off len).foldl (fun (s : State) c => s.salvageAsk n i d.from_ (s.ringCtx n) m c.1 c.2.1 (pos + c.2.2)) s
  | src => s.notePart n i pos (s.imageRead p (localImage src m) off len)

/-- Ask for both headers of the source. -/
def State.askHeaders (s : State) (n : RingId) (i : Index) (d : Desc) : State :=
  if d.source = 2 then s.salvageAsk n i d.from_ (s.ringCtx n) 0 0 0 posHeader
  else (List.range 2).foldl (fun (s : State) m => s.askImage n i d m 0 64 (posHeader + m)) s

/-- Ask for granule `j` of what is restored, after dropping the bytes of the one before. -/
def State.askGranule (s : State) (n : RingId) (i : Index) (d : Desc) (j : Nat) : State :=
  let s := s.mapDesc n i fun d =>
    { d with aux := BitVec.ofNat 64 (3 + 16 * j), parts := d.parts.filter (fun e => posHeader ≤ e.1) }
  if d.source = 4 then s.snapAsk n i d.from_ ((keepGranules d.keep).getD j 0) granuleSize 0
  else s.askImage n i d (bits d.r0 0 0) (granuleSize * (j + 1)) granuleSize 0

/-- The headers are here: the image with STATE 2, GEN, CTX, PLAN_DIGEST and OWNER as asked is used; its digest table is read. The image
number stands in `r0` until the end. -/
def State.restoreChoose (s : State) (n : RingId) (i : Index) (d : Desc) : State :=
  let ok := fun (h : SnapHeader) => h.holds (s.ringCtx n) (planDigest d.keep) && h.gen = d.gen && h.owner = d.from_.toNat
  match d.headers.findIdx? ok with
  | none => s.endDesc n i .bound 0 0
  | some m =>
    let s := (s.notePart n i atHeader ((d.headers.getD m (headerOf [])).bytes)).mapDesc n i fun d =>
      { d with aux := 2, r0 := BitVec.ofNat 64 m }
    s.askImage n i d m 4096 (8 * (keepGranules d.keep).length) posTable

/-- A granule is here: it is written, or where its digest disagrees its units are poisoned (R366). -/
def State.restoreGranule (s : State) (n : RingId) (i : Index) (d : Desc) (j : Nat) : State :=
  let bs := d.joined 0 posHeader
  let o := (keepGranules d.keep).getD j 0
  let table := d.joined posTable (posTable + 2 ^ 32)
  let dg := leBytes 8 (crc64 bs).toNat
  let s := s.notePart n i (atDigest + j) dg
  if d.source ≠ 4 && (table.drop (8 * j)).take 8 ≠ dg then
    match s.protect (s.me (s.ringAuth n)) .wr false o granuleSize with
    | (.ok _, s) => (s.poisonUnits (unitsOf o granuleSize)).mapDesc n i fun d => { d with r1 := d.r1 + 1 }
    | (.error st, s) => s.endDesc n i st 0 0
  else match s.writeFor (s.me (s.ringAuth n)) false o bs true with
    | (.err st, s) => s.endDesc n i st 0 0
    | (_, s) => s

/-- Every granule is dealt with. -/
def State.restoreEnd (s : State) (n : RingId) (i : Index) (d : Desc) : State :=
  let x := s.ringCtx n
  if d.r1 ≠ 0 then s.endDesc n i .poison 0 d.r1
  else
    let s :=
      if d.source = 4 then s
      else
        let h := headerOf (d.part atHeader)
        (s.mapSnap x fun c => { c with runS := max c.runS h.runS, fails := max c.fails h.fails + 1 }).showPolicy x
    s.endDesc n i .ok (crc64 d.table) 0

/-! ### SNAP_DIGEST (R367) -/

/-- Digests of granules, in order; the first read that fails. -/
def State.digestGranules (s : State) (n : RingId) : List Nat → Except Status (List Byte) × State
  | [] => (.ok [], s)
  | o :: os =>
    match s.readFor (s.me (s.ringAuth n)) o granuleSize true with
    | (.err st, s) => (.error st, s)
    | (.wait, s) => (.ok [], s)
    | (.ok bs, s) =>
      match s.digestGranules n os with
      | (.ok t, s) => (.ok (leBytes 8 (crc64 bs).toNat ++ t), s)
      | (.error st, s) => (.error st, s)

/-- The word to compare with is here. -/
def State.digestCompare (s : State) (n : RingId) (i : Index) (d : Desc) (w : Nat) : State :=
  s.endDesc n i (if w = leAt (d.part atDigest) 0 8 then .ok else .collDigest) 0 0

/-- DST is written: COMPARE is read, when there is one. -/
def State.digestNext (s : State) (n : RingId) (i : Index) (d : Desc) : State :=
  let s := s.mapDesc n i fun d => { d with aux := 2 }
  if d.word 6 = 0 then s.endDesc n i .ok 0 0
  else match s.locate true (d.word 6).toNat 8 with
    | .bad st => s.endDesc n i st 0 0
    | .here o =>
      match s.readFor (s.me (s.ringAuth n)) o 8 true with
      | (.ok bs, s) => s.digestCompare n i d (leNat bs)
      | (.err st, s) => s.endDesc n i st 0 0
      | (.wait, s) => s
    | .there c o =>
      match remoteBad o 8 with
      | some st => s.endDesc n i st 0 0
      | none => (s.requestLoads c (s.ringAgent n) (s.ringCtx n) o 8 (fun _ => .desc n i posHeader)).awaiting n i 1

/-- SNAP_DIGEST. -/
def execSnapDigest (n : RingId) (i : Index) (s : State) : Result :=
  .next (match s.work n i 0x52 .started with
    | none => s
    | some d =>
      if d.word 3 ≠ 0 || d.word 7 ≠ 0 || (d.word 5).toNat % 8 ≠ 0 || (d.word 6).toNat % 8 ≠ 0 then s.endDesc n i .format 0 0
      else match s.readPlan n (d.word 4) false with
        | (.error st, s) => s.endDesc n i st 0 0
        | (.ok (_, l), s) =>
          match s.digestGranules n (keepGranules (keepOf l)) with
          | (.error st, s) => s.endDesc n i st 0 0
          | (.ok t, s) =>
            let dg := leBytes 8 (crc64 t).toNat
            let s := (s.notePart n i atDigest dg).mapDesc n i fun d => { d with phase := .working, aux := 1 }
            match s.locate true (d.word 5).toNat 8 with
            | .bad st => s.endDesc n i st 0 0
            | .here o =>
              match s.writeFor (s.me (s.ringAuth n)) false o dg true with
              | (.err st, s) => s.endDesc n i st 0 0
              | (_, s) =>
                match s.desc n i with
                | some d => s.digestNext n i d
                | none => s
            | .there c o =>
              match remoteBad o 8 with
              | some st => s.endDesc n i st 0 0
              | none => (s.requestStores c (s.ringAgent n) (s.ringCtx n) o dg (fun _ => .desc n i 0)).awaiting n i 1)

/-! ### SNAP_SHADOW (R373) -/

/-- Set ROLE, PEER and the mirrored context; the counts begin anew. -/
def State.setMirror (s : State) (x : Option Ctx) (peer : Coord) (role : Nat) : State :=
  let s := { s with snap := { s.snap with mirror := x, told := [] } }
  s.setReg SNAP_SHADOW_STATE (packFields [(SNAP_SHADOW_STATE_PEER, peer.toNat), (SNAP_SHADOW_STATE_ROLE, role)])

/-- SNAP_SHADOW. A shadow asks its source for the groups of the context. -/
def execSnapShadow (n : RingId) (i : Index) (s : State) : Result :=
  .next (match s.work n i 0x53 .started with
    | none => s
    | some d =>
      let peer : Coord := BitVec.ofNat 12 (bits (d.word 3) 11 0)
      let role := bits (d.word 3) 13 12
      let x := s.ringCtx n
      if bits (d.word 3) 63 14 ≠ 0 || (d.words.drop 4).any (· ≠ 0) || role = 3 then s.endDesc n i .format 0 0
      else if role = 2 then (s.setMirror none 0 2).endDesc n i .ok 0 0
      else if blockOf peer ≠ blockOf s.self || peer = s.self then s.endDesc n i .format 0 0
      else if !s.present peer then s.endDesc n i .bound 0 0
      else if role = 0 then (s.setMirror (some x) peer 0).endDesc n i .ok 0 0
      else
        let s := (s.setMirror (some x) peer 1).mapDesc n i fun d => { d with aux := 1 }
        (s.request { newReq 3 0x29 peer agentFabric x groupsAddr (.desc n i 0) with rlen := 8192 }).awaiting n i 1)

/-- A piece of the source's groups is here: the next one is asked for, or the groups are copied under their handles. -/
def State.shadowGroups (s : State) (n : RingId) (i : Index) (d : Desc) : State :=
  let x := s.ringCtx n
  let bs := d.joined 0 posHeader
  let total := leAt bs 0 8
  if bs.length < total then
    (s.request { newReq 3 0x29 s.mirrorPeer agentFabric x (groupsAddr + bs.length) (.desc n i bs.length) with rlen := 8192 }).awaiting n i 1
  else
    let gs := groupsOf x 256 ((bs.take total).drop 8)
    if gs.any (fun (g : Group) => (s.group g.handle).isSome) then (s.setMirror none 0 2).endDesc n i .format 0 0
    else if s.freeUnits < (gs.map (fun (g : Group) => g.rxbuf + g.sbuf)).foldl (· + ·) 0 then (s.setMirror none 0 2).endDesc n i .bound 0 0
    else
      let s := gs.foldl (fun (s : State) g => ({ s with groups := s.groups ++ [g] }).setGroup g) s
      s.countGroups.endDesc n i .ok 0 0

/-! ### SNAP_SALVAGE_QUERY (R372) -/

/-- SNAP_SALVAGE_QUERY: one request for each context. -/
def execSnapSalvageQuery (n : RingId) (i : Index) (s : State) : Result :=
  .next (match s.work n i 0x54 .started with
    | none => s
    | some d =>
      let c : Coord := BitVec.ofNat 12 (bits (d.word 3) 11 0)
      if bits (d.word 3) 63 12 ≠ 0 || (d.words.drop 5).any (· ≠ 0) then s.endDesc n i .format 0 0
      else match s.locate true (d.word 4).toNat 8192 with
        | .bad st => s.endDesc n i st 0 0
        | .there _ _ => s.endDesc n i .format 0 0
        | .here _ =>
          if !s.present c then s.endDesc n i .bound 0 0
          else (List.range 64).foldl (fun (s : State) x => s.salvageAsk n i c x 0 0 0 (128 * x)) (s.mapDesc n i fun d => { d with aux := 1 }))

/-- All answers of a salvage query are here. -/
def State.queryEnd (s : State) (n : RingId) (i : Index) (d : Desc) : State :=
  match s.locate true (d.word 4).toNat 8192 with
  | .here o =>
    match s.writeFor (s.me (s.ringAuth n)) false o (padTo 8192 (d.joined 0 8192)) true with
    | (.err st, s) => s.endDesc n i st 0 0
    | (_, s) => s.endDesc n i .ok 0 0
  | _ => s

/-! ### Going on as answers come -/

/-- What a SNAP descriptor does next, once none of its requests is out; `fuel` bounds the granules of a local source. A capture pauses from
stage 1 on (R407). -/
def State.snapGo (s : State) (n : RingId) (i : Index) : Nat → State
  | 0 => s
  | fuel + 1 =>
    match s.desc n i with
    | none => s
    | some d =>
      if d.phase ≠ .working || d.left ≠ 0 || (d.typ = 0x50 && 1 ≤ s.stage) then s
      else
        let ph := d.aux.toNat % 16
        if d.typ = 0x50 then
          if ph = 1 then (s.captureCopy n i d).snapGo n i fuel
          else if ph = 2 then s.captureTable n i d
          else if ph = 3 then s.captureCommit n i d
          else s.captureEnd n i d
        else if d.typ = 0x51 then
          if ph = 1 then (s.restoreChoose n i d).snapGo n i fuel
          else if ph = 2 then (s.askGranule n i d 0).snapGo n i fuel
          else
            let j := d.aux.toNat / 16
            let s := s.restoreGranule n i d j
            match s.desc n i with
            | none => s
            | some d =>
              if d.phase ≠ .working then s
              else if j + 1 < (keepGranules d.keep).length then (s.askGranule n i d (j + 1)).snapGo n i fuel
              else s.restoreEnd n i d
        else if d.typ = 0x52 then (if ph = 1 then s.digestNext n i d else s.digestCompare n i d (leAt (d.part posHeader) 0 8))
        else if d.typ = 0x53 then s.shadowGroups n i d
        else s.queryEnd n i d

def snapFuel : Nat := 150000

/-- Captures that pause go on where they stopped (R407). -/
def State.resumeCaptures (s : State) : State :=
  (s.descs.filter (fun (d : Desc) => d.typ = 0x50 && d.phase = .working)).foldl (fun (s : State) d => s.snapGo d.ring d.idx snapFuel) s

/-- SNAP_RESTORE. -/
def execSnapRestore (n : RingId) (i : Index) (s : State) : Result :=
  .next (match s.work n i 0x51 .started with
    | none => s
    | some d =>
      if bits (d.word 3) 63 35 ≠ 0 || 4 < d.source || bits (d.word 5) 63 12 ≠ 0 || d.word 6 ≠ 0 || d.word 7 ≠ 0 then s.endDesc n i .format 0 0
      else match s.readPlan n (d.word 4) true with
        | (.error st, s) => s.endDesc n i st 0 0
        | (.ok (p, l), s) =>
          if d.source = 1 && s.hamperFenced then s.endDesc n i .fenced 0 0
          else if (d.source = 2 || d.source = 4) && !s.present d.from_ then s.endDesc n i .bound 0 0
          else
            let s := if d.source = 3 then s.openConn (planTarget p) else s
            let s := ((s.notePart n i atPlan p).notePart n i atList l).mapDesc n i fun d =>
              { d with phase := .working, aux := if d.source = 4 then 2 else 1 }
            match s.desc n i with
            | none => s
            | some d => (if d.source = 4 then s else s.askHeaders n i d).snapGo n i snapFuel)

/-- Data for a SNAP descriptor. -/
def State.snapData (s : State) (n : RingId) (i : Index) (pos : Nat) (bs : List Byte) : State :=
  match s.desc n i with
  | none => s
  | some d => if d.phase ≠ .working then s else ((s.oneLess n i).notePart n i pos bs).snapGo n i snapFuel

/-- A write of a SNAP descriptor is acknowledged. -/
def State.snapAck (s : State) (n : RingId) (i : Index) : State :=
  match s.desc n i with
  | none => s
  | some d => if d.phase ≠ .working then s else (s.oneLess n i).snapGo n i snapFuel

/-- A request of a SNAP descriptor failed: it completes with that status. -/
def State.snapFail (s : State) (n : RingId) (i : Index) (st : Status) : State :=
  match s.desc n i with
  | none => s
  | some d =>
    if d.phase ≠ .working then s
    else (if d.typ = 0x53 then s.setMirror none 0 2 else s).endDesc n i st 0 0

/-! ### Cascades (R360, R361) -/

/-- The generation of a complete image, none when it is not. -/
def SnapCtx.genOf (c : SnapCtx) (m : Nat) : Option Nat :=
  let h := Maps.get [] c.hdrs m
  if h = [] then none else some (headerOf h).gen

/-- Of two images, the one with the newest complete generation. -/
def SnapCtx.newest (c : SnapCtx) (a b : Nat) : Option (Nat × Nat) :=
  match c.genOf a, c.genOf b with
  | some g, some h => if h ≤ g then some (a, g) else some (b, h)
  | some g, none => some (a, g)
  | none, some h => some (b, h)
  | none, none => none

/-- Of two images, the one with the older generation; an empty one counts as the oldest. -/
def SnapCtx.oldest (c : SnapCtx) (a b : Nat) : Nat :=
  match c.genOf a, c.genOf b with
  | none, _ => a
  | some _, none => b
  | some g, some h => if g ≤ h then a else b

/-- A newer generation stands above: the image to copy, and the one to write. -/
def SnapCtx.cascade (c : SnapCtx) (up down : Nat) : Option (Nat × Nat) :=
  match c.newest up (up + 1) with
  | none => none
  | some (m, g) =>
    let due : Bool := match c.newest down (down + 1) with
      | some y => decide (y.2 < g)
      | none => true
    match due with
    | true => some (m, c.oldest down (down + 1))
    | false => none

/-- Begin a cascade: the image is opened with STATE 1. -/
def State.cascadeOpen (s : State) (x : Ctx) (src dst : Nat) : Cascade × State :=
  let c := s.snapCtx x
  let h := Maps.get [] c.hdrs src
  let same := (headerOf (Maps.get [] c.hdrs dst)).plan = (headerOf h).plan && c.fresh.contains dst
  let todo := s.lacking x dst (!same) c.list
  let s := s.imageWrite c.plan dst 0 ({ headerOf h with state := 1 } : SnapHeader).bytes
  let s := s.mapSnap x fun c => { c with hdrs := Maps.erase c.hdrs dst, fresh := Maps.del c.fresh dst, since := Maps.set c.since dst [] }
  (⟨src, dst, h, todo, 0, none⟩, s)

/-- LAYER2_CASCADE: the granules that the Hamper image lacks, and granule 0's table, are read back from the keeper. -/
def execLayer2Cascade (x : Ctx) (s : State) : Result :=
  let c := s.snapCtx x
  .next (
    if s.fld SNAP_CFG SNAP_CFG_ENABLE = 0 || s.hamperFenced || s.hamperHeld || c.layer2.isSome then s
    else match c.cascade 0 2 with
      | none => s
      | some (src, dst) =>
        if (c.layer3.map (·.src)) = some dst then s
        else
          let (k, s) := s.cascadeOpen x src dst
          let a := keeperAt c.plan src
          let ask := fun (s : State) (off len : Nat) => (cuts 8192 off len).foldl (fun (s : State) p =>
            s.request { newReq 3 0x29 (planKeeper c.plan) 146 x (a + p.1) (.snap x p.1) with rlen := p.2.1 }) s
          let g := (keepGranules c.list).length
          let s := ask s 4096 (8 * g)
          let s := k.todo.foldl (fun (s : State) j => ask s (granuleSize * (j + 1)) granuleSize) s
          s.mapSnap x fun c => { c with layer2 := some { k with left := cutCount 8192 4096 (8 * g) + 256 * k.todo.length } })

/-- Bytes of a layer-2 cascade have come from the keeper. -/
def State.cascadeData (s : State) (x : Ctx) (off : Nat) (bs : List Byte) : State :=
  match (s.snapCtx x).layer2 with
  | none => s
  | some k =>
    (s.imageWrite (s.snapCtx x).plan k.dst off bs).mapSnap x fun c => { c with layer2 := some { k with left := k.left - 1 } }

/-- A read of a layer-2 cascade failed. -/
def State.cascadeFail (s : State) (x : Ctx) (st : Status) : State :=
  s.mapSnap x fun c => { c with layer2 := c.layer2.map (fun k => { k with left := k.left - 1, fail := k.fail <|> some st }) }

/-- SHARED_PERIOD_S has passed since the last layer-3 cascade of the context started (R361). -/
def State.sharedDue (s : State) (x : Ctx) : Bool :=
  (s.snapCtx x).third.all fun t => s.fld SNAP_CFG SNAP_CFG_SHARED_PERIOD_S ≤ s.secondsSince t

/-- LAYER3_CASCADE. -/
def execLayer3Cascade (x : Ctx) (s : State) : Result :=
  let c := s.snapCtx x
  .next (
    if s.fld SNAP_CFG SNAP_CFG_ENABLE = 0 || s.hamperFenced || s.hamperHeld || c.layer3.isSome || c.plan = [] || planTarget c.plan = 0xFF || !s.sharedDue x then s
    else match c.cascade 2 4 with
      | none => s
      | some (src, dst) =>
        let (k, s) := s.cascadeOpen x src dst
        (s.openConn (planTarget c.plan)).mapSnap x fun c => { c with layer3 := some k, third := some s.devTime })

/-- A cascade's image is complete: its header gets STATE 2, its pending bitmap clears. -/
def State.cascadeEnd (s : State) (x : Ctx) (k : Cascade) : State :=
  let s := s.imageWrite (s.snapCtx x).plan k.dst 0 k.header
  let s := s.clearPending x k.dst
  s.mapSnap x fun c => { c with hdrs := Maps.put [] c.hdrs k.dst k.header, fresh := Maps.add c.fresh k.dst }

/-- Copy what a layer-3 cascade copies, from Hamper to the shared store. -/
def State.cascadeCopy (s : State) (x : Ctx) (k : Cascade) : State :=
  let c := s.snapCtx x
  let mv := fun (s : State) (off len : Nat) => s.imageWrite c.plan k.dst off (s.imageRead c.plan k.src off len)
  k.todo.foldl (fun (s : State) j => mv s (granuleSize * (j + 1)) granuleSize) (mv s 4096 (8 * (keepGranules c.list).length))

/-- CASCADE_DONE: the cascade of a layer ends; its image completes, or stays in STATE 1. -/
def execCascadeDone (x : Ctx) (layer : Fin 4) (ok : Bool) (s : State) : Result :=
  let c := s.snapCtx x
  .next (
    if s.hamperHeld then s
    else if layer = 2 then
      match c.layer2 with
      | none => s
      | some k =>
        if ok && k.fail.isNone then
          if k.left ≠ 0 then s
          else
            ((s.cascadeEnd x k).mapSnap x fun c => { c with layer2 := none }).setFld (SNAP_CTX_GEN x) SNAP_CTX_GEN_GEN_L2 (headerOf k.header).gen
        else s.mapSnap x fun c => { c with layer2 := none }
    else if layer = 3 then
      match c.layer3 with
      | none => s
      | some k =>
        if ok then ((s.cascadeCopy x k).cascadeEnd x k).mapSnap x fun c => { c with layer3 := none }
        else s.mapSnap x fun c => { c with layer3 := none }
    else s)

/-! ### Salvage (R372) -/

/-- SALVAGE_ENTER: a faulted device that has finished its dump lights engines 0 to 3 again. -/
def execSalvageEnter (s : State) : Result :=
  .next (
    if s.fld ERR_STATUS ERR_STATUS_FAULTED = 0 || s.failsafe || s.fld ERR_DUMP_STATE ERR_DUMP_STATE_BUSY = 1 || s.dumpQ ≠ []
        || s.fld SNAP_CFG SNAP_CFG_SALVAGE_EN = 0 || s.hamperFenced || s.snap.salvage then s
    else
      let s := { s.setFld ERR_STATUS ERR_STATUS_SALVAGE 1 with snap := { s.snap with salvage := true } }
      (List.finRange 4).foldl (fun (s : State) m => s.lightModule (m.castLE (by decide))) s)

/-- What a salvage request asks for: both headers, or bytes of an image. -/
def State.salvageRead (s : State) (pl : List Byte) : List Byte :=
  let x : Ctx := ⟨leAt pl 0 1 % 64, Nat.mod_lt _ (by decide)⟩
  let p := (s.snapCtx x).plan
  let len := leAt pl 4 4
  if p = [] then List.replicate (if len = 0 then 128 else len) 0
  else if len = 0 then s.imageRead p 2 0 64 ++ s.imageRead p 3 0 64
  else s.imageRead p (2 + leAt pl 1 1) (leAt pl 8 8) len

/-- SALVAGE. Outside salvage state the device does not serve it: `FENCED`. -/
def execSalvage (p : Packet) (s : State) : Result :=
  let bad := p.payload.length ≠ 16 || p.addr ≠ 0 || 63 < leAt p.payload 0 1 || 1 < leAt p.payload 1 1 || leAt p.payload 2 2 ≠ 0
    || 8192 < leAt p.payload 4 4
  let run := fun (s : State) =>
    if bad then (⟨.format, [], s⟩ : Answer)
    else if !s.snap.salvage then ⟨.fenced, [], s⟩
    else if p.agent ≠ agentRanger || blockOf p.src ≠ blockOf s.self then ⟨.perm, [], s⟩
    else if s.hamperFenced then ⟨.fenced, [], s⟩
    else ⟨.ok, s.salvageRead p.payload, s⟩
  .next (s.serve p 4 0x35 run (fun st s => if st = .ok then run s else ⟨st, [], s⟩))

end Sys2Proof.Machine
end

