-- ==== Sys2Proof/Machine/Replies.lean ====
section
/-! DEFINITION. Requests at their source: injection, replies, retransmission, failure for good (R274 to R276, R281, R282, R285, R290 to
R293, R384). -/
namespace Sys2Proof.Machine

open Reg

/-! ### Injection (R274, R275) -/

/-- A write of a mirrored context's agent: a shadow sends none (R373). -/
def State.suppresses (s : State) (r : Req) : Bool :=
  s.isShadow (.ctx r.ctx) && r.agent ≠ 146 && r.agent ≠ agentRanger && r.owner ≠ .nobody && r.dst ≠ s.self
    && ((r.cls = 0 && (r.op = 0x01 || (0x02 ≤ r.op && r.op ≤ 0x0B) || r.op = 0x0D)) || (r.cls = 3 && (r.op = 0x28 || r.op = 0x2A)))

/-! ### Whose the answer is -/

/-- Where a load named its line. -/
def State.namedCoord (s : State) (addr : Word) : Coord :=
  match s.decode addr with
  | .there c _ => c
  | _ => s.self

/-- The line and the bytes of a far read are here (R76). -/
def State.farData (s : State) (k : CoreId) (rd : BitVec 5) (addr : Word) (size : Nat) (sext install : Bool) (bs : List Byte) : State :=
  let o := addr.toNat % 2 ^ 48
  let s := if install then s.mapCore k fun c => c.fillLine ⟨s.namedCoord addr, lineBase o, bs⟩ else s
  s.mapCore k fun c => c.setG rd (loadValue ((bs.drop (o - lineBase o)).take size) sext)

/-- One read of a MOVE instruction is answered (R100). -/
def State.broadRead (s : State) (k : CoreId) (id pos : Nat) (st : Status) (bs : List Byte) : State :=
  let s := s.mapBroad k id fun b =>
    let b := { b with left := b.left - 1 }
    if st = .ok then { b with buf := bs.zipIdx.foldl (fun m e => Maps.set m (pos + e.2) e.1) b.buf }
    else match b.failPos with
      | some p => if pos < p then { b with failPos := some pos, status := st } else b
      | none => { b with failPos := some pos, status := st }
  match s.broad k id with
  | some b => if b.left = 0 && b.phase = .started then (s.moveDone k id).runDue k else s
  | none => s

/-- A record that waited for its ring's consumer word goes into the ring or is dropped (R222). -/
def State.evtWordHere (s : State) (e : Nat) (w : Option (BitVec 32)) : State :=
  match s.evtWait.find? (fun x => x.1 = e) with
  | none => s
  | some x =>
    let s := { s with evtWait := s.evtWait.erase x }
    match w with
    | none => s.dropRecord e
    | some c =>
      let s := { s with evtCons := Maps.put 0 s.evtCons e c }
      if s.evtFull e c then s.dropRecord e else s.putRecord e x.2

/-- A loaded piece of a topology table. -/
def State.topoData (s : State) (pos : Nat) (st : Status) (bs : List Byte) : State :=
  if st = .ok then
    { s with fab := { s.fab with loading := bs.zipIdx.foldl (fun m e => Maps.set m (pos + e.2) e.1) s.fab.loading } }
  else { s with fab := { s.fab with loadFail := s.fab.loadFail <|> some st } }

/-- The answer of a descriptor's request. A stopped descriptor only waits for its writes (R217, R386). -/
def State.descAnswer (s : State) (r : Req) (d : Desc) (pos : Nat) (st : Status) (bs : List Byte) : State :=
  let n := d.ring
  let i := d.idx
  let reads := r.op = 0x00 || r.op = 0x29
  if d.phase = .stopping then s.mapDesc n i fun d => d.stopAnswer (if st = .ok then none else some pos)
  else if 0x50 ≤ d.typ then
    if st ≠ .ok then s.snapFail n i st
    else if bs ≠ [] then s.snapData n i pos bs
    else s.snapAck n i
  else if st ≠ .ok then s.descFail n i pos r.addr (if reads then 0 else if r.cmp then r.rlen else r.payload.length) st
  else if reads then s.descData n i pos bs
  else s.descAck n i

/-- A request of a republish is answered (R303, R304). -/
def State.republishAnswer (s : State) (n : RingId) (i : Index) (pos : Nat) (st : Status) : State :=
  if (s.desc n i).any (fun d => d.phase = .stopping) then
    s.mapDesc n i fun d => d.stopAnswer (if st = .ok then none else some pos)
  else
  let s := if st = .ok then s else s.failPiece n i pos st
  (s.oneLess n i).republishStep n i

/-- Give an answer to whom it belongs. -/
def State.answer (s : State) (r : Req) (st : Status) (bs : List Byte) (t4 : Word) : State :=
  match r.owner with
  | .nobody => s
  | .drain => s
  | .hole => s
  | .load k rd addr _ sext t =>
    if st = .ok then s.mapCore k fun c => c.setG rd (loadValue bs sext)
    else (s.mapCore k fun c => c.setG rd 0).imprecise k ⟨0x06, st, t, addr⟩
  | .far k rd addr size sext t install =>
    if st = .ok then s.farData k rd addr size sext install bs
    else (s.mapCore k fun c => c.setG rd 0).imprecise k ⟨0x06, st, t, addr⟩
  | .store k addr t => if st = .ok then s else s.imprecise k ⟨0x07, st, t, addr⟩
  | .atomic k rd pd addr t wide =>
    if (s.core k).run = .running && (s.core k).pc = t then s.atomicDone k rd pd wide addr st bs else s
  | .broadRead k id pos => s.broadRead k id pos st bs
  | .broadWrite k _ addr =>
    if st = .ok then s else s.mapCore k fun c => { c with bwFail := c.bwFail ++ [BwFail.mk r.dst st addr] }
  | .desc n i pos =>
    match s.desc n i with
    | none => s
    | some d => s.descAnswer r d pos st bs
  | .fetch n i =>
    if s.fetches.any (fun f => f.ring = n && f.idx = i && f.reading) then
      if st = .ok then s.slotRead n i (wordsOf bs) else s.fetchFailed n i st
    else s
  | .cpl n rec_ =>
    match s.ringHead n with
    | none => s
    | some d =>
      if d.phase = .posting && s.cplRecord d = rec_ then (if st = .ok then s.cplDone n else s.cplFailed n st) else s
  | .evt e => if st = .ok then s else s.dropRecord e
  | .evtWord e => s.evtWordHere e (if st = .ok then some (BitVec.ofNat 32 (leAt bs 0 4)) else none)
  | .topo => s.topoData r.operand.toNat st bs
  | .time t1 => if st = .ok then s.timeReply t1 t4 bs else s
  | .deskData n i m => s.republishAnswer n i m st
  | .notice n i => s.republishAnswer n i 0 st
  | .snap x pos => if st = .ok then s.cascadeData x pos bs else s.cascadeFail x st
  | .exr n i => s.exrAck n i st

/-- A marker that a pair sends past its held requests. -/
def Owner.isMark : Owner → Bool
  | .hole => true
  | .drain => true
  | _ => false

/-- PACKET_INJECT: the oldest waiting request of a pair. An absent coordinate fails it at once, a broken pair too; a pair that has sent
nothing since the reset sends its hole drain first (R274, R275, R293, R384). A hole drain goes out in the current epoch, a DRAIN in the one
it closes (R278). -/
def State.injectNext (s : State) (cls : Nat) (d : Coord) : State :=
  match s.fab.waiting.find? (fun r => r.cls = cls && r.dst = d) with
  | none => s
  | some r =>
    let out := { s with fab := { s.fab with waiting := s.fab.waiting.erase r } }
    let p := s.pair cls d
    if !s.present d then out.answer r .bound [] 0
    else if s.suppresses r then out.answer r (if r.cls = 0 && 0x02 ≤ r.op && r.op ≤ 0x0B then .perm else .ok) [] 0
    else if r.owner.isMark then (if s.mayInject r then out.sendMark (if r.owner = .hole then { r with epoch := s.activeEpoch } else r) else s)
    else if p.broken then out.answer r .retryExhausted [] 0
    else if p.hold || p.hole then s
    else if !p.seeded then (s.setPair cls d { p with seeded := true, next := 0xFFFF }).sendHole cls d r.ctx []
    else if s.mayInject r then out.sendReq r s.activeEpoch
    else s

/-- PACKET_INJECT. -/
def execPacketInject (cls : Fin 5) (d : Coord) (s : State) : Result := .next (s.injectNext cls d)

/-! ### Retransmission and failure for good (R282, R290, R293) -/

/-- The range that a lost request may have written (R290, R291). -/
def Req.lost (r : Req) : Option Lost :=
  let l := fun o n => if n = 0 then none else some (Lost.mk (o % 2 ^ 48) r.ctx (r.agent = agentRanger) n)
  if r.cls = 0 && r.op = 0x01 then l r.addr r.payload.length
  else if r.cls = 3 && r.op = 0x28 then l r.addr (if r.cmp then r.rlen else r.payload.length)
  else if r.cls = 3 && r.op = 0x2A then l r.addr 8
  else if r.cls = 0 && 0x02 ≤ r.op && r.op ≤ 0x0B then l r.addr (atomicWidth r.op)
  else if r.cls = 0 && r.op = 0x0D && leAt r.payload 0 1 = 0 then l r.addr (r.payload.length - 32)
  else none

/-- Requests of the pair of `r` that were sent after it. -/
def State.laterThan (s : State) (r : Req) : List Req :=
  (s.fab.outst.filter (fun q => q.cls = r.cls && q.dst = r.dst)).filter (fun q => q.tag ≠ r.tag && (q.tag - r.tag).toNat < 32768)

/-- Take requests out of the outstanding ones: their window and reservation are free. -/
def State.dropOutst (s : State) (rs : List Req) : State := { s with fab := { s.fab with outst := s.fab.outst.filter (fun q => !rs.contains q) } }

/-- Detail of STORE_HOLE and PAIR_BROKEN: destination and class. -/
def holeDetail (code : Nat) (r : Req) : BitVec 48 := Config.detail code [r.dst.toNat, r.cls]

/-- A request has failed for good with a status (R290): every later one of the pair fails with `POISON`, the pair is held, its hole
drain goes out, and STORE_HOLE is posted to the contexts that owned one. A hole drain that fails for good breaks its pair (R293). -/
def State.failForGood (s : State) (r : Req) (st : Status) : State :=
  let p := s.pair r.cls r.dst
  if r.owner = .hole then
    let s := (s.dropOutst [r]).setPair r.cls r.dst { p with broken := true, drain := some r }
    if p.drain.isSome then s else (s.bump FAB_HOLE_STATE FAB_HOLE_STATE_BROKEN).post (event 0x0302 (holeDetail 0x0302 r) none)
  else
    let later := s.laterThan r
    let s := (s.dropOutst (r :: later)).setPair r.cls r.dst { p with hold := false }
    let s := s.sendHole r.cls r.dst r.ctx (((r :: later).filterMap Req.lost).take 64)
    let s := s.answer r st [] 0
    let s := later.foldl (fun (s : State) q => s.answer q .poison [] 0) s
    let xs := (((r :: later).filter (fun q => q.agent ≠ agentRanger && q.owner ≠ .drain && q.owner ≠ .nobody)).map (·.ctx)).eraseDups
    xs.foldl (fun (s : State) x => s.post { event 0x0201 (holeDetail 0x0201 r) (some x) with status := st }) s

/-- A request is sent again in the current epoch, with RETRY, and every later one of its pair behind it; after E2E_RETRIES it fails
for good (R282). -/
def State.retryReq (s : State) (r : Req) (last : Option Status) : State :=
  let st := last <|> r.last
  if s.fld ROUTE_CFG ROUTE_CFG_E2E_RETRIES ≤ r.retries then s.failForGood r (st.getD .timeout)
  else
    let again := r :: s.laterThan r
    let new := fun (q : Req) => { q with retries := q.retries + 1, epoch := s.activeEpoch, last := if q = r then st else q.last }
    let s := { s with fab := { s.fab with outst := s.fab.outst.map (fun q => if again.contains q then new q else q) } }
    again.foldl (fun (s : State) q => s.inject (s.packetFor (new q))) s

/-- REQ_TIMEOUT: the oldest request of a pair has had no RSP for REQ_TIMEOUT_US. -/
def execReqTimeout (cls : Fin 5) (d : Coord) (s : State) : Result :=
  .next (match s.fab.outst.find? (fun r => r.cls = cls.val && r.dst = d) with
    | none => s
    | some r => s.retryReq r none)

/-! ### Replies (R276, R281) -/

/-- The source acts on a reply's QD (R276). The reply that is acted on is one of the replies since the last halving. -/
def State.throttle (s : State) (d : Coord) (q : Nat) : State :=
  if s.fld ROUTE_WIN_CFG ROUTE_WIN_CFG_THROTTLE = 0 then s
  else
    let w := s.window d
    let w := { w with since := w.since + 1 }
    let w : Window :=
      if q = 0 then
        if w.good + 1 = w.w then { w with w := min s.maxReq (w.w + 1), good := 0 } else { w with good := w.good + 1 }
      else if q = 2 then { w with w := max 1 (w.w - 1), good := 0 }
      else if q = 3 && w.w ≤ w.since then ⟨max 1 (w.w / 2), 0, 0⟩
      else w
    { s with fab := { s.fab with windows := Maps.set s.fab.windows d.toNat w } }

/-- What a reply does to the pair when it answers a marker of the fabric unit (R278, R290, R293). -/
def State.pairAnswered (s : State) (r : Req) (st : Status) : State :=
  let p := s.pair r.cls r.dst
  match r.owner with
  | .drain => s.setPair r.cls r.dst { p with hold := false }
  | .hole => if st = .ok then s.setPair r.cls r.dst { p with hole := false, broken := false, drain := none } else s
  | _ => s

/-- The bytes of a reply; none when a compressed one does not decode (R266). -/
def replyBytes (p : Packet) : Option (List Byte) := if p.cmp then fabricDecode p.payload p.gmask p.rlen else some p.payload

/-- An RSP at its source, by its operation. An RSP that answers a COL packet names only the device that dropped it; one whose payload does
not decode is dropped without an answer. -/
def State.takeReply (s : State) (p : Packet) (op : Nat) (t4 : Word) : State :=
  if p.cls ≠ 1 || p.op ≠ op then s
  else match s.takeArrived p with
    | none => s
    | some s =>
      if p.rclass = 2 then s.colRefused p.src p.status
      else match s.fab.outst.find? (fun r => r.cls = p.rclass && r.dst = p.src && r.tag = p.tag), replyBytes p with
        | none, _ => s
        | some _, none => s.bump ROUTE_DISCARDS ROUTE_DISCARDS_PCRC_FAIL
        | some r, some bs =>
          let s := s.throttle r.dst p.qd
          if p.status = .retryExhausted || p.status = .epoch then s.retryReq r (some p.status)
          else ((s.dropOutst [r]).pairAnswered r p.status).answer r p.status bs t4

/-- RDATA. -/
def execRdata (p : Packet) (t4 : Word) (s : State) : Result := .next (s.takeReply p 0x10 t4)

/-- RSP_ACK. -/
def execRspAck (p : Packet) (s : State) : Result := .next (s.takeReply p 0x11 0)

end Sys2Proof.Machine
end

