-- ==== Sys2Proof/Machine/Dump.lean ====
section
/-! DEFINITION. Crash dumps and the shadow reader (R383, R390 to R392). -/
namespace Sys2Proof.Machine

open Reg

/-! ### Sections (R392) -/

/-- The window offsets of every instance of a register with these dimensions. -/
def instancesOf : Nat → List (Nat × Nat) → List Nat
  | o, [] => [o]
  | o, (stride, count) :: ds => (List.range count).flatMap (fun i => instancesOf (o + i * stride) ds)

/-- The registers that lie in a range of the window, in offset order. -/
def blockOffsets (lo hi : Nat) : List Nat :=
  ((regNames.filter (fun r => lo ≤ r.base && r.base < hi)).flatMap (fun r => instancesOf r.base r.dims)).foldl Maps.add []

/-- Registers as 8-byte values. -/
def State.regBytes (s : State) (offs : List Nat) : List Byte := offs.flatMap (fun o => leBytes 8 (s.setupWord o).toNat)

/-- Records of 32 bytes: what each item holds is given, its layout is open (log entry 25). -/
def records (kind : Nat) (items : List (List Nat)) : List Byte := items.flatMap (fun l => leBytes 32 (Config.dumpRecord kind l).toNat)

/-- Numbers of the system registers (R91). -/
def sysNumbers : List Nat :=
  [0x000, 0x001, 0x002, 0x003, 0x004, 0x005, 0x010, 0x011, 0x020, 0x021, 0x022, 0x023, 0x024, 0x025, 0x026, 0x030, 0x031, 0x040]

/-- CORE: its registers, its broad queue, its Headcount records. -/
def State.sectionCore (s : State) (k : CoreId) : List Byte :=
  let c := s.core k
  s.regBytes ([CLUSTER_CORE_ID (k / 32) (k % 32), CLUSTER_CORE_GEOM (k / 32) (k % 32), CLUSTER_CORE_STATE (k / 32) (k % 32),
      CLUSTER_CORE_LASTTRAP (k / 32) (k % 32), CLUSTER_CORE_LASTADDR (k / 32) (k % 32)])
    ++ sysNumbers.flatMap (fun n => leBytes 8 (match s.sysReg k n with
        | some r => r.1.toNat
        | none => 0))
    ++ (List.range 31).flatMap (fun i => leBytes 8 (c.greg (BitVec.ofNat 5 (i + 1))).toNat)
    ++ (List.range 7).flatMap (fun i => leBytes 8 (b2n (c.preg (BitVec.ofNat 3 (i + 1)))))
    ++ records 0x01 ((List.range 8).map fun i => match c.queue[i]? with
        | some b => [b.id, b.addr.toNat, b.ga.toNat, b.gb.toNat, b.gc.toNat, b.gd.toNat]
        | none => [])
    ++ records 0x101 ((List.range 32).map fun i => match (s.headDests k)[i]? with
        | some d => [d.toNat, s.headcount k d false, s.headcount k d true]
        | none => [])

/-- CORE_TILES: T0 to T15, then A0 to A3. -/
def State.sectionTiles (s : State) (k : CoreId) : List Byte :=
  let c := s.core k
  (List.range 524288).map (fun i => Maps.get 0 c.tiles i) ++ (List.range 65536).flatMap (fun i => leBytes 4 (Maps.get 0 c.acc i).toNat)

/-- Descriptors in execution whose rings satisfy `f`. -/
def State.running (s : State) (f : RingId → Bool) : List Desc :=
  s.descs.filter (fun (d : Desc) => (d.phase = .started || d.phase = .working) && f d.ring)

def Desc.item (d : Desc) : List Nat := d.ring.val :: d.idx.toNat :: d.left :: d.words.map (·.toNat)

/-- CLUSTER: sequencer and slot registers, the barriers, the DMA engines' descriptors. -/
def State.sectionCluster (s : State) (c : ClusterId) : List Byte :=
  s.regBytes (blockOffsets 0x120000 0x140000 |>.filter (fun o => 0x120000 + 0x40000 * c.val ≤ o && o < 0x140000 + 0x40000 * c.val))
    ++ records 0x03 ((List.range 32).map fun i => match s.barriers.find? (fun (b : Barrier) => b.cluster = c && b.num = i) with
        | some b => [b.count, b.arrived.length]
        | none => [])
    ++ records 0x103 ((s.running (fun n => s.dmaRing c.val n)).map Desc.item)

/-- RING: registers of each enabled ring; the slot bytes of each descriptor started and not completed. -/
def State.sectionRing (s : State) : List Byte :=
  ((List.finRange 1024).filter (fun (n : RingId) => s.fld (RING_CFG n) RING_CFG_ENABLE = 1)).flatMap (fun (n : RingId) =>
      s.regBytes [RING_BASE n.val, RING_CPL n.val, RING_CFG n.val, RING_STATE n.val, RING_FLAGS n.val])
    ++ s.descs.flatMap (fun (d : Desc) => (List.range 8).flatMap (fun i => leBytes 8 (d.word i).toNat))

/-- FABRIC: ROUTE and FAB registers; what each pair holds. -/
def State.sectionFabric (s : State) : List Byte :=
  let pairs := (s.fab.pairs.map (·.1) ++ s.fab.expected.map (·.1)).eraseDups
  s.regBytes (blockOffsets 0x50000 0x60000 ++ blockOffsets 0x400000 0x500000)
    ++ records 0x05 (pairs.map fun q =>
        [q, (Maps.get Pair.reset s.fab.pairs q).next.toNat, ((s.fab.expected.find? (fun e => e.1 = q)).map (fun e => e.2.toNat)).getD 0,
         s.windowSize (BitVec.ofNat 12 q), b2n (Maps.get Pair.reset s.fab.pairs q).hole])
    ++ records 0x105 (s.fab.outst.map fun r => [r.cls, r.dst.toNat, r.op, r.tag.toNat, r.addr])

/-- COLL: its registers; the current collective of each group. -/
def State.sectionColl (s : State) : List Byte :=
  s.regBytes (blockOffsets 0x600000 0x700000)
    ++ records 0x06 (s.groups.filterMap fun (g : Group) => g.cur.map fun c =>
        g.handle :: c.seq.toNat :: (c.ins.map (fun f => f.granted) ++ c.outs.map (fun f => f.granted)
          ++ c.peers.map (fun p => p.stage) ++ c.peers.map (fun p => ((p.digest.map (·.toNat)).getD 0))))

/-- ENGINE: descriptors in execution of the MSG, SNAP and FRONT engines. -/
def State.sectionEngine (s : State) : List Byte :=
  records 0x09 ((s.running (fun n => s.fld (RING_CFG n) RING_CFG_CLASS = 2 || s.fld (RING_CFG n) RING_CFG_CLASS = 4
    || s.fld (RING_CFG n) RING_CFG_CLASS = 5)).map Desc.item)

/-- EVENTS: the records of the last 256 events, oldest first. -/
def State.sectionEvents (s : State) : List Byte := (s.events.take 256).reverse.flatMap (fun e => e.record 0 0)

/-- A section's bytes, by KIND and UNIT. -/
def State.sectionBytes (s : State) (kind unit : Nat) : List Byte :=
  match kind with
  | 0x01 => s.sectionCore ⟨unit % 128, Nat.mod_lt _ (by decide)⟩
  | 0x02 => s.sectionTiles ⟨unit % 128, Nat.mod_lt _ (by decide)⟩
  | 0x03 => s.sectionCluster ⟨unit % 4, Nat.mod_lt _ (by decide)⟩
  | 0x04 => s.sectionRing
  | 0x05 => s.sectionFabric
  | 0x06 => s.sectionColl
  | 0x07 => s.regBytes (blockOffsets 0x200000 0x300000)
  | 0x08 => s.regBytes (blockOffsets 0x300000 0x400000)
  | 0x09 => s.sectionEngine
  | _ => s.sectionEvents

/-- The unit that a section reads. -/
def DumpUnit.of (kind unit : Nat) : DumpUnit :=
  if kind ≤ 2 then .core ⟨unit % 128, Nat.mod_lt _ (by decide)⟩
  else if kind = 3 then .cluster ⟨unit % 4, Nat.mod_lt _ (by decide)⟩
  else .other ⟨kind % 32, Nat.mod_lt _ (by decide)⟩

/-- Sections of a domain, as (KIND, UNIT). -/
def domainSections (tiles : Bool) (kind index : Nat) : List (Nat × Nat) :=
  let cores := if kind = 0 then [index] else if kind = 1 then (List.range 32).map (32 * index + ·) else List.range 128
  let clusters := if kind = 0 then [] else if kind = 1 then [index] else List.range 4
  cores.map (fun k => (0x01, k)) ++ (if tiles then cores.map (fun k => (0x02, k)) else []) ++ clusters.map (fun c => (0x03, c))
    ++ (if kind = 2 then [(0x04, 0), (0x05, 0), (0x06, 0), (0x07, 0), (0x08, 0), (0x09, 0), (0x0A, 0)] else [])

/-! ### The shadow reader (R390) -/

def State.shadow (s : State) (kind unit : Nat) : Option Shadow := s.shadows.find? (fun (h : Shadow) => h.kind = kind && h.unit = unit)

/-- One section for the shadow store: a copy, or the previous one of a unit that does not answer. -/
def State.shadowOf (s : State) (deaf : List DumpUnit) (e : Nat × Nat) : Option Shadow :=
  if deaf.contains (DumpUnit.of e.1 e.2) then s.shadow e.1 e.2
  else some ⟨e.1, e.2, s.sectionBytes e.1 e.2, s.devTime⟩

/-- SHADOW_READ: every unit that answers is copied. -/
def execShadowRead (deaf : List DumpUnit) (s : State) : Result :=
  .next { s with shadows := (domainSections false 2 0).filterMap (s.shadowOf deaf) }

/-! ### The dump (R391, R392) -/

/-- A section as it goes into a dump: its FLAGS, its bytes, its age in µs. -/
structure Section where
  kind : Nat
  unit : Nat
  flags : Nat
  bytes : List Byte
  age : Nat
  deriving DecidableEq, Repr

/-- A section out of the shadow store. -/
def State.fromShadow (s : State) (kind unit flags : Nat) : Section :=
  match s.shadow kind unit with
  | some h => ⟨kind, unit, flags + 2, h.bytes, (s.devTime - h.time).toNat / 1000⟩
  | none => ⟨kind, unit, flags, [], 0⟩

/-- Directory entries, the first section at `o`. -/
def directory : Nat → List Section → List Byte
  | _, [] => []
  | o, x :: xs =>
    leBytes 2 x.kind ++ leBytes 2 x.unit ++ leBytes 1 x.flags ++ [0, 0, 0] ++ leBytes 8 o ++ leBytes 4 x.bytes.length ++ [0, 0, 0, 0]
      ++ leBytes 8 x.age ++ directory (o + x.bytes.length) xs

/-- The bytes of a dump. -/
def State.dumpBytes (s : State) (r : DumpReq) (seq unreach : Nat) (xs : List Section) : List Byte :=
  let body := directory (64 + 32 * xs.length) xs ++ xs.flatMap (·.bytes)
  leBytes 4 0x44554D50 ++ leBytes 2 1 ++ leBytes 2 xs.length ++ leBytes 4 seq ++ leBytes 2 s.self.toNat ++ leBytes 2 r.cause
    ++ leBytes 8 s.devTime.toNat ++ leBytes 1 r.kind ++ leBytes 1 r.index ++ leBytes 2 unreach ++ [0, 0, 0, 0]
    ++ leBytes 8 (64 + body.length) ++ leBytes 8 (crc64 body).toNat ++ List.replicate 16 0 ++ body

/-- Write a dump into LPDDR6, 4 KiB at a time; false when a write fails. -/
def State.dumpStore (s : State) (o : Nat) (bs : List Byte) : Bool × State :=
  (cuts 4096 o bs.length).foldl (fun (r : Bool × State) c =>
    if !r.1 then r
    else match r.2.writeFor (r.2.me .ranger) false c.1 ((bs.drop c.2.2).take c.2.1) true with
      | (.ok _, s) => (true, s)
      | (_, s) => (false, s)) (true, s)

/-- First byte of Hamper dump slot `i`: the last 2 GiB of the image region (log entry 25). -/
def hamperSlot (i : Nat) : Nat := 16000000000000 - 0x80000000 + i * 0x8000000

/-- DUMP: the first dump that waits is made, unless one is in progress. -/
def execDump (deaf : List DumpUnit) (s : State) : Result :=
  .next (match s.dumpQ with
    | [] => s
    | r :: _ =>
      if s.fld ERR_DUMP_STATE ERR_DUMP_STATE_BUSY = 1 || s.failsafe || s.hamperHeld then s
      else
        let s := s.wrapInc ERR_DUMP_STATE ERR_DUMP_STATE_DUMPS
        let n := s.fld ERR_DUMP_STATE ERR_DUMP_STATE_DUMPS
        let tiles := s.fld ERR_DUMP_CFG ERR_DUMP_CFG_TILES = 1
        let all := domainSections tiles r.kind r.index
        let lost := (all.map (fun e => DumpUnit.of e.1 e.2)).eraseDups.filter (fun u => deaf.contains u)
        let xs := all.map fun e =>
          if deaf.contains (DumpUnit.of e.1 e.2) then s.fromShadow e.1 e.2 1
          else (⟨e.1, e.2, 0, s.sectionBytes e.1 e.2, 0⟩ : Section)
        let bs := s.dumpBytes r n lost.length xs
        let w := s.dumpStore (s.fld ERR_DUMP_BASE ERR_DUMP_BASE_BASE * 0x200000 + n % 2 * 0x8000000) bs
        let short := (domainSections false r.kind r.index).map fun e =>
          s.fromShadow e.1 e.2 (4 + (if deaf.contains (DumpUnit.of e.1 e.2) then 1 else 0))
        let copies := (!w.1 || s.fld ERR_DUMP_CFG ERR_DUMP_CFG_HAMPER = 1) && !s.hamperFenced
        let out := if w.1 then bs else w.2.dumpBytes r n lost.length short
        let s := if copies then w.2.hamperWrite (hamperSlot (n % 16)) out else w.2
        let s := (s.setFld ERR_DUMP_STATE ERR_DUMP_STATE_BUSY 1).setFld ERR_DUMP_STATE ERR_DUMP_STATE_VALID 0
        let s := (s.setFld ERR_DUMP_STATE ERR_DUMP_STATE_UNREACHABLE lost.length).setFld ERR_DUMP_STATE ERR_DUMP_STATE_TRUNC (b2n (!w.1))
        if copies then s.setFld ERR_DUMP_STATE ERR_DUMP_STATE_SLOT (n % 16) else s)

/-- DUMP_DONE: the dump is complete, and the logic reset of its domain begins (R383). -/
def execDumpDone (s : State) : Result :=
  .next (match s.dumpQ with
    | [] => s
    | r :: rest =>
      if s.fld ERR_DUMP_STATE ERR_DUMP_STATE_BUSY = 0 then s
      else
        let s := (s.setFld ERR_DUMP_STATE ERR_DUMP_STATE_BUSY 0).setFld ERR_DUMP_STATE ERR_DUMP_STATE_VALID 1
        let s := { s with dumpQ := rest }
        match s.resets.findIdx? (fun q => q.phase = 2 && q.kind = r.kind && q.index = r.index) with
        | none => s
        | some i =>
          if r.kind = 2 then s.deviceReset 3 else { s with resets := s.resets.modify i fun q => { q with phase := 3 } }.syncPhase)

/-! ### Resets of the device and of an engine (R382, R383, R433) -/

/-- A reset of the whole device by request: after a dump where DUMP asks for one (R382, R391). -/
def State.requestDeviceReset (s : State) : State :=
  if s.dumpBit && !s.failsafe then
    if s.resets.any (fun r => r.kind = 2) then s
    else { s with resets := [Reset.mk 2 0 true 0 false 2 none none []] }.syncPhase.requestDump ⟨2, 0, 0⟩
  else s.deviceReset 3

/-- RESET_DEVICE: ERR_RESET_CTRL.GO with KIND 2. -/
def execResetDevice (src : Source) (s : State) : Result := .next (if s.mayUse src then s.requestDeviceReset else s)

/-- RESET_N_ASSERT: the outputs stop and the lasers go off as in fail-safe, with no cause recorded, and the device resets (R433). -/
def execResetNAssert (s : State) : Result :=
  .next (s.deviceReset 3)

/-- The reset of an optical engine: a forced quiesce; a failed engine loses its power at once. ENGINE_BRING_UP follows (R249, R250, R382). -/
def State.resetOptic (s : State) (e : EngineId) : State :=
  if s.fld (OPTIC_ENG_STATE e) OPTIC_ENG_STATE_STATE = 5 then s.setFld (OPTIC_ENG_STATE e) OPTIC_ENG_STATE_STATE 4
  else (s.setFld (OPTIC_ENG_CTRL e) OPTIC_ENG_CTRL_FORCE 1).quiesce e

/-- RESET_OPTIC: GO with KIND 3. -/
def execResetOptic (src : Source) (e : EngineId) (s : State) : Result := .next (if s.mayUse src then s.resetOptic e else s)

end Sys2Proof.Machine
end

