-- ==== Sys2Proof/Machine/Power.lean ====
section
/-! DEFINITION. Clock islands, throttle levels, Thermos, power capping and supply sag (R394 to R412). -/
namespace Sys2Proof.Machine

open Reg

/-! ### Dividers and PLLs (R396, R398, R399) -/

/-- DIVIDER_MOVE: the level has been 2 or more for 1 µs (R398). -/
def execDividerMove (j : IslandId) (s : State) : Result :=
  .next (if 132 ≤ j.val then s
    else s.mapIsland j fun x =>
      if x.lvl < 2 then x
      else
        let n := min (halfLevel x.lvl) (x.nLimit j)
        { x with n := n, covered := if n = halfLevel x.lvl then x.lvl else 0 })

/-- PLL_STEP: an island's PLL moves 25 MHz toward its target (R396). -/
def execPllStep (j : IslandId) (s : State) : Result :=
  .next (if 132 ≤ j.val then s
    else
      let t := s.pllTarget j
      (s.mapIsland j fun x => { x with pll := if x.pll < t then x.pll + 1 else if t < x.pll then x.pll - 1 else x.pll }).settle j)

/-! ### Thermos and the thresholds (R400 to R403) -/

/-- THERM_CFG as it acts (R412). -/
def State.shutdownAt (s : State) : Nat := min 110 (s.fld THERM_CFG THERM_CFG_SHUTDOWN)
def State.throttleSet (s : State) : Nat := min 100 (s.fld THERM_CFG THERM_CFG_THROTTLE_SET)
def State.throttleClr (s : State) : Nat :=
  let c := s.fld THERM_CFG THERM_CFG_THROTTLE_CLR
  if s.throttleSet ≤ c then s.throttleSet - 1 else c
def State.warnSet (s : State) : Nat := min 95 (s.fld THERM_CFG THERM_CFG_WARN_SET)
def State.warnClr (s : State) : Nat :=
  let c := s.fld THERM_CFG THERM_CFG_WARN_CLR
  if s.warnSet ≤ c then s.warnSet - 1 else c
def State.riseLimit (s : State) : Nat := clampTo 1 8 (s.fld THERM_CFG THERM_CFG_RISE_LIMIT)

/-- t_plate: TH0, or the fallback when it reads FAULT (R400). -/
def State.plate (s : State) : Rat :=
  if s.fld (THERM_TH 0) THERM_TH_FAULT = 1 then (s.fld THERM_CFG THERM_CFG_PLATE_FALLBACK : Rat)
  else (((BitVec.ofNat 16 (s.fld (THERM_TH 0) THERM_TH_TEMP)).toInt : Int) : Rat) / 16

/-- 1/16 °C in 16 bits of two's complement, rounded down. -/
def sixteenths (t : Rat) : Nat := ((t * 16).floor % 65536).toNat

def State.warned (s : State) (j : Nat) : Bool := s.fld (THERM_ISL j) THERM_ISL_WARN = 1
def State.throttled (s : State) (j : Nat) : Bool := s.fld (THERM_ISL j) THERM_ISL_THROTTLE = 1

/-- The estimate of one island after 10 µs at `mw` milliwatts (R400). -/
def State.estimate (s : State) (j mw : Nat) : State :=
  let x := s.island j
  let tau := Config.islandTau j
  let p : Rat := (mw : Rat) / 1000
  let ss := s.plate + Config.islandR j * p + x.off
  let t := x.tHat + (ss - x.tHat) * ((1 : Rat) / 100 / tau)
  let rise := (ss - t) / tau
  let s := s.setIsland j { x with tHat := t, rise := rise, p := p }
  (s.setFld (THERM_ISL j) THERM_ISL_T_EST (sixteenths t)).setFld (THERM_ISL j) THERM_ISL_RISE (sixteenths rise)

/-- Warning and Throttle of one island by its estimate (R402). -/
def State.thresholds (s : State) (j : Nat) : State :=
  let t := (s.island j).tHat
  let w := if (s.warnSet : Rat) ≤ t then true else if t ≤ (s.warnClr : Rat) then false else s.warned j
  let s := s.setFld (THERM_ISL j) THERM_ISL_WARN (b2n w)
  let was := s.throttled j
  let hot := decide ((s.throttleSet : Rat) ≤ t)
  let on := if hot then true else if t ≤ (s.throttleClr : Rat) then false else was
  let s := s.setFld (THERM_ISL j) THERM_ISL_THROTTLE (b2n on)
  let s := if j < 132 && hot then s.mapIsland j fun x => { x with thresh := if was then min 15 (x.thresh + 2) else 8 } else s
  if on && !was then s.post (event 0x010D (BitVec.ofNat 48 j) none)
  else if was && !on then s.clearActive (fun e => e.code = 0x010D && e.detail = BitVec.ofNat 48 j)
  else s

/-- The predicted rise of core `j` at level `lv` is within the limit (R403). -/
def State.riseOk (s : State) (j lv : Nat) : Bool :=
  let x := s.island j
  let st := Config.islandStatic j x.tHat
  let dyn := (x.p - st) * ((16 + x.pauses : Nat) : Rat) / 16 * ((8 + x.n : Nat) : Rat) / 8
  let ss := s.plate + Config.islandR j * (st + dyn * 16 / ((16 + lv : Nat) : Rat)) + x.off
  decide ((ss - x.tHat) / Config.islandTau j ≤ (s.riseLimit : Rat))

/-- The rate-of-rise demand of cluster `c` (R403). It is computed afresh while it stands, and when a predicted rise exceeds the limit. -/
def State.riseDemand (s : State) (c : Nat) : Nat :=
  let js := (List.range 32).map (32 * c + ·)
  if js.all (fun j => decide ((s.island j).rise ≤ (s.riseLimit : Rat)) && (s.island j).riseD = 0) then 0
  else ((List.range 16).find? (fun lv => js.all (fun j => s.riseOk j lv))).getD 15

/-- One cluster's rate-of-rise limiter. -/
def State.limitRise (s : State) (c : Nat) : State :=
  let d := s.riseDemand c
  (List.range 32).foldl (fun (s : State) i => s.mapIsland (32 * c + i) fun x => { x with riseD := d }) s

/-- THERMOS_UPDATE: `p` holds the power of each island in mW. -/
def execThermosUpdate (p : List Nat) (s : State) : Result :=
  let s := (List.range 148).foldl (fun (s : State) j => (s.estimate j (p.getD j 0)).thresholds j) s
  let s := (List.range 4).foldl (fun (s : State) c => s.limitRise c) s
  let s := s.settleAll
  .next (if (List.range 148).any (fun j => decide ((s.shutdownAt : Rat) ≤ (s.island j).tHat)) then s.failSafe .shutdown else s)

/-- DIODE_SAMPLE: `t` holds the diode reading of each island in 1/16 °C (R400, R402). -/
def execDiodeSample (t : List Int) (s : State) : Result :=
  let s := (List.range 148).foldl (fun (s : State) j =>
    match (t[j]? : Option Int) with
    | none => s
    | some (d : Int) =>
      (s.mapIsland j fun x => { x with off := x.off + ((d : Rat) / 16 - x.tHat) / 8 }).setFld (THERM_ISL j) THERM_ISL_T_DIODE
        (d % 65536).toNat) s
  .next (if t.any (fun d => decide ((16 * s.shutdownAt : Int) ≤ d)) then s.failSafe .shutdown else s)

/-- The level at which an LPDDR6 thermistor reading holds its packages; a level is left 3 °C below its threshold (R401). -/
def heldLevel (limit : Nat) (old : Nat) (t : Int) : Nat :=
  let th := fun (l : Nat) => (16 * (limit + 5 * (l - 1)) : Int)
  let up := if th 3 ≤ t then 3 else if th 2 ≤ t then 2 else if th 1 ≤ t then 1 else 0
  max up (([3, 2, 1].find? (fun l => l ≤ old && th l - 48 < t)).getD 0)

/-- THERMISTOR_READ: the four TH inputs in 1/16 °C, none for an open or shorted one (R401). -/
def execThermistorRead (r : List (Option Int)) (s : State) : Result :=
  let rd := fun (j : Nat) => (r.getD j none)
  let s := (List.range 4).foldl (fun (s : State) j =>
    match rd j with
    | some t => (s.setFld (THERM_TH j) THERM_TH_FAULT 0).setFld (THERM_TH j) THERM_TH_TEMP (t % 65536).toNat
    | none => (s.setFld (THERM_TH j) THERM_TH_FAULT 1).setFld (THERM_TH j) THERM_TH_TEMP 0) s
  let limit := min 95 (s.fld THERM_TH_CFG THERM_TH_CFG_LPDDR_LIMIT)
  let flash : Int := min 70 (s.fld THERM_TH_CFG THERM_TH_CFG_FLASH_LIMIT)
  let lv := fun (old : Nat) (o : Option Int) => match o with
    | some t => heldLevel limit old t
    | none => old
  let hold := match rd 3 with
    | some t => decide (16 * flash ≤ t) || (s.power.flash && decide (16 * (flash - 5) < t))
    | none => s.power.flash
  let s := { s with power := { s.power with west := lv s.power.west (rd 1), east := lv s.power.east (rd 2), flash := hold } }
  .next ((List.range 26).foldl (fun (s : State) p => s.setPkgLevel p) s)

/-- THROTTLE_DECAY: Throttle has cleared; the demand falls by 1. -/
def execThrottleDecay (j : IslandId) (s : State) : Result :=
  .next (if 132 ≤ j.val || s.throttled j then s else (s.mapIsland j fun x => { x with thresh := x.thresh - 1 }).settle j)

/-- WARNING_CEILING_TICK: the warning ceilings, and the cut while a fixed island is at Throttle (R402). A ceiling of 2.0 GHz is none. -/
def execWarningCeilingTick (s : State) : Result :=
  let act := s.fld POLICY_THERM_CFG POLICY_THERM_CFG_WARN_ACT = 1
  let s := (List.range 132).foldl (fun (s : State) j =>
    s.mapIsland j fun x => { x with ceiling := if !act then 80 else if s.warned j then max 16 (x.ceiling - 1) else min 80 (x.ceiling + 1) }) s
  let pct := min 50 (s.fld POLICY_THERM_CFG POLICY_THERM_CFG_EDGE_CUT_PCT)
  let cut := if (List.range 16).any (fun i => s.throttled (132 + i)) then min 100 (s.power.cut + pct) else 0
  .next { s with power := { s.power with cut := cut } }.settleAll

/-! ### Power capping (R404 to R406) -/

/-- CAP_W as it acts. -/
def State.capW (s : State) : Nat := clampTo 600 2000 (s.fld POLICY_PWR_CFG POLICY_PWR_CFG_CAP_W)

/-- POWER_SAMPLE: P_IN in W and BULK_SENSE in mV; the fast power limiter (R404, R405). -/
def execPowerSample (watts mv : Nat) (s : State) : Result :=
  let xs := (watts :: s.power.samples).take 100
  let fast := if s.capW + 50 < watts then min 15 (s.power.fast + 2) else if watts < s.capW then s.power.fast - 1 else s.power.fast
  let s := { s with power := { s.power with samples := xs, fast := fast } }
  let s := (s.setFld CLKPWR_POWER CLKPWR_POWER_P_IN_W watts).setFld CLKPWR_POWER CLKPWR_POWER_BULK_MV mv
  .next (s.setFld CLKPWR_POWER CLKPWR_POWER_P_1MS_W (xs.foldl (· + ·) 0 / xs.length)).settleAll

/-- POWER_POLICY: the cap from the mean of the last 100 µs, in exact tenths (R404). -/
def execPowerPolicy (s : State) : Result :=
  let xs := s.power.samples.take 10
  let n := max 1 xs.length
  let sum := xs.foldl (· + ·) 0
  let pin := s.fld POLICY_PWR_CFG POLICY_PWR_CFG_PIN_FREQ
  let hyst := s.fld POLICY_PWR_CFG POLICY_PWR_CFG_HYST_W
  let f := s.power.fPwr
  let f' :=
    if pin ≠ 0 then clampTo 16 80 pin
    else if n * s.capW < sum then max 16 (f - ceilDiv (sum - n * s.capW) (20 * n))
    else if sum + n * hyst < n * s.capW then min 80 (f + 1)
    else f
  .next { s with power := { s.power with fPwr := f' } }.settleAll

/-! ### Supply sag (R407 to R411) -/

/-- Threshold of a stage in mV. -/
def stageMv (stage : Nat) : Nat := 46000 - 2000 * stage

/-- Lines 4 to 7 of every fiber in service leave the maps. -/
def State.shedLines (s : State) : State :=
  (List.range 64).foldl (fun (s : State) F =>
    if s.fibState F ≠ 2 then s
    else
      let s := (List.range 4).foldl (fun (s : State) i => if s.inMap (chan F false (4 + i)) then s.setChState (chan F false (4 + i)) 3 else s) s
      let s := (s.setChMap F false (s.chMap F false)).announce F
      s.askMap F (s.chMap F true)) s

/-- Lines 4 to 7 return where they are locked. -/
def State.returnLines (s : State) : State :=
  (List.range 64).foldl (fun (s : State) F =>
    if s.fibState F ≠ 2 then s
    else
      let s := (List.range 4).foldl (fun (s : State) i =>
        let c := chan F false (4 + i)
        if s.txLit c && s.ready c then (s.setChMap F false (withBit (s.chMap F false) (4 + i) true)).backIn c else s) s
      let s := s.announce F
      s.askMap F ((List.range 4).foldl (fun m i => withBit m (4 + i) (s.ready (chan F true (4 + i)))) (s.chMap F true))) s

/-- A brown-out notice to each neighbour (R409). -/
def State.sendBrownout (s : State) (stage : Nat) : State :=
  s.flood 0x33 (padTo 32 (leBytes 2 s.self.toNat ++ leBytes 1 stage ++ [0] ++ leBytes 4 (s.fld CLKPWR_POWER CLKPWR_POWER_BULK_MV)))

/-- The stage in force becomes the measured one, or PIN_STAGE where that is higher (R407, R411): what enters and what leaves with it. -/
def State.setStage (s : State) : State :=
  let new := max s.power.measured (min 2 (s.fld POLICY_SHED_CFG POLICY_SHED_CFG_PIN_STAGE))
  let old := s.stage
  if new = old then s
  else
    let s := s.setFld CLKPWR_SHED CLKPWR_SHED_STAGE new
    let s := if old < new then s.bump CLKPWR_SHED CLKPWR_SHED_ENTRIES else s
    let s := s.clearActive (fun e => e.code = 0x010E)
    let s := s.post (event 0x010E (BitVec.ofNat 48 new) none)
    let s := if new = 0 then s.clearActive (fun e => e.code = 0x010E) else s
    let s := if old < 3 && 3 ≤ new then s.shedLines else if 3 ≤ old && new < 3 then s.returnLines else s
    let s := if old < 4 && 4 ≤ new then { s.sendBrownout 4 with selfRefresh := true } else s
    let s := if new = 0 then s.resumeCaptures else s
    s.settleAll

/-- SUPPLY_STAGE_ENTER: the comparators, armed, find bulk below the threshold of `stage`, or a rail below its limit. -/
def execSupplyStageEnter (stage : Fin 6) (mv : Nat) (rail : Bool) (s : State) : Result :=
  .next (if !s.boot.bulk then s
    else
      let s := s.setFld CLKPWR_POWER CLKPWR_POWER_BULK_MV mv
      if rail then s.failSafe .railLow
      else if stage.val = 0 || stageMv stage.val ≤ mv then s
      else if stage.val = 5 then s.failSafe .bulkLow
      else { s with power := { s.power with measured := max s.power.measured stage.val } }.setStage)

/-- SUPPLY_STAGE_LEAVE: bulk has stayed 1 V above the threshold of the highest stage for RECOVER_MS (R408). -/
def execSupplyStageLeave (mv : Nat) (s : State) : Result :=
  let m := s.power.measured
  .next (if m = 0 || mv ≤ stageMv m + 1000 then s
    else
      let s := s.setFld CLKPWR_POWER CLKPWR_POWER_BULK_MV mv
      { s with power := { s.power with measured := m - 1 } }.setStage)

/-- SELF_REFRESH_EXIT: on leaving stage 4, then the clearing notice goes out. -/
def execSelfRefreshExit (s : State) : Result :=
  .next (if !s.selfRefresh || 4 ≤ s.stage then s else { s with selfRefresh := false }.sendBrownout 0)

/-- The reserved bytes of a brown-out notice are zero, and its stage is 4 or 0; any other notice has no effect (R5, R409). -/
def brownoutOk (pl : List Byte) : Bool :=
  zeroOutside pl [(0, 3), (4, 4)] && leAt pl 0 2 < 4096 && (leAt pl 2 1 = 0 || leAt pl 2 1 = 4)

/-- BROWNOUT: the notice is latched; it is not forwarded. -/
def execBrownout (p : Packet) (s : State) : Result :=
  .next (match s.takeArrived p with
    | none => s
    | some s =>
      if p.op ≠ 0x33 || p.cls ≠ 4 || p.payload.length ≠ 32 || !p.pcrcOk || !brownoutOk p.payload then s
      else s.post (event 0x0009 (BitVec.ofNat 48 (leAt p.payload 0 2 % 4096)) none))

/-- DROOP_DIP (R410). -/
def execDroopDip (k : CoreId) (s : State) : Result := .next (s.mapIsland k fun x => { x with stretch := true })

/-- DROOP_RESTORE. -/
def execDroopRestore (k : CoreId) (s : State) : Result := .next (s.mapIsland k fun x => { x with stretch := false })

end Sys2Proof.Machine
end

