-- ==== Sys2Proof/Machine/Trust.lean ====
section
/-! DEFINITION. Firmware images, configuration copies, updates, presence and the seal (R413 to R415, R422 to R427, R435, R436). -/
namespace Sys2Proof.Machine

open Reg

/-! ### Images (R414) -/

def imgVersion (b : List Byte) : Nat := leAt b 4 4
def imgSvn (b : List Byte) : Nat := leAt b 8 2
def imgKeySlot (b : List Byte) : Nat := leAt b 10 1

/-- A DOWNGRADE record of the Trail log names the image (R414, R421). -/
def State.downgraded (s : State) (b : List Byte) : Bool :=
  s.trail.any fun r => recType r.bytes = 6 && leAt r.bytes 0x20 1 = 4 && leAt r.bytes 0x24 1 = 0 && (r.bytes.drop 0x30).take 48 = sha384 b

/-- The reserved bytes of an image's header are zero (R5, R414). -/
def imgReservedOk (b : List Byte) : Bool := ((b.drop 0x0B).take 5).all (· = 0) && ((b.drop 0x18).take 136).all (· = 0)

/-- The header and the signature of an image (R414): `FORMAT` for what is not an image, `PERM` for its signature or the floor. -/
def State.imageCheck (s : State) (b : List Byte) : Status :=
  if b.length < 256 || leAt b 0 4 ≠ 0x52464D57 || 256 + leAt b 0x10 4 ≠ b.length || 0x4000000 < b.length || 63 < imgSvn b || 3 < imgKeySlot b
      || !imgReservedOk b then
    .format
  else match s.fuses.keys.find? (fun k => k.1 = imgKeySlot b) with
    | none => .perm
    | some k =>
      if s.fuses.revoked.contains k.1 || !Config.verify k.2 b then .perm
      else if s.fuses.floor ≤ imgSvn b || s.downgraded b then .ok
      else .perm

/-- The slot that runs, and the other. -/
def State.runSlot (s : State) : Nat := s.fld BOOT_STATE BOOT_STATE_IMAGE
def State.idleSlot (s : State) : Nat := 1 - s.runSlot

/-- BOOT_IMG of a slot: STATE, and from the header VERSION and SVN (R428). -/
def State.setImg (s : State) (b st : Nat) : State :=
  let h := s.norBytes (slotBase b) 256
  let s := s.setFld (BOOT_IMG b) BOOT_IMG_VERSION (if st = 0 then 0 else imgVersion h)
  let s := s.setFld (BOOT_IMG b) BOOT_IMG_SVN (if st = 0 then 0 else imgSvn h)
  (s.setFld (BOOT_IMG b) BOOT_IMG_FLOOR s.fuses.floor).setFld (BOOT_IMG b) BOOT_IMG_STATE st

/-! ### Configuration copies (R415) -/

def configBase (k : Nat) : Nat := 0x8000000 + 0x10000 * k
def cfgGen (b : List Byte) : Nat := leAt b 4 4
def cfgCount (b : List Byte) : Nat := leAt b 8 4
def cfgTopo (b : List Byte) : Nat := leAt b 12 4
def cfgLen (b : List Byte) : Nat := 16 + 16 * cfgCount b + 1664 * cfgTopo b + 8

/-- Bytes 4 to 7 of every entry are zero, and so are bits 31 to 24 of its offset (R5, R415). -/
def cfgEntriesOk (b : List Byte) : Bool := (List.range (cfgCount b)).all fun i => leAt b (16 + 16 * i) 8 < 2 ^ 24

/-- MAGIC, COUNT, TOPO, the entries' reserved bytes and CRC of a copy. -/
def cfgOk (b : List Byte) : Bool :=
  leAt b 0 4 = 0x43464731 && cfgCount b ≤ 3840 && cfgTopo b ≤ 1 && cfgLen b ≤ b.length
    && cfgEntriesOk b && wordAt b (cfgLen b - 8) = crc64 (b.take (cfgLen b - 8))

/-- A copy as it stands in NOR. -/
def State.configCopy (s : State) (k : Nat) : List Byte := s.norBytes (configBase k) 0x10000

/-- The valid copies, newest first, without those in `skip`. -/
def State.configOrder (s : State) (skip : List Nat) : List Nat :=
  let ok := ([0, 1].filter (fun k => cfgOk (s.configCopy k) && !skip.contains k))
  match ok with
  | [a, b] => if cfgGen (s.configCopy a) < cfgGen (s.configCopy b) then [b, a] else [a, b]
  | l => l

/-- The copy that an update replaces: a bad one, copy 0 when both are, else the one with the smaller GEN (R423). -/
def State.configTarget (s : State) : Nat :=
  match s.configOrder [] with
  | [a] => 1 - a
  | [_, b] => b
  | _ => 0

/-! ### Updates (R423, R435) -/

def State.updPhase (s : State) : Nat := s.fld BOOT_UPD_STATE BOOT_UPD_STATE_PHASE
def State.setUpdPhase (s : State) (p : Nat) : State := s.setFld BOOT_UPD_STATE BOOT_UPD_STATE_PHASE p

/-- Append an UPDATE record (R421). -/
def State.recordUpdate (s : State) (kind target version : Nat) (st : Status) (data : List Byte) : State :=
  s.appendTrail 5 (leBytes 1 kind ++ leBytes 1 target ++ leBytes 1 st.code ++ [0] ++ leBytes 4 version ++ List.replicate 8 0
    ++ (if data = [] then List.replicate 48 0 else sha384 data))

/-- An update or a switch ends: STATUS, PHASE 0, and the answer where the management port sent it. -/
def State.endUpdate (s : State) (st : Status) (mgmt : Bool) : State :=
  let s := ({ s with boot := { s.boot with upd := none } }.setUpdPhase 0).setFld BOOT_UPD_STATE BOOT_UPD_STATE_STATUS st.code
  if mgmt then s.emit (.mgmt (leBytes 1 st.code)) else s

/-- The outcome of the check of an update: status, target, VERSION or GEN. -/
def State.updateCheck (s : State) (kind : Nat) (b : List Byte) : Status × Nat × Nat :=
  match kind with
  | 0 => (s.imageCheck b, s.idleSlot, imgVersion b)
  | 1 =>
    let newer := match s.configOrder [] with
      | k :: _ => cfgGen (s.configCopy k) < cfgGen b
      | [] => true
    (if cfgOk b && cfgLen b = b.length && b.length ≤ 0x10000 && newer then .ok else .format, s.configTarget, cfgGen b)
  | _ =>
    let ok := 8 ≤ b.length && b.length ≤ 0x20000 && wordAt b (b.length - 8) = crc64 (b.take (b.length - 8))
    (if ok then .ok else .format, 0, 0)

/-- An update that failed before anything was written. -/
def State.refuseUpdate (s : State) (kind target version : Nat) (st : Status) (mgmt : Bool) : State :=
  let s := if kind = 0 then s.setImg target 2 else s
  (s.recordUpdate kind target version st []).endUpdate st mgmt

/-- Check the data of an update, and begin to write them. -/
def State.beginUpdate (s : State) (kind : Nat) (b : List Byte) (mgmt : Bool) : State :=
  let (st, target, version) := s.updateCheck kind b
  if st = .ok then { s with boot := { s.boot with upd := some ⟨kind, target, version, b, mgmt⟩ } }.setUpdPhase 2
  else s.refuseUpdate kind target version st mgmt

/-- GO: the data are read from BOOT_UPD_SRC, an address on this device. -/
def State.updateGo (s : State) : State :=
  let kind := s.fld BOOT_UPD_CTRL BOOT_UPD_CTRL_KIND
  let len := s.fld BOOT_UPD_CTRL BOOT_UPD_CTRL_LENGTH
  let target := if kind = 0 then s.idleSlot else if kind = 1 then s.configTarget else 0
  if 2 < kind then s
  else if len = 0 then (s.recordUpdate kind target 0 .format []).endUpdate .format false
  else match s.locate false (s.reg BOOT_UPD_SRC).toNat len with
    | .bad st => (s.recordUpdate kind target 0 st []).endUpdate st false
    | .there _ _ => (s.recordUpdate kind target 0 .format []).endUpdate .format false
    | .here o =>
      match s.readFor (s.me .ranger) o len true with
      | (.ok bs, s) => s.beginUpdate kind bs false
      | (.err st, s) => (s.recordUpdate kind target 0 st []).endUpdate st false
      | (.wait, s) => s

/-- SWITCH: refused with `FENCED`, or the image is checked again and loaded (R424). -/
def State.switchGo (s : State) : State :=
  let pairs := popcount 4 (s.fld ERR_STATUS ERR_STATUS_PAIRS)
  let fenced := (s.setFld BOOT_UPD_STATE BOOT_UPD_STATE_STATUS Status.fenced.code)
  if s.fld (BOOT_IMG s.idleSlot) BOOT_IMG_STATE ≠ 1 || pairs < 2 || s.fld ERR_RESET_STATE ERR_RESET_STATE_PHASE ≠ 0 || 3 ≤ s.stage then fenced
  else
    let st := s.imageCheck (s.imageBytes s.idleSlot)
    if st = .ok then s.setUpdPhase 4
    else (s.setImg s.idleSlot 2).setFld BOOT_UPD_STATE BOOT_UPD_STATE_STATUS st.code

/-- A write of BOOT_UPD_CTRL: KIND and LENGTH; GO and SWITCH while PHASE is 0 (R423). -/
def State.writeUpdCtrl (s : State) (v mask : Word) : State :=
  let s := s.writeWord .BOOT_UPD_CTRL [] BOOT_UPD_CTRL (setBit (setBit v 63 false) 62 false) mask
  let s := if wrote v mask BOOT_UPD_CTRL_GO && s.updPhase = 0 then s.updateGo else s
  if wrote v mask BOOT_UPD_CTRL_SWITCH && s.updPhase = 0 then s.switchGo else s

/-- The word of BOOT_UPD_CTRL that starts an update. -/
def goWord (kind : Nat) (len : BitVec 32) : Word := BitVec.ofNat 64 (2 ^ 63 + kind * 2 ^ 32 + len.toNat)

/-- UPDATE_FIRMWARE: GO with KIND 0. -/
def execUpdateFirmware (src : Source) (len : BitVec 32) (s : State) : Result :=
  .next (if s.mayUse src then s.writeUpdCtrl (goWord 0 len) (-1) else s)

/-- UPDATE_CONFIG: GO with KIND 1. -/
def execUpdateConfig (src : Source) (len : BitVec 32) (s : State) : Result :=
  .next (if s.mayUse src then s.writeUpdCtrl (goWord 1 len) (-1) else s)

/-- UPDATE_CALIBRATION: GO with KIND 2. -/
def execUpdateCalibration (src : Source) (len : BitVec 32) (s : State) : Result :=
  .next (if s.mayUse src then s.writeUpdCtrl (goWord 2 len) (-1) else s)

/-- SWITCH. -/
def execSwitch (src : Source) (s : State) : Result :=
  .next (if s.mayUse src then s.writeUpdCtrl BOOT_UPD_CTRL_SWITCH.mask BOOT_UPD_CTRL_SWITCH.mask else s)

/-- First byte and room of an update's target. -/
def Update.base (u : Update) : Nat := if u.kind = 0 then slotBase u.target else if u.kind = 1 then configBase u.target else 0x8020000
def Update.room (u : Update) : Nat := if u.kind = 0 then 0x4000000 else if u.kind = 1 then 0x10000 else 0x20000

/-- UPDATE_DONE: the data are written and read back. A read-back that fails leaves the target as it was; a firmware slot reads STATE 2 and
holds no image (log entry 28). -/
def execUpdateDone (ok : Bool) (s : State) : Result :=
  .next (match s.boot.upd with
    | none => s
    | some u =>
      let s :=
        if ok then
          let s := (s.norErase u.base u.room).norWrite u.base u.data
          if u.kind = 0 then s.setImg u.target 1 else s
        else if u.kind = 0 then (s.norErase u.base u.room).setImg u.target 2
        else s
      let st : Status := if ok then .ok else .memUncorrectable
      (s.recordUpdate u.kind u.target u.version st (if ok then u.data else [])).endUpdate st u.mgmt)

/-- The preferred slot is kept by an UPDATE record of kind 0 that names no data (log entry 28). -/
def State.keepPref (s : State) (b : Nat) : State :=
  (s.setFld BOOT_CFG BOOT_CFG_PREF b).recordUpdate 0 b (s.fld (BOOT_IMG b) BOOT_IMG_VERSION) .ok []

/-- SWITCH_DONE: the new image leads in every pair. -/
def execSwitchDone (s : State) : Result :=
  .next (if s.updPhase ≠ 4 then s
    else
      let b := s.idleSlot
      ((s.setFld BOOT_STATE BOOT_STATE_IMAGE b).keepPref b).endUpdate .ok false)

/-- SWITCH_TIMEOUT: the old image leads on. -/
def execSwitchTimeout (s : State) : Result := .next (if s.updPhase ≠ 4 then s else (s.setImg s.idleSlot 3).endUpdate .timeout false)

/-- A write of BOOT_CFG. -/
def State.writeBootCfg (s : State) (v mask : Word) : State :=
  let old := s.fld BOOT_CFG BOOT_CFG_PREF
  let s := s.writeWord .BOOT_CFG [] BOOT_CFG v mask
  let s := if wrote v mask BOOT_CFG_RETRY_STEPS then s.setFld MEM_SPARE_CTRL MEM_SPARE_CTRL_RETRY_NEXT 1 else s
  let new := s.fld BOOT_CFG BOOT_CFG_PREF
  if new = old then s else s.keepPref new

/-! ### Presence (R425, R426) -/

/-- OWNER_KIND and coordinate of a source. -/
def State.sourceKind (_ : State) (src : Source) : Nat × Nat :=
  match src with
  | .mgmt => (1, 0)
  | .peer c => (2, c.toNat)
  | _ => (3, 0)

/-- The argument block is within its limits (R425). -/
def argOk (code : Nat) (a : List Byte) : Bool :=
  let z := fun n => (a.drop n).all (· = 0)
  a.length = 256 && (match code with
    | 1 => leAt a 0 1 ≤ 3 && z 49
    | 2 => leAt a 0 1 ≤ 3 && z 1
    | 3 => z 0
    | 4 => z 48
    | 5 => z 32
    | 6 => z 0
    | 7 => z 0
    | _ => false)

/-- A command ends: STATUS and a PRESENCE record. -/
def State.notePresence (s : State) (src : Source) (code : Nat) (a : List Byte) (st : Status) : State :=
  let k := s.sourceKind src
  let dig := if code = 4 then a.take 48 else sha384 a
  (s.setFld PRES_STATE PRES_STATE_STATUS st.code).appendTrail 6 (leBytes 1 code ++ leBytes 1 k.1 ++ leBytes 2 k.2 ++ leBytes 1 st.code
    ++ List.replicate 11 0 ++ dig)

def State.setFuses (s : State) (f : Fuses) : State := { s with fuses := f }

/-- What a command does (R425), FACTORY_RESET apart. -/
def State.presenceEffect (s : State) (code : Nat) (a : List Byte) : Status × State :=
  let slot := leAt a 0 1
  match code with
  | 1 =>
    if s.fuses.keys.any (fun k => k.1 = slot) then (.perm, s)
    else (.ok, s.setFuses { s.fuses with keys := s.fuses.keys ++ [(slot, (a.drop 1).take 48)] })
  | 2 =>
    if imgKeySlot (s.norBytes (slotBase s.runSlot) 256) = slot then (.perm, s)
    else (.ok, s.setFuses { s.fuses with revoked := if s.fuses.revoked.contains slot then s.fuses.revoked else s.fuses.revoked ++ [slot] })
  | 3 => (.ok, { s with boot := { s.boot with debug := true } })
  | 4 => (.ok, s)
  | 5 => (.ok, s.setFuses { s.fuses with owner := s.fuses.owner ||| BitVec.ofNat 256 (leNat (a.take 32)) })
  | _ => if s.boot.loopOpen then (.perm, s) else (.ok, (s.setFld PRES_STATE PRES_STATE_SEAL_OPEN 0).appendTrail 7 [2])

/-- Erase both configuration copies, the Trail log and all of Hamper, then reset the device (R425). -/
def State.factoryReset (s : State) : State :=
  let s := s.norErase 0x8000000 0x20000
  { s with trail := [], trailNext := 0, trailSeq := 0, hamper := [] }.deviceReset 3

/-- Run a command under presence. -/
def State.runPresence (s : State) (src : Source) (code : Nat) (a : List Byte) : State :=
  if code = 6 then s.factoryReset
  else
    let r := s.presenceEffect code a
    r.2.notePresence src code a r.1

/-- The source that holds the window. -/
def State.windowOwner (s : State) : Source :=
  match s.fld PRES_STATE PRES_STATE_OWNER_KIND with
  | 1 => .mgmt
  | 2 => .peer (BitVec.ofNat 12 (s.fld PRES_STATE PRES_STATE_OWNER))
  | _ => .ranger

/-- Close the window; a pending command is refused with `PERM`. -/
def State.closeWindow (s : State) : State :=
  let src := s.windowOwner
  let code := s.fld PRES_STATE PRES_STATE_PENDING
  let was := s.fld PRES_STATE PRES_STATE_WINDOW
  let a := s.boot.arg
  let s := ((s.setFld PRES_STATE PRES_STATE_WINDOW 0).setFld PRES_STATE PRES_STATE_OWNER_KIND 0).setFld PRES_STATE PRES_STATE_OWNER 0
  let s := { s with boot := { s.boot with arg := [] } }.setFld PRES_STATE PRES_STATE_PENDING 0
  if was = 1 then s.notePresence src code a .perm else s

/-- Commands that the jumper permits. -/
def byJumper (code : Nat) : Bool := code = 3 || code = 4

/-- A request (R426). SEAL_CLEAR alone may be asked for while SEAL_OPEN reads 1 (R427, log entry 29). -/
def State.askPresence (s : State) (src : Source) (code : Nat) (a : List Byte) : State :=
  let k := s.sourceKind src
  let mine := s.fld PRES_STATE PRES_STATE_OWNER_KIND = k.1 && s.fld PRES_STATE PRES_STATE_OWNER = k.2
  let win := s.fld PRES_STATE PRES_STATE_WINDOW
  let s := s.setFld PRES_STATE PRES_STATE_JUMPER (b2n s.boot.permit)
  if !argOk code a then s.notePresence src code a .format
  else if s.fld PRES_STATE PRES_STATE_SEAL_OPEN = 1 && code ≠ 7 then s.notePresence src code a .perm
  else if s.boot.permit && byJumper code then s.runPresence src code a
  else if win = 2 && mine then s.runPresence src code a
  else if win = 0 then
    let s := { s with boot := { s.boot with arg := a, winEnd := s.devTime + 60000000000 } }
    let s := ((s.setFld PRES_STATE PRES_STATE_WINDOW 1).setFld PRES_STATE PRES_STATE_OWNER_KIND k.1).setFld PRES_STATE PRES_STATE_OWNER k.2
    s.setFld PRES_STATE PRES_STATE_PENDING code
  else if win = 1 && mine then { s with boot := { s.boot with arg := a } }.setFld PRES_STATE PRES_STATE_PENDING code
  else s.notePresence src code a .perm

/-- A request by one of the presence commands, with PERMIT_N as sampled now. -/
def State.presenceRow (s : State) (src : Source) (permit : Bool) (code : Nat) (a : List Byte) : State :=
  if !s.mayUse src then s else { s with boot := { s.boot with permit := permit } }.askPresence src code a

/-- KEY_INSTALL. -/
def execKeyInstall (src : Source) (permit : Bool) (arg : List Byte) (s : State) : Result := .next (s.presenceRow src permit 1 arg)
/-- KEY_REVOKE. -/
def execKeyRevoke (src : Source) (permit : Bool) (arg : List Byte) (s : State) : Result := .next (s.presenceRow src permit 2 arg)
/-- DEBUG_UNLOCK. -/
def execDebugUnlock (src : Source) (permit : Bool) (arg : List Byte) (s : State) : Result := .next (s.presenceRow src permit 3 arg)
/-- DOWNGRADE. -/
def execDowngrade (src : Source) (permit : Bool) (arg : List Byte) (s : State) : Result := .next (s.presenceRow src permit 4 arg)
/-- FUSE_PROGRAM. -/
def execFuseProgram (src : Source) (permit : Bool) (arg : List Byte) (s : State) : Result := .next (s.presenceRow src permit 5 arg)
/-- FACTORY_RESET. -/
def execFactoryReset (src : Source) (permit : Bool) (arg : List Byte) (s : State) : Result := .next (s.presenceRow src permit 6 arg)
/-- SEAL_CLEAR. -/
def execSealClear (src : Source) (permit : Bool) (arg : List Byte) (s : State) : Result := .next (s.presenceRow src permit 7 arg)

/-- A write of PRES_REQ: CODE, and the argument block at ARG in LPDDR6. -/
def State.writePresReq (s : State) (src : Source) (v mask : Word) : State :=
  if mask.getLsbD 63 = false then s
  else
    let code := bits v 63 56
    let arg := bits (v &&& mask) 47 0
    if bits v 55 48 ≠ 0 then s.notePresence src code [] .format
    else if lpddrTop < arg + 256 then s.notePresence src code [] .bound
    else match s.readFor (s.me .ranger) arg 256 true with
      | (.ok bs, s) => s.askPresence src code bs
      | (.err st, s) => s.notePresence src code [] st
      | (.wait, s) => s

/-- PRESENCE_PRESS: a window that awaits a press opens for 300 s, and its pending command runs. -/
def execPresencePress (s : State) : Result :=
  .next (if s.fld PRES_STATE PRES_STATE_WINDOW ≠ 1 then s
    else
      let src := s.windowOwner
      let code := s.fld PRES_STATE PRES_STATE_PENDING
      let a := s.boot.arg
      let s := { s with boot := { s.boot with arg := [], winEnd := s.devTime + 300000000000 } }
      ((s.setFld PRES_STATE PRES_STATE_WINDOW 2).setFld PRES_STATE PRES_STATE_PENDING 0).runPresence src code a)

/-- PRESENCE_WINDOW_EXPIRE: no press within 60 s, or 300 s after it. -/
def execPresenceWindowExpire (s : State) : Result := .next (if s.fld PRES_STATE PRES_STATE_WINDOW = 0 then s else s.closeWindow)

/-- SEAL_SAMPLE: an open loop sets the latch, records it, and closes the window (R426, R427). -/
def execSealSample (isOpen : Bool) (s : State) : Result :=
  let s := { s with boot := { s.boot with loopOpen := isOpen } }
  .next (if isOpen && s.fld PRES_STATE PRES_STATE_SEAL_OPEN = 0 then
      let s := (s.setFld PRES_STATE PRES_STATE_SEAL_OPEN 1).appendTrail 7 [1]
      if s.fld PRES_STATE PRES_STATE_WINDOW = 0 then s else s.closeWindow
    else s)

/-! ### The management port's updates (R435) -/

/-- UPD_CHECK: the image is checked and its length and digest are kept. -/
def execUpdCheck (img : List Byte) (s : State) : Result :=
  let st := s.imageCheck img
  let s := if st = .ok then { s with boot := { s.boot with checked := some (img.length, sha384 img) } } else s
  .next (s.emit (.mgmt (leBytes 1 st.code)))

/-- UPD_CHECK_EXPIRE: 600 s have passed. -/
def execUpdCheckExpire (s : State) : Result := .next { s with boot := { s.boot with checked := none } }

/-- UPD_WRITE: kind 0 needs the digest of a check of equal length; kinds 1 and 2 are handled as R423 handles them. One that comes while
an update is in progress is refused (log entry 28). -/
def State.updWrite (s : State) (kind : Nat) (data : List Byte) : State :=
  let say := fun (s : State) (st : Status) => s.emit (.mgmt (leBytes 1 st.code))
  if s.updPhase ≠ 0 then say s .fenced
  else if 2 < kind || (s.boot.rom && kind ≠ 0) then say s .format
  else if kind ≠ 0 then
    if data = [] then (s.recordUpdate kind 0 0 .format []).endUpdate .format true else s.beginUpdate kind data true
  else match s.boot.checked with
    | none => say (s.recordUpdate 0 s.idleSlot 0 .format []) .format
    | some c =>
      if c.1 ≠ data.length then say (s.recordUpdate 0 s.idleSlot 0 .format []) .format
      else if c.2 ≠ sha384 data then s.refuseUpdate 0 s.idleSlot (imgVersion data) .perm true
      else { s with boot := { s.boot with upd := some ⟨0, s.idleSlot, imgVersion data, data, true⟩ } }.setUpdPhase 2

/-- UPD_WRITE. -/
def execUpdWrite (kind : Byte) (data : List Byte) (s : State) : Result := .next (s.updWrite kind.toNat data)

/-- MGMT_PRESENCE: a request with its argument block inline; ROM does not serve it (R419). -/
def execMgmtPresence (code : Byte) (permit : Bool) (arg : List Byte) (s : State) : Result :=
  .next (if s.boot.rom then s
    else
      let s := { s with boot := { s.boot with permit := permit } }.askPresence .mgmt code.toNat arg
      s.emit (.mgmt (leBytes 1 (s.fld PRES_STATE PRES_STATE_STATUS))))

/-- MGMT_TRAIL: the record at a position from the oldest. -/
def execMgmtTrail (pos : BitVec 32) (s : State) : Result :=
  .next (s.emit (.mgmt (match s.trail[pos.toNat]? with
    | some r => leBytes 1 Status.ok.code ++ padTo 256 r.bytes
    | none => leBytes 1 Status.bound.code ++ List.replicate 256 0)))

/-- MGMT_IRQ_N is driven low (R435). -/
def State.mgmtIrq (s : State) : Bool :=
  s.fld ERR_STATUS ERR_STATUS_FAULTED = 1 || s.fld PRES_STATE PRES_STATE_WINDOW = 1 || s.fld BOOT_STATE BOOT_STATE_RECOVERY = 1

end Sys2Proof.Machine
end

