-- ==== Sys2Proof/Machine/SetupAll.lean ====
section
/-! DEFINITION. Writes to the setup window as a whole: every register's own effect, and the ways in: the window, MGT packets, the management
port, a WRITE descriptor (R7, R8, R27, R205, R263, R435, R441 to R446). -/
namespace Sys2Proof.Machine

open Reg

/-- An index of a register, as a number below `n`. -/
def indexBelow (n : Nat) (h : 0 < n) (is : List Nat) : Fin n := ⟨is.headD 0 % n, Nat.mod_lt _ h⟩

/-- A written field's bits of a word, where the write reaches them. -/
def reaches (mask : Word) (f : Field) : Bool := (f.mask &&& mask) ≠ 0

/-- A write of ERR_RESET_CTRL: DUMP, KIND and INDEX are stored; GO requests the reset that they name. A kind or an index that does not
exist makes it ignored (R382, R383, R393). -/
def State.writeResetCtrl (s : State) (v mask : Word) : State :=
  let s := s.writeWord .ERR_RESET_CTRL [] ERR_RESET_CTRL (setBit v 40 false) mask
  if !wrote v mask ERR_RESET_CTRL_GO then s
  else
    let i := s.fld ERR_RESET_CTRL ERR_RESET_CTRL_INDEX
    match s.fld ERR_RESET_CTRL ERR_RESET_CTRL_KIND with
    | 0 => if i < 128 then s.requestReset 0 i s.dumpBit false 0 else s
    | 1 => if i < 4 then s.requestReset 1 i s.dumpBit false 0 else s
    | 2 => if i < 1 then s.requestDeviceReset else s
    | 3 => if h : i < 9 then s.resetOptic ⟨i, h⟩ else s
    | 4 => if h : i < 104 then s.channelFail ⟨i, h⟩ else s
    | _ => s

/-- A write of OPTIC_ENG_CTRL: FORCE is stored; CAL_NOW starts a pass; QUIESCE quiesces the engine or brings it up, its part code then
being what the socket holds (R249 to R251, log entry 30). -/
def State.writeEngCtrl (s : State) (e : EngineId) (v mask : Word) : State :=
  let s := if reaches mask OPTIC_ENG_CTRL_FORCE then s.setFld (OPTIC_ENG_CTRL e) OPTIC_ENG_CTRL_FORCE (bits v 2 2) else s
  let s := if !reaches mask OPTIC_ENG_CTRL_QUIESCE then s
    else if bits v 1 1 = 1 then s.quiesce e
    else
      let st := s.fld (OPTIC_ENG_STATE e) OPTIC_ENG_STATE_STATE
      if st = 0 || st = 4 || st = 6 then
        let (x, s) := s.free
        s.powerSocket e (BitVec.ofNat 16 x.toNat)
      else s.setFld (OPTIC_ENG_CTRL e) OPTIC_ENG_CTRL_QUIESCE 0
  if wrote v mask OPTIC_ENG_CTRL_CAL_NOW then s.calNow e else s

/-- A write of OPTIC_LSM_CTRL that changes ENABLE: a module that is enabled answers with an ID and powers of its own (log entry 30). -/
def State.writeLsmCtrl (s : State) (m : ModuleId) (v mask : Word) : State :=
  if !reaches mask OPTIC_LSM_CTRL_ENABLE || bits v 0 0 = s.fld (OPTIC_LSM_CTRL m) OPTIC_LSM_CTRL_ENABLE then s
  else
    let (x, s) := s.free
    s.lsmEnable m (bits v 0 0 = 1) (if x.getLsbD 0 then some 0x7405 else none) (BitVec.ofNat 8 (bits x 15 8))

/-- A write of ROUTE_TBL_CTRL: LOAD, then FLIP (R277, R278, R283). -/
def State.writeTblCtrl (s : State) (v mask : Word) : State :=
  let s := if wrote v mask ROUTE_TBL_CTRL_LOAD then s.tblLoad else s
  if wrote v mask ROUTE_TBL_CTRL_FLIP then s.flipTable else s

/-- The effect of a write through a mask on one register (R442): by the register's subject, else by the access types of its fields. -/
def State.writeReg (s : State) (src : Source) (r : RegName) (is : List Nat) (off : Nat) (v mask : Word) : State :=
  let i := is.headD 0
  match r with
  | .MEM_DIRTY_CTRL => s.writeDirtyCtrl v mask
  | .MEM_DIRTY_BASE => if s.fld SNAP_CFG SNAP_CFG_ENABLE = 1 then s else s.writeWord r is off v mask
  | .MEM_CH_LB => s.writeLoopback i v mask
  | .RING_CFG => s.writeRingCfg i v mask
  | .RING_FLAGS => s.writeRingFlags (indexBelow 1024 (by decide) is) v mask
  | .RING_EVT_CFG => s.writeEvtCfg i v mask
  | .OPTIC_ENG_CTRL => s.writeEngCtrl (indexBelow 9 (by decide) is) v mask
  | .OPTIC_LSM_CTRL => s.writeLsmCtrl (indexBelow 8 (by decide) is) v mask
  | .ROUTE_TBL_CTRL => s.writeTblCtrl v mask
  | .FAB_RT_CTRL => s.writeRtCtrl v mask
  | .FAB_REPL_CFG => s.writeRepl i v mask
  | .COLL_BUF_BASE => if s.groups ≠ [] && !s.locked then s else s.writeWord r is off v mask
  | .COLL_BUF_SIZE => if s.groups ≠ [] && !s.locked then s else (s.writeWord r is off v mask).countGroups
  | .FRONT_CTRL => s.writeFrontCtrl v mask
  | .FRONT_TIME_CFG => s.writeTimeCfg v mask
  | .FRONT_EXR_CFG => s.writeExrCfg v mask
  | .FRONT_EXR_TABLE => s.writeExrTable v mask
  | .SNAP_CFG => s.writeSnapCfg v mask
  | .POLICY_SNAP_CFG =>
    (List.finRange 64).foldl (fun (s : State) x => if (s.snapCtx x).last.isSome then s.showPolicy x else s) (s.writeWord r is off v mask)
  | .ERR_RESET_CTRL => s.writeResetCtrl v mask
  | .ERR_ABORT => s.writeErrAbort v mask
  | .ERR_CTX => s.writeErrCtx (indexBelow 64 (by decide) is) v mask
  | .CLKPWR_ISL_FREQ => (s.writeWord r is off v mask).settle i
  | .POLICY_PWR_CFG => (s.writeWord r is off v mask).settleAll
  | .POLICY_THERM_CFG => (s.writeWord r is off v mask).settleAll
  | .POLICY_SHED_CFG => (s.writeWord r is off v mask).setStage.settleAll
  | .BOOT_CFG => s.writeBootCfg v mask
  | .BOOT_UPD_CTRL => s.writeUpdCtrl v mask
  | .PRES_REQ => s.writePresReq src v mask
  | _ => s.writeWord r is off v mask

/-- A write of the window by an agent that may use it (R7, R8, R443). -/
def State.setupWrite (s : State) (src : Source) (size off : Nat) (v : Word) : State :=
  if badAccess size off then s.regAccessEvent off
  else match regAt (off / 8 * 8) with
    | none => s
    | some (r, is) => s.writeReg src r is (off / 8 * 8) (laneValue size off v) (laneMask size off)

/-- A write of the window by any agent: one that may not use it is refused, and a core traps (R441, R78). -/
def State.windowWrite (s : State) (src : Source) (size off : Nat) (v : Word) : State :=
  if s.mayUse src then s.setupWrite src size off v
  else match src with
    | .core k => if (s.core k).run = .running then s.preciseTrap k 0x05 .perm (BitVec.ofNat 64 (setupBase + off)) else s
    | _ => s.emit (.answer .perm 0)

/-- SETUP_WRITE (R7, R8, R441 to R443). -/
def execSetupWrite (src : Source) (size : Nat) (off : BitVec 24) (v : Word) (s : State) : Result :=
  .next (s.windowWrite src size off.toNat v)

/-- SETUP_LOCK: 1 written to IDENT_LOCK.SETUP_LOCK (R446). -/
def execSetupLock (src : Source) (s : State) : Result := .next (s.windowWrite src 8 IDENT_LOCK 1)

/-! ### The ways in -/

/-- WRITE (R205): its checks; then one 8-byte store here or in a device within reach. A SYSTEM ring may write a setup register of its own
device (R441). -/
def execWrite (n : RingId) (i : Index) (s : State) : Result :=
  .next (match s.work n i 0x03 .started with
    | none => s
    | some d =>
      if (d.word 3).toNat % 8 ≠ 0 || d.word 5 ≠ 0 || d.word 6 ≠ 0 || d.word 7 ≠ 0 then s.endDesc n i .format 0 0
      else match s.locate true (d.word 3).toNat 8 with
        | .bad st => s.endDesc n i st 0 0
        | .here o =>
          match placeOfRange o 8 with
          | .setup so =>
            if s.ringAuth n = .ranger then (s.setupWrite (.sys n) 8 so (d.word 4)).endDesc n i .ok 0 0 else s.endDesc n i .perm 0 0
          | _ =>
            match s.poke (s.me (s.ringAuth n)) false o (leBytes 8 (d.word 4).toNat) with
            | (.ok _, s) => s.endDesc n i .ok 0 0
            | (.err st, s) => s.endDesc n i st 0 0
            | (.wait, s) => s
        | .there c o =>
          match placeOfRange o 8 with
          | .setup _ => s.endDesc n i .perm 0 0
          | _ =>
            (s.requestStores c (s.ringAgent n) (s.ringCtx n) o (leBytes 8 (d.word 4).toNat) (fun p => .desc n i p)).awaiting n i 1)

/-- The setup offset of an MREAD or MWRITE breaks its row (R263). -/
def badSetupAddr (p : Packet) : Bool := p.addr % 8 ≠ 0 || 2 ^ 24 ≤ p.addr

/-- MREAD: a 64-bit read for a peer's Ranger (R27, R263). -/
def execMread (p : Packet) (s : State) : Result :=
  let read := fun (s : State) =>
    if p.plen ≠ 0 || p.rlen ≠ 8 || badSetupAddr p then (⟨.format, [], s⟩ : Answer)
    else if p.agent ≠ agentRanger then ⟨.perm, [], s⟩
    else let r := s.setupRead 8 p.addr; ⟨.ok, leBytes 8 r.1.toNat, r.2⟩
  .next (s.serve p 4 0x30 read (fun st s => if st = .ok then read s else ⟨st, [], s⟩))

/-- MWRITE: a 64-bit write for a peer's Ranger (R27, R263). -/
def execMwrite (p : Packet) (s : State) : Result :=
  let write := fun (s : State) =>
    if p.plen ≠ 8 || p.rlen ≠ 0 || badSetupAddr p then (⟨.format, [], s⟩ : Answer)
    else if p.agent ≠ agentRanger then ⟨.perm, [], s⟩
    else ⟨.ok, [], s.setupWrite (.peer p.src) 8 p.addr (wordAt p.payload 0)⟩
  .next (s.serve p 4 0x31 write sayAgain)

/-- MGMT_READ: status and value; an offset that is no multiple of 8 reads zero under R7 (R435, log entry 30). -/
def execMgmtRead (off : BitVec 24) (s : State) : Result :=
  let r := s.setupRead 8 off.toNat
  let st : Status := if badAccess 8 off.toNat then .format else .ok
  .next (r.2.emit (.mgmt (leBytes 1 st.code ++ leBytes 8 r.1.toNat)))

/-- MGMT_WRITE: a write of PRES_REQ from this port is refused (R435). -/
def execMgmtWrite (off : BitVec 24) (v : Word) (s : State) : Result :=
  let st : Status := if badAccess 8 off.toNat || off.toNat = PRES_REQ then .format else .ok
  let s := if off.toNat = PRES_REQ then s else s.setupWrite .mgmt 8 off.toNat v
  .next (s.emit (.mgmt (leBytes 1 st.code)))

end Sys2Proof.Machine
end

