-- ==== Sys2Proof/Machine/Boot.lean ====
section
/-! DEFINITION. The boot: its steps and records, recovery, the choice of image, and the adjacencies of the dies (R182 to R184, R413 to
R421, R431, R432, R449 to R451; log entry 31). -/
namespace Sys2Proof.Machine

open Reg

/-! ### What the Trail log says of earlier starts (R417 to R421) -/

def recStart (b : List Byte) : Nat := leAt b 0x10 4

/-- Byte `i` of a record's body. -/
def bodyAt (b : List Byte) (i : Nat) : Nat := leAt b (0x20 + i) 1

/-- The detail of a STEP record. -/
def stepDetail (b : List Byte) : Nat := leAt b 0x28 8

/-- Records of one type of one start, oldest first. -/
def State.recsOf (s : State) (typ start : Nat) : List (List Byte) :=
  (s.trail.map (·.bytes)).filter (fun b => recType b = typ && recStart b = start)

/-- STEP records of one step of one start. -/
def State.stepRecs (s : State) (start step : Nat) : List (List Byte) := (s.recsOf 2 start).filter (fun b => bodyAt b 0 = step)

/-- The number of the start in progress. -/
def State.start (s : State) : Nat := s.fld BOOT_STATE BOOT_STATE_START

/-- The previous start's outcome for a step is failed: its last record for the step is FAILED, or STARTED and nothing after. -/
def State.prevFailed (s : State) (step : Nat) : Bool :=
  s.start ≠ 0 && (match (s.stepRecs (s.start - 1) step).getLast? with
    | some b => bodyAt b 1 = 4 || bodyAt b 1 = 1
    | none => false)

/-- A slot failed step 3 or 4 in the previous start. -/
def State.prevSlotFailed (s : State) (b : Nat) : Bool :=
  s.start ≠ 0 && [3, 4].any fun step =>
    (s.stepRecs (s.start - 1) step).any (fun r => bodyAt r 1 = 4 && stepDetail r = b)
      || ((s.stepRecs (s.start - 1) step).getLast?.map (fun r => bodyAt r 1 = 1 && stepDetail r = b)).getD false

/-- Kind of unit that a step may leave out (R421). -/
def skipKind (step : Nat) : Nat :=
  match step with
  | 5 => 4
  | 7 => 2
  | 8 => 3
  | 10 => 6
  | 11 => 1
  | 13 => 5
  | _ => 0

/-- Units that a step takes its alternate action for: those that failed in the previous start; a retired core stays retired. -/
def State.altUnits (s : State) (step : Nat) : List Nat :=
  if s.boot.retry || s.start = 0 then []
  else
    let old := (s.recsOf 4 (s.start - 1)).filter (fun b => bodyAt b 0 = skipKind step && skipKind step ≠ 0)
    let old := if step = 7 then old else if s.prevFailed step then old.filter (fun b => bodyAt b 1 ≠ Status.fenced.code) else []
    let l := (old.map (fun b => leAt b 0x22 2)).eraseDups
    if step = 10 && s.prevFailed 10 then [0] else l

/-- Configuration copies that failed in the previous start. -/
def State.altCopies (s : State) : List Nat :=
  if s.boot.retry || !s.prevFailed 6 then []
  else match (s.stepRecs (s.start - 1) 6).getLast? with
    | some b => [0, 1].filter (fun k => bodyAt b 1 = 4 && stepDetail b / 2 ^ k % 2 = 1)
    | none => []

/-- START records, newest first. -/
def State.starts (s : State) : List (List Byte) := ((s.trail.map (·.bytes)).filter (fun b => recType b = 1)).reverse

/-- A start reached step 15. -/
def State.completed (s : State) (start : Nat) : Bool := (s.stepRecs start 15).any (fun b => bodyAt b 1 = 2)

/-- An accepted firmware update after a START record. -/
def State.updatedSince (s : State) (start : List Byte) : Bool :=
  s.trail.any fun r => recType r.bytes = 5 && bodyAt r.bytes 0 = 0 && bodyAt r.bytes 2 = 0 && leAt r.bytes 0x30 48 ≠ 0
    && leAt start 8 8 < leAt r.bytes 8 8

/-- This start is a recovery (R418). -/
def State.recovers (s : State) : Bool :=
  match s.starts with
  | [] => false
  | st :: rest =>
    let sticky := bodyAt st 10 = 1
    let three := 2 ≤ rest.length && ((st :: rest).take 3).all (fun b => !s.completed (recStart b))
    (sticky || three) && !s.boot.retry && !s.updatedSince st

/-- How many starts ago a slot last failed; none where it has no failed start. -/
def State.failedAgo (s : State) (b : Nat) : Option Nat :=
  s.starts.findIdx? fun st =>
    let n := recStart st
    let slot := match (s.stepRecs n 3).getLast? with
      | some r => stepDetail r
      | none => bodyAt st 9
    !s.completed n && slot = b

/-- The slots in the order in which step 3 tries them (R419). -/
def State.slotOrder (s : State) (recovery : Bool) : List Nat :=
  let pref := s.fld BOOT_CFG BOOT_CFG_PREF
  let first :=
    if recovery then
      match s.failedAgo 0, s.failedAgo 1 with
      | none, none => pref
      | none, some _ => 0
      | some _, none => 1
      | some a, some b => if b ≤ a then 0 else 1
    else if !s.boot.retry && s.prevSlotFailed pref then 1 - pref else pref
  [first, 1 - first]

/-! ### Records of this start -/

/-- Append a STEP record. -/
def State.stepRec (s : State) (step result action : Nat) (st : Status) (detail : Nat) : State :=
  s.appendTrail 2 (leBytes 1 step ++ leBytes 1 result ++ leBytes 1 action ++ leBytes 1 st.code ++ leBytes 4 0 ++ leBytes 8 detail)

/-- Append a UNITSKIP record: `FENCED` for a unit left out by an alternate action, `TIMEOUT` for one that failed (log entry 31). -/
def State.unitSkip (s : State) (kind index : Nat) (st : Status) : State :=
  s.appendTrail 4 (leBytes 1 kind ++ leBytes 1 st.code ++ leBytes 2 index)

def State.mapBoot (s : State) (f : Boot → Boot) : State := { s with boot := f s.boot }

/-- STEP shows the smallest step in progress. -/
def State.showStep (s : State) : State :=
  s.setFld BOOT_STATE BOOT_STATE_STEP (s.boot.running.foldl min 15 % 16)

def State.setAlt (s : State) (step : Nat) : State := s.setReg BOOT_STATE (setBit (s.reg BOOT_STATE) step true)

/-- A step takes its alternate action in this start. -/
def State.alternates (s : State) (step : Nat) : Bool :=
  match step with
  | 3 => !s.boot.retry && s.prevSlotFailed (s.fld BOOT_CFG BOOT_CFG_PREF)
  | 6 => s.altCopies ≠ []
  | _ => s.altUnits step ≠ []

/-- The detail of a step's records: the slot in steps 3, 4 and 15. -/
def State.detailOf (s : State) (step : Nat) : Nat :=
  if step = 3 then s.boot.slots.headD 0 else if step = 4 || step = 15 then s.runSlot else 0

/-- An engine that the boot leaves unpowered. -/
def State.engineOut (s : State) (e : Nat) : State := s.setFld (OPTIC_ENG_STATE e) OPTIC_ENG_STATE_STATE 5

/-- A step begins: its record is written before its work (R417). -/
def State.beginStep (s : State) (step : Nat) : State :=
  let s := s.stepRec step 1 (b2n (s.alternates step)) .ok (s.detailOf step)
  let s := if step = 11 then (s.altUnits 11).foldl (fun (s : State) e => s.engineOut e) s else s
  (s.mapBoot fun b => { b with running := b.running ++ [step] }).showStep

/-- A step is over: its record, its ALT bit, and the units it left out. -/
def State.closeStep (s : State) (step result : Nat) (st : Status) (detail : Nat) : State :=
  let alt := s.alternates step
  let s := if alt || result = 4 then s.setAlt step else s
  ((s.stepRec step result (b2n alt) st detail).mapBoot fun b =>
    { b with running := b.running.filter (fun x => x ≠ step), ended := b.ended ++ [step] }).showStep

/-- The end of a step that may leave units out: those that failed now and those that its alternate action left out. -/
def State.closeUnits (s : State) (step : Nat) (failed alt : List Nat) (ok : Bool) : State :=
  let kind := skipKind step
  let s := alt.foldl (fun (s : State) u => s.unitSkip kind u .fenced) s
  let s := (failed.filter (fun u => !alt.contains u)).foldl (fun (s : State) u => s.unitSkip kind u .timeout) s
  let bad := !ok || failed.any (fun u => !alt.contains u)
  s.closeStep step (if bad then 4 else if alt ≠ [] then 3 else 2) (if bad then .timeout else .ok) 0

/-! ### Dies and adjacencies (R13, R14, R449 to R451) -/

/-- The dies that adjacency `a` joins. -/
def adjDies : Nat → Nat × Nat
  | 0 => (4, 0)
  | 1 => (4, 1)
  | 2 => (5, 2)
  | 3 => (5, 3)
  | 4 => (0, 1)
  | 5 => (2, 3)
  | 6 => (0, 2)
  | _ => (1, 3)

/-- A manifest names die `d`, and its MAGIC and CRC are right. -/
def manifestOk (b : List Byte) (d : Nat) : Bool :=
  b.length = 256 && leAt b 0 4 = 0x4D414E49 && wordAt b 0xF8 = crc64 (b.take 0xF8)
    && leAt b 6 1 = (if d < 4 then 1 else 2) && leAt b 7 1 = (if d < 4 then d else d - 4)

/-- Two manifests agree: the ranges of flit formats overlap, and each side offers what the other needs. -/
def manifestsAgree (a b : List Byte) : Bool :=
  leAt a 0x0C 2 ≤ leAt b 0x0E 2 && leAt b 0x0C 2 ≤ leAt a 0x0E 2
    && leAt a 0x14 4 &&& leAt b 0x10 4 = leAt a 0x14 4 && leAt b 0x14 4 &&& leAt a 0x10 4 = leAt b 0x14 4

/-- The adjacencies that are up. -/
def State.adjUp (s : State) : List (Nat × Nat) := (s.boot.adj.filter (fun x => x.2 = 1)).map (fun x => adjDies x.1)

/-- Dies that lead to edge die 0 (R451). -/
def State.diesUp (s : State) : List Nat :=
  (List.range 5).foldl (fun l _ =>
    s.adjUp.foldl (fun l x =>
      let l := if l.contains x.1 && !l.contains x.2 then l ++ [x.2] else l
      if l.contains x.2 && !l.contains x.1 then l ++ [x.1] else l) l) [4]

/-- The manifest of die `d` is received. -/
def State.keepManifest (s : State) (d : Nat) (b : List Byte) : State :=
  (List.range 32).foldl (fun (s : State) w => s.setReg (IDENT_MANIFEST d w) (wordAt b (8 * w))) s

/-- ADJ_UP, NOC_VER and CAPS of die `d`, from its manifest `b` and its partner. -/
def State.dieUp (s : State) (d partner : Nat) (b : List Byte) (noc caps : Nat) : State :=
  let j := (List.range 4).find? (fun j => leAt b (0x20 + 2 * j) 1 = partner)
  let r := IDENT_DIE_STATE d
  let up := s.fld r IDENT_DIE_STATE_ADJ_UP
  let s := match j with
    | some j => s.setFld r IDENT_DIE_STATE_ADJ_UP (up ||| 2 ^ j)
    | none => s
  (s.setFld r IDENT_DIE_STATE_NOC_VER noc).setFld r IDENT_DIE_STATE_CAPS caps

/-- STATE 2 for every die that leads to edge die 0. -/
def State.showDies (s : State) : State :=
  s.diesUp.foldl (fun (s : State) d => s.setFld (IDENT_DIE_STATE d) IDENT_DIE_STATE_STATE 2) s

/-- ADJACENCY_UP: the modules of adjacency `a` have trained or not; `manA` and `manB` are the manifests that its first and its second die
have sent (R450). -/
def execAdjacencyUp (a : Fin 8) (trained : Bool) (manA manB : List Byte) (s : State) : Result :=
  let (x, y) := adjDies a
  .next (if !s.boot.bulk || s.boot.adj.any (fun e => e.1 = a.val) then s
    else if !trained then s.mapBoot fun b => { b with adj := b.adj ++ [(a.val, 3)] }
    else
      let s := (s.keepManifest x (padTo 256 manA)).keepManifest y (padTo 256 manB)
      if manifestOk manA x && manifestOk manB y && manifestsAgree manA manB then
        let noc := min (leAt manA 0x0E 2) (leAt manB 0x0E 2)
        let caps := leAt manA 0x10 4 &&& leAt manB 0x10 4
        let s := (s.dieUp x y manA noc caps).dieUp y x manB noc caps
        (s.mapBoot fun b => { b with adj := b.adj ++ [(a.val, 1)] }).showDies
      else s.mapBoot fun b => { b with adj := b.adj ++ [(a.val, 2)] })

/-- First cause for which a die is fenced: STATE 3, 4 or 5. -/
def State.dieCause (s : State) (d : Nat) : Nat :=
  match s.boot.adj.find? (fun e => e.2 ≠ 1 && ((adjDies e.1).1 = d || (adjDies e.1).2 = d)) with
  | some e => if e.2 = 2 then 3 else 4
  | none => 5

/-- A die or an island of it is out: what it carries does not start. -/
def State.dieOut (s : State) (d : Nat) : Bool := 3 ≤ s.fld (IDENT_DIE_STATE d) IDENT_DIE_STATE_STATE
def State.islandOut (s : State) (j : Nat) : Bool := s.boot.out.contains j

/-- Fence a cluster with its cores. -/
def State.fenceCluster (s : State) (c : Nat) : State := s.fenceDomain 1 c false

/-- The unit of an island that stays in reset (R394, R416). What comes up in later steps is left out there. -/
def State.fenceIsland (s : State) (j : Nat) : State :=
  let s := s.mapBoot fun b => { b with out := Maps.add b.out j }
  if j < 128 then s.fenceDomain 0 j false
  else if j < 132 then s.fenceCluster (j - 128)
  else if j = 135 then { s with hamperFenced := true }
  else s

/-! ### The work of the steps (R416) -/

/-- Step 2: the scan, the START record, and what the log restores. A log that cannot be read is empty from then on. -/
def State.bootScan (s : State) (ok : Bool) : State :=
  let s := if ok then s
    else { s with trail := [], trailNext := 0, trailSeq := 0 }.setFld BOOT_STATE BOOT_STATE_TRAIL_FAULT 1
  let s := match (s.trail.filter (fun r => recType r.bytes = 5 && bodyAt r.bytes 0 = 0 && bodyAt r.bytes 2 = 0 && leAt r.bytes 0x30 48 = 0)).getLast? with
    | some r => s.setFld BOOT_CFG BOOT_CFG_PREF (bodyAt r.bytes 1)
    | none => s
  let s := match s.newestRec 7 with
    | some b => s.setFld PRES_STATE PRES_STATE_SEAL_OPEN (b2n (bodyAt b 0 = 1))
    | none => s
  let retry := s.fld BOOT_CFG BOOT_CFG_RETRY_STEPS = 1
  let s := (s.mapBoot fun b => { b with retry := retry }).setFld BOOT_CFG BOOT_CFG_RETRY_STEPS 0
  let rec_ := s.recovers
  let slots := s.slotOrder rec_
  let s := (s.setFld BOOT_STATE BOOT_STATE_RECOVERY (b2n rec_)).mapBoot fun b => { b with slots := slots }
  let s := s.appendTrail 1 (leBytes 1 s.resetCause ++ List.replicate 7 0 ++ leBytes 1 (s.fld ERR_STATUS ERR_STATUS_LAST_FS_CAUSE)
    ++ leBytes 1 (slots.headD 0) ++ leBytes 1 (b2n rec_))
  s.closeStep 2 (if ok then 2 else 4) (if ok then .ok else .memUncorrectable) 0

/-- BOOT_IMG of a slot that is checked: empty, valid, or its check failed. -/
def State.checkSlot (s : State) (b : Nat) : Status × State :=
  let st := s.imageCheck (s.imageBytes b)
  let blank := s.norBytes (slotBase b) 4 = List.replicate 4 0xFF
  (st, s.setImg b (if st = .ok then 1 else if blank then 0 else 2))

/-- No image runs: ROM answers, and the device stays in recovery (R419). -/
def State.toRom (s : State) : State :=
  (s.mapBoot fun b => { b with rom := true, running := [], slots := [] }).setFld BOOT_STATE BOOT_STATE_RECOVERY 1

/-- Step 3 tries the slots that are left; each that is skipped leaves its records. `ok` tells whether the first can be read at all. -/
def State.bootImage (s : State) (ok : Bool) : List Nat → State
  | [] => s.toRom
  | b :: rest =>
    let (st, s) := s.checkSlot b
    if st = .ok && ok then
      let s := (s.setFld BOOT_STATE BOOT_STATE_IMAGE b).mapBoot fun x => { x with slots := rest }
      s.closeStep 3 (if s.alternates 3 then 3 else 2) .ok b
    else
      let s := (s.closeStep 3 4 (if ok then st else .memUncorrectable) b).mapBoot fun x => { x with slots := rest }
      match rest with
      | [] => s.toRom
      | _ => (s.beginStep 3).bootImage true rest

/-- The image in the slot failed to start: the other slot is tried from step 3. -/
def State.bootImageFailed (s : State) : State :=
  let s := (s.closeStep 4 4 .timeout s.runSlot).setImg s.runSlot 3
  if s.boot.slots = [] then s.toRom else s.beginStep 3

/-- Step 5: the islands that did not lock, and the dies without a path to edge die 0. -/
def State.bootIslands (s : State) (ok : Bool) (failed : List Nat) : State :=
  let alt := s.altUnits 5
  let s := (alt ++ failed).foldl (fun (s : State) j => s.fenceIsland j) s
  let s := s.showDies
  let lost := (List.range 6).filter (fun d => !s.diesUp.contains d)
  let s := lost.foldl (fun (s : State) d =>
    let s := s.setFld (IDENT_DIE_STATE d) IDENT_DIE_STATE_STATE (s.dieCause d)
    if d < 4 then s.fenceCluster d else s) s
  s.closeUnits 5 failed alt (ok && (List.range 8).all (fun a => s.boot.adj.contains (a, 1)))

/-- One entry of a configuration copy, as a local write. -/
def State.applyEntry (s : State) (b : List Byte) (i : Nat) : State :=
  s.setupWrite .ranger 8 (leAt b (16 + 16 * i) 3) (wordAt b (24 + 16 * i))

/-- Step 6: the newest copy that is good is applied. The detail of its record names the copies that failed. -/
def State.bootConfig (s : State) (ok : Bool) (failed : List Nat) : State :=
  let alt := s.altCopies
  let bad := [0, 1].filter (fun k => !alt.contains k && (failed.contains k || !ok || !cfgOk (s.configCopy k)))
  let pick := (s.configOrder (alt ++ bad)).head?
  let s := s.mapBoot fun b => { b with copy := pick }
  let s := match pick with
    | some k =>
      let b := s.configCopy k
      (List.range (cfgCount b)).foldl (fun (s : State) i => s.applyEntry b i) s
    | none => s
  s.closeStep 6 (if bad ≠ [] then 4 else if alt ≠ [] then 3 else 2) (if bad ≠ [] then .format else .ok) (bad.foldl (fun m k => m + 2 ^ k) 0)

/-- Step 7: the column groups in service of every core; a core whose test did not end is retired (R87, R89, R90). -/
def State.bootColumns (s : State) (ok : Bool) (failed : List Nat) (cols : List (BitVec 32)) : State :=
  let alt := s.altUnits 7
  let s := s.mapCores fun k c =>
    let c := { c with colgroups := if alt.contains k.val || failed.contains k.val || !ok then 0 else cols.getD k.val 0 }
    if c.isRetired then { c with run := .retired } else c
  s.closeUnits 7 failed alt ok

/-- Bytes, poison and faults of a range are cleared, with good check codes. -/
def State.zeroFill (s : State) (lo hi : Nat) : State :=
  { s with mem := Maps.clear s.mem lo hi, poison := s.poison.filter (fun u => u < lo || hi ≤ u), ecc := Maps.clear s.ecc lo hi }

/-- Step 8: cluster SRAM and trays begin at zero; a cluster whose SRAM failed is fenced. -/
def State.bootSram (s : State) (ok : Bool) (failed : List Nat) : State :=
  let alt := s.altUnits 8
  let s := s.zeroFill lpddrTop setupBase
  let s := (alt ++ failed).foldl (fun (s : State) c => s.fenceCluster c) s
  s.closeUnits 8 failed alt ok

/-- The physical channel that serves a logical one before any sparing (R178). -/
def ownChannel (l : Nat) : Nat := if l < 48 then l else l + 4

/-- Give each logical channel whose physical one failed the lowest free spare, of its own edge die first (R183): the map, and whether all
were served. -/
def assignSpares (bad : List Nat) : List Nat → List (Nat × Nat) → List (Nat × Nat) × Bool
  | [], m => (m, true)
  | l :: ls, m =>
    if !bad.contains (Maps.get 0 m l) then assignSpares bad ls m
    else
      let die := if l < 48 then 0 else 1
      match (sparesOf die ++ sparesOf (1 - die)).find? (fun pc => !bad.contains pc && !(m.map (·.2)).contains pc) with
      | some pc => assignSpares bad ls (Maps.put 0 m l pc)
      | none => let r := assignSpares bad ls m; (r.1, false)

/-- Step 9: LPDDR6 is trained, tested and filled, with the sparing record applied (R182 to R184). -/
def State.bootLpddr (s : State) (ok : Bool) (failed : List Nat) : State :=
  let anew := s.fld MEM_SPARE_CTRL MEM_SPARE_CTRL_RETRY_NEXT = 1
  let rec_ := if anew then none else s.newestRec 3
  let old := match rec_ with
    | some b => (List.range 104).filter (fun pc => (recBody b).getD (pc / 8) 0 |>.getLsbD (pc % 8))
    | none => []
  let lost := (if s.dieOut 5 || s.islandOut 136 then (List.range 52).map (· + 52) else []) ++ (if s.islandOut 132 then List.range 52 else [])
  let new := ((failed ++ lost ++ (if ok then [] else List.range 104)).filter (fun pc => !old.contains pc)).eraseDups
  let m0 := (List.range 96).foldl (fun (m : List (Nat × Nat)) l =>
    Maps.set m l (match rec_ with
      | some b => bodyAt b (13 + l)
      | none => ownChannel l)) []
  let spares := assignSpares (old ++ new) (List.range 96) m0
  let used := spares.1.map (·.2)
  let s := (List.range 96).foldl (fun (s : State) l => s.setFld (MEM_CHMAP l) MEM_CHMAP_PHYS (Maps.get 0 spares.1 l)) s
  let s := (List.range 104).foldl (fun (s : State) pc =>
    s.setMemChState pc (if new.contains pc then 4 else if old.contains pc then 5 else if used.contains pc then 0 else 1)) s
  let free := (List.range 104).filter (fun pc => !new.contains pc && !old.contains pc && !used.contains pc)
  let s := (s.setFld MEM_STATUS MEM_STATUS_SPARES_FREE free.length).setFld MEM_STATUS MEM_STATUS_FAILED (old.length + new.length)
  let s := (s.zeroFill 0 lpddrTop).setFld MEM_SPARE_CTRL MEM_SPARE_CTRL_RETRY_NEXT 0
  let s := if new ≠ [] || anew then s.recordSparing else s
  let s := if spares.2 then s.setFld MEM_STATUS MEM_STATUS_LPDDR_UP 1 else s.deviceFault 0x0300 (Config.detail 0x0300 (old ++ new))
  s.closeStep 9 (if new ≠ [] then 4 else if old ≠ [] then 3 else 2) (if new ≠ [] then .timeout else .ok) 0

/-- Step 10: Hamper, or its fence. -/
def State.bootHamper (s : State) (ok : Bool) (failed : List Nat) : State :=
  let alt := s.altUnits 10
  let failed := if ok then failed.take 1 else [0]
  let s := if alt ≠ [] || failed ≠ [] then { s with hamperFenced := true } else s
  s.closeUnits 10 (failed.map (fun _ => 0)) alt true

/-- Engines that cannot come up with the dies and islands as they are. -/
def State.enginesLost (s : State) : List Nat :=
  (List.range 9).filter fun e =>
    s.islandOut (139 + e) || (e < 4 && s.islandOut 133) || (4 ≤ e && e < 8 && s.islandOut 137) || (4 ≤ e && s.dieOut 5)

/-- Step 11: the engines are up as far as link training, or read STATE 5. -/
def State.bootEngines (s : State) (ok : Bool) (failed : List Nat) : State :=
  let alt := s.altUnits 11
  let failed := ((if ok then failed else List.range 9) ++ s.enginesLost).eraseDups
  let s := (alt ++ failed).foldl (fun (s : State) e => s.engineOut e) s
  s.closeUnits 11 failed alt true

/-- Step 12: the reference tables of every core; `failed` names slots as 8 × core + slot, which stay empty (R151). -/
def State.bootTables (s : State) (ok : Bool) (failed : List Nat) : State :=
  let s := s.mapCores fun k c =>
    if !ok then c
    else (List.range 8).foldl (fun (c : Core) n => if failed.contains (8 * k.val + n) then c.mapSlot n (fun _ => .reset) else c) c.withReference
  let bad := !ok || failed ≠ []
  s.closeStep 12 (if bad then 4 else 2) (if bad then .timeout else .ok) 0

/-- Step 13: the front ports, or ENABLE 0. -/
def State.bootPorts (s : State) (ok : Bool) (failed : List Nat) : State :=
  let alt := s.altUnits 13
  let failed := if ok && !s.dieOut 5 && !s.islandOut 138 then failed else [0, 1]
  let s := (alt ++ failed).foldl (fun (s : State) p => s.setFld (FRONT_PORT_CFG p) FRONT_PORT_CFG_ENABLE 0) s
  s.closeUnits 13 failed alt true

/-- Step 14: the standing topology is loaded and flipped, or the device keeps coordinate 0 and sends nothing (R268, R278, R384). -/
def State.bootTopology (s : State) (ok : Bool) : State :=
  let table := match s.boot.copy with
    | some k =>
      let b := s.configCopy k
      if cfgTopo b = 1 then some ((b.drop (16 + 16 * cfgCount b)).take 1664) else none
    | none => none
  match table with
  | none => s.closeStep 14 4 .format 0
  | some bs =>
    let t : Topo := ⟨topoOf (bs.zipIdx.map (fun x => (x.2, x.1))), true, false⟩
    if !ok || (s.tableFault t).isSome then s.closeStep 14 4 .tableRejected 0
    else (((s.setTopo (!s.activeEpoch) t).tblFlag ROUTE_TBL_STATE_SHADOW_READY 1).flipTable).closeStep 14 2 .ok 0

/-- The image ran through step 15 in the two starts before this one too, from the same slot, not written since (R414). -/
def State.thirdTime (s : State) : Bool :=
  let n := s.start
  2 < n && [n - 1, n - 2].all (fun m => (s.stepRecs m 15).any (fun b => bodyAt b 1 = 2 && stepDetail b = s.runSlot))
    && !(s.recsOf 5 n ++ s.recsOf 5 (n - 1) ++ s.recsOf 5 (n - 2)).any (fun b =>
      bodyAt b 0 = 0 && bodyAt b 2 = 0 && bodyAt b 1 = s.runSlot && leAt b 0x30 48 ≠ 0)

/-- Step 15: the lock, the events of the steps that failed or took their alternate action, DONE, and the floor. -/
def State.bootEnd (s : State) : State :=
  let s := s.setFld IDENT_LOCK IDENT_LOCK_SETUP_LOCK 1
  let alts := (List.range 16).filter (fun i => i ≠ 0 && bit (s.reg BOOT_STATE) i)
  let s := alts.foldl (fun (s : State) i => s.post (event 0x0110 (BitVec.ofNat 48 i) none)) s
  let third := s.thirdTime
  let s := (s.closeStep 15 2 .ok s.runSlot).setFld BOOT_STATE BOOT_STATE_DONE 1
  let b := s.norBytes (slotBase s.runSlot) 256
  let s := if third then s.setFuses { s.fuses with floor := max s.fuses.floor (imgSvn b) } else s
  let s := [0, 1].foldl (fun (s : State) x => s.setFld (BOOT_IMG x) BOOT_IMG_FLOOR s.fuses.floor) s
  s.setFld BOOT_STATE BOOT_STATE_STEP 15

/-! ### The order of the steps -/

/-- Begin what may begin after a step: a recovery runs 1 to 6 and 15 (R418), 5 waits for the bulk supply (R432), 9 to 13 run in parallel after 8, 14 after all of them. -/
def State.afterStep (s : State) (step : Nat) : State :=
  match step with
  | 4 => if s.boot.bulk then s.beginStep 5 else s
  | 6 => s.beginStep (if s.inRecovery then 15 else 7)
  | 8 => [9, 10, 11, 12, 13].foldl (fun (s : State) i => s.beginStep i) s
  | 14 => s.beginStep 15
  | 15 => s
  | i =>
    if i < 8 then s.beginStep (i + 1)
    else if [9, 10, 11, 12, 13].all (fun j => s.boot.ended.contains j) then s.beginStep 14
    else s

/-- Step 1: the pairs that failed their self-test leave service; without a sound one the device enters fail-safe (R381). The seal loop as it
was last sampled. -/
def State.bootSelfTest (s : State) (ok : Bool) (failed : List Nat) : State :=
  let s := failed.foldl (fun (s : State) p => if p < 4 then s.setReg ERR_STATUS (setBit (s.reg ERR_STATUS) (48 + p) false) else s) s
  if !ok || s.fld ERR_STATUS ERR_STATUS_PAIRS = 0 then (s.closeStep 1 4 .fenced 0).failSafe .noPair
  else
    let s := if s.boot.loopOpen && s.fld PRES_STATE PRES_STATE_SEAL_OPEN = 0 then
      (s.setFld PRES_STATE PRES_STATE_SEAL_OPEN 1).appendTrail 7 [1] else s
    (s.closeStep 1 2 .ok 0).afterStep 1

/-- BOOT_STEP_DONE: the work of a step in progress has ended as `r` tells (R416, R417). -/
def execBootStepDone (r : BootReport) (s : State) : Result :=
  let step := r.step.val
  .next (if s.failsafe || s.boot.rom || !s.boot.running.contains step then s
    else match step with
    | 1 => s.bootSelfTest r.ok r.units
    | 2 => (s.bootScan r.ok).afterStep 2
    | 3 =>
      let s := s.bootImage r.ok s.boot.slots
      if s.boot.rom then s else s.afterStep 3
    | 4 => if r.ok then (s.closeStep 4 2 .ok s.runSlot).afterStep 4 else s.bootImageFailed
    | 5 => (s.bootIslands r.ok r.units).afterStep 5
    | 6 => (s.bootConfig r.ok r.units).afterStep 6
    | 7 => (s.bootColumns r.ok r.units r.cols).afterStep 7
    | 8 => (s.bootSram r.ok r.units).afterStep 8
    | 9 => (s.bootLpddr r.ok r.units).afterStep 9
    | 10 => (s.bootHamper r.ok r.units).afterStep 10
    | 11 => (s.bootEngines r.ok r.units).afterStep 11
    | 12 => (s.bootTables r.ok r.units).afterStep 12
    | 13 => (s.bootPorts r.ok r.units).afterStep 13
    | 14 => (s.bootTopology r.ok).afterStep 14
    | 15 => s.bootEnd
    | _ => s)

/-! ### Supplies (R431, R432) -/

/-- STANDBY_RELEASE: the standby domain leaves reset, the start gets its number, and step 1 begins. -/
def execStandbyRelease (s : State) : Result :=
  .next (if s.boot.started then s
    else
      let n := (s.trail.map (fun r => recStart r.bytes)).foldl max 0 + 1
      ((s.mapBoot fun b => { b with started := true }).setFld BOOT_STATE BOOT_STATE_START n).beginStep 1)

/-- BULK_RELEASE: the other islands leave reset, the comparators are armed, the dies train; the boot goes on from its wait. -/
def execBulkRelease (s : State) : Result :=
  .next (if s.boot.bulk then s
    else
      let s := s.mapBoot fun b => { b with bulk := true }
      let s := (List.range 6).foldl (fun (s : State) d => s.setFld (IDENT_DIE_STATE d) IDENT_DIE_STATE_STATE 1) s
      if s.boot.ended.contains 4 && !s.boot.ended.contains 5 && !s.boot.rom && s.boot.running = [] && !s.failsafe then s.beginStep 5 else s)

/-- The supply that the standby domain draws from, with both in mV: 1 VBULK, 2 VSTBY, 0 none (R431). -/
def standbySource (vbulk vstby : Nat) : Nat :=
  if 40000 ≤ vbulk then 1 else if 11400 ≤ vstby && vstby ≤ 12600 then 2 else if 36000 ≤ vbulk then 1 else 0

/-- STANDBY_SOURCE_CHANGE: the domain moves without interruption, or loses its power. -/
def execStandbySourceChange (vbulk vstby : Nat) (s : State) : Result :=
  let src := standbySource vbulk vstby
  let s := if src = 0 && s.boot.source ≠ 0 then s.deviceReset 1 else s
  .next (s.mapBoot fun b => { b with source := src })

end Sys2Proof.Machine
end

