-- ==== Sys2Proof/Machine/ScalarFp.lean ====
section
/-! DEFINITION. Scalar FP32 arithmetic, compares and conversions (R70, R71, R104). -/
namespace Sys2Proof.Machine

/-- An FP32 operation of two registers into rd, with its flags (R70, R71). -/
def State.fpR (s : State) (k : CoreId) (w : Word) (op : Nat) (f : F32 → F32 → F32 × FpFlags) : State :=
  s.issue k w op (legalR3 w) [insRd w, insRs1 w, insRs2 w] 8 fun s =>
    let r := f (fpOf ((s.core k).greg (insRs1 w))) (fpOf ((s.core k).greg (insRs2 w)))
    (s.mapCore k fun c => c.raise r.2).writeG k (insRd w) (ofFp r.1)

/-- An FP32 operation of one register into rd. -/
def State.fpU (s : State) (k : CoreId) (w : Word) (op : Nat) (f : F32 → F32 × FpFlags) : State :=
  s.issue k w op (legalR2 w) [insRd w, insRs1 w] 8 fun s =>
    let r := f (fpOf ((s.core k).greg (insRs1 w)))
    (s.mapCore k fun c => c.raise r.2).writeG k (insRd w) (ofFp r.1)

/-- A conversion of rs1 into rd. -/
def State.cvt (s : State) (k : CoreId) (w : Word) (op : Nat) (f : Word → Word × FpFlags) : State :=
  s.issue k w op (legalR2 w) [insRd w, insRs1 w] 8 fun s =>
    let r := f ((s.core k).greg (insRs1 w))
    (s.mapCore k fun c => c.raise r.2).writeG k (insRd w) r.1

/-- An FP32 compare into pd (R71, R104). -/
def State.fcmp (s : State) (k : CoreId) (w : Word) (op : Nat) (f : F32 → F32 → Bool × FpFlags) : State :=
  s.issue k w op (legalCmp w) [insRs1 w, insRs2 w] 8 fun s =>
    let r := f (fpOf ((s.core k).greg (insRs1 w))) (fpOf ((s.core k).greg (insRs2 w)))
    (s.mapCore k fun c => c.raise r.2).writeP k (insPdR w) r.1

/-- FCMPEQ. -/
def execFcmpeq (k : CoreId) (w : Word) (s : State) : Result := .next (s.fcmp k w 0x608 fpEq)
/-- FCMPLT. -/
def execFcmplt (k : CoreId) (w : Word) (s : State) : Result := .next (s.fcmp k w 0x609 fpLt)
/-- FCMPLE. -/
def execFcmple (k : CoreId) (w : Word) (s : State) : Result := .next (s.fcmp k w 0x60A fpLe)
/-- FCMPUN. -/
def execFcmpun (k : CoreId) (w : Word) (s : State) : Result := .next (s.fcmp k w 0x60B fpUn)
/-- FADD. -/
def execFadd (k : CoreId) (w : Word) (s : State) : Result := .next (s.fpR k w 0x700 fpAdd)
/-- FSUB. -/
def execFsub (k : CoreId) (w : Word) (s : State) : Result := .next (s.fpR k w 0x701 fpSub)
/-- FMUL. -/
def execFmul (k : CoreId) (w : Word) (s : State) : Result := .next (s.fpR k w 0x702 fpMul)
/-- FDIV. -/
def execFdiv (k : CoreId) (w : Word) (s : State) : Result := .next (s.fpR k w 0x703 fpDiv)
/-- FMIN. -/
def execFmin (k : CoreId) (w : Word) (s : State) : Result := .next (s.fpR k w 0x706 fpMin)
/-- FMAX. -/
def execFmax (k : CoreId) (w : Word) (s : State) : Result := .next (s.fpR k w 0x707 fpMax)
/-- FSQRT. -/
def execFsqrt (k : CoreId) (w : Word) (s : State) : Result := .next (s.fpU k w 0x704 fpSqrt)
/-- FABS. -/
def execFabs (k : CoreId) (w : Word) (s : State) : Result := .next (s.fpU k w 0x708 fpAbs)
/-- FNEG. -/
def execFneg (k : CoreId) (w : Word) (s : State) : Result := .next (s.fpU k w 0x709 fpNeg)

/-- FFMA: rd = rs1 × rs2 + rd, rounded once (R104). -/
def execFfma (k : CoreId) (w : Word) (s : State) : Result :=
  .next (s.issue k w 0x705 (legalR3 w) [insRd w, insRs1 w, insRs2 w] 8 fun s =>
    let r := fpFma (fpOf ((s.core k).greg (insRs1 w))) (fpOf ((s.core k).greg (insRs2 w))) (fpOf ((s.core k).greg (insRd w)))
    (s.mapCore k fun c => c.raise r.2).writeG k (insRd w) (ofFp r.1))

/-- CVT.F2I. -/
def execCvtF2i (k : CoreId) (w : Word) (s : State) : Result := .next (s.cvt k w 0x800 (fun a => fpToInt .zero (fpOf a)))
/-- CVT.F2IN. -/
def execCvtF2in (k : CoreId) (w : Word) (s : State) : Result := .next (s.cvt k w 0x801 (fun a => fpToInt .nearest (fpOf a)))
/-- CVT.I2F. -/
def execCvtI2f (k : CoreId) (w : Word) (s : State) : Result := .next (s.cvt k w 0x802 (fpOfInt))
/-- CVT.F2BF. -/
def execCvtF2bf (k : CoreId) (w : Word) (s : State) : Result := .next (s.cvt k w 0x803 (fun a => fpNarrow Fmt.bf16 (fpOf a)))
/-- CVT.F2H. -/
def execCvtF2h (k : CoreId) (w : Word) (s : State) : Result := .next (s.cvt k w 0x804 (fun a => fpNarrow Fmt.fp16 (fpOf a)))
/-- CVT.BF2F. -/
def execCvtBf2f (k : CoreId) (w : Word) (s : State) : Result := .next (s.cvt k w 0x805 (fpWiden Fmt.bf16))
/-- CVT.H2F. -/
def execCvtH2f (k : CoreId) (w : Word) (s : State) : Result := .next (s.cvt k w 0x806 (fpWiden Fmt.fp16))

end Sys2Proof.Machine
end

