-- ==== Sys2Proof/Machine/ScalarInt.lean ====
section
/-! DEFINITION. Integer arithmetic, immediates, compares, predicate logic, branches (R64, R66, R69, R104). -/
namespace Sys2Proof.Machine

/-- A register operation of class 0x0: rd from rs1 and rs2 (R66, R69). -/
def State.aluR (s : State) (k : CoreId) (w : Word) (op : Nat) (f : Word → Word → Word) : State :=
  s.issue k w op (legalR3 w) [insRd w, insRs1 w, insRs2 w] 8 fun s =>
    s.writeG k (insRd w) (f ((s.core k).greg (insRs1 w)) ((s.core k).greg (insRs2 w)))

/-- An immediate operation of class 0x1: rd from rs1 and the sign-extended imm32 (R66, R104). -/
def State.aluI (s : State) (k : CoreId) (w : Word) (op : Nat) (f : Word → Word → Word) : State :=
  s.issue k w op (legalI w) [insRd w, insRs1 w] 8 fun s =>
    s.writeG k (insRd w) (f ((s.core k).greg (insRs1 w)) (insImm w))

/-- A compare of class 0x1 into pd (R104). -/
def State.cmpI (s : State) (k : CoreId) (w : Word) (op : Nat) (f : Word → Word → Bool) : State :=
  s.issue k w op (legalCmpI w) [insRs1 w] 8 fun s =>
    s.writeP k (insPdI w) (f ((s.core k).greg (insRs1 w)) (insImm w))

/-- A compare of class 0x6 into pd (R104). -/
def State.cmpR (s : State) (k : CoreId) (w : Word) (op : Nat) (f : Word → Word → Bool) : State :=
  s.issue k w op (legalCmp w) [insRs1 w, insRs2 w] 8 fun s =>
    s.writeP k (insPdR w) (f ((s.core k).greg (insRs1 w)) ((s.core k).greg (insRs2 w)))

/-- Predicate logic into pd; rs1[2:0] and rs2[2:0] name predicates (R104). -/
def State.predOp (s : State) (k : CoreId) (w : Word) (op : Nat) (f : Bool → Bool → Bool) : State :=
  s.issue k w op (legalPred w) [] 8 fun s =>
    s.writeP k (insPdR w) (f ((s.core k).preg ((insRs1 w).setWidth 3)) ((s.core k).preg ((insRs2 w).setWidth 3)))

/-- A jump that writes its link: rd = own address + 8, then on to the target (R64, R104). The link is written also when the target takes
the FETCH trap: the trap belongs to the target, and the spec does not say (DESIGN CHOICE, log entry 75). -/
def State.jump (s : State) (k : CoreId) (w : Word) (target : Word) : State :=
  (s.mapCore k fun c => c.setG (insRd w) (c.pc.setWidth 64 + 8)).goto k target.toNat

/-- ADD. -/
def execAdd (k : CoreId) (w : Word) (s : State) : Result := .next (s.aluR k w 0x000 fun a b => a + b)
/-- SUB. -/
def execSub (k : CoreId) (w : Word) (s : State) : Result := .next (s.aluR k w 0x001 fun a b => a - b)
/-- AND. -/
def execAnd (k : CoreId) (w : Word) (s : State) : Result := .next (s.aluR k w 0x002 fun a b => a &&& b)
/-- OR. -/
def execOr (k : CoreId) (w : Word) (s : State) : Result := .next (s.aluR k w 0x003 fun a b => a ||| b)
/-- XOR. -/
def execXor (k : CoreId) (w : Word) (s : State) : Result := .next (s.aluR k w 0x004 fun a b => a ^^^ b)
/-- SLL. -/
def execSll (k : CoreId) (w : Word) (s : State) : Result := .next (s.aluR k w 0x005 fun a b => a <<< aluShift b)
/-- SRL. -/
def execSrl (k : CoreId) (w : Word) (s : State) : Result := .next (s.aluR k w 0x006 fun a b => a >>> aluShift b)
/-- SRA. -/
def execSra (k : CoreId) (w : Word) (s : State) : Result := .next (s.aluR k w 0x007 fun a b => a.sshiftRight (aluShift b))
/-- MUL. -/
def execMul (k : CoreId) (w : Word) (s : State) : Result := .next (s.aluR k w 0x008 fun a b => a * b)
/-- MULHS. -/
def execMulhs (k : CoreId) (w : Word) (s : State) : Result := .next (s.aluR k w 0x009 fun a b => aluMulhs a b)
/-- MULHU. -/
def execMulhu (k : CoreId) (w : Word) (s : State) : Result := .next (s.aluR k w 0x00A fun a b => aluMulhu a b)
/-- DIVS. -/
def execDivs (k : CoreId) (w : Word) (s : State) : Result := .next (s.aluR k w 0x00B fun a b => aluDivs a b)
/-- DIVU. -/
def execDivu (k : CoreId) (w : Word) (s : State) : Result := .next (s.aluR k w 0x00C fun a b => aluDivu a b)
/-- REMS. -/
def execRems (k : CoreId) (w : Word) (s : State) : Result := .next (s.aluR k w 0x00D fun a b => aluRems a b)
/-- REMU. -/
def execRemu (k : CoreId) (w : Word) (s : State) : Result := .next (s.aluR k w 0x00E fun a b => aluRemu a b)
/-- MIN. -/
def execMin (k : CoreId) (w : Word) (s : State) : Result := .next (s.aluR k w 0x00F fun a b => aluMin a b)
/-- MAX. -/
def execMax (k : CoreId) (w : Word) (s : State) : Result := .next (s.aluR k w 0x010 fun a b => aluMax a b)
/-- MINU. -/
def execMinu (k : CoreId) (w : Word) (s : State) : Result := .next (s.aluR k w 0x011 fun a b => aluMinu a b)
/-- MAXU. -/
def execMaxu (k : CoreId) (w : Word) (s : State) : Result := .next (s.aluR k w 0x012 fun a b => aluMaxu a b)

/-- ADDI. -/
def execAddi (k : CoreId) (w : Word) (s : State) : Result := .next (s.aluI k w 0x100 fun a b => a + b)
/-- SUBI. -/
def execSubi (k : CoreId) (w : Word) (s : State) : Result := .next (s.aluI k w 0x101 fun a b => a - b)
/-- ANDI. -/
def execAndi (k : CoreId) (w : Word) (s : State) : Result := .next (s.aluI k w 0x102 fun a b => a &&& b)
/-- ORI. -/
def execOri (k : CoreId) (w : Word) (s : State) : Result := .next (s.aluI k w 0x103 fun a b => a ||| b)
/-- XORI. -/
def execXori (k : CoreId) (w : Word) (s : State) : Result := .next (s.aluI k w 0x104 fun a b => a ^^^ b)
/-- SLLI. -/
def execSlli (k : CoreId) (w : Word) (s : State) : Result := .next (s.aluI k w 0x105 fun a b => a <<< aluShift b)
/-- SRLI. -/
def execSrli (k : CoreId) (w : Word) (s : State) : Result := .next (s.aluI k w 0x106 fun a b => a >>> aluShift b)
/-- SRAI. -/
def execSrai (k : CoreId) (w : Word) (s : State) : Result := .next (s.aluI k w 0x107 fun a b => a.sshiftRight (aluShift b))
/-- MULI. -/
def execMuli (k : CoreId) (w : Word) (s : State) : Result := .next (s.aluI k w 0x108 fun a b => a * b)
/-- MULHSI. -/
def execMulhsi (k : CoreId) (w : Word) (s : State) : Result := .next (s.aluI k w 0x109 fun a b => aluMulhs a b)
/-- MULHUI. -/
def execMulhui (k : CoreId) (w : Word) (s : State) : Result := .next (s.aluI k w 0x10A fun a b => aluMulhu a b)
/-- DIVSI. -/
def execDivsi (k : CoreId) (w : Word) (s : State) : Result := .next (s.aluI k w 0x10B fun a b => aluDivs a b)
/-- DIVUI. -/
def execDivui (k : CoreId) (w : Word) (s : State) : Result := .next (s.aluI k w 0x10C fun a b => aluDivu a b)
/-- REMSI. -/
def execRemsi (k : CoreId) (w : Word) (s : State) : Result := .next (s.aluI k w 0x10D fun a b => aluRems a b)
/-- REMUI. -/
def execRemui (k : CoreId) (w : Word) (s : State) : Result := .next (s.aluI k w 0x10E fun a b => aluRemu a b)
/-- MINI. -/
def execMini (k : CoreId) (w : Word) (s : State) : Result := .next (s.aluI k w 0x10F fun a b => aluMin a b)
/-- MAXI. -/
def execMaxi (k : CoreId) (w : Word) (s : State) : Result := .next (s.aluI k w 0x110 fun a b => aluMax a b)
/-- MINUI. -/
def execMinui (k : CoreId) (w : Word) (s : State) : Result := .next (s.aluI k w 0x111 fun a b => aluMinu a b)
/-- MAXUI. -/
def execMaxui (k : CoreId) (w : Word) (s : State) : Result := .next (s.aluI k w 0x112 fun a b => aluMaxu a b)

/-- INSH (R104). -/
def execInsh (k : CoreId) (w : Word) (s : State) : Result := .next (s.aluI k w 0x120 fun a b => aluInsh b a)

/-- CMPEQI. -/
def execCmpeqi (k : CoreId) (w : Word) (s : State) : Result := .next (s.cmpI k w 0x130 fun a b => a = b)
/-- CMPNEI. -/
def execCmpnei (k : CoreId) (w : Word) (s : State) : Result := .next (s.cmpI k w 0x131 fun a b => a ≠ b)
/-- CMPLTI. -/
def execCmplti (k : CoreId) (w : Word) (s : State) : Result := .next (s.cmpI k w 0x132 fun a b => a.slt b)
/-- CMPLTUI. -/
def execCmpltui (k : CoreId) (w : Word) (s : State) : Result := .next (s.cmpI k w 0x133 fun a b => a.ult b)
/-- CMPGEI. -/
def execCmpgei (k : CoreId) (w : Word) (s : State) : Result := .next (s.cmpI k w 0x134 fun a b => !a.slt b)
/-- CMPGEUI. -/
def execCmpgeui (k : CoreId) (w : Word) (s : State) : Result := .next (s.cmpI k w 0x135 fun a b => !a.ult b)

/-- CMPEQ. -/
def execCmpeq (k : CoreId) (w : Word) (s : State) : Result := .next (s.cmpR k w 0x600 fun a b => a = b)
/-- CMPNE. -/
def execCmpne (k : CoreId) (w : Word) (s : State) : Result := .next (s.cmpR k w 0x601 fun a b => a ≠ b)
/-- CMPLT. -/
def execCmplt (k : CoreId) (w : Word) (s : State) : Result := .next (s.cmpR k w 0x602 fun a b => a.slt b)
/-- CMPLTU. -/
def execCmpltu (k : CoreId) (w : Word) (s : State) : Result := .next (s.cmpR k w 0x603 fun a b => a.ult b)
/-- CMPGE. -/
def execCmpge (k : CoreId) (w : Word) (s : State) : Result := .next (s.cmpR k w 0x604 fun a b => !a.slt b)
/-- CMPGEU. -/
def execCmpgeu (k : CoreId) (w : Word) (s : State) : Result := .next (s.cmpR k w 0x605 fun a b => !a.ult b)

/-- PAND. -/
def execPand (k : CoreId) (w : Word) (s : State) : Result := .next (s.predOp k w 0x610 fun a b => a && b)
/-- POR. -/
def execPor (k : CoreId) (w : Word) (s : State) : Result := .next (s.predOp k w 0x611 fun a b => a || b)
/-- PXOR. -/
def execPxor (k : CoreId) (w : Word) (s : State) : Result := .next (s.predOp k w 0x612 fun a b => a != b)
/-- PANDN. -/
def execPandn (k : CoreId) (w : Word) (s : State) : Result := .next (s.predOp k w 0x613 fun a b => a && !b)

/-- PMOVG: pd = (rs1 ≠ 0) (R104). -/
def execPmovg (k : CoreId) (w : Word) (s : State) : Result :=
  .next (s.issue k w 0x614 (legalPmovg w) [insRs1 w] 8 fun s => s.writeP k (insPdR w) ((s.core k).greg (insRs1 w) ≠ 0))

/-- BRA (R104): on to the own address + imm32. -/
def execBra (k : CoreId) (w : Word) (s : State) : Result :=
  .next (s.issue k w 0x500 (legalBra w) [insRd w] 8 fun s => s.jump k w ((s.core k).pc.setWidth 64 + insImm w))

/-- JMPR (R104): on to rs1 + imm32. -/
def execJmpr (k : CoreId) (w : Word) (s : State) : Result :=
  .next (s.issue k w 0x501 (legalJmpr w) [insRd w, insRs1 w] 8 fun s => s.jump k w ((s.core k).greg (insRs1 w) + insImm w))

end Sys2Proof.Machine
end

