-- ==== Sys2Proof/Machine/Dispatch.lean ====
section
/-! DEFINITION. One arm per command: the meaning of each row of the opcode table. -/
namespace Sys2Proof.Machine

/-- What a command does to everything but the queue. -/
def exec (i : Instr) (s : State) : Host.Outcome State Fault Refusal :=
  match i with
  | .setupWrite src size off v => Sys2Proof.Machine.execSetupWrite src size off v s
  | .setupLock src => Sys2Proof.Machine.execSetupLock src s
  | .coreLaunch k => Sys2Proof.Machine.execCoreLaunch k s
  | .add k w => Sys2Proof.Machine.execAdd k w s
  | .sub k w => Sys2Proof.Machine.execSub k w s
  | .and k w => Sys2Proof.Machine.execAnd k w s
  | .or k w => Sys2Proof.Machine.execOr k w s
  | .xor k w => Sys2Proof.Machine.execXor k w s
  | .sll k w => Sys2Proof.Machine.execSll k w s
  | .srl k w => Sys2Proof.Machine.execSrl k w s
  | .sra k w => Sys2Proof.Machine.execSra k w s
  | .mul k w => Sys2Proof.Machine.execMul k w s
  | .mulhs k w => Sys2Proof.Machine.execMulhs k w s
  | .mulhu k w => Sys2Proof.Machine.execMulhu k w s
  | .divs k w => Sys2Proof.Machine.execDivs k w s
  | .divu k w => Sys2Proof.Machine.execDivu k w s
  | .rems k w => Sys2Proof.Machine.execRems k w s
  | .remu k w => Sys2Proof.Machine.execRemu k w s
  | .min k w => Sys2Proof.Machine.execMin k w s
  | .max k w => Sys2Proof.Machine.execMax k w s
  | .minu k w => Sys2Proof.Machine.execMinu k w s
  | .maxu k w => Sys2Proof.Machine.execMaxu k w s
  | .addi k w => Sys2Proof.Machine.execAddi k w s
  | .subi k w => Sys2Proof.Machine.execSubi k w s
  | .andi k w => Sys2Proof.Machine.execAndi k w s
  | .ori k w => Sys2Proof.Machine.execOri k w s
  | .xori k w => Sys2Proof.Machine.execXori k w s
  | .slli k w => Sys2Proof.Machine.execSlli k w s
  | .srli k w => Sys2Proof.Machine.execSrli k w s
  | .srai k w => Sys2Proof.Machine.execSrai k w s
  | .muli k w => Sys2Proof.Machine.execMuli k w s
  | .mulhsi k w => Sys2Proof.Machine.execMulhsi k w s
  | .mulhui k w => Sys2Proof.Machine.execMulhui k w s
  | .divsi k w => Sys2Proof.Machine.execDivsi k w s
  | .divui k w => Sys2Proof.Machine.execDivui k w s
  | .remsi k w => Sys2Proof.Machine.execRemsi k w s
  | .remui k w => Sys2Proof.Machine.execRemui k w s
  | .mini k w => Sys2Proof.Machine.execMini k w s
  | .maxi k w => Sys2Proof.Machine.execMaxi k w s
  | .minui k w => Sys2Proof.Machine.execMinui k w s
  | .maxui k w => Sys2Proof.Machine.execMaxui k w s
  | .insh k w => Sys2Proof.Machine.execInsh k w s
  | .cmpeqi k w => Sys2Proof.Machine.execCmpeqi k w s
  | .cmpnei k w => Sys2Proof.Machine.execCmpnei k w s
  | .cmplti k w => Sys2Proof.Machine.execCmplti k w s
  | .cmpltui k w => Sys2Proof.Machine.execCmpltui k w s
  | .cmpgei k w => Sys2Proof.Machine.execCmpgei k w s
  | .cmpgeui k w => Sys2Proof.Machine.execCmpgeui k w s
  | .ld k w => Sys2Proof.Machine.execLd k w s
  | .st k w => Sys2Proof.Machine.execSt k w s
  | .aadd k w => Sys2Proof.Machine.execAadd k w s
  | .amin k w => Sys2Proof.Machine.execAmin k w s
  | .amax k w => Sys2Proof.Machine.execAmax k w s
  | .aand k w => Sys2Proof.Machine.execAand k w s
  | .aor k w => Sys2Proof.Machine.execAor k w s
  | .axor k w => Sys2Proof.Machine.execAxor k w s
  | .aswap k w => Sys2Proof.Machine.execAswap k w s
  | .acas k w => Sys2Proof.Machine.execAcas k w s
  | .acas2 k w => Sys2Proof.Machine.execAcas2 k w s
  | .afadd k w => Sys2Proof.Machine.execAfadd k w s
  | .bra k w => Sys2Proof.Machine.execBra k w s
  | .jmpr k w => Sys2Proof.Machine.execJmpr k w s
  | .cmpeq k w => Sys2Proof.Machine.execCmpeq k w s
  | .cmpne k w => Sys2Proof.Machine.execCmpne k w s
  | .cmplt k w => Sys2Proof.Machine.execCmplt k w s
  | .cmpltu k w => Sys2Proof.Machine.execCmpltu k w s
  | .cmpge k w => Sys2Proof.Machine.execCmpge k w s
  | .cmpgeu k w => Sys2Proof.Machine.execCmpgeu k w s
  | .fcmpeq k w => Sys2Proof.Machine.execFcmpeq k w s
  | .fcmplt k w => Sys2Proof.Machine.execFcmplt k w s
  | .fcmple k w => Sys2Proof.Machine.execFcmple k w s
  | .fcmpun k w => Sys2Proof.Machine.execFcmpun k w s
  | .pand k w => Sys2Proof.Machine.execPand k w s
  | .por k w => Sys2Proof.Machine.execPor k w s
  | .pxor k w => Sys2Proof.Machine.execPxor k w s
  | .pandn k w => Sys2Proof.Machine.execPandn k w s
  | .pmovg k w => Sys2Proof.Machine.execPmovg k w s
  | .fadd k w => Sys2Proof.Machine.execFadd k w s
  | .fsub k w => Sys2Proof.Machine.execFsub k w s
  | .fmul k w => Sys2Proof.Machine.execFmul k w s
  | .fdiv k w => Sys2Proof.Machine.execFdiv k w s
  | .fsqrt k w => Sys2Proof.Machine.execFsqrt k w s
  | .ffma k w => Sys2Proof.Machine.execFfma k w s
  | .fmin k w => Sys2Proof.Machine.execFmin k w s
  | .fmax k w => Sys2Proof.Machine.execFmax k w s
  | .fabs k w => Sys2Proof.Machine.execFabs k w s
  | .fneg k w => Sys2Proof.Machine.execFneg k w s
  | .cvtF2i k w => Sys2Proof.Machine.execCvtF2i k w s
  | .cvtF2in k w => Sys2Proof.Machine.execCvtF2in k w s
  | .cvtI2f k w => Sys2Proof.Machine.execCvtI2f k w s
  | .cvtF2bf k w => Sys2Proof.Machine.execCvtF2bf k w s
  | .cvtF2h k w => Sys2Proof.Machine.execCvtF2h k w s
  | .cvtBf2f k w => Sys2Proof.Machine.execCvtBf2f k w s
  | .cvtH2f k w => Sys2Proof.Machine.execCvtH2f k w s
  | .mfs k w => Sys2Proof.Machine.execMfs k w s
  | .mts k w => Sys2Proof.Machine.execMts k w s
  | .fenceLocal k w => Sys2Proof.Machine.execFenceLocal k w s
  | .fenceIssue k w => Sys2Proof.Machine.execFenceIssue k w s
  | .trap k w => Sys2Proof.Machine.execTrap k w s
  | .rte k w => Sys2Proof.Machine.execRte k w s
  | .halt k w => Sys2Proof.Machine.execHalt k w s
  | .haltDone k => Sys2Proof.Machine.execHaltDone k s
  | .waitv k w => Sys2Proof.Machine.execWaitv k w s
  | .waitvWake k => Sys2Proof.Machine.execWaitvWake k s
  | .waitvCountExpired k => Sys2Proof.Machine.execWaitvCountExpired k s
  | .bwait k w => Sys2Proof.Machine.execBwait k w s
  | .nop k w => Sys2Proof.Machine.execNop k w s
  | .tload k b => Sys2Proof.Machine.execTload k b s
  | .tstore k b => Sys2Proof.Machine.execTstore k b s
  | .xmov k b => Sys2Proof.Machine.execXmov k b s
  | .mma k b => Sys2Proof.Machine.execMma k b s
  | .conv k b => Sys2Proof.Machine.execConv k b s
  | .aflush k b => Sys2Proof.Machine.execAflush k b s
  | .ewise k b => Sys2Proof.Machine.execEwise k b s
  | .sfn k b => Sys2Proof.Machine.execSfn k b s
  | .rowstat k b => Sys2Proof.Machine.execRowstat k b s
  | .smax1 k b => Sys2Proof.Machine.execSmax1 k b s
  | .smax2 k b => Sys2Proof.Machine.execSmax2 k b s
  | .smaxc k b => Sys2Proof.Machine.execSmaxc k b s
  | .norm k b => Sys2Proof.Machine.execNorm k b s
  | .qnt k b => Sys2Proof.Machine.execQnt k b s
  | .dqnt k b => Sys2Proof.Machine.execDqnt k b s
  | .csend k b => Sys2Proof.Machine.execCsend k b s
  | .cwait k b => Sys2Proof.Machine.execCwait k b s
  | .cwaitTimeout k => Sys2Proof.Machine.execCwaitTimeout k s
  | .headcount k b => Sys2Proof.Machine.execHeadcount k b s
  | .sync k b => Sys2Proof.Machine.execSync k b s
  | .syncTimeout k => Sys2Proof.Machine.execSyncTimeout k s
  | .farinv k b => Sys2Proof.Machine.execFarinv k b s
  | .tblsel k b => Sys2Proof.Machine.execTblsel k b s
  | .broadStart k => Sys2Proof.Machine.execBroadStart k s
  | .broadRetire k => Sys2Proof.Machine.execBroadRetire k s
  | .bankFlip k => Sys2Proof.Machine.execBankFlip k s
  | .patrolScrub unit found => Sys2Proof.Machine.execPatrolScrub unit found s
  | .regulatorRetest x die dt => Sys2Proof.Machine.execRegulatorRetest x die dt s
  | .channelFailed pc => Sys2Proof.Machine.execChannelFailed pc s
  | .spareRecalibrated pc => Sys2Proof.Machine.execSpareRecalibrated pc s
  | .spareFillDone pc => Sys2Proof.Machine.execSpareFillDone pc s
  | .pkgTempRead p t => Sys2Proof.Machine.execPkgTempRead p t s
  | .memDirtyEnable src => Sys2Proof.Machine.execMemDirtyEnable src s
  | .swap src => Sys2Proof.Machine.execSwap src s
  | .dirtyBitmapWritten => Sys2Proof.Machine.execDirtyBitmapWritten s
  | .loopbackMode src pc mode => Sys2Proof.Machine.execLoopbackMode src pc mode s
  | .ringEnable src n v => Sys2Proof.Machine.execRingEnable src n v s
  | .ringDisable src n v => Sys2Proof.Machine.execRingDisable src n v s
  | .doorbell src n off size v => Sys2Proof.Machine.execDoorbell src n off size v s
  | .doorbellRead n off size => Sys2Proof.Machine.execDoorbellRead n off size s
  | .descriptorStart n => Sys2Proof.Machine.execDescriptorStart n s
  | .seqRecheck n => Sys2Proof.Machine.execSeqRecheck n s
  | .seqWaitTimeout n => Sys2Proof.Machine.execSeqWaitTimeout n s
  | .descriptorFinish n => Sys2Proof.Machine.execDescriptorFinish n s
  | .ringFaultedRetry src n => Sys2Proof.Machine.execRingFaultedRetry src n s
  | .ringStoppedClear src n => Sys2Proof.Machine.execRingStoppedClear src n s
  | .evtRingEnable src e v => Sys2Proof.Machine.execEvtRingEnable src e v s
  | .lantern => Sys2Proof.Machine.execLantern s
  | .lanternPeriodWrite src us => Sys2Proof.Machine.execLanternPeriodWrite src us s
  | .nopDesc n idx => Sys2Proof.Machine.execNopDesc n idx s
  | .wait n idx => Sys2Proof.Machine.execWait n idx s
  | .waitPoll n idx => Sys2Proof.Machine.execWaitPoll n idx s
  | .waitTimeout n idx => Sys2Proof.Machine.execWaitTimeout n idx s
  | .write n idx => Sys2Proof.Machine.execWrite n idx s
  | .launch n idx => Sys2Proof.Machine.execLaunch n idx s
  | .programLoad n idx => Sys2Proof.Machine.execProgramLoad n idx s
  | .stepLoad n idx => Sys2Proof.Machine.execStepLoad n idx s
  | .stepTableValidated k => Sys2Proof.Machine.execStepTableValidated k s
  | .sfnLoad n idx => Sys2Proof.Machine.execSfnLoad n idx s
  | .sfnTableChecked k slot => Sys2Proof.Machine.execSfnTableChecked k slot s
  | .copy n idx => Sys2Proof.Machine.execCopy n idx s
  | .fill n idx => Sys2Proof.Machine.execFill n idx s
  | .put n idx => Sys2Proof.Machine.execPut n idx s
  | .get n idx => Sys2Proof.Machine.execGet n idx s
  | .laserShutdown => Sys2Proof.Machine.execLaserShutdown s
  | .lsmAlert m status => Sys2Proof.Machine.execLsmAlert m status s
  | .lsmPresenceChange m present => Sys2Proof.Machine.execLsmPresenceChange m present s
  | .opticLsmEnable src m enable id powersOk => Sys2Proof.Machine.execOpticLsmEnable src m enable id powersOk s
  | .idleFlitTimer c => Sys2Proof.Machine.execIdleFlitTimer c s
  | .lightLost f => Sys2Proof.Machine.execLightLost f s
  | .lockLoopUpdate c heater => Sys2Proof.Machine.execLockLoopUpdate c heater s
  | .lineMonitor f tones => Sys2Proof.Machine.execLineMonitor f tones s
  | .calPassStart e => Sys2Proof.Machine.execCalPassStart e s
  | .calNow src e => Sys2Proof.Machine.execCalNow src e s
  | .calScanDone c setpoint => Sys2Proof.Machine.execCalScanDone c setpoint s
  | .serWindow c corrected => Sys2Proof.Machine.execSerWindow c corrected s
  | .sweepStep c ev => Sys2Proof.Machine.execSweepStep c ev s
  | .linePowerLow m line => Sys2Proof.Machine.execLinePowerLow m line s
  | .spareSettled m settled => Sys2Proof.Machine.execSpareSettled m settled s
  | .ringsReacquired m fibers => Sys2Proof.Machine.execRingsReacquired m fibers s
  | .substPolicy f => Sys2Proof.Machine.execSubstPolicy f s
  | .substReleased x => Sys2Proof.Machine.execSubstReleased x s
  | .quiesce src e force => Sys2Proof.Machine.execQuiesce src e force s
  | .quiesceDone e => Sys2Proof.Machine.execQuiesceDone e s
  | .engineBringUp src e part => Sys2Proof.Machine.execEngineBringUp src e part s
  | .engineUp e fibers => Sys2Proof.Machine.execEngineUp e fibers s
  | .dataFlit c f symErrs => Sys2Proof.Machine.execDataFlit c f symErrs s
  | .idleFlit c f => Sys2Proof.Machine.execIdleFlit c f s
  | .fencedIdle c f => Sys2Proof.Machine.execFencedIdle c f s
  | .trainingFlit c f => Sys2Proof.Machine.execTrainingFlit c f s
  | .alignmentBlock c blk => Sys2Proof.Machine.execAlignmentBlock c blk s
  | .mismatch c f => Sys2Proof.Machine.execMismatch c f s
  | .txOk c f => Sys2Proof.Machine.execTxOk c f s
  | .quiesceNotice c f => Sys2Proof.Machine.execQuiesceNotice c f s
  | .calQuality c f => Sys2Proof.Machine.execCalQuality c f s
  | .answer c f => Sys2Proof.Machine.execAnswer c f s
  | .controlResend f ctrl => Sys2Proof.Machine.execControlResend f ctrl s
  | .linkAckTimeout nb => Sys2Proof.Machine.execLinkAckTimeout nb s
  | .linkResume nb => Sys2Proof.Machine.execLinkResume nb s
  | .linkFail nb => Sys2Proof.Machine.execLinkFail nb s
  | .packetForward nb p => Sys2Proof.Machine.execPacketForward nb p s
  | .creditSend nb => Sys2Proof.Machine.execCreditSend nb s
  | .linkHoldTimeout nb => Sys2Proof.Machine.execLinkHoldTimeout nb s
  | .packetInject cls d => Sys2Proof.Machine.execPacketInject cls d s
  | .reqLoad p => Sys2Proof.Machine.execReqLoad p s
  | .reqStore p => Sys2Proof.Machine.execReqStore p s
  | .reqAadd p => Sys2Proof.Machine.execReqAadd p s
  | .reqAmin p => Sys2Proof.Machine.execReqAmin p s
  | .reqAmax p => Sys2Proof.Machine.execReqAmax p s
  | .reqAand p => Sys2Proof.Machine.execReqAand p s
  | .reqAor p => Sys2Proof.Machine.execReqAor p s
  | .reqAxor p => Sys2Proof.Machine.execReqAxor p s
  | .reqAswap p => Sys2Proof.Machine.execReqAswap p s
  | .reqAcas p => Sys2Proof.Machine.execReqAcas p s
  | .reqAcas2 p => Sys2Proof.Machine.execReqAcas2 p s
  | .reqAfadd p => Sys2Proof.Machine.execReqAfadd p s
  | .drain p => Sys2Proof.Machine.execDrain p s
  | .republishData p => Sys2Proof.Machine.execRepublishData p s
  | .republishNotice p => Sys2Proof.Machine.execRepublishNotice p s
  | .msgPut p => Sys2Proof.Machine.execMsgPut p s
  | .msgGet p => Sys2Proof.Machine.execMsgGet p s
  | .notify p => Sys2Proof.Machine.execNotify p s
  | .mread p => Sys2Proof.Machine.execMread p s
  | .mwrite p => Sys2Proof.Machine.execMwrite p s
  | .timeRequest p t2 t3 => Sys2Proof.Machine.execTimeRequest p t2 t3 s
  | .rdata p t4 => Sys2Proof.Machine.execRdata p t4 s
  | .rspAck p => Sys2Proof.Machine.execRspAck p s
  | .reqTimeout cls d => Sys2Proof.Machine.execReqTimeout cls d s
  | .dedupExpire src tag => Sys2Proof.Machine.execDedupExpire src tag s
  | .routeTblLoad src => Sys2Proof.Machine.execRouteTblLoad src s
  | .routeTblChecked => Sys2Proof.Machine.execRouteTblChecked s
  | .flip src => Sys2Proof.Machine.execFlip src s
  | .epochRetire => Sys2Proof.Machine.execEpochRetire s
  | .fabRtLoad src v => Sys2Proof.Machine.execFabRtLoad src v s
  | .fabRtLoadDone => Sys2Proof.Machine.execFabRtLoadDone s
  | .replDeclare src set v => Sys2Proof.Machine.execReplDeclare src set v s
  | .republishStart n idx => Sys2Proof.Machine.execRepublishStart n idx s
  | .rollcall n idx => Sys2Proof.Machine.execRollcall n idx s
  | .join p => Sys2Proof.Machine.execJoin p s
  | .ready p => Sys2Proof.Machine.execReady p s
  | .rollcallMismatch p => Sys2Proof.Machine.execRollcallMismatch p s
  | .rollcallTimeout n idx => Sys2Proof.Machine.execRollcallTimeout n idx s
  | .collective n idx => Sys2Proof.Machine.execCollective n idx s
  | .collectiveCurrent h => Sys2Proof.Machine.execCollectiveCurrent h s
  | .grant p => Sys2Proof.Machine.execGrant p s
  | .cdata p => Sys2Proof.Machine.execCdata p s
  | .collAck p => Sys2Proof.Machine.execCollAck p s
  | .chunkResend h j => Sys2Proof.Machine.execChunkResend h j s
  | .lost p => Sys2Proof.Machine.execLost p s
  | .fail p => Sys2Proof.Machine.execFail p s
  | .tallyDigest p => Sys2Proof.Machine.execTallyDigest p s
  | .tallyVerdict p => Sys2Proof.Machine.execTallyVerdict p s
  | .collTimeout h => Sys2Proof.Machine.execCollTimeout h s
  | .disband n idx => Sys2Proof.Machine.execDisband n idx s
  | .frameRx port frame => Sys2Proof.Machine.execFrameRx port frame s
  | .arpRequest port frame => Sys2Proof.Machine.execArpRequest port frame s
  | .icmpEcho port frame => Sys2Proof.Machine.execIcmpEcho port frame s
  | .igmpQuery port frame => Sys2Proof.Machine.execIgmpQuery port frame s
  | .ptpSync port msg t2 => Sys2Proof.Machine.execPtpSync port msg t2 s
  | .ptpDelayResp port msg => Sys2Proof.Machine.execPtpDelayResp port msg s
  | .ptpAnnounce port msg => Sys2Proof.Machine.execPtpAnnounce port msg s
  | .announceTimeout => Sys2Proof.Machine.execAnnounceTimeout s
  | .fabricTimeTick t1 => Sys2Proof.Machine.execFabricTimeTick t1 s
  | .videoPacket port pkt rxNs => Sys2Proof.Machine.execVideoPacket port pkt rxNs s
  | .frameTimeout flow => Sys2Proof.Machine.execFrameTimeout flow s
  | .flowOpen n idx => Sys2Proof.Machine.execFlowOpen n idx s
  | .flowClose n idx => Sys2Proof.Machine.execFlowClose n idx s
  | .exrDatagram port src srcPort data => Sys2Proof.Machine.execExrDatagram port src srcPort data s
  | .exrReply n idx => Sys2Proof.Machine.execExrReply n idx s
  | .exrKeyExpire key => Sys2Proof.Machine.execExrKeyExpire key s
  | .exrEnable src v => Sys2Proof.Machine.execExrEnable src v s
  | .exrDisable src v => Sys2Proof.Machine.execExrDisable src v s
  | .nvmeTcpSegment port conn data => Sys2Proof.Machine.execNvmeTcpSegment port conn data s
  | .portLinkChange port up => Sys2Proof.Machine.execPortLinkChange port up s
  | .portQuiesce src v => Sys2Proof.Machine.execPortQuiesce src v s
  | .portQuiesceDone port => Sys2Proof.Machine.execPortQuiesceDone port s
  | .snapCapture n idx => Sys2Proof.Machine.execSnapCapture n idx s
  | .snapRestore n idx => Sys2Proof.Machine.execSnapRestore n idx s
  | .snapDigest n idx => Sys2Proof.Machine.execSnapDigest n idx s
  | .snapShadow n idx => Sys2Proof.Machine.execSnapShadow n idx s
  | .snapSalvageQuery n idx => Sys2Proof.Machine.execSnapSalvageQuery n idx s
  | .snapEnable src v => Sys2Proof.Machine.execSnapEnable src v s
  | .layer2Cascade x => Sys2Proof.Machine.execLayer2Cascade x s
  | .layer3Cascade x => Sys2Proof.Machine.execLayer3Cascade x s
  | .cascadeDone x layer ok => Sys2Proof.Machine.execCascadeDone x layer ok s
  | .snapshotDue x => Sys2Proof.Machine.execSnapshotDue x s
  | .runSecond x => Sys2Proof.Machine.execRunSecond x s
  | .salvageEnter => Sys2Proof.Machine.execSalvageEnter s
  | .salvage p => Sys2Proof.Machine.execSalvage p s
  | .abort p => Sys2Proof.Machine.execAbort p s
  | .errAbort src v => Sys2Proof.Machine.execErrAbort src v s
  | .abortClear src x => Sys2Proof.Machine.execAbortClear src x s
  | .resetCore src k => Sys2Proof.Machine.execResetCore src k s
  | .resetCluster src c => Sys2Proof.Machine.execResetCluster src c s
  | .resetDevice src => Sys2Proof.Machine.execResetDevice src s
  | .resetOptic src e => Sys2Proof.Machine.execResetOptic src e s
  | .resetChannel src pc => Sys2Proof.Machine.execResetChannel src pc s
  | .fenceDrained => Sys2Proof.Machine.execFenceDrained s
  | .dump deaf => Sys2Proof.Machine.execDump deaf s
  | .dumpDone => Sys2Proof.Machine.execDumpDone s
  | .domainResetDone => Sys2Proof.Machine.execDomainResetDone s
  | .suspectReplay x hung => Sys2Proof.Machine.execSuspectReplay x hung s
  | .hangDetect e => Sys2Proof.Machine.execHangDetect e s
  | .shadowRead deaf => Sys2Proof.Machine.execShadowRead deaf s
  | .failsafeEnter cause => Sys2Proof.Machine.execFailsafeEnter cause s
  | .rangerWatchdog => Sys2Proof.Machine.execRangerWatchdog s
  | .lockstepPair pair => Sys2Proof.Machine.execLockstepPair pair s
  | .thermosUpdate p => Sys2Proof.Machine.execThermosUpdate p s
  | .diodeSample t => Sys2Proof.Machine.execDiodeSample t s
  | .thermistorRead r => Sys2Proof.Machine.execThermistorRead r s
  | .throttleDecay j => Sys2Proof.Machine.execThrottleDecay j s
  | .warningCeilingTick => Sys2Proof.Machine.execWarningCeilingTick s
  | .powerSample watts mv => Sys2Proof.Machine.execPowerSample watts mv s
  | .powerPolicy => Sys2Proof.Machine.execPowerPolicy s
  | .dividerMove j => Sys2Proof.Machine.execDividerMove j s
  | .pllStep j => Sys2Proof.Machine.execPllStep j s
  | .supplyStageEnter stage mv rail => Sys2Proof.Machine.execSupplyStageEnter stage mv rail s
  | .supplyStageLeave mv => Sys2Proof.Machine.execSupplyStageLeave mv s
  | .selfRefreshExit => Sys2Proof.Machine.execSelfRefreshExit s
  | .brownout p => Sys2Proof.Machine.execBrownout p s
  | .droopDip k => Sys2Proof.Machine.execDroopDip k s
  | .droopRestore k => Sys2Proof.Machine.execDroopRestore k s
  | .standbyRelease => Sys2Proof.Machine.execStandbyRelease s
  | .bulkRelease => Sys2Proof.Machine.execBulkRelease s
  | .bootStepDone r => Sys2Proof.Machine.execBootStepDone r s
  | .adjacencyUp a trained manA manB => Sys2Proof.Machine.execAdjacencyUp a trained manA manB s
  | .resetNAssert => Sys2Proof.Machine.execResetNAssert s
  | .updateFirmware src len => Sys2Proof.Machine.execUpdateFirmware src len s
  | .updateConfig src len => Sys2Proof.Machine.execUpdateConfig src len s
  | .updateCalibration src len => Sys2Proof.Machine.execUpdateCalibration src len s
  | .switch src => Sys2Proof.Machine.execSwitch src s
  | .switchTimeout => Sys2Proof.Machine.execSwitchTimeout s
  | .keyInstall src permit arg => Sys2Proof.Machine.execKeyInstall src permit arg s
  | .keyRevoke src permit arg => Sys2Proof.Machine.execKeyRevoke src permit arg s
  | .debugUnlock src permit arg => Sys2Proof.Machine.execDebugUnlock src permit arg s
  | .downgrade src permit arg => Sys2Proof.Machine.execDowngrade src permit arg s
  | .fuseProgram src permit arg => Sys2Proof.Machine.execFuseProgram src permit arg s
  | .factoryReset src permit arg => Sys2Proof.Machine.execFactoryReset src permit arg s
  | .sealClear src permit arg => Sys2Proof.Machine.execSealClear src permit arg s
  | .presencePress => Sys2Proof.Machine.execPresencePress s
  | .presenceWindowExpire => Sys2Proof.Machine.execPresenceWindowExpire s
  | .sealSample isOpen => Sys2Proof.Machine.execSealSample isOpen s
  | .mgmtRead off => Sys2Proof.Machine.execMgmtRead off s
  | .mgmtWrite off v => Sys2Proof.Machine.execMgmtWrite off v s
  | .mgmtTrail pos => Sys2Proof.Machine.execMgmtTrail pos s
  | .updCheck img => Sys2Proof.Machine.execUpdCheck img s
  | .updWrite kind data => Sys2Proof.Machine.execUpdWrite kind data s
  | .mgmtPresence code permit arg => Sys2Proof.Machine.execMgmtPresence code permit arg s
  | .updCheckExpire => Sys2Proof.Machine.execUpdCheckExpire s
  | .updateDone ok => Sys2Proof.Machine.execUpdateDone ok s
  | .switchDone => Sys2Proof.Machine.execSwitchDone s
  | .standbySourceChange vbulk vstby => Sys2Proof.Machine.execStandbySourceChange vbulk vstby s

end Sys2Proof.Machine
end

