-- ==== Sys2Proof/Machine/Tick.lean ====
section
/-! DEFINITION. What happens with no command waiting: device time goes on (R336, log entry 13), and what goes wrong by itself does
(R90, R175, R193, log entry 79). -/
namespace Sys2Proof.Machine

open Reg

/-- One nanosecond with nothing commanded. A correction that is slewed moves device time by one nanosecond in a thousand: it counts two
where time is behind, and none where it is ahead (log entry 13). -/
def State.tickTime (s : State) : State :=
  if s.slew = 0 then { s with devTime := s.devTime + 1 }
  else if s.front.slewAge < 999 then
    { s with devTime := s.devTime + 1, front := { s.front with slewAge := s.front.slewAge + 1 } }
  else if 0 < s.slew then
    { s with devTime := s.devTime + 2, slew := s.slew - 1, front := { s.front with slewAge := 0 } }
  else { s with slew := s.slew + 1, front := { s.front with slewAge := 0 } }

/-- A memory cell fails: the next read of the unit that holds `o` finds an error, correctable or not (R175). -/
def State.cellFault (s : State) (o : Nat) (uncorrectable : Bool) : State :=
  match placeOf o with
  | .lpddr => { s with ecc := Maps.set s.ecc (o / 64 * 64) uncorrectable }
  | .sram _ => { s with ecc := Maps.set s.ecc (o / 64 * 64) uncorrectable }
  | .tray _ => { s with ecc := Maps.set s.ecc (o / 64 * 64) uncorrectable }
  | _ => s

/-- A column fault in service: the core is fenced and CORE_FENCED reports it (R90, R379). -/
def State.columnFault (s : State) (k : CoreId) : State :=
  if (s.core k).run = .retired || (s.core k).run = .fenced then s
  else (s.fenceDomain 0 k.val false).post (event 0x0100 (BitVec.ofNat 48 k.val) none)

/-- The checker of a channel in loop-back counts a bit error (R193). -/
def State.loopbackError (s : State) (p : Nat) : State :=
  if s.fld (MEM_CH_LB p) MEM_CH_LB_MODE = 0 then s else s.bump (MEM_CH_LB p) MEM_CH_LB_ERRORS

/-- What goes wrong in an idle moment, if anything does: a free choice (log entry 79). -/
def State.mishap (s : State) : State :=
  let (v, s) := s.free
  match bits v 1 0 with
  | 1 => s.cellFault (bits v 63 16) (v.getLsbD 2)
  | 2 => s.columnFault (coreOf (BitVec.ofNat 64 (bits v 22 16)))
  | 3 => s.loopbackError (bits v 22 16 % 104)
  | _ => s

/-- A moment with no command waiting. -/
def State.idle (s : State) : State := s.tickTime.mishap

end Sys2Proof.Machine
end

