-- ==== Sys2Proof/Safety.lean ====
section
/-! DEFINITION. What claims call a sound state, and what no command undoes. -/
namespace Sys2Proof.Machine

/-- The setup window in canonical form: offsets rise and no entry holds what its register reads at reset, so equal windows are equal
lists. -/
def Setup.wf (m : List (Nat × Word)) : Prop := Maps.rising 0 m = true ∧ ∀ e ∈ m, e.2 ≠ resetAt e.1

/-- Memory and the setup window are in canonical form. -/
structure State.Sound (s : State) : Prop where
  mem : Memory.wf s.mem = true
  setup : Setup.wf s.setup

/-- Every fuse blown in `a` is blown in `b` (R414, R425): the digests in key slots, revoked slots, the SVN floor, owner bits. -/
structure Fuses.Kept (a b : Fuses) : Prop where
  keys : ∀ e ∈ a.keys, e ∈ b.keys
  revoked : ∀ n ∈ a.revoked, n ∈ b.revoked
  floor : a.floor ≤ b.floor
  owner : a.owner &&& b.owner = a.owner

/-! ### What R161 and R162 promise of the reference tables, whose coefficients are open values -/

/-- The real number that a value stands for. -/
def Fv.Is (v : Fv) (r : ℝ) : Prop :=
  match v with
  | .fin neg m e => r = (if neg then -1 else 1) * (m : ℝ) * (2 : ℝ) ^ e
  | _ => False

/-- The function of reference table `n`. -/
def RefFunction (n : Nat) (x y : ℝ) : Prop :=
  match n with
  | 0 => y = Real.exp x
  | 1 => y = Real.log x
  | 2 => y = Real.sqrt x
  | 3 => y = Real.tanh x
  | 4 => y = 1 / (1 + Real.exp (-x))
  | 5 => y = x / 2 * (1 + Real.tanh (Real.sqrt (2 / Real.pi) * (x + 0.044715 * x ^ 3)))
  | 6 => y = x * ∫ t in Set.Iic x, Real.exp (-t ^ 2 / 2) / Real.sqrt (2 * Real.pi)
  | _ => y = x / (1 + Real.exp (-x))

/-- `v` is a nearest FP32 number to `y`: its unit in the last place is what R160 and R161 count in. -/
def NearestTo (v : F32) (y : ℝ) : Prop :=
  ∃ a, (f32 v).Is a ∧ ∀ w b, (f32 w).Is b → |a - y| ≤ |b - y|

/-- Table `n` is within `k` ulp of its function at every finite input that satisfies `p`. -/
def RefUlp (n k : Nat) (p : ℝ → Prop) : Prop :=
  ∀ x r y z v, (f32 x).Is r → p r → RefFunction n r y → (f32 (slotEval (refTable n) x)).Is z → NearestTo v y →
    |z - y| ≤ k * (2 : ℝ) ^ ulpExp (v &&& 0x7FFFFFFF)

/-- Table `n` is within `k * 2^e` of its function at every finite input that satisfies `p`. -/
def RefAbs (n k : Nat) (e : Int) (p : ℝ → Prop) : Prop :=
  ∀ x r y z, (f32 x).Is r → p r → RefFunction n r y → (f32 (slotEval (refTable n) x)).Is z → |z - y| ≤ k * (2 : ℝ) ^ e

/-- The reference tables keep R161 and R162: the loader's check accepts them, those declared monotone without a backward step; their
errors; their exact values. -/
structure RefTablesKeep : Prop where
  accepted : ∀ n < 8, ∃ sc, slotCheck (refTable n) = some sc ∧ (n < 5 → sc.step.isZero = true)
  exp : RefUlp 0 2 (fun r => -87.33 ≤ r ∧ r ≤ 88.72) ∧ RefAbs 0 2 (-149) (fun r => r < -87.33)
  log : RefUlp 1 1 (fun r => 0 < r ∧ (r < 1 / 2 ∨ 2 ≤ r)) ∧ RefAbs 1 1 (-23) (fun r => 1 / 2 ≤ r ∧ r < 2)
  sqrt : RefUlp 2 1 (fun r => 0 ≤ r)
  tanh : RefAbs 3 1 (-18) (fun _ => True) ∧ RefUlp 3 64 (fun r => 1 ≤ |r|)
  logistic : RefAbs 4 1 (-19) (fun _ => True) ∧ RefUlp 4 32 (fun r => 0 ≤ r)
  gelu : RefAbs 5 1 (-19) (fun _ => True) ∧ RefAbs 6 1 (-19) (fun _ => True)
  silu : RefAbs 7 1 (-17) (fun _ => True)
  exact0 : slotEval (refTable 0) 0 = f32One ∧ slotEval (refTable 1) f32One = 0 ∧ slotEval (refTable 3) 0 = 0 ∧
    slotEval (refTable 4) 0 = 0x3F000000 ∧ slotEval (refTable 5) 0 = 0 ∧ slotEval (refTable 6) 0 = 0 ∧ slotEval (refTable 7) 0 = 0
  exactRoot : ∀ n : Int, -74 ≤ n → n ≤ 63 → slotEval (refTable 2) (toF32 (.fin false 1 (2 * n))) = toF32 (.fin false 1 n)

/-! ### A core that executes one instruction -/

/-- Core `k` is at an instruction boundary where the word `w` of operation `op` issues with its effect (R67, R68, R80): it runs and
fetched `w`, nothing is due first, the word is legal, its guard passes, and no register it names waits for a load. -/
structure State.Issues (s : State) (k : CoreId) (w : Word) (op : Nat) (legal : Bool) (regs : List (BitVec 5)) : Prop where
  running : (s.core k).run = .running
  word : (s.core k).fetched = w
  flips : (s.core k).flips = []
  atomics : s.atomicPending k = false
  supply : s.coresPaused = false
  code : insCode w = op
  form : legal = true
  guard : (s.core k).guard w = true
  ready : s.regsReady k regs = true
  faults : (s.core k).pendingTraps = []

/-- The word at `n` bytes past the pc can be fetched (R64). -/
def Core.Fetchable (c : Core) (n : Nat) : Prop := (c.pc.toNat + n) % 8 = 0 ∧ c.pc.toNat + n < 0x40000

/-- A core that goes on at byte address `a`. -/
def Core.at_ (c : Core) (a : Nat) : Core := { c with pc := BitVec.ofNat 18 a, run := .running, wait := .none }

/-- A core that goes on `n` bytes further. -/
def Core.past (c : Core) (n : Nat) : Core := c.at_ (c.pc.toNat + n)

/-- A core in the handler of a trap that belongs to the instruction at `tinst` (R79). -/
def Core.inHandler (c : Core) (cause : Byte) (st : Status) (tinst resume : BitVec 18) (bad : Word) : Core :=
  { c with lastTrap := some ⟨cause, st, tinst, bad⟩, epc := resume, tinst := tinst, cause := cause
           tstatus := BitVec.ofNat 8 st.code, badaddr := bad, trapActive := true, pc := BitVec.ofNat 18 (bits c.tvec 17 3 * 8)
           run := .running, wait := .none }

/-! ### Memory that answers -/

/-- The regions of R289 permit an access of kind `k` to the range, which lies in one range of the map; a tray only to its own device. -/
structure State.Permits (s : State) (w : Who) (k : Kind) (repub : Bool) (o n : Nat) : Prop where
  place : placeOfRange o n = .lpddr ∨ (∃ c, placeOfRange o n = .sram c) ∨ ∃ j, placeOfRange o n = .tray j ∧ w.src = s.self
  regions : ∀ x, w.auth = .ctx x → (s.reg Reg.FAB_RT_VALID).getLsbD x = true ∧ s.fab.regionLoad.contains x.val = false ∧
    (piecesOf o n).all (pieceOk (Maps.get [] s.fab.regions x) s.self w.src k repub) = true

/-- Every unit of the range answers: none is fenced or poisoned, no error is latent, and the accessor's context is not regulated. -/
structure State.Clean (s : State) (a : Auth) (o n : Nat) : Prop where
  served : ∀ u ∈ unitsOf o n, s.unitFenced u = false ∧ s.poisoned u = false
  errors : s.ecc = []
  unregulated : ∀ x, a = .ctx x → s.fld (Reg.MEM_CTX x) Reg.MEM_CTX_ENABLE = 0
  awake : s.failsafe = false

/-- `t` differs from `s` in memory and in what the device keeps about memory alone: granule formats, dirty bits, poison, latent errors. -/
structure State.SameButMemory (s t : State) : Prop where
  eq : t = { s with mem := t.mem, cfmt := t.cfmt, dirtyActive := t.dirtyActive, poison := t.poison, ecc := t.ecc }

/-- `t` is `s` after the bytes `bs` were stored at `o`: exactly those bytes of memory changed. -/
structure State.Stored (s t : State) (o : Nat) (bs : List Byte) : Prop where
  same : s.SameButMemory t
  bytes : ∀ a, t.byte a = if o ≤ a ∧ a < o + bs.length then bs.getD (a - o) 0 else s.byte a

end Sys2Proof.Machine
end

