-- ==== Sys2Proof/Certificates/Slice0/Obligations.lean ====
section
/-! DEFINITION. The statements for the provers, and the words they are said in. -/
namespace Sys2Proof.Claims
open Sys2Proof Sys2Proof.Machine

/-! ### Scalar integer instructions -/

/-- What core `k` becomes when a word that writes `rd` runs: the register written, then the next instruction. -/
def wroteG (c : Core) (rd : BitVec 5) (v : Word) : Core := (c.setG rd v).past 8

/-- What core `k` becomes when a word that writes predicate `pd` runs. -/
def wroteP (c : Core) (pd : BitVec 3) (v : Bool) : Core := (c.setP pd v).past 8

/-- The integer operations of R69 and R104, in the arithmetic of bit vectors: row, OP of class 0x0 (class 0x1 has the same OP), result. -/
def intOps : List (Nat × (Word → Word → Word)) :=
  [(0x00, fun a b => a + b), (0x01, fun a b => a - b), (0x02, fun a b => a &&& b), (0x03, fun a b => a ||| b), (0x04, fun a b => a ^^^ b),
   (0x05, fun a b => a <<< (b.toNat % 64)), (0x06, fun a b => a >>> (b.toNat % 64)), (0x07, fun a b => a.sshiftRight (b.toNat % 64)),
   (0x08, fun a b => a * b), (0x09, fun a b => (a.signExtend 128 * b.signExtend 128).extractLsb' 64 64),
   (0x0A, fun a b => (a.setWidth 128 * b.setWidth 128).extractLsb' 64 64),
   (0x0B, fun a b => if b = 0 then BitVec.allOnes 64 else a.sdiv b), (0x0C, fun a b => if b = 0 then BitVec.allOnes 64 else a.udiv b),
   (0x0D, fun a b => if b = 0 then a else a.srem b), (0x0E, fun a b => if b = 0 then a else a.umod b),
   (0x0F, fun a b => if a.sle b then a else b), (0x10, fun a b => if a.sle b then b else a),
   (0x11, fun a b => if a.ule b then a else b), (0x12, fun a b => if a.ule b then b else a)]

/-- The rows of class 0x0, in the order of their OP. -/
def intRows : List (CoreId → Word → Instr) :=
  [.add, .sub, .and, .or, .xor, .sll, .srl, .sra, .mul, .mulhs, .mulhu, .divs, .divu, .rems, .remu, .min, .max, .minu, .maxu]

/-- The rows of class 0x1 with the same operations, in the order of their OP. -/
def immRows : List (CoreId → Word → Instr) :=
  [.addi, .subi, .andi, .ori, .xori, .slli, .srli, .srai, .muli, .mulhsi, .mulhui, .divsi, .divui, .remsi, .remui, .mini, .maxi, .minui,
   .maxui]

/-- The compares of class 0x6 (OP 0x00 to 0x05) and of class 0x1 (OP 0x30 to 0x35), with their relation (R104). -/
def cmpRows : List ((CoreId → Word → Instr) × (CoreId → Word → Instr) × Nat × (Word → Word → Bool)) :=
  [(.cmpeq, .cmpeqi, 0, fun a b => a == b), (.cmpne, .cmpnei, 1, fun a b => a != b),
   (.cmplt, .cmplti, 2, fun a b => decide (a.toInt < b.toInt)), (.cmpltu, .cmpltui, 3, fun a b => decide (a.toNat < b.toNat)),
   (.cmpge, .cmpgei, 4, fun a b => decide (b.toInt ≤ a.toInt)), (.cmpgeu, .cmpgeui, 5, fun a b => decide (b.toNat ≤ a.toNat))]

/-- Predicate logic (R104). -/
def predRows : List ((CoreId → Word → Instr) × Nat × (Bool → Bool → Bool)) :=
  [(.pand, 0x610, fun a b => a && b), (.por, 0x611, fun a b => a || b), (.pxor, 0x612, fun a b => xor a b), (.pandn, 0x613, fun a b => a && !b)]

end Sys2Proof.Claims
open Sys2Proof Sys2Proof.Machine Sys2Proof.Claims

/-- R69: every integer operation of two registers writes its 64-bit result to rd and goes on, and changes nothing else. -/
def Sys2Proof.Claims.IntegerRegisterResults : Prop :=
  ∀ e ∈ intRows.zip intOps, ∀ (s : State) (k : CoreId) (w : Word),
    s.Issues k w e.2.1 (legalR3 w) [insRd w, insRs1 w, insRs2 w] → (s.core k).Fetchable 8 →
      exec (e.1 k w) s =
        .next (s.setCore k (wroteG (s.core k) (insRd w) (e.2.2 ((s.core k).greg (insRs1 w)) ((s.core k).greg (insRs2 w)))))

/-- R69: the same operations of a register and the sign-extended imm32; INSH puts imm32 above the low half of rs1. -/
def Sys2Proof.Claims.IntegerImmediateResults : Prop :=
  (∀ e ∈ immRows.zip intOps, ∀ (s : State) (k : CoreId) (w : Word),
    s.Issues k w (0x100 + e.2.1) (legalI w) [insRd w, insRs1 w] → (s.core k).Fetchable 8 →
      exec (e.1 k w) s = .next (s.setCore k (wroteG (s.core k) (insRd w) (e.2.2 ((s.core k).greg (insRs1 w)) (insImm w))))) ∧
  ∀ (s : State) (k : CoreId) (w : Word), s.Issues k w 0x120 (legalI w) [insRd w, insRs1 w] → (s.core k).Fetchable 8 →
    exec (.insh k w) s =
      .next (s.setCore k (wroteG (s.core k) (insRd w) ((w.setWidth 32) ++ ((s.core k).greg (insRs1 w)).setWidth 32 : BitVec 64)))

/-- Each compare writes its relation to pd, and predicate logic its value; p0 stays 1 and a write to it is ignored (R62). -/
def Obligations.CompareAndPredicateResults : Prop :=
  (∀ e ∈ cmpRows, ∀ (s : State) (k : CoreId) (w : Word), (s.core k).Fetchable 8 →
    (s.Issues k w (0x600 + e.2.2.1) (legalCmp w) [insRs1 w, insRs2 w] →
      exec (e.1 k w) s =
        .next (s.setCore k (wroteP (s.core k) (insPdR w) (e.2.2.2 ((s.core k).greg (insRs1 w)) ((s.core k).greg (insRs2 w)))))) ∧
    (s.Issues k w (0x130 + e.2.2.1) (legalCmpI w) [insRs1 w] →
      exec (e.2.1 k w) s = .next (s.setCore k (wroteP (s.core k) (insPdI w) (e.2.2.2 ((s.core k).greg (insRs1 w)) (insImm w)))))) ∧
  (∀ e ∈ predRows, ∀ (s : State) (k : CoreId) (w : Word), s.Issues k w e.2.1 (legalPred w) [] → (s.core k).Fetchable 8 →
    exec (e.1 k w) s =
      .next (s.setCore k (wroteP (s.core k) (insPdR w)
        (e.2.2 ((s.core k).preg ((insRs1 w).setWidth 3)) ((s.core k).preg ((insRs2 w).setWidth 3)))))) ∧
  (∀ (s : State) (k : CoreId) (w : Word), s.Issues k w 0x614 (legalPmovg w) [insRs1 w] → (s.core k).Fetchable 8 →
    exec (.pmovg k w) s = .next (s.setCore k (wroteP (s.core k) (insPdR w) (decide ((s.core k).greg (insRs1 w) ≠ 0))))) ∧
  ∀ (c : Core) (v : Bool), c.preg 0 = true ∧ (c.setP 0 v) = c

/-- R62: g0 reads as zero and discards writes; every other general register and predicate reads what was last written to it. -/
def Obligations.RegisterZeroDiscardsWrites : Prop :=
  ∀ (c : Core),
    (∀ v, c.greg 0 = 0 ∧ c.setG 0 v = c) ∧
    (∀ r v, r ≠ 0 → (c.setG r v).greg r = v ∧ ∀ q, q ≠ r → (c.setG r v).greg q = c.greg q) ∧
    (∀ v, c.preg 0 = true ∧ c.setP 0 v = c) ∧
    ∀ r v, r ≠ 0 → (c.setP r v).preg r = v ∧ ∀ q, q ≠ r → (c.setP r v).preg q = c.preg q

namespace Sys2Proof.Claims

/-! ### Scalar FP32 -/

/-- What core `k` becomes when an FP32 word that writes `rd` runs: flags added to SYS_FPFLAGS, the register written, the next
instruction. -/
def wroteF (c : Core) (rd : BitVec 5) (r : Word × FpFlags) : Core := wroteG { c with fpflags := c.fpflags ||| r.2 } rd r.1

/-- Two-operand FP32 rows (R104) with value and flags. -/
def fpRows : List ((CoreId → Word → Instr) × Nat × (F32 → F32 → F32 × FpFlags)) :=
  [(.fadd, 0x700, fpAdd), (.fsub, 0x701, fpSub), (.fmul, 0x702, fpMul), (.fdiv, 0x703, fpDiv), (.fmin, 0x706, fpMin), (.fmax, 0x707, fpMax)]

/-- One-operand FP32 rows. -/
def fpUnaryRows : List ((CoreId → Word → Instr) × Nat × (F32 → F32 × FpFlags)) :=
  [(.fsqrt, 0x704, fpSqrt), (.fabs, 0x708, fpAbs), (.fneg, 0x709, fpNeg)]

/-- FP32 compares. -/
def fcmpRows : List ((CoreId → Word → Instr) × Nat × (F32 → F32 → Bool × FpFlags)) :=
  [(.fcmpeq, 0x608, fpEq), (.fcmplt, 0x609, fpLt), (.fcmple, 0x60A, fpLe), (.fcmpun, 0x60B, fpUn)]

/-- Conversions, from the whole source register. -/
def cvtRows : List ((CoreId → Word → Instr) × Nat × (Word → Word × FpFlags)) :=
  [(.cvtF2i, 0x800, fun a => fpToInt .zero (a.setWidth 32)), (.cvtF2in, 0x801, fun a => fpToInt .nearest (a.setWidth 32)),
   (.cvtI2f, 0x802, fpOfInt), (.cvtF2bf, 0x803, fun a => fpNarrow Fmt.bf16 (a.setWidth 32)),
   (.cvtF2h, 0x804, fun a => fpNarrow Fmt.fp16 (a.setWidth 32)), (.cvtBf2f, 0x805, fpWiden Fmt.bf16), (.cvtH2f, 0x806, fpWiden Fmt.fp16)]

end Sys2Proof.Claims

/-- R70: an FP32 operation reads bits [31:0] of its registers, writes its result with bits [63:32] zero, and adds its flags to the sticky
ones; nothing else changes. -/
def Sys2Proof.Claims.FloatArithmeticResults : Prop :=
  (∀ e ∈ fpRows, ∀ (s : State) (k : CoreId) (w : Word),
    s.Issues k w e.2.1 (legalR3 w) [insRd w, insRs1 w, insRs2 w] → (s.core k).Fetchable 8 →
      let r := e.2.2 (((s.core k).greg (insRs1 w)).setWidth 32) (((s.core k).greg (insRs2 w)).setWidth 32)
      exec (e.1 k w) s = .next (s.setCore k (wroteF (s.core k) (insRd w) ((0 : BitVec 32) ++ r.1, r.2)))) ∧
  (∀ e ∈ fpUnaryRows, ∀ (s : State) (k : CoreId) (w : Word),
    s.Issues k w e.2.1 (legalR2 w) [insRd w, insRs1 w] → (s.core k).Fetchable 8 →
      let r := e.2.2 (((s.core k).greg (insRs1 w)).setWidth 32)
      exec (e.1 k w) s = .next (s.setCore k (wroteF (s.core k) (insRd w) ((0 : BitVec 32) ++ r.1, r.2)))) ∧
  ∀ (s : State) (k : CoreId) (w : Word), s.Issues k w 0x705 (legalR3 w) [insRd w, insRs1 w, insRs2 w] → (s.core k).Fetchable 8 →
    let r := fpFma (((s.core k).greg (insRs1 w)).setWidth 32) (((s.core k).greg (insRs2 w)).setWidth 32)
      (((s.core k).greg (insRd w)).setWidth 32)
    exec (.ffma k w) s = .next (s.setCore k (wroteF (s.core k) (insRd w) ((0 : BitVec 32) ++ r.1, r.2)))

/-- The FP32 compares write pd, the conversions rd; both add their flags to the sticky ones, and nothing else changes. -/
def Sys2Proof.Claims.FloatCompareAndConvertResults : Prop :=
  (∀ e ∈ fcmpRows, ∀ (s : State) (k : CoreId) (w : Word),
    s.Issues k w e.2.1 (legalCmp w) [insRs1 w, insRs2 w] → (s.core k).Fetchable 8 →
      let r := e.2.2 (((s.core k).greg (insRs1 w)).setWidth 32) (((s.core k).greg (insRs2 w)).setWidth 32)
      exec (e.1 k w) s = .next (s.setCore k (wroteP { s.core k with fpflags := (s.core k).fpflags ||| r.2 } (insPdR w) r.1))) ∧
  ∀ e ∈ cvtRows, ∀ (s : State) (k : CoreId) (w : Word),
    s.Issues k w e.2.1 (legalR2 w) [insRd w, insRs1 w] → (s.core k).Fetchable 8 →
      exec (e.1 k w) s = .next (s.setCore k (wroteF (s.core k) (insRd w) (e.2.2 ((s.core k).greg (insRs1 w)))))

/-- R71: FCMPLT and FCMPLE set NV when either operand is NaN, FCMPEQ and FCMPUN set no flag, FMIN, FMAX, FABS and FNEG set no flag,
CVT.F2I and CVT.F2IN set NV alone for a NaN and give 0, and FFMA of a zero and an infinity sets NV and gives the canonical NaN whatever the
addend. -/
def Sys2Proof.Claims.FloatFlagsOfSpecialValues : Prop :=
  (∀ a b : F32, ((f32 a).isNan || (f32 b).isNan) = true →
    fpLt a b = (false, flagNV) ∧ fpLe a b = (false, flagNV) ∧ fpEq a b = (false, 0) ∧ fpUn a b = (true, 0)) ∧
  (∀ a b : F32, ((f32 a).isNan || (f32 b).isNan) = false →
    (fpLt a b).2 = 0 ∧ (fpLe a b).2 = 0 ∧ (fpEq a b).2 = 0 ∧ fpUn a b = (false, 0) ∧
    ((fpLe a b).1 = ((fpLt a b).1 || (fpEq a b).1))) ∧
  (∀ a b : F32, (fpMin a b).2 = 0 ∧ (fpMax a b).2 = 0 ∧ (fpAbs a).2 = 0 ∧ (fpNeg a).2 = 0) ∧
  (∀ a : F32, (f32 a).isNan = true → ∀ r : Rnd, fpToInt r a = (0, flagNV)) ∧
  ∀ a b c : F32, (f32 a).isZero = true → (f32 b).isInf = true → fpFma a b c = (f32NaN, flagNV) ∧ fpFma b a c = (f32NaN, flagNV)

namespace Sys2Proof.Claims

/-! ### Guards, illegal words, traps and system instructions -/

/-- Every scalar row with its CLASS and OP (as one number) and its legal words. -/
def scalarRows : List ((CoreId → Word → Instr) × Nat × (Word → Bool)) :=
  (intRows.zip intOps).map (fun e => (e.1, e.2.1, legalR3)) ++ (immRows.zip intOps).map (fun e => (e.1, 0x100 + e.2.1, legalI))
    ++ [(.insh, 0x120, legalI)] ++ cmpRows.map (fun e => (e.1, 0x600 + e.2.2.1, legalCmp))
    ++ cmpRows.map (fun e => (e.2.1, 0x130 + e.2.2.1, legalCmpI)) ++ predRows.map (fun e => (e.1, e.2.1, legalPred))
    ++ [(.pmovg, 0x614, legalPmovg)] ++ fpRows.map (fun e => (e.1, e.2.1, legalR3)) ++ [(.ffma, 0x705, legalR3)]
    ++ fpUnaryRows.map (fun e => (e.1, e.2.1, legalR2)) ++ fcmpRows.map (fun e => (e.1, e.2.1, legalCmp))
    ++ cvtRows.map (fun e => (e.1, e.2.1, legalR2))
    ++ [(.ld, 0x200, legalLd), (.st, 0x300, legalSt), (.aadd, 0x400, legalAtomic), (.amin, 0x401, legalAtomic), (.amax, 0x402, legalAtomic),
        (.aand, 0x403, legalAtomic), (.aor, 0x404, legalAtomic), (.axor, 0x405, legalAtomic), (.aswap, 0x406, legalAtomic),
        (.acas, 0x407, legalCas), (.acas2, 0x408, legalCas2), (.afadd, 0x409, legalAtomic), (.bra, 0x500, legalBra), (.jmpr, 0x501, legalJmpr),
        (.mfs, 0x900, fun w => onlyBits w [(47, 43), (11, 0)] && sysListed (insImm12 w)),
        (.mts, 0x901, fun w => onlyBits w [(42, 38), (11, 0)] && sysListed (insImm12 w)),
        (.fenceLocal, 0x902, fun w => onlyBits w [(0, 0)]), (.fenceIssue, 0x902, fun w => onlyBits w [(0, 0)]), (.trap, 0x903, legalImm12),
        (.rte, 0x904, legalNone), (.halt, 0x905, legalNone), (.waitv, 0x906, legalWaitv), (.bwait, 0x907, legalBwait), (.nop, 0x908, legalNone)]

end Sys2Proof.Claims

/-- R67: a word with a reserved field or a reserved value takes ILLEGAL whatever its guard. With SYS_TVEC enabled and no trap active, the
core is in its handler with FORMAT, the word as SYS_BADADDR, and SYS_EPC at the word itself. -/
def Sys2Proof.Claims.IllegalWordTakesIllegalTrap : Prop :=
  ∀ e ∈ scalarRows, ∀ (s : State) (k : CoreId) (w : Word),
    s.canIssue k w = true → insCode w = e.2.1 → e.2.2 w = false → (s.core k).trapActive = false → (s.core k).tvec.getLsbD 0 = true →
      exec (e.1 k w) s = .next (s.setCore k ((s.core k).inHandler 0x01 .format (s.core k).pc (s.core k).pc w))

/-- R67: a legal word whose guard reads 0, inverted by PNEG, only goes on: no effect and no trap. -/
def Sys2Proof.Claims.GuardedOffWordHasNoEffect : Prop :=
  ∀ e ∈ scalarRows, ∀ (s : State) (k : CoreId) (w : Word),
    s.canIssue k w = true → insCode w = e.2.1 → e.2.2 w = true → (s.core k).preg (insPguard w) = insPneg w → (s.core k).Fetchable 8 →
      (s.core k).pendingTraps = [] → exec (e.1 k w) s = .next (s.setCore k ((s.core k).past 8))

/-- R79: TRAP raises SOFTWARE with imm12 and resumes at the next instruction; RTE clears trap_active and goes on at SYS_EPC. -/
def Obligations.TrapEntersHandlerAndRteReturns : Prop :=
  (∀ (s : State) (k : CoreId) (w : Word), s.Issues k w 0x903 (legalImm12 w) [] →
    (s.core k).trapActive = false → (s.core k).tvec.getLsbD 0 = true →
    exec (.trap k w) s = .next (s.setCore k ((s.core k).inHandler 0x0A .ok (s.core k).pc ((s.core k).pc + 8) (BitVec.ofNat 64 (insImm12 w))))) ∧
  (∀ (s : State) (k : CoreId) (w : Word), s.Issues k w 0x904 (legalNone w) [] → (s.core k).epc.toNat % 8 = 0 →
    exec (.rte k w) s = .next (s.setCore k ({ s.core k with trapActive := false }.at_ (s.core k).epc.toNat))) ∧
  ∀ (s : State) (k : CoreId) (t : Trap) (r : BitVec 18),
    ((s.core k).trapActive = true ∨ (s.core k).tvec.getLsbD 0 = false →
      s.trap k t r = (s.setCore k { s.core k with lastTrap := some t }).trapHalt k t) ∧
    ((s.core k).trapActive = false → (s.core k).tvec.getLsbD 0 = true →
      s.trap k t r = s.setCore k ((s.core k).inHandler t.cause t.status t.tinst r t.bad)) ∧
    (∀ cause st bad, s.preciseTrap k cause st bad = s.trap k ⟨cause, st, (s.core k).pc, bad⟩ (s.core k).pc) ∧
    ∀ fs, (s.core k).pendingTraps = t :: fs → (s.core k).run = .running → (s.core k).trapActive = false → s.atomicPending k = false →
      s.deliver k = (s.setCore k { s.core k with pendingTraps := fs }).trap k t (s.core k).pc

/-- R64: BRA and JMPR write the link, the own address plus 8, and go on at the target; a target that is not a multiple of 8 or not below
0x40000 takes FETCH, with the target as SYS_BADADDR, and the link is written. -/
def Obligations.BranchesLinkAndFetchTraps : Prop :=
  ∀ (s : State) (k : CoreId) (w : Word) (mk : CoreId → Word → Instr) (target : Word),
    (mk = .bra ∧ s.Issues k w 0x500 (legalBra w) [insRd w] ∧ target = (s.core k).pc.setWidth 64 + insImm w ∨
      mk = .jmpr ∧ s.Issues k w 0x501 (legalJmpr w) [insRd w, insRs1 w] ∧ target = (s.core k).greg (insRs1 w) + insImm w) →
    let c := (s.core k).setG (insRd w) ((s.core k).pc.setWidth 64 + 8)
    (target.toNat % 8 = 0 ∧ target.toNat < 0x40000 → exec (mk k w) s = .next (s.setCore k (c.at_ target.toNat))) ∧
    (¬(target.toNat % 8 = 0 ∧ target.toNat < 0x40000) → (s.core k).trapActive = false → (s.core k).tvec.getLsbD 0 = true →
      exec (mk k w) s = .next (s.setCore k (c.inHandler 0x02 .bound (s.core k).pc (s.core k).pc target)))

/-- R91: MFS copies each listed register to rd and goes on, SYS_CYCLE being a free value of the model (log entry 5); MTS sets SYS_TVEC and
SYS_EPC, clears by ones in SYS_FPFLAGS, and leaves every other listed register as it is. -/
def Obligations.SystemRegisterMoves : Prop :=
  (∀ (s : State) (k : CoreId) (w : Word),
    s.Issues k w 0x900 (onlyBits w [(47, 43), (11, 0)] && sysListed (insImm12 w)) [insRd w] → (s.core k).Fetchable 8 →
    let c := s.core k
    let n := insImm12 w
    (∀ v : Nat, (n, v) ∈ [(0x000, k.val), (0x001, s.self.toNat), (0x002, c.ctx.val), (0x003, c.job.toNat), (0x004, c.step.toNat),
        (0x005, c.width), (0x011, s.devTime.toNat), (0x020, c.tvec.toNat), (0x021, c.epc.toNat), (0x022, c.tinst.toNat),
        (0x023, c.cause.toNat), (0x024, c.tstatus.toNat), (0x025, c.badaddr.toNat), (0x030, c.queue.length), (0x031, c.bdiscard.toNat),
        (0x040, c.fpflags.toNat)] → exec (.mfs k w) s = .next (s.setCore k (wroteG c (insRd w) (BitVec.ofNat 64 v)))) ∧
    (n = 0x026 → exec (.mfs k w) s = .next (s.setCore k (wroteG c (insRd w) (BitVec.ofNat 64 (if c.trapActive then 1 else 0))))) ∧
    (n = 0x010 → exec (.mfs k w) s =
      .next ({ s with freeCtr := s.freeCtr + 1 }.setCore k (wroteG c (insRd w) (Config.freeValue s.freeCtr))))) ∧
  ∀ (s : State) (k : CoreId) (w : Word),
    s.Issues k w 0x901 (onlyBits w [(42, 38), (11, 0)] && sysListed (insImm12 w)) [insRs1 w] → (s.core k).Fetchable 8 →
    let c := s.core k
    let v := c.greg (insRs1 w)
    (insImm12 w = 0x020 → exec (.mts k w) s = .next (s.setCore k ({ c with tvec := v &&& 0x3FFF9 }.past 8))) ∧
    (insImm12 w = 0x021 → exec (.mts k w) s = .next (s.setCore k ({ c with epc := v.setWidth 18 }.past 8))) ∧
    (insImm12 w = 0x040 → exec (.mts k w) s = .next (s.setCore k ({ c with fpflags := c.fpflags &&& ~~~(v.setWidth 5) }.past 8))) ∧
    (insImm12 w ≠ 0x020 → insImm12 w ≠ 0x021 → insImm12 w ≠ 0x040 → exec (.mts k w) s = .next (s.setCore k (c.past 8)))

/-- NOP and both kinds of FENCE go on with no other effect (one core in order: R68, R75). -/
def Sys2Proof.Claims.NopAndFencesOnlyGoOn : Prop :=
  ∀ e ∈ [(Instr.nop, 0x908, legalNone), (Instr.fenceLocal, 0x902, fun w => onlyBits w [(0, 0)]), (Instr.fenceIssue, 0x902, fun w => onlyBits w [(0, 0)])],
    ∀ (s : State) (k : CoreId) (w : Word), s.Issues k w e.2.1 (e.2.2 w) [] → (s.core k).Fetchable 8 →
      exec (e.1 k w) s = .next (s.setCore k ((s.core k).past 8))

namespace Sys2Proof.Claims

/-! ### Scalar loads, stores and atomics -/

/-- A core's word that reads or writes memory finds nothing in its way: no broad instruction is outstanding (R84). -/
def memAt (s : State) (k : CoreId) (w : Word) : Word := (s.core k).greg (insRs1 w) + insImm w

/-- The value of a load of `n` bytes (R72). -/
def loaded (n : Nat) (sext : Bool) (v : Nat) : Word :=
  if sext then (BitVec.ofNat (8 * n) v).signExtend 64 else (BitVec.ofNat (8 * n) v).setWidth 64

/-- The far-read line at offset `b` of device `c` holds one of the `n` bytes at `o` of device `d`. -/
def covered (d : Coord) (o n : Nat) (c : Coord) (b : Nat) : Bool := c = d && b < o + n && o < b + 64

/-- The 8-byte atomics (R104, R294): row, REQ operation, new value from the old one, the operand and the compare value. -/
def atomicRows : List ((CoreId → Word → Instr) × Nat × (Word → Word → Word → Word)) :=
  [(.aadd, 2, fun m o _ => m + o), (.amin, 3, fun m o _ => if m.sle o then m else o), (.amax, 4, fun m o _ => if m.sle o then o else m),
   (.aand, 5, fun m o _ => m &&& o), (.aor, 6, fun m o _ => m ||| o), (.axor, 7, fun m o _ => m ^^^ o), (.aswap, 8, fun _ o _ => o),
   (.acas, 9, fun m o c => if m = c then o else m)]

end Sys2Proof.Claims

/-- R72: an aligned load of the own device, of memory that answers, writes its little-endian value to rd, sign-extended with SEXT, and
changes nothing else; a load from a doorbell page reads the ring's number and producer index (R200). -/
def Sys2Proof.Claims.LocalLoadResults : Prop :=
  ∀ (s : State) (k : CoreId) (w : Word) (o : Nat), s.Issues k w 0x200 (legalLd w) [insRd w, insRs1 w] → (s.core k).Fetchable 8 →
    (memAt s k w).toNat % insSize w = 0 → (s.core k).queue = [] → s.decode (memAt s k w) = .here o →
    (s.Permits (s.coreWho k) .rd false o (insSize w) → s.Clean (.ctx (s.core k).ctx) o (insSize w) →
      exec (.ld k w) s =
        .next (s.setCore k (wroteG (s.core k) (insRd w) (loaded (insSize w) (insSext w) (leNat (s.bytes o (insSize w))))))) ∧
    ∀ n off, placeOfRange o (insSize w) = .door n off → insSize w = 8 → off % 8 = 0 →
      exec (.ld k w) s = .next (s.setCore k (wroteG (s.core k) (insRd w) (s.doorbellValue (ringOf n))))

/-- R72: an aligned store to the own device, of memory that answers, stores the low bytes of rs at its address, and changes nothing else but
the core's pc and what the device keeps about that memory. -/
def Sys2Proof.Claims.LocalStoreResults : Prop :=
  ∀ (s : State) (k : CoreId) (w : Word) (o : Nat), s.Issues k w 0x300 (legalSt w) [insRd w, insRs1 w] → (s.core k).Fetchable 8 →
    (memAt s k w).toNat % insSize w = 0 → (s.core k).queue = [] → s.decode (memAt s k w) = .here o →
    s.Permits (s.coreWho k) .wr false o (insSize w) → s.Clean (.ctx (s.core k).ctx) o (insSize w) →
      ∃ t, exec (.st k w) s = .next (t.setCore k ((s.core k).past 8)) ∧ s.Stored t o (leBytes (insSize w) ((s.core k).greg (insRd w)).toNat)

/-- R76: a load, a store and an atomic of another device in the own block each become one request to that device, in that core's order; the
load and the store go on, the atomic waits for its reply at its own word, and a store or an atomic drops the far-read lines it covers, and
keeps loads in flight from filling them. -/
def Obligations.RemoteScalarAccessesBecomeRequests : Prop :=
  ∀ (s : State) (k : CoreId) (w : Word) (d : Coord) (o : Nat), (s.core k).queue = [] → s.inReach d = true →
    s.headFull k d = false →
    (∀ n, n = insSize w → (memAt s k w).toNat % n = 0 → s.decode (memAt s k w) = .there d o →
      (∃ pl, placeOfRange o n = pl ∧ pl ≠ .hole ∧ ∀ x, pl ≠ .setup x) → (s.core k).Fetchable 8 →
      (s.Issues k w 0x200 (legalLd w) [insRd w, insRs1 w] → insFar w = false → s.redirect (.ctx (s.core k).ctx) d o n = d → d ≠ s.self →
        exec (.ld k w) s = .next ((s.request { newReq 0 0x00 d k (s.core k).ctx o
          (.load k (insRd w) (memAt s k w) n (insSext w) (s.core k).pc) with rlen := n }).setCore k ((s.core k).past 8))) ∧
      (s.Issues k w 0x200 (legalLd w) [insRd w, insRs1 w] → insFar w = true →
        (∀ l, (s.core k).lookup d o = some l → l.data.length = 64 →
          exec (.ld k w) s = .next (s.setCore k (wroteG ((s.core k).touchLine l) (insRd w)
            (loaded n (insSext w) (leNat ((l.data.drop (o % 64)).take n)))))) ∧
        ((s.core k).lookup d o = none → s.redirect (.ctx (s.core k).ctx) d (o / 64 * 64) 64 = d → d ≠ s.self →
          exec (.ld k w) s = .next ((s.request { newReq 0 0x00 d k (s.core k).ctx (o / 64 * 64)
            (.far k (insRd w) (memAt s k w) n (insSext w) (s.core k).pc true) with rlen := 64 }).setCore k ((s.core k).past 8)))) ∧
      (s.Issues k w 0x300 (legalSt w) [insRd w, insRs1 w] →
        exec (.st k w) s = .next (((s.request { newReq 0 0x01 d k (s.core k).ctx o (.store k (memAt s k w) (s.core k).pc) with
          payload := leBytes n ((s.core k).greg (insRd w)).toNat }).spoilFills (fun j => j = k) (covered d o n)).setCore k
            (((s.core k).dropLines d o n).past 8)))) ∧
    ∀ e ∈ atomicRows, s.Issues k w (0x3FE + e.2.1) (if e.2.1 = 9 then legalCas w else legalAtomic w)
        ([insRs1 w] ++ [insRd w, insRs2 w] ++ (if e.2.1 = 9 then [insRs3 w] else [])) →
      s.decode ((s.core k).greg (insRs1 w)) = .there d o → placeOfRange o 8 ≠ .hole →
      ∃ q : Req, q.op = e.2.1 ∧ q.dst = d ∧ q.addr = o ∧ q.operand = (s.core k).greg (insRs2 w) ∧ q.rlen = 8 ∧
        exec (e.1 k w) s = .next (((s.request q).spoilFills (fun j => j = k) (covered d o 8)).setCore k ((s.core k).dropLines d o 8))

/-- R76, R294: an 8-byte atomic of the own device performs its read-modify-write in one step: the new value is stored, rd receives the old
one, pd becomes 1; AFADD does so for 4 bytes with the FP32 sum of R33, ACAS2 for 16 bytes with register pairs. -/
def Sys2Proof.Claims.LocalAtomicResults : Prop :=
  ∀ (s : State) (k : CoreId) (w : Word) (o : Nat), (s.core k).queue = [] → (s.core k).Fetchable 8 →
    s.decode ((s.core k).greg (insRs1 w)) = .here o →
    (∀ e ∈ atomicRows, s.Issues k w (0x3FE + e.2.1) (if e.2.1 = 9 then legalCas w else legalAtomic w)
        ([insRs1 w] ++ [insRd w, insRs2 w] ++ (if e.2.1 = 9 then [insRs3 w] else [])) →
      o % 8 = 0 → s.Permits (s.coreWho k) .at_ false o 8 → s.Clean (.ctx (s.core k).ctx) o 8 →
      let m : Word := BitVec.ofNat 64 (leNat (s.bytes o 8))
      ∃ t, exec (e.1 k w) s = .next (t.setCore k ((((s.core k).setG (insRd w) m).setP (insPdA w) true).past 8)) ∧
        s.Stored t o (leBytes 8 (e.2.2 m ((s.core k).greg (insRs2 w)) ((s.core k).greg (insRs3 w))).toNat)) ∧
    (s.Issues k w 0x409 (legalAtomic w) [insRs1 w, insRd w, insRs2 w] → o % 4 = 0 → s.Permits (s.coreWho k) .at_ false o 4 →
      s.Clean (.ctx (s.core k).ctx) o 4 →
      let m := leNat (s.bytes o 4)
      ∃ t, exec (.afadd k w) s = .next (t.setCore k ((((s.core k).setG (insRd w) (BitVec.ofNat 64 m)).setP (insPdA w) true).past 8)) ∧
        s.Stored t o (leBytes 4 (f32Add (BitVec.ofNat 32 m) (((s.core k).greg (insRs2 w)).setWidth 32)).toNat)) ∧
    (s.Issues k w 0x408 (legalCas2 w) [insRs1 w, insRd w, insRd w + 1, insRs2 w, insRs2 w + 1, insRs3 w, insRs3 w + 1] → o % 16 = 0 →
      s.Permits (s.coreWho k) .at_ false o 16 → s.Clean (.ctx (s.core k).ctx) o 16 →
      let m := leNat (s.bytes o 16)
      let pair := fun r : BitVec 5 => ((s.core k).greg r).toNat + 2 ^ 64 * ((s.core k).greg (r + 1)).toNat
      ∃ t, exec (.acas2 k w) s = .next (t.setCore k (((((s.core k).setG (insRd w) (BitVec.ofNat 64 m)).setG (insRd w + 1)
          (BitVec.ofNat 64 (m / 2 ^ 64))).setP (insPdA w) true).past 8)) ∧
        s.Stored t o (leBytes 16 (if m = pair (insRs3 w) then pair (insRs2 w) else m)))

/-- R72, R78: a misaligned load or store takes MISALIGNED with FORMAT, a reserved encoding ADDRESS with FORMAT, an unmapped range ADDRESS with
BOUND, and the setup window PERMISSION with PERM; SYS_BADADDR is the data address, SYS_EPC the word's own, and memory is unchanged. -/
def Obligations.MisalignedAndUnmappedAccessesTrap : Prop :=
  ∀ (s : State) (k : CoreId) (w : Word) (mk : CoreId → Word → Instr),
    (mk = .ld ∧ s.Issues k w 0x200 (legalLd w) [insRd w, insRs1 w] ∨ mk = .st ∧ s.Issues k w 0x300 (legalSt w) [insRd w, insRs1 w]) →
    (s.core k).trapActive = false → (s.core k).tvec.getLsbD 0 = true →
    let a := memAt s k w
    let takes := fun cause st => exec (mk k w) s = .next (s.setCore k ((s.core k).inHandler cause st (s.core k).pc (s.core k).pc a))
    (a.toNat % insSize w ≠ 0 → takes 0x03 .format) ∧
    (a.toNat % insSize w = 0 → (s.core k).queue = [] →
      (s.decode a = .format → takes 0x04 .format) ∧ (s.decode a = .bound → takes 0x04 .bound) ∧
      (∀ o, s.decode a = .here o → placeOfRange o (insSize w) = .hole → takes 0x04 .bound) ∧
      (∀ o x, s.decode a = .here o → placeOfRange o (insSize w) = .setup x → takes 0x05 .perm) ∧
      (∀ d o, s.decode a = .there d o → s.inReach d = false → takes 0x04 .bound))

namespace Sys2Proof.Claims

/-! ### Waits, halts and launches -/

/-- The status of one descriptor is decided; a status decided earlier stands (R218, R386). -/
def decidedAs (d : Desc) (st : Status) (r0 : Word) (r1 : BitVec 32) : Desc :=
  if d.phase = .done || d.phase = .posting then d else { d with phase := .done, status := st, r0 := r0, r1 := r1 }

/-- The descriptors of `s` with that of slot `(n, i)` decided. -/
def decideIn (s : State) (n : RingId) (i : Index) (st : Status) (r0 : Word) (r1 : BitVec 32) : List Desc :=
  s.descs.map (fun d => if d.ring = n && d.idx = i then decidedAs d st r0 r1 else d)

/-- WAITV's word reads 8 bytes of memory of the own device that answers, at `o`. -/
structure Watches (s : State) (k : CoreId) (w : Word) (o : Nat) : Prop where
  decoded : s.decode ((s.core k).greg (insRs1 w)) = .here o
  permitted : s.Permits (s.coreWho k) .rd false o 8
  answers : s.Clean (.ctx (s.core k).ctx) o 8

end Sys2Proof.Claims

/-- R82: HALT begins to wait. HALT_DONE, with every broad instruction retired, every access performed, no fault pending and no broad write
failed, halts the core and completes the launch descriptor with OK, its cycle count a free value (log entry 5); with a fault pending it
delivers the oldest as a trap of the HALT. -/
def Sys2Proof.Claims.HaltWaitsThenCompletesLaunch : Prop :=
  (∀ (s : State) (k : CoreId) (w : Word), s.Issues k w 0x905 (legalNone w) [] →
    exec (.halt k w) s = .next (s.setCore k { s.core k with run := .waiting, wait := .halt })) ∧
  ∀ (s : State) (k : CoreId), (s.core k).run = .waiting → (s.core k).wait = .halt → (s.core k).queue = [] → s.accessesOut k = false →
    (∀ l, (s.core k).launch = some l → (s.core k).pendingTraps = [] → (s.core k).bwFail = [] →
      ∃ t, exec (.haltDone k) s = .next t ∧ t.core k = { s.core k with run := .halted, wait := .none, launch := none } ∧
        t.descs = decideIn s l.ring l.idx .ok (Config.freeValue s.freeCtr) 0 ∧ t.mem = s.mem ∧ t.setup = s.setup ∧ t.fab = s.fab) ∧
    ∀ f fs, (s.core k).pendingTraps = f :: fs → (s.core k).trapActive = false → (s.core k).tvec.getLsbD 0 = true →
      exec (.haltDone k) s = .next (s.setCore k
        ({ s.core k with pendingTraps := fs }.inHandler f.cause f.status f.tinst (s.core k).pc f.bad))

/-- R77: WAITV ends with p7 = 1 when the 8 bytes differ from rd, with p7 = 0 when they do not and the count is zero, and waits otherwise; a
read in the wait ends it with p7 = 1 once the bytes differ and changes nothing before; the count's end gives p7 = 0. -/
def Sys2Proof.Claims.WaitvWaitsForChange : Prop :=
  (∀ (s : State) (k : CoreId) (w : Word) (o : Nat), s.Issues k w 0x906 (legalWaitv w) [insRd w, insRs1 w, insRs1 w + 1] →
    (s.core k).Fetchable 8 → ((s.core k).greg (insRs1 w)).toNat % 8 = 0 → Watches s k w o →
    let v : Word := BitVec.ofNat 64 (leNat (s.bytes o 8))
    (v ≠ (s.core k).greg (insRd w) → exec (.waitv k w) s = .next (s.setCore k (wroteP (s.core k) 7 true))) ∧
    (v = (s.core k).greg (insRd w) → (s.core k).greg (insRs1 w + 1) = 0 →
      exec (.waitv k w) s = .next (s.setCore k (wroteP (s.core k) 7 false))) ∧
    (v = (s.core k).greg (insRd w) → (s.core k).greg (insRs1 w + 1) ≠ 0 →
      exec (.waitv k w) s = .next (s.setCore k { s.core k with run := .waiting, wait := .waitv }))) ∧
  ∀ (s : State) (k : CoreId), (s.core k).run = .waiting → (s.core k).wait = .waitv → (s.core k).Fetchable 8 →
    (s.core k).pendingTraps = [] →
    (∀ o, Watches s k (s.core k).fetched o →
      let v : Word := BitVec.ofNat 64 (leNat (s.bytes o 8))
      (v ≠ (s.core k).greg (insRd (s.core k).fetched) → exec (.waitvWake k) s = .next (s.setCore k (wroteP (s.core k) 7 true))) ∧
      (v = (s.core k).greg (insRd (s.core k).fetched) → exec (.waitvWake k) s = .next s)) ∧
    exec (.waitvCountExpired k) s = .next (s.setCore k (wroteP (s.core k) 7 false))

/-- R86: BWAIT goes on when no more than imm12 broad instructions are queued or executing, and waits otherwise. -/
def Sys2Proof.Claims.BwaitCountsOutstanding : Prop :=
  ∀ (s : State) (k : CoreId) (w : Word), s.Issues k w 0x907 (legalBwait w) [] → (s.core k).Fetchable 8 →
    ((s.core k).queue.length ≤ insImm12 w → exec (.bwait k w) s = .next (s.setCore k ((s.core k).past 8))) ∧
    (insImm12 w < (s.core k).queue.length →
      exec (.bwait k w) s = .next (s.setCore k { s.core k with run := .waiting, wait := .bwait }))

/-- R63: a launch on a free core sets g1 to g4 from the descriptor's arguments, every other general register to zero and p1 to p7 to 0,
takes context, job and step, clears SYS_TVEC and the trap state, keeps the last trap's record, and starts at the entry; a core that
last ran the same context keeps its tray, tiles, accumulators and far-read cache, any other finds them zeroed; other cores and other
memory are unchanged. A core that is trap-halted, fenced or retired completes the descriptor with FENCED. -/
def Obligations.LaunchSetsTheCore : Prop :=
  ∀ (s : State) (k : CoreId) (l : Launch) (d : Desc), s.nextLaunch k = some (l, d) →
    ((s.core k).run = .idle ∨ (s.core k).run = .halted →
      ∃ t, exec (.coreLaunch k) s = .next t ∧
        (∀ r : BitVec 5, (t.core k).greg r = if r = 0 ∨ 4 < r.toNat then 0 else (d.words.drop 4).getD (r.toNat - 1) 0) ∧
        (∀ r : BitVec 3, (t.core k).preg r = decide (r = 0)) ∧
        (t.core k).run = .running ∧ (t.core k).ctx = l.ctx ∧ (t.core k).job = s.jobOf l.ctx ∧
        (t.core k).step = (d.words.getD 2 0).setWidth 32 ∧ (t.core k).pc.toNat = bits (d.words.getD 3 0) 25 11 * 8 ∧
        (t.core k).tvec = 0 ∧ (t.core k).trapActive = false ∧ (t.core k).pendingTraps = [] ∧ (t.core k).epc = 0 ∧
        (t.core k).tinst = 0 ∧ (t.core k).cause = 0 ∧ (t.core k).tstatus = 0 ∧ (t.core k).badaddr = 0 ∧ (t.core k).bdiscard = 0 ∧
        (t.core k).fpflags = 0 ∧ (t.core k).lastTrap = (s.core k).lastTrap ∧
        (∀ j, j ≠ k → t.core j = s.core j) ∧ t.setup = s.setup ∧ t.descs = s.descs ∧ t.launchQ = s.launchQ.filter (fun m => m ≠ l) ∧
        ((s.core k).prevCtx = some l.ctx → t.mem = s.mem ∧ (t.core k).tiles = (s.core k).tiles ∧ (t.core k).acc = (s.core k).acc ∧
          (t.core k).cache = (s.core k).cache) ∧
        ((s.core k).prevCtx ≠ some l.ctx → (t.core k).tiles = [] ∧ (t.core k).acc = [] ∧ (t.core k).cache = [] ∧
          ∀ a, t.byte a = if trayOf k ≤ a ∧ a < trayOf k + 0x400000 then 0 else s.byte a)) ∧
    ((s.core k).run = .trapHalted ∨ (s.core k).run = .fenced ∨ (s.core k).run = .retired →
      exec (.coreLaunch k) s = .next { s with launchQ := s.launchQ.filter (fun m => m ≠ l), descs := decideIn s l.ring l.idx .fenced 0 0 })

namespace Sys2Proof.Claims

/-! ### Broad instructions -/

/-- The broad rows with their OP in class 0xF (R103). -/
def broadRows : List ((CoreId → BroadWords → Instr) × Nat) :=
  [(.tload, 0x00), (.tstore, 0x01), (.xmov, 0x02), (.mma, 0x10), (.conv, 0x11), (.aflush, 0x12), (.ewise, 0x20), (.sfn, 0x21),
   (.rowstat, 0x22), (.smax1, 0x23), (.smax2, 0x24), (.smaxc, 0x25), (.norm, 0x26), (.qnt, 0x27), (.dqnt, 0x28), (.csend, 0x30),
   (.cwait, 0x31), (.headcount, 0x32), (.sync, 0x33), (.farinv, 0x34), (.tblsel, 0x35)]

/-- Core `k` is at a 32-byte-aligned boundary where the four words `b` of operation `op` issue (R83). -/
structure IssuesBroad (s : State) (k : CoreId) (b : BroadWords) (op : Nat) : Prop where
  boundary : s.canIssue k b.w0 = true
  code : insCode b.w0 = 0xF00 + op
  aligned : (s.core k).pc.toNat % 32 = 0
  words : (s.core k).fetched4 = b
  form : legalBroad b = true
  faults : (s.core k).pendingTraps = []
  next : (s.core k).Fetchable 32

/-- The state, and core `k`'s pause count in it, once a retiring instruction's pauses are counted (R148, R150): those of its steps and an open
number (log entry 27); an instruction that ran no step has none. -/
def paused (s : State) (k : CoreId) (b : Broad) : State × Word :=
  match b.pauses with
  | none => (s, (s.core k).pauseCycles)
  | some n => ({ s with freeCtr := s.freeCtr + 1 }, (s.core k).pauseCycles + BitVec.ofNat 64 n + Config.freeValue s.freeCtr)

/-- Instruction `x` of core `k`'s queue with its execution ended in `st`. -/
def ended (c : Core) (id : Nat) (st : Status) : Core :=
  { c with queue := c.queue.map (fun b => if b.id = id then { b with phase := .finished, status := if b.status = .ok then st else b.status } else b) }

end Sys2Proof.Claims

/-- R83: when its guard passes and the queue holds fewer than 8, a broad instruction enters the queue with the register values it names and
the core goes on; a guard that reads 0 only goes on; a full queue stalls; a CLASS 0xF word that is not 32-byte aligned takes ILLEGAL. -/
def Obligations.BroadInstructionsEnterTheQueue : Prop :=
  ∀ e ∈ broadRows, ∀ (s : State) (k : CoreId) (b : BroadWords),
    (IssuesBroad s k b e.2 →
      ((s.core k).guard b.w0 = true → s.regsReady k [b.ga, b.gb, b.gc, b.gd] = true → (s.core k).queue.length < 8 →
        ∃ x : Broad, x.id = (s.core k).nextId ∧ x.addr = (s.core k).pc ∧ x.w = b ∧ x.ga = (s.core k).greg b.ga ∧
          x.gb = (s.core k).greg b.gb ∧ x.gc = (s.core k).greg b.gc ∧ x.gd = (s.core k).greg b.gd ∧ x.stbBank = (s.core k).stbActive ∧
          x.phase = .queued ∧ x.status = .ok ∧
          ∃ c : Core, exec (e.1 k b) s = .next (s.setCore k (c.past 32)) ∧
            c = { s.core k with queue := (s.core k).queue ++ [x], nextId := (s.core k).nextId + 1, flips := c.flips } ∧
            (e.2 ≠ 0x35 → c.flips = [])) ∧
      ((s.core k).guard b.w0 = false → exec (e.1 k b) s = .next (s.setCore k ((s.core k).past 32))) ∧
      ((s.core k).guard b.w0 = true → (s.core k).queue.length = 8 → exec (e.1 k b) s = .next s)) ∧
    (s.canIssue k b.w0 = true → insCode b.w0 = 0xF00 + e.2 → (s.core k).pc.toNat % 32 ≠ 0 → (s.core k).trapActive = false →
      (s.core k).tvec.getLsbD 0 = true →
      exec (e.1 k b) s = .next (s.setCore k ((s.core k).inHandler 0x01 .format (s.core k).pc (s.core k).pc b.w0)))

/-- R85: the oldest instruction, once it has finished with OK, leaves the queue and its pause cycles are counted; one that
finished with another status discards the instructions that have not started, SYS_BDISCARD counts them, and BROAD_FAULT arrives with
its status and its address. -/
def Sys2Proof.Claims.BroadInstructionsRetireInOrder : Prop :=
  ∀ (s : State) (k : CoreId) (b : Broad) (bs : List Broad), (s.core k).queue = b :: bs → b.phase = .finished → s.coresPaused = false →
    (∀ x ∈ bs, x.phase = .queued) →
    (b.status = .ok → (s.core k).halting = none → (s.core k).wait ≠ .bwait →
      exec (.broadRetire k) s = .next ((paused s k b).1.setCore k { s.core k with queue := bs, pauseCycles := (paused s k b).2 })) ∧
    (b.status ≠ .ok → (s.core k).halting = none → (s.core k).run = .running → (s.core k).wait = .none → (s.core k).pendingTraps = [] →
      (s.core k).trapActive = false → (s.core k).tvec.getLsbD 0 = true → s.atomicPending k = false → bs.length < 16 →
      exec (.broadRetire k) s = .next ((paused s k b).1.setCore k
        ({ s.core k with queue := [], bdiscard := BitVec.ofNat 4 bs.length, pauseCycles := (paused s k b).2 }.inHandler
          0x09 b.status b.addr (s.core k).pc 0)))

/-- R125, R142: on an otherwise empty sequencer, BROAD_START of a FARINV ends it with OK and drops the far-read lines that overlap its range,
or all of them, and keeps loads in flight from filling them; nothing else changes. R122, R124: the time limit of a CWAIT and of a SYNC ends it with TIMEOUT, the SYNC's arrival
withdrawn. -/
def Sys2Proof.Claims.BroadStartAndTimeouts : Prop :=
  (∀ (s : State) (k : CoreId) (b : Broad), (s.core k).queue = [b] → b.phase = .queued → b.w.op = 0x34 → s.coresPaused = false →
    (b.w.dest = true → exec (.broadStart k) s = .next ((s.spoilFills (fun j => j = k) (fun _ _ => true)).setCore k (ended { s.core k with cache := [] } b.id .ok))) ∧
    (b.w.dest = false → b.gb.toNat < 2 ^ 32 →
      let hit := fun (c : Coord) (o : Nat) => decide (b.gb.toNat ≠ 0) && decide (b.ga.toNat / 2 ^ 60 = 4) &&
        decide (2 ^ 62 + c.toNat * 2 ^ 48 + o < b.ga.toNat + b.gb.toNat) && decide (b.ga.toNat < 2 ^ 62 + c.toNat * 2 ^ 48 + o + 64)
      exec (.broadStart k) s = .next ((s.spoilFills (fun j => j = k) hit).setCore k (ended { s.core k with
        cache := (s.core k).cache.filter (fun l => !hit l.coord l.base) } b.id .ok)))) ∧
  (∀ (s : State) (k : CoreId) (b : Broad), (s.core k).syncHead = some b →
    exec (.syncTimeout k) s = .next ((s.withdraw k).setCore k (ended (s.core k) b.id .timeout))) ∧
  ∀ (s : State) (k : CoreId) (b : Broad), (s.core k).queue = [b] → b.phase = .started → b.w.op = 0x31 →
    s.cwait b.w.group (BitVec.ofNat 32 b.ga.toNat) b.w.spec b.gb.toNat b.gc.toNat = none →
    exec (.cwaitTimeout k) s = .next (s.setCore k (ended (s.core k) b.id .timeout))

namespace Sys2Proof.Claims

/-! ### Memory controllers and banks -/

/-- The aligned 64-byte unit at `u` is memory of the device that the patrol scrub reads now: scrub enabled, no supply-sag stage, the unit
neither fenced nor poisoned, no error latent. -/
structure Scrubbed (s : State) (u : Nat) : Prop where
  aligned : u % 64 = 0
  place : placeOf u = .lpddr ∨ (∃ c, placeOf u = .sram c) ∨ ∃ k, placeOf u = .tray k
  enabled : s.fld Reg.MEM_SCRUB_CFG Reg.MEM_SCRUB_CFG_ENABLE ≠ 0
  supply : s.stage = 0
  fenced : s.unitFenced u = false
  clean : s.poisoned u = false
  errors : s.ecc = []

/-- Bits [7:0], [15:8], … of MEM_THERM_CFG: HYST, T1, T2, T3 (R187, R194). -/
def thermT (s : State) (l : Nat) : Nat := bits (s.reg Reg.MEM_THERM_CFG) (8 * l + 7) (8 * l)

end Sys2Proof.Claims

/-- R175, R176: the patrol scrub acts on what it finds as a read would: nothing on a clean unit; a correctable error is corrected and, in
LPDDR6, counted; an uncorrectable one of a raw unit sets POISON and, in LPDDR6, is counted; nothing else changes. -/
def Sys2Proof.Claims.PatrolScrubActsAsRead : Prop :=
  ∀ (s : State) (u : Nat), Scrubbed s u →
    exec (.patrolScrub u .clean) s = .next s ∧
    (s.sectors u = 0 → exec (.patrolScrub u .correctable) s = .next (if placeOf u = .lpddr then s.bump (Reg.MEM_CH_STATE (s.pchan u)) Reg.MEM_CH_STATE_CE else s)) ∧
    (s.sectors u = 0 → exec (.patrolScrub u .uncorrectable) s =
      .next (if placeOf u = .lpddr then { s with poison := Maps.add s.poison u }.bump (Reg.MEM_CH_STATE (s.pchan u)) Reg.MEM_CH_STATE_UE
        else { s with poison := Maps.add s.poison u }))

/-- R175: a read of a range with a poisoned unit, or an uncorrectable one, gives no bytes; the uncorrectable unit becomes poisoned; a write
of a whole poisoned unit stores its data and clears POISON; a shorter write to it completes with POISON and changes nothing. -/
def Sys2Proof.Claims.PoisonBlocksReadsUntilWholeUnitWritten : Prop :=
  ∀ (s : State) (u : Nat), u % 64 = 0 → s.unitFenced u = false → s.failsafe = false → s.ecc = [] → s.sectors u = 0 →
    (∀ o n, u ≤ o → 0 < n → o + n ≤ u + 64 → s.poisoned u = true → s.load .ranger o n = (.err .poison, s)) ∧
    (∀ o n, u ≤ o → 0 < n → o + n ≤ u + 64 → s.poisoned u = false →
      ∃ t, { s with ecc := [(u, true)] }.load .ranger o n = (.err .memUncorrectable, t) ∧ t.poisoned u = true ∧ t.ecc = [] ∧ t.mem = s.mem) ∧
    (∀ bs : List Byte, bs.length = 64 → ∃ t, s.store .ranger u bs = (.ok [], t) ∧ t.poisoned u = false ∧
      ∀ a, t.byte a = if u ≤ a ∧ a < u + 64 then bs.getD (a - u) 0 else s.byte a) ∧
    ∀ o (bs : List Byte), u ≤ o → 0 < bs.length → bs.length < 64 → o + bs.length ≤ u + 64 → s.poisoned u = true →
      ∃ t, s.store .ranger o bs = (.err .poison, t) ∧ t.mem = s.mem ∧ t.poison = s.poison

/-- R186: dt ns after its last refill, the half-bucket of a context on an edge die, counted in half bytes, has gained half its rate and holds at
most half its depth, and what waited on it may test again; nothing else changes. -/
def Sys2Proof.Claims.RegulatorRefillsHalfBucket : Prop :=
  ∀ (s : State) (x : Ctx) (die : Fin 2) (dt : Nat),
    ∃ t, exec (.regulatorRetest x die dt) s = .next t ∧ t = { s with buckets := t.buckets, regWait := t.regWait } ∧
      Maps.get 0 t.buckets (2 * x.val + die.val) =
        min ((s.fld (Reg.MEM_CTX x) Reg.MEM_CTX_DEPTH : Int) * 1024)
          (Maps.get 0 s.buckets (2 * x.val + die.val) + (s.fld (Reg.MEM_CTX x) Reg.MEM_CTX_RATE : Int) * dt) ∧
      (∀ key, key ≠ 2 * x.val + die.val → Maps.get 0 t.buckets key = Maps.get 0 s.buckets key) ∧
      ∀ key, key ∈ t.regWait ↔ key ∈ s.regWait ∧ key ≠ 2 * x.val + die.val

/-- R185, R183, R382: a channel that fails in service, or that its reset row names, is fenced and counted while a spare of some edge die is
free; the recalibrated spare takes its place in MEM_CHMAP, the lowest free one of its own die before the other's; the written spare
serves, its units zero and poisoned, its record appended and CHANNEL_SPARED posted. -/
def Sys2Proof.Claims.FailedChannelIsSpared : Prop :=
  (∀ (s : State) (pc : PhysChan) (src : Source) (sp : Nat), s.mayUse src = true → s.memChState pc = 0 →
    s.freeSpare (dieOfPhys pc) = some sp → sp ≠ pc →
    let t := (s.setFld (Reg.MEM_CH_STATE pc) Reg.MEM_CH_STATE_STATE 2).bump Reg.MEM_STATUS Reg.MEM_STATUS_FAILED
    exec (.channelFailed pc) s = .next t ∧ exec (.resetChannel src pc) s = .next t) ∧
  (∀ (s : State) (pc : PhysChan) (l sp : Nat), s.memChState pc = 2 → s.servedBy pc = some l → s.freeSpare (dieOfPhys pc) = some sp →
    exec (.spareRecalibrated pc) s = .next ((((s.setFld (Reg.MEM_CHMAP l) Reg.MEM_CHMAP_PHYS sp).setFld Reg.MEM_STATUS
      Reg.MEM_STATUS_SPARES_FREE (s.fld Reg.MEM_STATUS Reg.MEM_STATUS_SPARES_FREE - 1)).setFld (Reg.MEM_CH_STATE sp)
        Reg.MEM_CH_STATE_STATE 3).setFld (Reg.MEM_CH_LB sp) Reg.MEM_CH_LB_MODE 0)) ∧
  (∀ (s : State) (pc : PhysChan) (l : Nat), s.memChState pc = 3 → s.servedBy pc = some l →
    exec (.spareFillDone pc) s = .next (((((s.fillPoison l).setFld (Reg.MEM_CH_STATE pc) Reg.MEM_CH_STATE_STATE 0).setFld (Reg.MEM_CH_LB pc)
      Reg.MEM_CH_LB_MODE 0).recordSparing).post
      (event 0x0101 (Config.detail 0x0101 [l, pc.val]) none))) ∧
  ∀ (s : State) (l a : Nat), (s.fillPoison l).byte a = if a < lpddrTop ∧ lchan a = l then 0 else s.byte a

/-- R193: a write to MODE clears ERRORS, sets MODE in states 1, 2, 4 and 5, and leaves MODE reading 0 in any other state; a channel that
runs loop-back is noted: it serves again only after the next start has trained it. -/
def Sys2Proof.Claims.LoopbackModeFollowsChannelState : Prop :=
  ∀ (s : State) (src : Source) (pc : PhysChan) (mode : BitVec 2), s.mayUse src = true →
    let st := s.fld (Reg.MEM_CH_STATE pc) Reg.MEM_CH_STATE_STATE
    ∃ t, exec (.loopbackMode src pc mode) s = .next t ∧ t = { s with setup := t.setup, looped := t.looped } ∧
      t.looped = (if (st = 1 ∨ st = 2 ∨ st = 4 ∨ st = 5) ∧ (mode = 1 ∨ mode = 2) then Maps.add s.looped pc else s.looped) ∧
      t.fld (Reg.MEM_CH_LB pc) Reg.MEM_CH_LB_ERRORS = 0 ∧
      t.fld (Reg.MEM_CH_LB pc) Reg.MEM_CH_LB_MODE = (if st = 1 ∨ st = 2 ∨ st = 4 ∨ st = 5 then mode.toNat else 0) ∧
      ∀ off, off ≠ Reg.MEM_CH_LB pc → t.reg off = s.reg off

/-- R187: of a package at level 0, a readout sets level 0, 1 or 2 by the thresholds it reaches, and the level throttles its channels; the register
holds the readout. -/
def Sys2Proof.Claims.PackageTemperatureSetsLevel : Prop :=
  ∀ (s : State) (p : Fin 26) (t : BitVec 8) (l : Nat),
    (l = 0 ∨ l = 1 ∨ l = 2) → (0 < l → (thermT s l : Int) ≤ t.toInt) → (∀ j, l < j → j ≤ 3 → t.toInt < (thermT s j : Int)) →
    Maps.get 0 s.power.pkg p = 0 → s.power.west = 0 → s.power.east = 0 → s.fld (Reg.MEM_PKG_TEMP p) Reg.MEM_PKG_TEMP_LEVEL = 0 →
    ∃ r, exec (.pkgTempRead p t) s = .next r ∧ r.fld (Reg.MEM_PKG_TEMP p) Reg.MEM_PKG_TEMP_TEMP = t.toNat ∧
      r.fld (Reg.MEM_PKG_TEMP p) Reg.MEM_PKG_TEMP_LEVEL = l ∧
      (∀ q < 4, r.fld (Reg.MEM_CH_STATE (4 * p + q)) Reg.MEM_CH_STATE_THROTTLE = l) ∧ r.mem = s.mem ∧ r.cores = s.cores

/-- R190, R191: ENABLE from 0 to 1 clears the active bitmap; SWAP freezes the active bitmap, starts a cleared one, counts and sets BUSY; a
SWAP while BUSY only sets OVERRUN; the bitmap's write, where it succeeds, puts its bytes where the swap found MEM_DIRTY_BASE, clears BUSY and sets no
dirty bit. -/
def Obligations.DirtyBitmapSwapsAndIsWritten : Prop :=
  (∀ (s : State) (src : Source), s.mayUse src = true → s.fld Reg.SNAP_CFG Reg.SNAP_CFG_ENABLE = 0 →
    (s.fld Reg.MEM_DIRTY_CTRL Reg.MEM_DIRTY_CTRL_ENABLE = 0 → exec (.memDirtyEnable src) s =
      .next { s.setFld Reg.MEM_DIRTY_CTRL Reg.MEM_DIRTY_CTRL_ENABLE 1 with dirtyActive := [] }) ∧
    (s.fld Reg.MEM_DIRTY_STATUS Reg.MEM_DIRTY_STATUS_BUSY = 0 →
      s.fld Reg.MEM_DIRTY_BASE Reg.MEM_DIRTY_BASE_BASE * 4096 + 142976 ≤ lpddrTop →
      ∃ t, exec (.swap src) s = .next t ∧ t.dirtyFrozen = s.dirtyActive ∧ t.dirtyActive = [] ∧
        t.dirtyAt = s.fld Reg.MEM_DIRTY_BASE Reg.MEM_DIRTY_BASE_BASE * 4096 ∧
        t.fld Reg.MEM_DIRTY_STATUS Reg.MEM_DIRTY_STATUS_SWAPS = (s.fld Reg.MEM_DIRTY_STATUS Reg.MEM_DIRTY_STATUS_SWAPS + 1) % 2 ^ 32 ∧
        t.fld Reg.MEM_DIRTY_STATUS Reg.MEM_DIRTY_STATUS_BUSY = 1 ∧
        t.fld Reg.MEM_DIRTY_CTRL Reg.MEM_DIRTY_CTRL_ENABLE = s.fld Reg.MEM_DIRTY_CTRL Reg.MEM_DIRTY_CTRL_ENABLE ∧
        t = { s with setup := t.setup, dirtyFrozen := t.dirtyFrozen, dirtyActive := t.dirtyActive, dirtyAt := t.dirtyAt }) ∧
    (s.fld Reg.MEM_DIRTY_STATUS Reg.MEM_DIRTY_STATUS_BUSY = 1 → ∃ t, exec (.swap src) s = .next t ∧
      t.dirtyFrozen = s.dirtyFrozen ∧ t.dirtyActive = s.dirtyActive ∧
      t.fld Reg.MEM_DIRTY_STATUS Reg.MEM_DIRTY_STATUS_OVERRUN = 1 ∧ t.fld Reg.MEM_DIRTY_STATUS Reg.MEM_DIRTY_STATUS_BUSY = 1)) ∧
  ∀ (s : State), s.fld Reg.MEM_DIRTY_STATUS Reg.MEM_DIRTY_STATUS_BUSY = 1 →
    s.Clean .ranger s.dirtyAt 142976 →
    ∃ t, exec .dirtyBitmapWritten s = .next (t.setFld Reg.MEM_DIRTY_STATUS Reg.MEM_DIRTY_STATUS_BUSY 0) ∧ t.dirtyActive = s.dirtyActive ∧
      s.Stored t s.dirtyAt (bitmapBytes s.dirtyFrozen)

/-- R149, R126: at the next boundary the shadow step-table bank of a load that asked for a flip becomes active and the old one its unaccepted
shadow, and the load completes with OK; a TBLSEL whose shadow bank is accepted does the same, and one whose bank is not accepted is
refused with TABLE_REJECTED and no flip. R130: a validated load counts a generation and is accepted, and one that fails is refused. -/
def Sys2Proof.Claims.StepTableBanksFlipWhenAccepted : Prop :=
  (∀ (s : State) (k : CoreId) (n : RingId) (i : Index) (d : Desc), (s.core k).flips = [⟨true, 0, none, some (n, i)⟩] →
    s.desc n i = some d → d.phase = .working → d.typ = 0x12 → coreOf (d.words.getD 3 0) = k →
    ∃ t, exec (.bankFlip k) s = .next t ∧ (t.core k).stbActive = !(s.core k).stbActive ∧ (t.core k).flips = [] ∧
      (t.core k).shadowStb.accepted = false ∧ (t.core k).stb (t.core k).stbActive = (s.core k).shadowStb ∧
      t.descs = decideIn s n i .ok ((s.core k).stbGen.setWidth 64) 0) ∧
  (∀ (s : State) (k : CoreId) (id : Nat), (s.core k).flips = [⟨true, 0, some id, none⟩] →
    ((s.core k).shadowStb.accepted = true → ∃ t, exec (.bankFlip k) s = .next (s.setCore k t) ∧ t.stbActive = !(s.core k).stbActive ∧
      t.flips = [] ∧ t.stb t.stbActive = (s.core k).shadowStb ∧ t.queue = (s.core k).queue) ∧
    ((s.core k).shadowStb.accepted = false → exec (.bankFlip k) s = .next (s.setCore k { s.core k with
      flips := [], queue := (s.core k).queue.map (fun b => if some b.id = some id then { b with status := .tableRejected } else b) }))) ∧
  ∀ (s : State) (k : CoreId) (d : Desc), (s.core k).stbLoading = true → s.loadOn k 0x12 = some d →
    (∀ j, (s.core k).shadowStb.check = .error j → exec (.stepTableValidated k) s = .next
      { s.setCore k { s.core k with stbLoading := false } with descs := decideIn s d.ring d.idx .tableRejected (BitVec.ofNat 64 j) 0 }) ∧
    ∀ hs, (s.core k).shadowStb.check = .ok hs → bits (d.words.getD 3 0) 8 8 = 0 →
      ∃ t, exec (.stepTableValidated k) s = .next t ∧ (t.core k).stbLoading = false ∧ (t.core k).stbGen = (s.core k).stbGen + 1 ∧
        (t.core k).shadowStb.accepted = true ∧ (t.core k).stbActive = (s.core k).stbActive ∧
        t.descs = decideIn s d.ring d.idx .ok (((s.core k).stbGen + 1).setWidth 64) 0

/-- R158, R171: a slot table that passes its check is accepted in the slot's shadow bank, with its owner, and counts a generation; one that
fails leaves the bank as it was; either way the slot is no longer loading. -/
def Sys2Proof.Claims.SlotTablesAreAcceptedOrRefused : Prop :=
  ∀ (s : State) (k : CoreId) (slot : Fin 16) (d : Desc), ((s.core k).slot slot.val).loading = true → s.loadOn k 0x13 = some d →
    ∃ t, exec (.sfnTableChecked k slot) s = .next t ∧ ((t.core k).slot slot.val).loading = false ∧
      ((slotCheck ((s.core k).slot slot.val).shadow.words).isSome = true →
        ((t.core k).slot slot.val).shadow.accepted = true ∧
        ((t.core k).slot slot.val).shadow.words = ((s.core k).slot slot.val).shadow.words ∧
        ((t.core k).slot slot.val).gen = ((s.core k).slot slot.val).gen + 1) ∧
      ((slotCheck ((s.core k).slot slot.val).shadow.words).isSome = false →
        ((t.core k).slot slot.val).shadow = ((s.core k).slot slot.val).shadow ∧
        ((t.core k).slot slot.val).gen = ((s.core k).slot slot.val).gen) ∧
      (∀ n, n ≠ slot.val → (t.core k).slot n = (s.core k).slot n)

namespace Sys2Proof.Claims

/-! ### The setup window and work rings -/

/-- Registers whose writes do more than their fields' access types say (R442); each has its own subject. -/
def subjectRegs : List RegName :=
  [.MEM_DIRTY_CTRL, .MEM_DIRTY_BASE, .MEM_CH_LB, .RING_CFG, .RING_FLAGS, .RING_EVT_CFG, .OPTIC_ENG_CTRL, .OPTIC_LSM_CTRL, .ROUTE_TBL_CTRL,
   .FAB_RT_CTRL, .FAB_REPL_CFG, .COLL_BUF_BASE, .COLL_BUF_SIZE, .FRONT_CTRL, .FRONT_TIME_CFG, .FRONT_EXR_CFG, .FRONT_EXR_TABLE, .SNAP_CFG,
   .POLICY_SNAP_CFG, .ERR_RESET_CTRL, .ERR_ABORT, .ERR_CTX, .CLKPWR_ISL_FREQ, .POLICY_PWR_CFG, .POLICY_THERM_CFG, .POLICY_SHED_CFG,
   .BOOT_CFG, .BOOT_UPD_CTRL, .PRES_REQ]

/-- A bit of a field after a write, from the bit before, the bit written, the setup lock and the unit's ENABLE (R8). -/
def bitAfter (a : Access) (locked on old v : Bool) : Bool :=
  match a with
  | .ro => old
  | .wo => old
  | .rw => v
  | .w1c => old && !v
  | .w1s => old || v
  | .rwl => if locked then old else v
  | .rwOff => if on then old else v

/-- `n`'s oldest descriptor is `d`. -/
structure Oldest (s : State) (n : RingId) (d : Desc) : Prop where
  found : s.descs.find? (fun e => e.ring = n && e.idx = d.idx) = some d
  ring : d.ring = n
  consumed : d.idx.toNat = s.fld (Reg.RING_STATE n) Reg.RING_STATE_CIDX

end Sys2Proof.Claims

/-- R7, R8, R441, R443, R446: an aligned 64-bit write of a register without a subject changes each bit by its field's access type, leaves
reserved bits, and changes no other register but LOCKED_WRITES; SETUP_LOCK sets the lock; any other size or alignment only posts the INFO
event; an offset without a register ignores the write; who may not use the window gets PERM. The management port's read returns status and
word, and its write to PRES_REQ is refused. -/
def Obligations.SetupWindowFollowsAccessTypes : Prop :=
  (∀ (s : State) (src : Source) (off : BitVec 24) (v : Word) (r : RegName) (is : List Nat), s.mayUse src = true → off.toNat % 8 = 0 →
    regAt off.toNat = some (r, is) → r ∉ subjectRegs →
    ∃ t, exec (.setupWrite src 8 off v) s = .next t ∧ t = { s with setup := t.setup } ∧
      (∀ f ∈ r.fieldsAt is, ∀ b, f.fld.lo ≤ b → b ≤ f.fld.hi → (t.reg off.toNat).getLsbD b =
        bitAfter f.acc s.locked (s.unitOn r is) ((s.reg off.toNat).getLsbD b) (v.getLsbD b)) ∧
      (∀ b < 64, (∀ f ∈ r.fieldsAt is, ¬(f.fld.lo ≤ b ∧ b ≤ f.fld.hi)) → (t.reg off.toNat).getLsbD b = (s.reg off.toNat).getLsbD b) ∧
      ∀ o, o ≠ off.toNat → (o = Reg.IDENT_LOCK → s.locked = false) → t.reg o = s.reg o) ∧
  (∀ (s : State) (src : Source), s.mayUse src = true →
    ∃ t, exec (.setupLock src) s = .next t ∧ t.locked = true ∧ t = { s with setup := t.setup } ∧ ∀ o, o ≠ Reg.IDENT_LOCK → t.reg o = s.reg o) ∧
  (∀ (s : State) (src : Source) (size : Nat) (off : BitVec 24) (v : Word), s.mayUse src = true → badAccess size off.toNat = true →
    exec (.setupWrite src size off v) s = .next (s.post (event 0x0001 (BitVec.ofNat 48 off.toNat) none))) ∧
  (∀ (s : State) (src : Source) (size : Nat) (off : BitVec 24) (v : Word), s.mayUse src = true → badAccess size off.toNat = false →
    regAt (off.toNat / 8 * 8) = none → exec (.setupWrite src size off v) s = .next s) ∧
  (∀ (s : State) (x : Ctx) (size : Nat) (off : BitVec 24) (v : Word),
    exec (.setupWrite (.agent x) size off v) s = .next { s with out := s.out ++ [.answer .perm 0] }) ∧
  (∀ (s : State) (off : BitVec 24), off.toNat % 8 = 0 → exec (.mgmtRead off) s =
    .next { s with out := s.out ++ [.mgmt (leBytes 1 0 ++ leBytes 8 (s.setupWord off.toNat).toNat)] }) ∧
  (∀ (s : State) (off : BitVec 24) (v : Word), off.toNat % 8 = 0 → off.toNat ≠ Reg.PRES_REQ →
    exec (.mgmtWrite off v) s = .next ((s.setupWrite .mgmt 8 off.toNat v).emit (.mgmt (leBytes 1 0)))) ∧
  ∀ (s : State) (v : Word), exec (.mgmtWrite (BitVec.ofNat 24 Reg.PRES_REQ) v) s = .next { s with out := s.out ++ [.mgmt (leBytes 1 3)] }

/-- R196, R221, R225: RING_CFG with ENABLE = 1 sets the written fields and ENABLE when the checks of R196 pass, else CFG_ERR alone is set
beside them; ENABLE = 0 clears ENABLE and drops the slot being read; an event ring's ENABLE follows its own checks. R219: STOPPED clears where 1 is written. R199, R200: a
doorbell store advances PIDX, a rejected one is counted and reported, one without authority gets PERM; a load returns the ring and PIDX. -/
def Obligations.RingsAreEnabledAndRung : Prop :=
  (∀ (s : State) (src : Source) (n : RingId) (v : Word), s.mayUse src = true → s.fld (Reg.RING_CFG n) Reg.RING_CFG_ENABLE = 0 →
    let u := s.writeWord .RING_CFG [n.val] (Reg.RING_CFG n) (setBit v 63 false) (-1)
    (v.getLsbD 63 = true → u.ringOk n = true → exec (.ringEnable src n v) s = .next (u.setFld (Reg.RING_CFG n) Reg.RING_CFG_ENABLE 1)) ∧
    (v.getLsbD 63 = true → u.ringOk n = false → exec (.ringEnable src n v) s = .next (u.setFld (Reg.RING_FLAGS n) Reg.RING_FLAGS_CFG_ERR 1)) ∧
    ∀ f ∈ [Reg.RING_CFG_STOP_ON_ERROR, Reg.RING_CFG_SYSTEM, Reg.RING_CFG_CTX, Reg.RING_CFG_CLASS, Reg.RING_CFG_ENGINE, Reg.RING_CFG_LOG2SIZE,
      Reg.RING_CFG_INFLIGHT, Reg.RING_CFG_SEQ_WAIT_US], u.fld (Reg.RING_CFG n) f = bits v f.hi f.lo) ∧
  (∀ (s : State) (src : Source) (n : RingId) (v : Word), s.mayUse src = true → v.getLsbD 63 = false →
    ∃ t, exec (.ringDisable src n v) s = .next t ∧ t.fld (Reg.RING_CFG n) Reg.RING_CFG_ENABLE = 0 ∧ t = { s with
        setup := t.setup, fetches := s.fetches.filter (fun f => f.ring ≠ n), fab := (s.disown (fun o => o.slotOf n)).fab } ∧
      ∀ o, o ≠ Reg.RING_CFG n → t.reg o = s.reg o) ∧
  (∀ (s : State) (src : Source) (e : EvtRing) (v : Word), s.mayUse src = true → v.getLsbD 63 = true →
    s.fld (Reg.RING_EVT_CFG e) Reg.RING_EVT_CFG_ENABLE = 0 → 4 ≤ bits v 39 35 → bits v 39 35 ≤ 20 →
    (s.reg (Reg.RING_EVT_BASE e)).toNat % 32 = 0 → (s.reg (Reg.RING_EVT_CIDX_ADDR e)).toNat % 8 = 0 →
    ∃ t, exec (.evtRingEnable src e v) s = .next t ∧ t.fld (Reg.RING_EVT_CFG e) Reg.RING_EVT_CFG_ENABLE = 1 ∧
      t.fld (Reg.RING_EVT_CFG e) Reg.RING_EVT_CFG_LANTERN = bits v 62 62 ∧ t.fld (Reg.RING_EVT_CFG e) Reg.RING_EVT_CFG_LOG2SIZE = bits v 39 35 ∧
      t = { s with setup := t.setup, evtCons := t.evtCons } ∧ ∀ o, o ≠ Reg.RING_EVT_CFG e → t.reg o = s.reg o) ∧
  (∀ (s : State) (src : Source) (us : BitVec 32), s.mayUse src = true →
    ∃ t, exec (.lanternPeriodWrite src us) s = .next t ∧ t.fld Reg.RING_LANTERN Reg.RING_LANTERN_PERIOD_US = us.toNat ∧
      t = { s with setup := t.setup } ∧ ∀ o, o ≠ Reg.RING_LANTERN → t.reg o = s.reg o) ∧
  (∀ (s : State) (src : Source) (n : RingId), s.mayUse src = true →
    ∃ t, exec (.ringStoppedClear src n) s = .next t ∧ t.fld (Reg.RING_FLAGS n) Reg.RING_FLAGS_STOPPED = 0 ∧
      t.fld (Reg.RING_FLAGS n) Reg.RING_FLAGS_FAULTED = s.fld (Reg.RING_FLAGS n) Reg.RING_FLAGS_FAULTED ∧ t = { s with setup := t.setup } ∧
      ∀ o, o ≠ Reg.RING_FLAGS n → t.reg o = s.reg o) ∧
  (∀ (s : State) (src : Source) (n : RingId) (v : Word), s.sourceAuth src = s.ringAuth n →
    s.fld (Reg.RING_CFG n) Reg.RING_CFG_ENABLE = 1 →
    let p := bits v 31 0
    let d := (p + 2 ^ 32 - s.fld (Reg.RING_STATE n) Reg.RING_STATE_PIDX) % 2 ^ 32
    let ahead := (p + 2 ^ 32 - s.fld (Reg.RING_STATE n) Reg.RING_STATE_CIDX) % 2 ^ 32
    let size := 2 ^ s.fld (Reg.RING_CFG n) Reg.RING_CFG_LOG2SIZE
    (bits v 63 48 = n.val → bits v 47 32 = 0 → d ≠ 0 → d < 2 ^ 31 → ahead ≤ size →
      exec (.doorbell src n 0 8 v) s = .next { s.setFld (Reg.RING_STATE n) Reg.RING_STATE_PIDX p with out := s.out ++ [.answer .ok 0] }) ∧
    (bits v 63 48 = n.val → bits v 47 32 = 0 → d = 0 ∨ 2 ^ 31 ≤ d →
      exec (.doorbell src n 0 8 v) s = .next { s with out := s.out ++ [.answer .ok 0] }) ∧
    (bits v 63 48 = n.val → bits v 47 32 = 0 → d ≠ 0 → d < 2 ^ 31 → size < ahead →
      exec (.doorbell src n 0 8 v) s = .next ((s.rejectDoorbell n p).emit (.answer .ok 0))) ∧
    (bits v 63 48 ≠ n.val ∨ bits v 47 32 ≠ 0 → exec (.doorbell src n 0 8 v) s = .next ((s.rejectDoorbell n p).emit (.answer .format 0)))) ∧
  (∀ (s : State) (src : Source) (n : RingId) (v : Word), s.sourceAuth src ≠ s.ringAuth n →
    exec (.doorbell src n 0 8 v) s = .next { s with out := s.out ++ [.answer .perm 0] }) ∧
  ∀ (s : State) (n : RingId) (off : BitVec 12), off.toNat % 8 = 0 → exec (.doorbellRead n off 8) s = .next { s with
    out := s.out ++ [.answer .ok (BitVec.ofNat 64 (n.val * 2 ^ 48 + s.fld (Reg.RING_STATE n) Reg.RING_STATE_PIDX))] }

/-- R195, R202, R203, R214: a ring that may start reads its next slot; with the slot's SEQ equal to the index the descriptor starts, or gets
FORMAT for a malformed header or a type of another class; one with BARRIER, a WAIT or a WRITE waits for all before it; with another SEQ the slot is held and read again, and at the end of the wait it
completes with TIMEOUT and the SEQ last read. R217 to R220: the oldest decided descriptor's record is stored in the completion array, CIDX
moves on and STOPPED is set for an error under STOP_ON_ERROR that STOPPED itself did not decide; a LAUNCH's STEP becomes its context's last; clearing FAULTED retries it. R224: a Lantern period of 0 writes nothing. -/
def Obligations.RingsStartAndCompleteInOrder : Prop :=
  (∀ (s : State) (n : RingId) (o : Nat),
    let i := s.nextIndex n
    s.decode (s.reg (Reg.RING_BASE n) + BitVec.ofNat 64 (64 * (i.toNat % 2 ^ s.fld (Reg.RING_CFG n) Reg.RING_CFG_LOG2SIZE))) = .here o →
    s.Permits (s.me (s.ringAuth n)) .rd false o 64 → s.Clean (s.ringAuth n) o 64 →
    let ws := wordsOf (s.bytes o 64)
    let alone := slotFlags ws % 2 = 1 ∨ slotType ws = 0x02 ∨ slotType ws = 0x03
    (s.mayStart n = true → slotSeq ws = i.toNat → (alone → s.inRing n = []) → exec (.descriptorStart n) s = .next { s with
      fetches := s.fetches.filter (fun f => f.ring ≠ n)
      descs := s.descs ++ [{ newDesc n i ws (slotType ws) (s.startStatus n ws) 0 with barred := s.stopped n }] }) ∧
    (s.mayStart n = true → slotSeq ws = i.toNat → alone → s.inRing n ≠ [] → exec (.descriptorStart n) s = .next { s with
      fetches := s.fetches.filter (fun f => f.ring ≠ n) }) ∧
    (s.mayStart n = true → slotSeq ws ≠ i.toNat → exec (.descriptorStart n) s = .next { s with
      fetches := s.fetches.filter (fun f => f.ring ≠ n) ++ [⟨n, i, ws, false⟩] }) ∧
    (s.mayStart n = false → exec (.descriptorStart n) s = .next s) ∧
    ∀ f : Fetch, s.fetches.find? (fun f => f.ring = n && !f.reading) = some f → s.mayGo n = true →
      (f.idx = i → slotSeq ws ≠ i.toNat → exec (.seqRecheck n) s = .next { s with
        fetches := s.fetches.filter (fun f => f.ring ≠ n) ++ [⟨n, i, ws, false⟩] }) ∧
      exec (.seqWaitTimeout n) s = .next { s with
        fetches := s.fetches.filter (fun f => f.ring ≠ n)
        descs := s.descs ++ [newDesc n f.idx f.words (slotType f.words) (some .timeout) (BitVec.ofNat 64 (slotSeq f.words))] }) ∧
  (∀ (s : State) (n : RingId) (ws : List Word), s.fld (Reg.RING_CFG n) Reg.RING_CFG_STOP_ON_ERROR = 0 →
    s.fld (Reg.RING_CFG n) Reg.RING_CFG_SYSTEM = 1 → s.engineFenced n = false →
    (s.startStatus n ws = none ↔ bits (ws.getD 0 0) 31 9 = 0 ∧ bits (ws.getD 2 0) 63 32 = 0 ∧
      typeOk (s.fld (Reg.RING_CFG n) Reg.RING_CFG_CLASS) (slotType ws) = true) ∧
    (s.startStatus n ws = none ∨ s.startStatus n ws = some .format)) ∧
  (∀ (s : State) (n : RingId) (d : Desc) (o : Nat), Oldest s n d → d.phase = .done → d.held = false → s.failsafe = false → d.typ ≠ 0x10 →
    s.fld (Reg.RING_CFG n) Reg.RING_CFG_SYSTEM = 1 →
    s.decode (s.reg (Reg.RING_CPL n) + BitVec.ofNat 64 (32 * (d.idx.toNat % 2 ^ s.fld (Reg.RING_CFG n) Reg.RING_CFG_LOG2SIZE))) = .here o →
    o % 32 = 0 → s.Permits (s.me .ranger) .wr false o 32 → s.Clean .ranger o 32 →
    (s.fld (Reg.RING_FLAGS n) Reg.RING_FLAGS_FAULTED = 0 → ∃ u, s.Stored u o (s.cplRecord d) ∧ exec (.descriptorFinish n) s = .next (u.cplDone n)) ∧
    (s.fld (Reg.RING_FLAGS n) Reg.RING_FLAGS_FAULTED = 1 → ∀ src, s.mayUse src = true → ∃ t, exec (.ringFaultedRetry src n) s = .next t ∧
      t.fld (Reg.RING_FLAGS n) Reg.RING_FLAGS_FAULTED = 0 ∧ (∀ e ∈ t.descs, ¬(e.ring = n ∧ e.idx = d.idx)) ∧
      t.fld (Reg.RING_STATE n) Reg.RING_STATE_CIDX = (s.fld (Reg.RING_STATE n) Reg.RING_STATE_CIDX + 1) % 2 ^ 32)) ∧
  (∀ (s : State) (n : RingId) (d : Desc), Oldest s n d → d.typ ≠ 0x10 → s.fld (Reg.RING_CFG n) Reg.RING_CFG_SYSTEM = 1 →
    (s.cplDone n).fld (Reg.RING_STATE n) Reg.RING_STATE_CIDX = (s.fld (Reg.RING_STATE n) Reg.RING_STATE_CIDX + 1) % 2 ^ 32 ∧
    (s.cplDone n).descs = s.descs.filter (fun e => !(e.ring = n && e.idx = d.idx)) ∧ (s.cplDone n).mem = s.mem ∧
    (d.status ≠ .ok → d.barred = false → s.fld (Reg.RING_CFG n) Reg.RING_CFG_STOP_ON_ERROR = 1 →
      (s.cplDone n).fld (Reg.RING_FLAGS n) Reg.RING_FLAGS_STOPPED = 1)) ∧
  (∀ (s : State) (n : RingId) (d : Desc), Oldest s n d → d.typ = 0x10 →
    Maps.get 0 (s.cplDone n).lastStep (s.ringCtx n) = d.step) ∧
  ∀ (s : State), (s.fld Reg.RING_LANTERN Reg.RING_LANTERN_PERIOD_US = 0 → exec .lantern s = .next s) ∧
    (s.fld Reg.RING_LANTERN Reg.RING_LANTERN_PERIOD_US ≠ 0 → s.failsafe = false →
      exec .lantern s = .next ((List.range 65).foldl (fun r e => r.lanternTo s.devTime e) s))

namespace Sys2Proof.Claims

/-! ### Descriptors -/

/-- In `t`, descriptor `i` of ring `n` is `d`; every other descriptor is as in `s`. -/
structure Turned (s t : State) (n : RingId) (i : Index) (d : Desc) : Prop where
  now : t.desc n i = some d
  rest : ∀ m j, ¬(m = n ∧ j = i) → t.desc m j = s.desc m j

/-- Descriptor `i` of ring `n` is decided with a status and RESULT0. -/
def Finished (t : State) (n : RingId) (i : Index) (st : Status) (r0 : Nat) : Prop :=
  ∃ d, t.desc n i = some d ∧ d.phase = .done ∧ d.status = st ∧ d.r0 = BitVec.ofNat 64 r0

/-- `n` bytes at global address `a` are memory of the own device at `o` that ring `r` may read, and that answers. -/
structure Readable (s : State) (r : RingId) (reach : Bool) (a n o : Nat) : Prop where
  place : s.locate reach a n = .here o
  permitted : s.Permits (s.me (s.ringAuth r)) .rd false o n
  answers : s.Clean (s.ringAuth r) o n

/-- The same for writing. -/
structure Writable (s : State) (r : RingId) (reach : Bool) (a n o : Nat) : Prop where
  place : s.locate reach a n = .here o
  permitted : s.Permits (s.me (s.ringAuth r)) .wr false o n
  answers : s.Clean (s.ringAuth r) o n

/-- The words of a WAIT pass its checks (R205). -/
structure WaitFormed (d : Desc) : Prop where
  aligned : (d.word 3).toNat % 8 = 0
  reserved : bits (d.word 6) 63 34 = 0
  timeout : bits (d.word 6) 31 0 ≠ 0
  zero : d.word 7 = 0

end Sys2Proof.Claims

/-- R205: NOP completes with OK, or FORMAT when a word it does not use is not zero; WAIT completes with OK and the word read once its condition
holds, keeps the word read and waits otherwise, is read again by a poll, and times out with TIMEOUT and the last word; WRITE stores its 8
bytes and completes with OK. R206: LAUNCH waits for its core, in order, or completes with FENCED. R207: PROGRAM_LOAD writes instruction
memory. R208, R209: STEP_LOAD and SFN_LOAD write the shadow banks and leave them loading. -/
def Obligations.SequencerDescriptors : Prop :=
  (∀ (s : State) (n : RingId) (i : Index) (d : Desc), s.work n i 0x01 .started = some d →
    exec (.nopDesc n i) s = .next { s with descs := decideIn s n i (if (d.words.drop 3).all (· = 0) then .ok else .format) 0 0 }) ∧
  (∀ (s : State) (n : RingId) (i : Index) (d : Desc) (o : Nat), Readable s n true (d.word 3).toNat 8 o →
    let v : Word := BitVec.ofNat 64 (leNat (s.bytes o 8))
    (s.work n i 0x02 .started = some d → WaitFormed d →
      ∃ t, exec (.wait n i) s = .next t ∧ t = { s with descs := t.descs } ∧
        (d.waitHolds v = true → Turned s t n i { d with phase := .done, status := .ok, r0 := v, r1 := 0 }) ∧
        (d.waitHolds v = false → Turned s t n i { d with phase := .working, r0 := v })) ∧
    (s.work n i 0x02 .working = some d → d.left = 0 →
      ∃ t, exec (.waitPoll n i) s = .next t ∧ t = { s with descs := t.descs } ∧
        (d.waitHolds v = true → Turned s t n i { d with phase := .done, status := .ok, r0 := v, r1 := 0 }) ∧
        (d.waitHolds v = false → Turned s t n i { d with r0 := v }))) ∧
  (∀ (s : State) (n : RingId) (i : Index) (d : Desc), s.work n i 0x02 .working = some d →
    exec (.waitTimeout n i) s = .next { s with descs := decideIn s n i .timeout d.r0 0 }) ∧
  (∀ (s : State) (n : RingId) (i : Index) (d : Desc) (o : Nat), s.work n i 0x03 .started = some d → (d.word 3).toNat % 8 = 0 →
    d.word 5 = 0 → d.word 6 = 0 → d.word 7 = 0 → Writable s n true (d.word 3).toNat 8 o →
    ∃ u, s.Stored u o (leBytes 8 (d.word 4).toNat) ∧ exec (.write n i) s = .next { u with descs := decideIn s n i .ok 0 0 }) ∧
  (∀ (s : State) (n : RingId) (i : Index) (d : Desc), s.work n i 0x10 .started = some d → bits (d.word 3) 63 26 = 0 →
    bits (d.word 3) 7 7 = 0 → bits (d.word 3) 10 8 = 0 →
    let c := s.core (coreOf (d.word 3))
    (c.run = .idle ∨ c.run = .running ∨ c.run = .waiting ∨ c.run = .halted →
      ∃ t, exec (.launch n i) s = .next t ∧ t = { s with launchQ := s.launchQ ++ [⟨n, i, s.ringCtx n⟩], descs := t.descs, strag := t.strag } ∧
        Turned s t n i { d with phase := .working }) ∧
    (c.run = .trapHalted ∨ c.run = .fenced ∨ c.run = .retired →
      exec (.launch n i) s = .next { s with descs := decideIn s n i .fenced 0 0 })) ∧
  (∀ (s : State) (n : RingId) (i : Index) (d : Desc) (o : Nat), s.work n i 0x11 .started = some d → d.left = 0 →
    let w := d.word 3
    let len := bits (d.word 5) 31 0
    let k := coreOf w
    let dest := bits w 25 11
    bits w 63 26 = 0 → bits w 7 7 = 0 → bits w 10 8 = 0 → bits (d.word 5) 63 32 = 0 → d.word 6 = 0 → d.word 7 = 0 → len % 8 = 0 → 0 < len →
    dest * 8 + len ≤ 0x40000 → (s.core k).run = .idle ∨ (s.core k).run = .halted → Readable s n true (d.word 4).toNat len o →
    ∃ t, exec (.programLoad n i) s = .next t ∧ Finished t n i .ok 0 ∧ t = { s with cores := t.cores, descs := t.descs } ∧
      (∀ m j, ¬(m = n ∧ j = i) → t.desc m j = s.desc m j) ∧ (∀ j, j ≠ k → t.core j = s.core j) ∧
      t.core k = { s.core k with imem := (t.core k).imem } ∧
      ∀ j, Maps.get 0 (t.core k).imem j = if dest ≤ j ∧ j < dest + len / 8 then BitVec.ofNat 64 (leNat (s.bytes (o + 8 * (j - dest)) 8))
        else Maps.get 0 (s.core k).imem j) ∧
  (∀ (s : State) (n : RingId) (i : Index) (d : Desc) (o : Nat), s.work n i 0x12 .started = some d → d.left = 0 → d.aux = 0 →
    let w := d.word 3
    let len := bits (d.word 5) 31 0
    let k := coreOf w
    bits w 63 9 = 0 → bits w 7 7 = 0 → bits (d.word 5) 63 32 = 0 → d.word 6 = 0 → d.word 7 = 0 → len % 16 = 0 → 0 < len → len ≤ 65536 →
    (s.core k).run ≠ .retired → (s.core k).run ≠ .fenced → (s.core k).oldBound = 0 → (s.core k).stbLoading = false → s.firstLoad d = true →
    Readable s n true (d.word 4).toNat len o →
    ∃ t, exec (.stepLoad n i) s = .next t ∧ t = { s with cores := t.cores, descs := t.descs } ∧
      t.core k = { (s.core k).setShadowStb ⟨stbEntries (s.bytes o len), false, []⟩ with stbLoading := true } ∧
      (∀ j, j ≠ k → t.core j = s.core j) ∧ ∃ d', Turned s t n i d' ∧ d'.phase = .working ∧ d'.aux = 1) ∧
  (∀ (s : State) (n : RingId) (i : Index) (d : Desc) (o : Nat), s.work n i 0x13 .started = some d → d.left = 0 →
    let w := d.word 3
    let mask := bits w 31 16
    let slot := nextSlot mask 0
    let k := coreOf w
    bits w 63 32 = 0 → bits w 15 9 = 0 → bits w 7 7 = 0 → d.word 5 = 0 → d.word 6 = 0 → d.word 7 = 0 →
    (mask = 0 → exec (.sfnLoad n i) s = .next { s with descs := decideIn s n i .ok 0 0 }) ∧
    (mask ≠ 0 → (s.core k).run ≠ .fenced → (s.core k).slotBound slot = false → ((s.core k).slot slot).loading = false → s.firstLoad d = true →
      Readable s n true (d.word 4).toNat (3136 * ((List.range 16).filter (fun j => mask / 2 ^ j % 2 = 1)).length) o →
      ∃ t, exec (.sfnLoad n i) s = .next t ∧ t = { s with cores := t.cores, descs := t.descs } ∧
        (t.core k).slot slot = { (s.core k).slot slot with loading := true }.setShadow ⟨slotWordsOf (s.bytes o 3136), false, 127⟩ ∧
        (∀ j, j ≠ slot → (t.core k).slot j = (s.core k).slot j) ∧ (∀ j, j ≠ k → t.core j = s.core j) ∧
        ∃ d', Turned s t n i d' ∧ d'.phase = .working ∧ d'.aux = BitVec.ofNat 64 slot))

/-- R210, R211, R213: a COPY of one row between two places of the own device that do not overlap, and a FILL, write their bytes and no
others and complete with OK and the bytes moved; a COPY of several rows moves them in row order. R212: a PUT sends its bytes as PUT packets
cut at 8,192-byte boundaries, and a GET asks for them so; one of no bytes without a notify completes with OK. -/
def Obligations.TransfersMoveTheirBytes : Prop :=
  (∀ (s : State) (n : RingId) (i : Index) (d : Desc) (so od : Nat), s.work n i 0x20 .started = some d → d.left = 0 → d.failPos = none →
    d.word 7 = 0 → bits (d.word 5) 63 32 = 1 →
    let len := bits (d.word 5) 31 0
    0 < len → Readable s n true (d.word 3).toNat len so → Writable s n true (d.word 4).toNat len od → od + len ≤ so ∨ so + len ≤ od →
    ∃ t, exec (.copy n i) s = .next t ∧ Finished t n i .ok len ∧ s.SameButMemory { t with descs := s.descs } ∧
      (∀ m j, ¬(m = n ∧ j = i) → t.desc m j = s.desc m j) ∧
      ∀ a, t.byte a = if od ≤ a ∧ a < od + len then s.byte (so + (a - od)) else s.byte a) ∧
  (∀ (s : State) (n : RingId) (i : Index) (d : Desc), s.work n i 0x20 .started = some d → d.word 7 = 0 →
    let total := bits (d.word 5) 63 32 * bits (d.word 5) 31 0
    (2 ^ 32 ≤ total → exec (.copy n i) s = .next { s with descs := decideIn s n i .format 0 0 }) ∧
    (total = 0 → exec (.copy n i) s = .next { s with descs := decideIn s n i .ok 0 0 }) ∧
    (0 < total → total < 2 ^ 32 →
      (∀ p ∈ d.copyRows, ∃ so od, s.locate true p.src p.len = .here so ∧ s.locate true p.dst p.len = .here od) →
      ((∃ p ∈ d.copyRows, ∃ q ∈ d.copyRows, s.rowsClash (p.src, p.len) (q.dst, q.len) = true) →
        exec (.copy n i) s = .next { s with descs := decideIn s n i .format 0 0 }) ∧
      ((∀ p ∈ d.copyRows, ∀ q ∈ d.copyRows, s.rowsClash (p.src, p.len) (q.dst, q.len) = false) →
        exec (.copy n i) s = .next (((s.mapDesc n i fun d => { d with phase := .working }).copyRows n i d).endIfDone n i total)))) ∧
  (∀ (s : State) (n : RingId) (i : Index) (d : Desc) (od : Nat), s.work n i 0x21 .started = some d → d.left = 0 → d.failPos = none →
    bits (d.word 5) 63 32 = 0 → d.word 6 = 0 → d.word 7 = 0 → (d.word 3).toNat % 8 = 0 →
    let len := bits (d.word 5) 31 0
    len % 8 = 0 → 0 < len → Writable s n true (d.word 3).toNat len od →
    ∃ t, exec (.fill n i) s = .next t ∧ Finished t n i .ok len ∧ s.SameButMemory { t with descs := s.descs } ∧
      (∀ m j, ¬(m = n ∧ j = i) → t.desc m j = s.desc m j) ∧
      ∀ a, t.byte a = if od ≤ a ∧ a < od + len then (leBytes 8 (d.word 4).toNat).getD ((a - od) % 8) 0 else s.byte a) ∧
  (∀ (s : State) (n : RingId) (i : Index) (d : Desc) (c : Coord) (o so : Nat), s.work n i 0x30 .started = some d → s.putBad d = none →
    let len := bits (d.word 5) 31 0
    (len = 0 → d.word 6 = 0 → exec (.put n i) s = .next { s with descs := decideIn s n i .ok 0 0 }) ∧
    (0 < len → s.republishSet n d = none → s.msgLoc (d.word 4).toNat len = .there c o → Readable s n false (d.word 3).toNat len so →
      s.fld Reg.ROUTE_CFG Reg.ROUTE_CFG_FCOMP = 0 →
      ∃ t, exec (.put n i) s = .next t ∧ t = { s with fab := { s.fab with waiting := t.fab.waiting }, descs := t.descs } ∧
        t.fab.waiting = s.fab.waiting ++ (cuts 8192 o len).map (fun p => { newReq 3 0x28 c (s.ringAgent n) (s.ringCtx n) p.1 (.desc n i p.2.2) with
          payload := s.bytes (so + p.2.2) p.2.1 }) ∧
        Turned s t n i { d with phase := .working, left := d.left + cutCount 8192 o len })) ∧
  ∀ (s : State) (n : RingId) (i : Index) (d : Desc) (c : Coord) (o od : Nat), s.work n i 0x31 .started = some d →
    bits (d.word 5) 63 32 = 0 → d.word 6 = 0 → d.word 7 = 0 →
    let len := bits (d.word 5) 31 0
    s.msgLoc (d.word 3).toNat len = .there c o → s.locate false (d.word 4).toNat len = .here od →
    (len = 0 → exec (.get n i) s = .next { s with descs := decideIn s n i .ok 0 0 }) ∧
    (0 < len → ∃ t, exec (.get n i) s = .next t ∧ t = { s with fab := { s.fab with waiting := t.fab.waiting }, descs := t.descs } ∧
      t.fab.waiting = s.fab.waiting ++ (cuts 8192 o len).map (fun p =>
        { newReq 3 0x29 (s.redirect (s.ringAuth n) c p.1 p.2.1) (s.ringAgent n) (s.ringCtx n) p.1 (.desc n i p.2.2) with rlen := p.2.1 }) ∧
      Turned s t n i { d with phase := .working, left := d.left + cutCount 8192 o len })

namespace Sys2Proof.Claims

/-! ### Requests at their destination -/

/-- Packet `p`, of class `cls` and operation `op`, has arrived; `u` is the state once it is taken from the arrivals (R272). -/
structure Arrived (s u : State) (p : Packet) (cls op : Nat) : Prop where
  cls : p.cls = cls
  op : p.op = op
  taken : s.takeArrived p = some u

/-- What is neither from a snapshot engine nor mirrored, and starts no mirror (R366, R373). -/
structure Plain (u : State) (p : Packet) : Prop where
  snap : ofSnap p = false
  mirror : ofMirror p = false
  source : u.isSource (whoOf p).auth = false

/-- Memory at the address of `p` that its accessor may use, and that answers. -/
structure Reaches (u : State) (p : Packet) (k : Kind) (repub : Bool) (n : Nat) : Prop where
  permitted : u.Permits (whoOf p) k repub p.addr n
  answers : u.Clean (whoOf p).auth p.addr n

/-- `u` after a request took its place with a status, and the reply went out (R263, R282). -/
def replied (u : State) (p : Packet) (st : Status) (data : List Byte) : State := (u.placed p st).reply p st data

/-- Requests that read: class, operation, the shape of R263. -/
def readRows : List ((Packet → Instr) × Nat × Nat × (Packet → Bool)) :=
  [(.reqLoad, 0, 0x00, fun p => p.plen = 0 && 1 ≤ p.rlen && p.rlen ≤ 4096), (.msgGet, 3, 0x29, fun p => p.plen = 0 && 1 ≤ p.rlen && !p.cmp)]

/-- Requests that write their payload as it is. -/
def writeRows : List ((Packet → Instr) × Nat × Nat × (Packet → Bool)) :=
  [(.reqStore, 0, 0x01, fun p => 1 ≤ p.plen && p.plen ≤ 4096 && p.rlen = 0), (.msgPut, 3, 0x28, fun p => 1 ≤ p.plen && p.rlen = 0 && !p.cmp),
   (.notify, 3, 0x2A, fun p => p.plen = 8 && p.rlen = 0 && p.addr % 8 = 0)]

/-- Atomic requests on 8 bytes, with their OP and the new value from the old one, the operand and the compare value (R294). -/
def atomicRequests : List ((Packet → Instr) × Nat × (Word → Word → Word → Word)) :=
  [(.reqAadd, 2, fun m o _ => m + o), (.reqAmin, 3, fun m o _ => if m.sle o then m else o),
   (.reqAmax, 4, fun m o _ => if m.sle o then o else m), (.reqAand, 5, fun m o _ => m &&& o), (.reqAor, 6, fun m o _ => m ||| o),
   (.reqAxor, 7, fun m o _ => m ^^^ o), (.reqAswap, 8, fun _ o _ => o), (.reqAcas, 9, fun m o c => if m = c then o else m)]

end Sys2Proof.Claims

/-- R263, R282, R289: a request whose TAG is due reads or writes its memory, takes its place and is answered; one that breaks its row gets
FORMAT; a duplicate already passed is answered again without effect; one beyond the next is dropped. R27: MREAD and MWRITE act on the setup
window for a peer's Ranger, and get PERM from any other agent. -/
def Obligations.RequestsAreServedInTagOrder : Prop :=
  (∀ e ∈ readRows, ∀ (s u : State) (p : Packet), Arrived s u p e.2.1 e.2.2.1 →
    (u.turnOf p = .now → e.2.2.2 p = true → Plain u p → Reaches u p .rd false p.rlen →
      exec (e.1 p) s = .next (replied u p .ok (u.bytes p.addr p.rlen))) ∧
    (u.turnOf p = .now → e.2.2.2 p = false → exec (e.1 p) s = .next (replied u p .format [])) ∧
    (∀ st, u.turnOf p = .passed st → st ≠ .ok → exec (e.1 p) s = .next (u.reply p st [])) ∧
    (u.turnOf p = .beyond → exec (e.1 p) s = .next u)) ∧
  (∀ e ∈ writeRows, ∀ (s u : State) (p : Packet), Arrived s u p e.2.1 e.2.2.1 → p.cmp = false →
    (u.turnOf p = .now → e.2.2.2 p = true → Plain u p → Reaches u p .wr false p.payload.length →
      ∃ v, u.Stored v p.addr p.payload ∧ exec (e.1 p) s = .next (replied v p .ok [])) ∧
    (u.turnOf p = .now → e.2.2.2 p = false → exec (e.1 p) s = .next (replied u p .format [])) ∧
    (∀ st, u.turnOf p = .passed st → exec (e.1 p) s = .next (u.reply p st [])) ∧
    (u.turnOf p = .beyond → exec (e.1 p) s = .next u)) ∧
  (∀ (s u : State) (p : Packet) (bs : List Byte), Arrived s u p 3 0x28 → u.turnOf p = .now → p.cmp = true → p.plen ≠ 0 →
    p.rlen = 4096 ∨ p.rlen = 8192 → fabricDecode p.payload p.gmask p.rlen = some bs → Plain u p → Reaches u p .wr false bs.length →
    ∃ v, u.Stored v p.addr bs ∧ exec (.msgPut p) s = .next (replied v p .ok [])) ∧
  (∀ (s u : State) (p : Packet), Arrived s u p 4 0x30 → u.turnOf p = .now → p.plen = 0 → p.rlen = 8 → badSetupAddr p = false →
    (p.agent = 148 → exec (.mread p) s = .next (replied u p .ok (leBytes 8 (u.setupWord p.addr).toNat))) ∧
    (p.agent ≠ 148 → exec (.mread p) s = .next (replied u p .perm []))) ∧
  ∀ (s u : State) (p : Packet), Arrived s u p 4 0x31 → u.turnOf p = .now → p.plen = 8 → p.rlen = 0 → badSetupAddr p = false →
    (p.agent = 148 → exec (.mwrite p) s = .next (replied (u.setupWrite (.peer p.src) 8 p.addr (wordAt p.payload 0)) p .ok [])) ∧
    (p.agent ≠ 148 → exec (.mwrite p) s = .next (replied u p .perm []))

/-- R294 to R297: every atomic request, AADD, AMIN, AMAX, AAND, AOR, AXOR, ASWAP, ACAS, ACAS2 and AFADD, completes where its memory may be
reached: it performs its read-modify-write once, answers the old bytes and enters the dedup cache; a duplicate that
the cache holds is answered from it and counted, or with FORMAT when its entry is of another context, operation or address; one that it
does not hold gets ATOMIC_UNKNOWN, the bytes now there, and no effect; an entry older than HOLD_US, or 500 µs when that is more, goes. -/
def Obligations.AtomicRequestsActOnce : Prop :=
  (∀ q ∈ atomicRequests, ∀ (s u : State) (p : Packet), Arrived s u p 0 q.2.1 →
    (u.turnOf p = .now → p.plen = (if q.2.1 = 9 then 8 else 0) → p.rlen = 0 → p.addr % 8 = 0 → Plain u p → Reaches u p .at_ false 8 →
      ∃ v, u.Stored v p.addr (leBytes 8 (q.2.2 (BitVec.ofNat 64 (leNat (u.bytes p.addr 8))) p.operand (wordAt p.payload 0)).toNat) ∧
        exec (q.1 p) s = .next (replied (v.remember ⟨p.src, p.ctx, p.tag, q.2.1, p.addr, .ok, u.bytes p.addr 8, u.devTime.toNat⟩) p .ok
          (u.bytes p.addr 8))) ∧
    (∀ st d, u.turnOf p = .passed st → u.fab.dedup.find? (fun d => d.src = p.src && d.tag = p.tag) = some d →
      d.ctx = p.ctx → d.op = q.2.1 → d.addr = p.addr →
      exec (q.1 p) s = .next ((u.bump Reg.FAB_DEDUP_STATE Reg.FAB_DEDUP_STATE_HITS).reply p d.status d.old)) ∧
    (∀ st d, u.turnOf p = .passed st → u.fab.dedup.find? (fun d => d.src = p.src && d.tag = p.tag) = some d →
      ¬(d.ctx = p.ctx ∧ d.op = q.2.1 ∧ d.addr = p.addr) → exec (q.1 p) s = .next (u.reply p .format [])) ∧
    (∀ st, u.turnOf p = .passed st → u.fab.dedup.find? (fun d => d.src = p.src && d.tag = p.tag) = none →
      exec (q.1 p) s = .next ((u.bump Reg.FAB_DEDUP_STATE Reg.FAB_DEDUP_STATE_UNKNOWN).reply p .atomicUnknown (u.bytes p.addr 8)))) ∧
  (∀ (s u : State) (p : Packet), Arrived s u p 0 0x0A → u.turnOf p = .now → p.plen = 32 → p.rlen = 0 → p.operand = 0 → p.addr % 16 = 0 →
    Plain u p → Reaches u p .at_ false 16 →
    ∃ v, u.Stored v p.addr (leBytes 16 (if leNat (u.bytes p.addr 16) = leAt p.payload 16 16 then leAt p.payload 0 16 else leNat (u.bytes p.addr 16))) ∧
      exec (.reqAcas2 p) s = .next (replied (v.remember ⟨p.src, p.ctx, p.tag, 0x0A, p.addr, .ok, u.bytes p.addr 16, u.devTime.toNat⟩) p .ok
        (u.bytes p.addr 16))) ∧
  (∀ (s u : State) (p : Packet), Arrived s u p 0 0x0B → u.turnOf p = .now → p.plen = 0 → p.rlen = 0 → p.operand.toNat < 2 ^ 32 → p.addr % 4 = 0 →
    Plain u p → Reaches u p .at_ false 4 →
    ∃ v, u.Stored v p.addr (leBytes 4 (f32Add (BitVec.ofNat 32 (leNat (u.bytes p.addr 4))) (p.operand.setWidth 32)).toNat) ∧
      exec (.reqAfadd p) s = .next (replied (v.remember ⟨p.src, p.ctx, p.tag, 0x0B, p.addr, .ok, u.bytes p.addr 4, u.devTime.toNat⟩) p .ok
        (u.bytes p.addr 4))) ∧
  ∀ (s : State) (src : Coord) (tag : BitVec 16), ∃ t, exec (.dedupExpire src tag) s = .next t ∧
    t.fab = { s.fab with dedup := s.fab.dedup.filter (fun e => !(e.src = src && e.tag = tag &&
      1000 * max 500 (s.fld Reg.FAB_DEDUP_CFG Reg.FAB_DEDUP_CFG_HOLD_US) < s.devTime.toNat - e.time)) } ∧ t = { s with fab := t.fab, setup := t.setup } ∧
    ∀ o, o ≠ Reg.FAB_DEDUP_STATE → t.reg o = s.reg o

/-- R290, R291: a DRAIN marker is answered in its place; a hole drain whose payload is well formed poisons the units it lists that
its authority may write and makes RESUME the next TAG expected; one that is not gets FORMAT in its place. R303: republish data are written at a member whose declaration names the sender as home, and
are PERM without one; a reserved KIND gets FORMAT; a notice makes every core drop the lines of members that overlap its range. -/
def Obligations.DrainsAndRepublishes : Prop :=
  (∀ (s u : State) (p : Packet), p.cls = 0 ∨ p.cls = 3 ∨ p.cls = 4 → Arrived s u p p.cls 0x0C → u.turnOf p = .now → p.plen = 0 →
    exec (.drain p) s = .next (replied u p .ok [])) ∧
  (∀ (s u : State) (p : Packet) (n : Nat), p.cls = 0 ∨ p.cls = 3 ∨ p.cls = 4 → Arrived s u p p.cls 0x0C → p.retry = false →
    leAt p.payload 2 1 = n → n ≤ 64 → p.plen = 32 + 16 * n → (∀ j, 3 ≤ j → j < 32 → p.payload.getD j 0 = 0) →
    (∀ i < n, leAt p.payload (32 + 16 * i + 6) 1 / 64 % 2 = 0 ∧ leAt p.payload (32 + 16 * i + 7) 1 = 0 ∧
      leAt p.payload (32 + 16 * i + 10) 6 = 0 ∧ 1 ≤ (lostAt p.payload i).len ∧ (lostAt p.payload i).len ≤ 8192) →
    ∃ v : State, exec (.drain p) s = .next (v.reply p .ok []) ∧ v.expectedTag p = BitVec.ofNat 16 (leAt p.payload 0 2) ∧ v.mem = u.mem ∧
      v = { u with setup := v.setup, poison := v.poison, cfmt := v.cfmt, fab := v.fab, freeCtr := v.freeCtr } ∧
      (∀ x, u.poisoned x = true → v.poisoned x = true) ∧
      ∀ i < n, let l := lostAt p.payload i
        l.sys = true → (placeOfRange l.off l.len = .lpddr ∨ ∃ c, placeOfRange l.off l.len = .sram c) →
        ∀ x ∈ unitsOf l.off l.len, v.poisoned x = true) ∧
  (∀ (s u : State) (p : Packet), p.cls = 0 ∨ p.cls = 3 ∨ p.cls = 4 → Arrived s u p p.cls 0x0C → u.turnOf p = .now → p.plen ≠ 0 →
    drainOk p = false → exec (.drain p) s = .next (replied u p .format [])) ∧
  (∀ (s u : State) (p : Packet), Arrived s u p 0 0x0D → u.turnOf p = .now → 2 ≤ rpKind p →
    exec (.republishData p) s = .next (replied u p .format [])) ∧
  (∀ (s u : State) (p : Packet), Arrived s u p 0 0x0D → u.turnOf p = .now → rpOk p = true →
    let r := rpSet p
    let bs := p.payload.drop 32
    let declared := u.fld (Reg.FAB_REPL_CFG r) Reg.FAB_REPL_CFG_VALID = 1 ∧ u.member r 0 = p.src ∧ (u.members r).contains u.self = true ∧
      (u.setRange r).1 ≤ rpOffset p ∧ rpOffset p + bs.length ≤ (u.setRange r).1 + (u.setRange r).2
    (rpKind p = 0 → declared → u.Permits (whoOf p) .wr true (rpOffset p) bs.length → u.Clean (whoOf p).auth (rpOffset p) bs.length →
      u.isSource (whoOf p).auth = false → ∃ v, u.Stored v (rpOffset p) bs ∧ exec (.republishData p) s = .next (replied v p .ok [])) ∧
    (rpKind p = 0 → ¬declared → exec (.republishData p) s = .next (replied u p .perm [])) ∧
    (rpKind p = 1 → u.fld (Reg.FAB_REPL_CFG r) Reg.FAB_REPL_CFG_VALID = 1 →
      exec (.republishNotice p) s = .next (replied (u.applyNotice r (rpOffset p) (rpLength p)) p .ok []))) ∧
  ∀ (s : State) (r o n : Nat) (k : CoreId),
    (s.applyNotice r o n).core k = { s.core k with cache := (s.core k).cache.filter (fun l =>
      !((s.members r).contains l.coord && l.base < o + n && o < l.base + 64)) } ∧ (s.applyNotice r o n).mem = s.mem

namespace Sys2Proof.Claims

/-! ### Tables, replica sets, requests at their source -/

/-- The table of context `x` in memory (R288). -/
def regionTable (s : State) (x : Nat) : Nat := s.fld Reg.FAB_RT_BASE Reg.FAB_RT_BASE_BASE * 2 ^ 23 + 0x20000 * x

end Sys2Proof.Claims

/-- R267, R268: a topology load is refused with LOAD_ERR while one is in progress, while a version drains, or misaligned; else it reads the
table into the shadow version; the checked table becomes READY, or LOAD_ERR and the offset of its first bad field are set. R278, R279, R283:
FLIP makes the shadow version active and starts the drain of the old one, which EPOCH_RETIRE ends; without a READY shadow it only posts an
INFO event. R288: a region load is BUSY until each table is accepted or its context shut out. R301: a declaration becomes VALID, or REPL_ERR
is set. R303: a republish writes the home's copy piece by piece and sends each to the other members. -/
def Obligations.TablesLoadFlipAndDeclare : Prop :=
  (∀ (s : State) (src : Source), s.mayUse src = true →
    let a := s.reg Reg.ROUTE_TBL_SRC
    let busy := s.fld Reg.ROUTE_TBL_STATE Reg.ROUTE_TBL_STATE_LOADING = 1 ∨ s.fld Reg.ROUTE_TBL_STATE Reg.ROUTE_TBL_STATE_DRAINING = 1 ∨ a.toNat % 64 ≠ 0
    (busy → exec (.routeTblLoad src) s = .next (s.setFld Reg.ROUTE_TBL_STATE Reg.ROUTE_TBL_STATE_LOAD_ERR 1)) ∧
    ∀ o, ¬busy → s.locate true a.toNat 1664 = .here o → s.Permits (s.me .ranger) .rd false o 1664 → s.Clean .ranger o 1664 →
      ∃ t, exec (.routeTblLoad src) s = .next t ∧ t.fld Reg.ROUTE_TBL_STATE Reg.ROUTE_TBL_STATE_LOADING = 1 ∧
        t.fld Reg.ROUTE_TBL_STATE Reg.ROUTE_TBL_STATE_SHADOW_READY = 0 ∧ t.topo (!s.activeEpoch) = Topo.empty ∧
        t.topo s.activeEpoch = s.topo s.activeEpoch ∧ t.fab.loading = (s.bytes o 1664).zipIdx.map (fun x => (x.2, x.1)) ∧
        t = { s with setup := t.setup, fab := t.fab }) ∧
  (∀ (s : State), s.fld Reg.ROUTE_TBL_STATE Reg.ROUTE_TBL_STATE_LOADING = 1 → s.asks Owner.isTopo = false → s.fab.loadFail = none →
    let v : Topo := ⟨topoOf s.fab.loading, true, false⟩
    (∀ off, s.tableFault v = some off → ∃ t, exec .routeTblChecked s = .next t ∧ t.fld Reg.ROUTE_TBL_STATE Reg.ROUTE_TBL_STATE_LOAD_ERR = 1 ∧
      t.fld Reg.ROUTE_TBL_STATE Reg.ROUTE_TBL_STATE_ERR_OFFSET = off ∧ t.fld Reg.ROUTE_TBL_STATE Reg.ROUTE_TBL_STATE_LOADING = 0 ∧
      t.fab = { s.fab with loading := [] }) ∧
    (s.tableFault v = none → ∃ t, exec .routeTblChecked s = .next t ∧ t.fld Reg.ROUTE_TBL_STATE Reg.ROUTE_TBL_STATE_SHADOW_READY = 1 ∧
      t.fld Reg.ROUTE_TBL_STATE Reg.ROUTE_TBL_STATE_LOADING = 0 ∧ t.topo (!s.activeEpoch) = v ∧ t.topo s.activeEpoch = s.topo s.activeEpoch ∧
      t.fab.windows = [])) ∧
  (∀ (s : State) (src : Source), s.mayUse src = true →
    (s.fld Reg.ROUTE_TBL_STATE Reg.ROUTE_TBL_STATE_SHADOW_READY = 0 → exec (.flip src) s = .next (s.post (event 0x0003 0 none))) ∧
    (s.fld Reg.ROUTE_TBL_STATE Reg.ROUTE_TBL_STATE_SHADOW_READY = 1 →
      let v := s.topo (!s.activeEpoch)
      ∃ u : State, exec (.flip src) s = .next (u.fab.pairs.foldl (fun r e => r.retryBroken e) u) ∧
        (s.busyPairs = [] → u.activeEpoch = !s.activeEpoch ∧ u.fld Reg.ROUTE_TBL_STATE Reg.ROUTE_TBL_STATE_ACTIVE_VALID = 1 ∧
          u.fld Reg.ROUTE_TBL_STATE Reg.ROUTE_TBL_STATE_SHADOW_READY = 0 ∧ u.fld Reg.ROUTE_TBL_STATE Reg.ROUTE_TBL_STATE_DRAINING = 1 ∧
          u.self = BitVec.ofNat 12 (bits (v.word 0) 11 0) ∧ u.fab = { s.fab with flipped := true } ∧ u = { s with setup := u.setup, fab := u.fab } ∧
          ∀ o, o ≠ Reg.ROUTE_TBL_STATE → u.reg o = s.reg o))) ∧
  (∀ (s : State), s.fld Reg.ROUTE_TBL_STATE Reg.ROUTE_TBL_STATE_DRAINING = 1 →
    ∃ t, exec .epochRetire s = .next t ∧ t.fld Reg.ROUTE_TBL_STATE Reg.ROUTE_TBL_STATE_DRAINING = 0 ∧ t.activeEpoch = s.activeEpoch ∧
      t.topo (!s.activeEpoch) = { s.topo (!s.activeEpoch) with retired := true } ∧ t.topo s.activeEpoch = s.topo s.activeEpoch ∧
      t = { s with setup := t.setup, fab := t.fab }) ∧
  (∀ (s : State) (src : Source) (v : Word), s.mayUse src = true → s.fld Reg.FAB_RT_STATUS Reg.FAB_RT_STATUS_BUSY = 0 → v.getLsbD 8 = true →
    v.getLsbD 7 = false → s.Permits (s.me .ranger) .rd false (regionTable s (bits v 5 0)) 0x20000 →
    s.Clean .ranger (regionTable s (bits v 5 0)) 0x20000 →
    ∃ t, exec (.fabRtLoad src v) s = .next t ∧ t.fld Reg.FAB_RT_STATUS Reg.FAB_RT_STATUS_BUSY = 1 ∧ t.fab = { s.fab with
      regionLoad := [bits v 5 0], regionNew := [(bits v 5 0, (regionsIn (.ok (s.bytes (regionTable s (bits v 5 0)) 0x20000), s)).1)] } ∧
      t = { s with setup := t.setup, fab := t.fab }) ∧
  (∀ (s : State) (x : Ctx) (new : Option (List Region)), s.fld Reg.FAB_RT_STATUS Reg.FAB_RT_STATUS_BUSY = 1 → s.fab.regionNew = [(x.val, new)] →
    ∃ t, exec .fabRtLoadDone s = .next t ∧ t.fld Reg.FAB_RT_STATUS Reg.FAB_RT_STATUS_BUSY = 0 ∧ t.fab.regionLoad = [] ∧
      (∀ y, y < 64 → y ≠ x.val → (t.reg Reg.FAB_RT_VALID).getLsbD y = (s.reg Reg.FAB_RT_VALID).getLsbD y) ∧
      (t.reg Reg.FAB_RT_VALID).getLsbD x = new.isSome ∧
      (∀ rs, new = some rs → Maps.get [] t.fab.regions x = rs) ∧
      (new = none → t.fld Reg.FAB_RT_STATUS Reg.FAB_RT_STATUS_ERR = 1 ∧ t.fld Reg.FAB_RT_STATUS Reg.FAB_RT_STATUS_ERR_CTX = x.val)) ∧
  (∀ (s : State) (src : Source) (r : Fin 64) (v : Word), s.mayUse src = true → v.getLsbD 63 = true →
    s.fld (Reg.FAB_REPL_CFG r) Reg.FAB_REPL_CFG_VALID = 0 →
    let u := s.writeWord .FAB_REPL_CFG [r.val] (Reg.FAB_REPL_CFG r) (setBit v 63 false) (-1)
    exec (.replDeclare src r v) s = .next (if u.replOk r then u.setFld (Reg.FAB_REPL_CFG r) Reg.FAB_REPL_CFG_VALID 1
      else u.setFld Reg.FAB_RT_STATUS Reg.FAB_RT_STATUS_REPL_ERR 1)) ∧
  (∀ (s : State) (n : RingId) (i : Index) (d : Desc) (r o src : Nat) (c : Coord), s.work n i 0x30 .started = some d → s.putBad d = none →
    s.republishSet n d = some r → s.whereIs (d.word 4).toNat = some (c, o) →
    s.locate false (d.word 3).toNat (bits (d.word 5) 31 0) = .here src →
    (s.republishBusy n i r = true → exec (.republishStart n i) s = .next s) ∧
    (s.republishBusy n i r = false → exec (.republishStart n i) s = .next (((cuts 4096 o (bits (d.word 5) 31 0)).foldl
      (fun t x => t.republishPiece n i r src x) (s.mapDesc n i fun d => { d with phase := .working, aux := 3 })).republishStep n i))) ∧
  ∀ (s : State) (n : RingId) (i : Index) (r src : Nat) (x : Nat × Nat × Nat), s.Permits (s.me (s.ringAuth n)) .rd false (src + x.2.2) x.2.1 →
    s.Clean (s.ringAuth n) (src + x.2.2) x.2.1 → s.Permits (s.me (s.ringAuth n)) .wr true x.1 x.2.1 → s.Clean (s.ringAuth n) x.1 x.2.1 →
    (s.republishPiece n i r src x).fab.waiting = s.fab.waiting ++ (((s.members r).drop 1).filter (fun m => m ≠ s.self)).map (fun m =>
      { newReq 0 0x0D m (s.ringAgent n) (s.ringCtx n) x.1 (.deskData n i x.2.2) with
        payload := republishHeader 0 r x.1 x.2.1 ++ s.bytes (src + x.2.2) x.2.1 }) ∧
    ∀ a, (s.republishPiece n i r src x).byte a = if x.1 ≤ a ∧ a < x.1 + x.2.1 then s.byte (src + x.2.2 + (a - x.1)) else s.byte a

/-- R274, R275, R282, R293, R384: the oldest waiting request of a pair is injected under the pair's next TAG when the window allows, and is
outstanding from then on; toward an absent device it fails with BOUND and on a broken pair with RETRY_EXHAUSTED; a pair on hold sends
nothing; a pair's first injection is its hole drain, TAG 0xFFFF, which waits for window and reply buffer in front as the others do. A reply answers its request, which is no longer outstanding; RETRY_EXHAUSTED
and EPOCH make it be sent again. A timeout sends the oldest request and every later one of its pair again with RETRY in the active epoch, and
fails it for good once its retries are spent. -/
def Obligations.RequestsAtTheirSource : Prop :=
  (∀ (s : State) (cls : Fin 5) (d : Coord) (r : Req), s.fab.waiting.find? (fun r => r.cls = cls.val && r.dst = d) = some r → s.suppresses r = false →
    let p := s.pair cls d
    let out : State := { s with fab := { s.fab with waiting := s.fab.waiting.erase r } }
    (s.present d = false → exec (.packetInject cls d) s = .next (out.answer r .bound [] 0)) ∧
    (s.present d = true → r.owner.isMark = true → s.mayInject r = false → exec (.packetInject cls d) s = .next s) ∧
    (s.present d = true → r.owner.isMark = false → p.broken = true → exec (.packetInject cls d) s = .next (out.answer r .retryExhausted [] 0)) ∧
    (s.present d = true → r.owner.isMark = false → p.broken = false → p.hold = true ∨ p.hole = true → exec (.packetInject cls d) s = .next s) ∧
    (s.present d = true → r.owner.isMark = false → p.broken = false → p.hold = false → p.hole = false →
      let h : Req := { newReq cls 0x0C d agentFabric r.ctx 0 .hole with payload := drainPayload 0 [], epoch := s.activeEpoch }
      (p.seeded = false → s.mayInject h = false → ∃ t, exec (.packetInject cls d) s = .next t ∧ t.fab.waiting = h :: s.fab.waiting ∧
        t.fab.outst = s.fab.outst ∧ (t.pair cls d).seeded = true ∧ (t.pair cls d).hole = true ∧ (t.pair cls d).next = 0xFFFF) ∧
      (p.seeded = false → s.mayInject h = true → ∃ t, exec (.packetInject cls d) s = .next t ∧ t.fab.waiting = s.fab.waiting ∧
        t.fab.outst = s.fab.outst ++ [{ h with tag := 0xFFFF }] ∧
        (t.pair cls d).seeded = true ∧ (t.pair cls d).hole = true ∧ (t.pair cls d).next = 0) ∧
      (p.seeded = true → s.mayInject r = true → ∃ t, exec (.packetInject cls d) s = .next t ∧ t.fab.waiting = s.fab.waiting.erase r ∧
        t.fab.outst = s.fab.outst ++ [{ r with tag := p.next, epoch := s.activeEpoch }] ∧ (t.pair cls d).next = p.next + 1) ∧
      (p.seeded = true → s.mayInject r = false → exec (.packetInject cls d) s = .next s))) ∧
  (∀ (s u : State) (p : Packet) (t4 : Word) (r : Req) (bs : List Byte), p.cls = 1 → s.takeArrived p = some u → p.rclass ≠ 2 →
    u.fab.outst.find? (fun r => r.cls = p.rclass && r.dst = p.src && r.tag = p.tag) = some r → replyBytes p = some bs →
    (p.status ≠ .retryExhausted → p.status ≠ .epoch →
      (p.op = 0x10 → exec (.rdata p t4) s = .next ((((u.throttle r.dst p.qd).dropOutst [r]).pairAnswered r p.status).answer r p.status bs t4)) ∧
      (p.op = 0x11 → exec (.rspAck p) s = .next ((((u.throttle r.dst p.qd).dropOutst [r]).pairAnswered r p.status).answer r p.status bs 0))) ∧
    (p.status = .retryExhausted ∨ p.status = .epoch →
      (p.op = 0x10 → exec (.rdata p t4) s = .next ((u.throttle r.dst p.qd).retryReq r (some p.status))) ∧
      (p.op = 0x11 → exec (.rspAck p) s = .next ((u.throttle r.dst p.qd).retryReq r (some p.status))))) ∧
  (∀ (s : State) (r : Req) (k : CoreId) (rd : BitVec 5) (a : Word) (n : Nat) (x : Bool) (t : BitVec 18) (bs : List Byte), r.owner = .load k rd a n x t →
    s.answer r .ok bs 0 = s.setCore k ((s.core k).setG rd (loadValue bs x))) ∧
  ∀ (s : State) (cls : Fin 5) (d : Coord) (r : Req), s.fab.outst.find? (fun r => r.cls = cls.val && r.dst = d) = some r →
    (r.retries < s.fld Reg.ROUTE_CFG Reg.ROUTE_CFG_E2E_RETRIES → ∃ t, exec (.reqTimeout cls d) s = .next t ∧
      t.fab.outst = s.fab.outst.map (fun q => if q = r ∨ q ∈ s.laterThan r then { q with retries := q.retries + 1, epoch := s.activeEpoch } else q) ∧
      t.fab.waiting = s.fab.waiting) ∧
    (s.fld Reg.ROUTE_CFG Reg.ROUTE_CFG_E2E_RETRIES ≤ r.retries → exec (.reqTimeout cls d) s = .next (s.failForGood r (r.last.getD .timeout)))

namespace Sys2Proof.Claims

/-! ### Groups and collectives -/

/-- A packet of class COL from member `r` of the group `g`, taken from the arrivals (R321). -/
structure FromMember (s u : State) (p : Packet) (op : Nat) (g : Group) (r : Nat) : Prop where
  cls : p.cls = 2
  op : p.op = op
  taken : s.takeArrived p = some u
  form : colOk p = true
  found : u.groups.find? (fun g => g.gid = colGid p && g.state ≠ 0) = some g
  here : u.group g.handle = some g
  rank : g.rankOf p.src = some r

/-- A packet of rank 0 for the group `g` that forms here (R309). -/
structure FromRank0 (s u : State) (p : Packet) (kind : Nat) (g : Group) (n : RingId) (i : Index) : Prop where
  cls : p.cls = 2
  op : p.op = 0x22
  kind : ccop p = kind
  taken : s.takeArrived p = some u
  form : colOk p = true
  found : u.gidGroup (colGid p) = some g
  forming : g.forming = some (n, i)
  member : g.rank ≠ 0
  sender : (g.newMembers.head?.map (·.1)) = some p.src

/-- The JOIN that a packet holds (R309). -/
def joinOf (p : Packet) : Join :=
  { gid := colGid p, src := p.src, rank := leAt p.payload 16 2, digest := BitVec.ofNat 64 (leAt p.payload 8 8)
    start := BitVec.ofNat 32 (leAt p.payload 24 4), mode := leAt p.payload 22 1 }

/-- Ranks other than 0 of a list of members. -/
def laterRanks (g : Group) : List Nat := (List.range g.newMembers.length).drop 1

end Sys2Proof.Claims

/-- R307, R309, R311: a ROLLCALL that passes its checks reserves a handle and its buffers, and sends JOIN to rank 0; rank 0 keeps the JOINs
and, once every rank has joined alike, sends READY, is active and completes with OK, its handle and its rank, and else ends with FORMAT; READY
makes a member active with rank 0's ALG and SMALL_MAX; MISMATCH and the timeout release the group with FORMAT and TIMEOUT, a REPLACE keeping
the group it had. R312: DISBAND of an idle group releases it and completes with OK, and one of a busy group waits. -/
def Obligations.GroupsFormAndDisband : Prop :=
  (∀ (s : State) (n : RingId) (i : Index) (d : Desc), s.work n i 0x40 .started = some d → rollcallBad d = true →
    exec (.rollcall n i) s = .next { s with descs := decideIn s n i .format 0 0 }) ∧
  (∀ (s : State) (n : RingId) (i : Index) (d : Desc) (o rank h : Nat), s.work n i 0x40 .started = some d → rollcallBad d = false →
    let w := d.word 3
    let bs := s.bytes o (4 * bits w 28 16)
    let l := listOf bs
    Readable s n true (d.word 4).toNat (4 * bits w 28 16) o → l.findIdx? (fun m => m.1 = s.self) = some rank → listOk bs = true →
    bits w 11 10 = 0 → (∀ m ∈ l, m.1 = m.2) → (∀ m ∈ l, s.present m.1 = true) → s.gidGroup (BitVec.ofNat 32 (bits w 63 32)) = none →
    s.freeHandle = some h → bits (d.word 5) 63 48 + bits (d.word 5) 47 32 ≤ s.freeUnits → rank ≠ 0 →
    ∃ t g, exec (.rollcall n i) s = .next t ∧ Turned s t n i { d with phase := .working } ∧ t.group h = some g ∧ t.mem = s.mem ∧
      g.state = 1 ∧ g.gid = BitVec.ofNat 32 (bits w 63 32) ∧ g.rank = rank ∧ g.members = l ∧ g.rxbuf = bits (d.word 5) 63 48 ∧
      g.sbuf = bits (d.word 5) 47 32 ∧ g.forming = some (n, i) ∧ g.start = BitVec.ofNat 32 (bits (d.word 6) 31 0) ∧ g.digest = crc64 bs ∧
      g.sent = [⟨s.colPacket (s.ringCtx n, s.ringAgent n) ((l.getD 0 (0, 0)).1) 0x22 g.gid g.start 0 (fieldsOf [(0, 1), (8, g.digest.toNat), (16, rank), (18, g.rxbuf),
        (20, g.sbuf), (22, 0), (24, g.start.toNat)]), 0⟩]) ∧
  (∀ (s u : State) (p : Packet), p.cls = 2 → p.op = 0x22 → ccop p = 1 → s.takeArrived p = some u → colOk p = true → u.controlFull = false →
    let v : State := { u with joins := u.joins.filter (fun x => !(x.gid = colGid p && x.rank = leAt p.payload 16 2)) ++ [joinOf p] }
    (u.gidGroup (colGid p) = none → exec (.join p) s = .next v) ∧
    ∀ g n i, u.gidGroup (colGid p) = some g → u.group g.handle = some g → g.rank = 0 → g.forming = some (n, i) →
      ((∃ r ∈ laterRanks g, ∀ j ∈ v.joins, j.gid = g.gid → j.rank ≠ r) → exec (.join p) s = .next v) ∧
      ((∀ r ∈ laterRanks g, ∃ j ∈ v.joins, j.gid = g.gid ∧ j.rank = r ∧ j.digest = g.digest ∧ j.start = g.start ∧ j.mode = g.mode) →
        ∃ t g', exec (.join p) s = .next t ∧ t.group g.handle = some g' ∧ g'.state = 2 ∧ g'.members = g.newMembers ∧ g'.nextSeq = g.start ∧
          g'.forming = none ∧ t.descs = decideIn s n i .ok (BitVec.ofNat 64 g.handle) 0 ∧
          g'.sent.length = g.sent.length + (laterRanks g).length)) ∧
  (∀ (s u : State) (p : Packet) (g : Group) (n : RingId) (i : Index), FromRank0 s u p 2 g n i →
    ∃ t g', exec (.ready p) s = .next t ∧ t.group g.handle = some g' ∧ g' = { g with
        members := g.newMembers, state := 2, alg := leAt p.payload 8 1, smallMax := leAt p.payload 12 4, nextSeq := g.start, past := [],
        forming := none } ∧
      t.descs = decideIn s n i .ok (BitVec.ofNat 64 g.handle) (BitVec.ofNat 32 g.rank) ∧ t.mem = s.mem) ∧
  (∀ (s u : State) (p : Packet) (g : Group) (n : RingId) (i : Index), FromRank0 s u p 3 g n i →
    ∃ t, exec (.rollcallMismatch p) s = .next t ∧ t.descs = decideIn s n i .format 0 0 ∧
      (g.before = 0 → t.group g.handle = none) ∧
      (g.before ≠ 0 → t.group g.handle = some { g with forming := none, state := g.before, sent := [] })) ∧
  (∀ (s : State) (g : Group) (n : RingId) (i : Index), s.groups.find? (fun g => g.forming = some (n, i)) = some g → g.forming = some (n, i) →
    ∃ t, exec (.rollcallTimeout n i) s = .next t ∧ t.descs = decideIn s n i .timeout 0 0 ∧
      (g.before = 0 → t.group g.handle = none) ∧
      (g.before ≠ 0 → t.group g.handle = some { g with forming := none, state := g.before, sent := [] })) ∧
  ∀ (s : State) (n : RingId) (i : Index) (d : Desc) (g : Group), s.work n i 0x42 .started = some d → bits (d.word 3) 63 8 = 0 →
    (∀ w ∈ d.words.drop 4, w = 0) → s.group (bits (d.word 3) 7 0) = some g →
    (g.state ≠ 2 → g.state ≠ 3 → exec (.disband n i) s = .next { s with descs := decideIn s n i .format 0 0 }) ∧
    (g.state = 2 ∨ g.state = 3 → g.cur = none → g.held = [] →
      ∃ t, exec (.disband n i) s = .next t ∧ t.group g.handle = none ∧ Finished t n i .ok 0) ∧
    (g.state = 2 ∨ g.state = 3 → g.cur ≠ none ∨ g.held ≠ [] →
      ∃ t, exec (.disband n i) s = .next t ∧ t.group g.handle = some { g with state := 4, disband := some (n, i) } ∧
        Turned s t n i { d with phase := .working })

/-- R316, R317: a COLLECTIVE of no group completes with FORMAT, one behind NEXT_SEQ with COLL_ORDER, one ahead is held until NEXT_SEQ reaches
it. R318, R321, R322, R325, R326: a grant for the current collective extends what its flow may send, a chunk is stored and acknowledged, an
ACK frees what it confirms, a digest and a verdict are taken, and a FAIL ends the collective; what is for a later sequence is held; a chunk
without an ACK is sent again until its retries are spent; a packet of a reserved CCOP or KIND gets FORMAT (R5); LOST and the timeout make the group LOST. A collective that completes with OK moves
NEXT_SEQ on and completes its descriptor. -/
def Obligations.CollectivesTakeTheirPackets : Prop :=
  (∀ (s : State) (n : RingId) (i : Index) (d : Desc), s.work n i 0x41 .started = some d →
    let h := bits (d.word 3) 31 24
    let c := s.collOf n i d
    (s.activeGroup h = none → exec (.collective n i) s = .next { s with descs := decideIn s n i .format 0 0 }) ∧
    ∀ g, s.activeGroup h = some g →
      (seqBehind g.nextSeq c.seq = true → exec (.collective n i) s =
        .next { s.bump Reg.COLL_COUNTS Reg.COLL_COUNTS_ORDER_FAIL with descs := decideIn s n i .collOrder 0 0 }) ∧
      (seqBehind g.nextSeq c.seq = false → g.state ≠ 3 →
        let v := s.mapDesc n i fun d => { d with phase := .working }
        let k := v.collCheck g c d
        (c.seq = g.nextSeq → g.cur = none → exec (.collective n i) s = .next (k.2.startColl h { c with check := k.1 })) ∧
        (c.seq ≠ g.nextSeq ∨ g.cur ≠ none →
          exec (.collective n i) s = .next (k.2.setGroup { g with held := g.held ++ [{ c with check := k.1 }] })))) ∧
  (∀ (s : State) (h : Fin 256) (g : Group) (c : Coll), s.group h = some g → g.cur = none →
    g.held.find? (fun c => c.seq = g.nextSeq || seqBehind g.nextSeq c.seq) = some c →
    (c.seq = g.nextSeq → exec (.collectiveCurrent h) s = .next ((s.setGroup { g with held := g.held.erase c }).startColl h c)) ∧
    (c.seq ≠ g.nextSeq → g.disband = none → ∃ t, exec (.collectiveCurrent h) s = .next t ∧
      t.group h = some { g with held := g.held.erase c } ∧ t.descs = decideIn s c.ring c.idx .collOrder 0 0 ∧ t.mem = s.mem)) ∧
  (∀ (s u : State) (p : Packet) (g : Group) (r : Nat), FromMember s u p 0x22 g r → ccop p = 4 →
    (∀ c f, g.seqIs (colSeq p) = .current c → c.agrees p.payload = true →
      c.outs.find? (fun f => edgeIs f.edge r (leAt p.payload 8 1) (leAt p.payload 10 2) (leAt p.payload 12 2) true) = some f →
      exec (.grant p) s = .next ((u.mapColl g.handle fun c => { c with outs := c.outs.map (fun x => if x.edge = f.edge then
        { x with granted := max x.granted (leAt p.payload 16 4 + leAt p.payload 20 4 - c.wireOff g f.edge) } else x) }).collStep g.handle)) ∧
    (∀ c, g.seqIs (colSeq p) = .current c → c.agrees p.payload = false → exec (.grant p) s = .next (u.collOrder g.handle c.seq)) ∧
    (g.seqIs (colSeq p) = .ahead → u.controlFull = false → exec (.grant p) s = .next (u.setGroup { g with early := g.early ++ [p] })) ∧
    (g.seqIs (colSeq p) = .past none → exec (.grant p) s = .next (u.collOrder g.handle (colSeq p)))) ∧
  (∀ (s u : State) (p : Packet) (g : Group) (r : Nat) (bs : List Byte), FromMember s u p 0x20 g r → chunkData p = some bs →
    (∀ c f, g.seqIs (colSeq p) = .current c →
      c.ins.find? (fun f => edgeIs f.edge r (colStage p) (colFirst p) (colCount p) false) = some f →
      let f' : InFlow := { f with data := putAt f.data (colOff p - c.wireOff g f.edge) bs }
      exec (.cdata p) s = .next (((u.mapColl g.handle fun c => { c with ins := c.ins.map (fun x => if x.edge = f.edge then
        { x with data := f'.data } else x) }).ackFlow g c f' f'.bytes.length).collStep g.handle)) ∧
    (g.seqIs (colSeq p) = .ahead → exec (.cdata p) s = .next u)) ∧
  (∀ (s u : State) (p : Packet) (g : Group) (r : Nat), FromMember s u p 0x22 g r → ccop p = 5 →
    exec (.collAck p) s = .next (u.setGroup { g with sent := g.sent.filter (fun x => !(x.pkt.op = 0x20 && x.pkt.dst = p.src &&
      colSeq x.pkt = colSeq p && colStage x.pkt = leAt p.payload 8 1 && colFirst x.pkt = leAt p.payload 10 2 &&
      colCount x.pkt = leAt p.payload 12 2 && colOff x.pkt + chunkLen x.pkt ≤ leAt p.payload 16 4)) })) ∧
  (∀ (s : State) (h : Fin 256) (j : Nat) (g : Group) (x : Sent), s.group h = some g → (g.sent.filter (fun x => x.pkt.op = 0x20))[j]? = some x →
    (x.tries < s.fld Reg.ROUTE_CFG Reg.ROUTE_CFG_E2E_RETRIES → exec (.chunkResend h j) s = .next (((s.setGroup { g with
      sent := g.sent.map (fun y => if y = x then { y with tries := y.tries + 1 } else y) }).bump Reg.COLL_COUNTS Reg.COLL_COUNTS_RESENDS).inject
        (s.again x.pkt))) ∧
    (∀ r, s.fld Reg.ROUTE_CFG Reg.ROUTE_CFG_E2E_RETRIES ≤ x.tries → g.rankOf x.pkt.dst = some r →
      exec (.chunkResend h j) s = .next ((s.setGroup { g with sent := g.sent.erase x }).loseMember h r))) ∧
  (∀ (s u : State) (p : Packet), p.cls = 2 → s.takeArrived p = some u →
    (p.op = 0x22 → ccop p = 0 ∨ 8 ≤ ccop p → exec (.fail p) s = .next (u.reply p .format [])) ∧
    (p.op = 0x21 → 2 ≤ ccop p → exec (.tallyDigest p) s = .next (u.reply p .format []))) ∧
  (∀ (s u : State) (p : Packet) (g : Group) (r : Nat), FromMember s u p 0x22 g r → ccop p = 6 → g.state = 2 → g.cur = none → g.held = [] →
    exec (.lost p) s = .next ((u.setGroup { g with state := 3 }).bump Reg.COLL_COUNTS Reg.COLL_COUNTS_LOST)) ∧
  (∀ (s u : State) (p : Packet) (g : Group) (r : Nat), FromMember s u p 0x22 g r → ccop p = 7 →
    (∀ c, g.seqIs (colSeq p) = .current c → exec (.fail p) s = .next (if leAt p.payload 8 1 = 0x09 then u.finishColl g.handle .collOrder .collOrder
      else u.finishColl g.handle .collDigest .collDigest)) ∧
    (g.seqIs (colSeq p) = .ahead → u.controlFull = false → exec (.fail p) s = .next (u.setGroup { g with early := g.early ++ [p] }))) ∧
  (∀ (s u : State) (p : Packet) (g : Group) (r : Nat) (c : Coll), FromMember s u p 0x21 g r → g.seqIs (colSeq p) = .current c →
    (ccop p = 0 → colCount p ≤ 1 → exec (.tallyDigest p) s = .next ((u.mapColl g.handle fun c => { c with ins := c.ins.map (fun f =>
      if edgeIs f.edge r (colStage p) (colFirst p) (colCount p) false then { f with digest := some (BitVec.ofNat 64 (leAt p.payload 8 8)) }
      else f) }).collStep g.handle)) ∧
    (ccop p = 1 → (g.parent g.rank).map (·.parent) = some r →
      exec (.tallyVerdict p) s = .next (u.passDown g.handle (leAt p.payload 24 1 = 1))) ∧
    (ccop p = 1 → (g.parent g.rank).map (·.parent) ≠ some r → (g.children g.rank).any (fun l => l.child = r) = true →
      (∀ v ∈ c.votes, v.1 ≠ r) → g.cur = some c →
      exec (.tallyVerdict p) s = .next ((u.setGroup { g with cur := some { c with votes := c.votes ++ [(r, decide (leAt p.payload 24 1 = 1))] } }).vote
        g.handle))) ∧
  (∀ (s : State) (h : Fin 256) (g : Group) (c : Coll), s.group h = some g → g.cur = some c → s.isShadow (s.ringAuth c.ring) = false →
    exec (.collTimeout h) s = .next (s.loseMember h (c.waitsFor g))) ∧
  ∀ (s : State) (g : Group) (c : Coll), s.group g.handle = some g → g.cur = some c → g.disband = none → s.isSource (s.ringAuth c.ring) = false →
    let t := s.finishColl g.handle .ok .ok
    t.group g.handle = some (g.closeOut c .ok) ∧ (g.closeOut c .ok).nextSeq = g.nextSeq + 1 ∧ (g.closeOut c .ok).cur = none ∧
      t.descs = decideIn s c.ring c.idx .ok 0 0 ∧ t.mem = s.mem ∧ t.poison = s.poison ∧ t.events = s.events

namespace Sys2Proof.Claims

/-! ### Faults, aborts, resets, dumps -/

/-- A core after the fence of its domain (R81, R100, R383): nothing runs and nothing is queued; the started broad instructions have raised
BROAD_FAULT, which stays held with the core's state. -/
structure Fenced (c c' : Core) : Prop where
  run : c'.run = (if c.run = .retired then .retired else .fenced)
  idle : c.run ≠ .retired → c'.queue = [] ∧ c'.launch = none ∧ c'.wait = .none ∧ c'.flips = [] ∧ c'.halting = none
  faults : ∃ more : List Trap, c'.pendingTraps = (if c.run = .retired then c.pendingTraps else (c.pendingTraps ++ more).take 15) ∧
    more.length ≤ (c.queue.filter (fun b => b.phase ≠ .queued)).length ∧ ∀ t ∈ more, t.cause = 0x09 ∧ t.status ≠ .ok
  kept : c'.g = c.g ∧ c'.p = c.p ∧ c'.pc = c.pc ∧ c'.imem = c.imem ∧ c'.tiles = c.tiles ∧ c'.acc = c.acc ∧ c'.epc = c.epc ∧ c'.tstatus = c.tstatus

/-- `t` is a reset of the device of `s` (R382, R384, R445): what outlives it stands, and everything else is as at reset. -/
structure DeviceReset (s t : State) : Prop where
  cores : t.cores = State.reset.cores
  mem : t.mem = State.reset.mem ∧ t.poison = State.reset.poison
  rings : t.descs = [] ∧ t.fetches = [] ∧ t.launchQ = []
  fabric : t.fab = State.reset.fab ∧ t.links = State.reset.links ∧ t.groups = []
  kept : t.nor = s.nor ∧ t.trail = s.trail ∧ t.fuses = s.fuses ∧ t.hamper = s.hamper ∧ t.snap.store = s.snap.store ∧ t.pending = s.pending
  cause : t.resetCause = 3
  registers : ∀ o, o ≠ Reg.MEM_SPARE_CTRL → o ≠ Reg.ERR_STATUS → o ≠ Reg.BOOT_CFG → t.reg o = State.reset.reg o
  lasers : t.out = s.out ++ ((List.range 8).filter (fun m => s.fld (Reg.OPTIC_LSM_STATE m) Reg.OPTIC_LSM_STATE_LASER_EN = 1)).map (fun m => .pin "LASER_EN" m 0)
  failsafe : t.fld Reg.ERR_STATUS Reg.ERR_STATUS_LAST_FS_CAUSE = s.fld Reg.ERR_STATUS Reg.ERR_STATUS_LAST_FS_CAUSE ∧ t.failsafe = false

/-- The bytes and the place of the dump that `r` asks for, every unit answering (R391, R392). -/
def dumpOf (u : State) (r : DumpReq) : List Byte :=
  u.dumpBytes r (u.fld Reg.ERR_DUMP_STATE Reg.ERR_DUMP_STATE_DUMPS) 0
    ((domainSections (u.fld Reg.ERR_DUMP_CFG Reg.ERR_DUMP_CFG_TILES = 1) r.kind r.index).map fun e => ⟨e.1, e.2, 0, u.sectionBytes e.1 e.2, 0⟩)
def dumpPlace (u : State) : Nat :=
  u.fld Reg.ERR_DUMP_BASE Reg.ERR_DUMP_BASE_BASE * 0x200000 + u.fld Reg.ERR_DUMP_STATE Reg.ERR_DUMP_STATE_DUMPS % 2 * 0x8000000

end Sys2Proof.Claims

/-- R382, R383: the reset of a core or a cluster fences its cores, which keep their registers, and is merged into one in progress that covers
it; once its requests are through it is dumped where asked, and reset; the reset core is as at reset but for its instruction memory and column
groups, and its tray reads 0. R388, R389: a hang resets the domain with its work held; the suspects' work runs again one context at a time, or
completes with FENCED where replay is off; a second hang fences the domain again. R391: a dump is stored at its place, BUSY until it is done. -/
def Obligations.DomainsFenceDumpAndReset : Prop :=
  (∀ (s : State) (src : Source) (k : CoreId), s.mayUse src = true →
    (s.resets.any (fun r => r.covers 0 k.val) = true → exec (.resetCore src k) s = .next s) ∧
    (s.resets.any (fun r => r.covers 0 k.val) = false → ∃ t, exec (.resetCore src k) s = .next t ∧ Fenced (s.core k) (t.core k) ∧
      (∀ j, j ≠ k → t.core j = s.core j) ∧ t.mem = s.mem ∧
      t.resets = s.resets ++ [⟨0, k, s.dumpBit, 0, false, 1, none, none, []⟩])) ∧
  (∀ (s : State) (src : Source) (c : ClusterId), s.mayUse src = true → s.resets = [] →
    ∃ t, exec (.resetCluster src c) s = .next t ∧ (∀ k : CoreId, k.val / 32 = c.val → Fenced (s.core k) (t.core k)) ∧
      (∀ k : CoreId, k.val / 32 ≠ c.val → t.core k = { s.core k with sfn := (t.core k).sfn, stbLoading := (t.core k).stbLoading }) ∧
      ((∀ d ∈ s.descs, s.dmaRing c.val d.ring = true → d.typ ≠ 0x12 ∧ d.typ ≠ 0x13) → ∀ k : CoreId, k.val / 32 ≠ c.val → t.core k = s.core k) ∧
      t.fencedClusters.contains c.val = true ∧ t.mem = s.mem ∧
      t.resets = [⟨1, c, s.dumpBit, 0, false, 1, none, none, []⟩]) ∧
  (∀ (s : State) (r : Reset), s.resets = [r] → r.phase = 1 →
    ∃ t, exec .fenceDrained s = .next t ∧ t.cores = s.cores ∧ t.mem = s.mem ∧
      (r.dump = true → t.resets = [{ r with phase := 2 }] ∧ t.dumpQ = s.dumpQ ++ [⟨r.kind, r.index, r.cause⟩]) ∧
      (r.dump = false → t.resets = [{ r with phase := 3 }] ∧ t.dumpQ = s.dumpQ)) ∧
  (∀ (s : State) (r : Reset), s.resets = [r] → r.phase = 3 → r.again = none → r.kind = 0 ∨ r.kind = 1 →
    ∃ u, exec .domainResetDone s = .next (if s.suspects = [] then u.endReset { r with phase := 4, turn := none } else u) ∧
      (∀ k ∈ domainCores r.kind r.index, u.core k = (s.core k).domainReset ∧ ∀ a, trayOf k ≤ a → a < trayOf k + 0x400000 → u.byte a = 0) ∧
      (∀ k, k ∉ domainCores r.kind r.index → u.core k = s.core k) ∧ u.resets = [{ r with phase := 4, turn := none }] ∧
      (r.kind = 1 → u.fencedClusters.contains r.index = false) ∧ u.descs = s.descs) ∧
  (∀ (s : State) (r : Reset) (x : Ctx), s.resets = [r] → r.phase = 4 →
    (r.turn = none → s.suspects.head? = some x →
      (s.fld Reg.ERR_HANG_CFG Reg.ERR_HANG_CFG_REPLAY_EN = 1 → s.fld (Reg.ERR_CTX x) Reg.ERR_CTX_REPLAY = 1 → ∀ hung,
        ∃ t, exec (.suspectReplay x hung) s = .next t ∧ t.resets = [{ r with turn := some x }] ∧ t.descs = s.descs.map (fun d =>
          if d.held && s.ringAuth d.ring = .ctx x then { newDesc d.ring d.idx d.words d.typ.toNat none 0 with held := true } else d)) ∧
      (s.fld Reg.ERR_HANG_CFG Reg.ERR_HANG_CFG_REPLAY_EN = 0 ∨ s.fld (Reg.ERR_CTX x) Reg.ERR_CTX_REPLAY = 0 → ∀ hung,
        exec (.suspectReplay x hung) s = .next (s.releaseHeld x .fenced).settleReset)) ∧
    (r.turn = some x →
      (∃ t, exec (.suspectReplay x true) s = .next t ∧ t.resets = [{ r with phase := 1, dump := true, turn := none, again := some x }] ∧
        ∀ k ∈ domainCores r.kind r.index, Fenced (s.core k) (t.core k)) ∧
      ((∀ d ∈ s.heldOf x, d.phase = .done) → exec (.suspectReplay x false) s =
        .next (((s.advanceReset 4 fun r => { r with turn := none }).releaseHeld x .ok).settleReset)))) ∧
  (∀ (s : State) (e : HangEngine), s.fld Reg.ERR_HANG_CFG Reg.ERR_HANG_CFG_ENABLE = 1 → s.engineBusy e = true →
    (∀ k, e = .core k → exec (.hangDetect e) s = .next (s.requestReset 0 k true true 0x010F)) ∧
    (∀ n, e = .dma n → exec (.hangDetect e) s = .next (s.requestReset 1 (n.val / 4) true true 0x010F)) ∧
    (∀ c, e = .device c → exec (.hangDetect e) s = .next (s.deviceFault 0x0303 (BitVec.ofNat 48 (2 + c.val))))) ∧
  (∀ (s : State) (r : DumpReq) (rs : List DumpReq), s.dumpQ = r :: rs → s.fld Reg.ERR_DUMP_STATE Reg.ERR_DUMP_STATE_BUSY = 0 →
    s.failsafe = false → s.hamperHeld = false → s.fld Reg.ERR_DUMP_CFG Reg.ERR_DUMP_CFG_HAMPER = 0 →
    let u := s.wrapInc Reg.ERR_DUMP_STATE Reg.ERR_DUMP_STATE_DUMPS
    u.Permits (u.me .ranger) .wr false (dumpPlace u) (dumpOf u r).length → u.Clean .ranger (dumpPlace u) (dumpOf u r).length →
    ∃ t, exec (.dump []) s = .next t ∧ t.fld Reg.ERR_DUMP_STATE Reg.ERR_DUMP_STATE_BUSY = 1 ∧
      t.fld Reg.ERR_DUMP_STATE Reg.ERR_DUMP_STATE_VALID = 0 ∧ t.fld Reg.ERR_DUMP_STATE Reg.ERR_DUMP_STATE_TRUNC = 0 ∧ t.dumpQ = s.dumpQ ∧
      t.cores = s.cores ∧ ∀ a, t.byte a = if dumpPlace u ≤ a ∧ a < dumpPlace u + (dumpOf u r).length then (dumpOf u r).getD (a - dumpPlace u) 0
        else s.byte a) ∧
  ∀ (s : State) (r : DumpReq) (rs : List DumpReq), s.dumpQ = r :: rs → s.fld Reg.ERR_DUMP_STATE Reg.ERR_DUMP_STATE_BUSY = 1 → r.kind ≠ 2 →
    ∃ t, exec .dumpDone s = .next t ∧ t.fld Reg.ERR_DUMP_STATE Reg.ERR_DUMP_STATE_BUSY = 0 ∧
      t.fld Reg.ERR_DUMP_STATE Reg.ERR_DUMP_STATE_VALID = 1 ∧ t.dumpQ = rs ∧ t.mem = s.mem ∧ t.cores = s.cores ∧
      ∀ q, s.resets = [q] → q.phase = 2 → q.kind = r.kind → q.index = r.index → t.resets = [{ q with phase := 3 }]

/-- R381: fail-safe keeps its cause and stops the outputs; the watchdog and the loss of the last lockstep pair enter it. R382, R384, R433: a
device reset, by request without a dump or by RESET_N, leaves everything as at reset but what outlives it; an engine's reset is a forced
quiesce. R390: the shadow reader copies every unit that answers. R385 to R387: an abort sets ABORTED, stops its context's cores and decides
its descriptors and no other's; a notice seen before is dropped; ABORTED clears where 1 is written once DRAINING is 0. -/
def Obligations.FailSafeAbortsAndDeviceReset : Prop :=
  (∀ (s : State) (c : FsCause),
    (s.failsafe = false → exec (.failsafeEnter c) s = .next { s.setFld Reg.ERR_STATUS Reg.ERR_STATUS_LAST_FS_CAUSE (causeCode c) with
      failsafe := true, txFenced := true }) ∧
    (s.failsafe = true → exec (.failsafeEnter c) s = .next s) ∧ exec .rangerWatchdog s = exec (.failsafeEnter .watchdog) s) ∧
  (∀ (s : State) (p : Fin 4), bit (s.reg Reg.ERR_STATUS) (48 + p.val) = true → s.failsafe = false →
    let u := (s.setReg Reg.ERR_STATUS (setBit (s.reg Reg.ERR_STATUS) (48 + p.val) false)).post (event 0x010C (BitVec.ofNat 48 p.val) none)
    (u.fld Reg.ERR_STATUS Reg.ERR_STATUS_PAIRS ≠ 0 → exec (.lockstepPair p) s = .next u) ∧
    (u.fld Reg.ERR_STATUS Reg.ERR_STATUS_PAIRS = 0 → exec (.lockstepPair p) s = .next (u.failSafe .noPair)) ∧
    (bits (s.reg Reg.ERR_STATUS) 51 48 = 2 ^ p.val → u.fld Reg.ERR_STATUS Reg.ERR_STATUS_PAIRS = 0)) ∧
  (∀ (s : State) (src : Source), s.mayUse src = true →
    (s.dumpBit = false ∨ s.failsafe = true → ∃ t, exec (.resetDevice src) s = .next t ∧ DeviceReset s t) ∧
    (s.dumpBit = true → s.failsafe = false → s.resets = [] → ∃ t, exec (.resetDevice src) s = .next t ∧
      t.resets = [⟨2, 0, true, 0, false, 2, none, none, []⟩] ∧ t.dumpQ = s.dumpQ ++ [⟨2, 0, 0⟩] ∧ t.mem = s.mem ∧ t.cores = s.cores)) ∧
  (∀ (s : State), ∃ t, exec .resetNAssert s = .next t ∧ DeviceReset s t) ∧
  (∀ (s : State) (src : Source) (e : EngineId), s.mayUse src = true →
    (s.fld (Reg.OPTIC_ENG_STATE e) Reg.OPTIC_ENG_STATE_STATE = 5 →
      exec (.resetOptic src e) s = .next (s.setFld (Reg.OPTIC_ENG_STATE e) Reg.OPTIC_ENG_STATE_STATE 4)) ∧
    (s.fld (Reg.OPTIC_ENG_STATE e) Reg.OPTIC_ENG_STATE_STATE ≠ 5 →
      exec (.resetOptic src e) s = .next ((s.setFld (Reg.OPTIC_ENG_CTRL e) Reg.OPTIC_ENG_CTRL_FORCE 1).quiesce e))) ∧
  (∀ (s : State) (deaf : List DumpUnit), exec (.shadowRead deaf) s = .next { s with
    shadows := (domainSections false 2 0).filterMap (fun e => if deaf.contains (DumpUnit.of e.1 e.2) then s.shadow e.1 e.2
      else some ⟨e.1, e.2, s.sectionBytes e.1 e.2, s.devTime⟩) }) ∧
  (∀ (s u : State) (p : Packet), s.takeArrived p = some u → p.op = 0x32 → p.cls = 4 → p.payload.length = 32 → p.pcrcOk = true →
    abortOk p.payload = true →
    (u.abortsSeen.contains (abOrigin p, abSeq p) = true → exec (.abort p) s = .next u) ∧
    (u.abortsSeen.contains (abOrigin p, abSeq p) = false →
      let v : State := { u with abortsSeen := ((abOrigin p, abSeq p) :: u.abortsSeen).take 256 }
      ((u.jobOf (abCtx p)).toNat ≠ abJob p → exec (.abort p) s = .next (v.flood 0x32 p.payload)) ∧
      ((u.jobOf (abCtx p)).toNat = abJob p → exec (.abort p) s =
        .next ((v.abortAct (abCtx p) (Config.detail 0x0205 [(abOrigin p).toNat, (abSeq p).toNat])).flood 0x32 p.payload)))) ∧
  (∀ (s : State) (src : Source) (v : Word), s.mayUse src = true →
    (v.getLsbD 48 = true → exec (.errAbort src v) s = .next (s.abortOrigin ⟨bits v 37 32 % 64, Nat.mod_lt _ (by decide)⟩ 0
      (BitVec.ofNat 32 (bits v 31 0)))) ∧
    (v.getLsbD 48 = false → exec (.errAbort src v) s = .next s)) ∧
  (∀ (s : State) (x : Ctx) (det : BitVec 48), s.groups = [] →
    let t := s.abortAct x det
    t.aborted x = true ∧ (∀ k ∈ s.coresOf x, (t.core k).run = (if (s.core k).halting = none then .halted else (s.core k).run) ∧
        (t.core k).queue = [] ∧ (t.core k).launch = none ∧ (t.core k).halting = none ∧ (t.core k).g = (s.core k).g ∧ (t.core k).pc = (s.core k).pc) ∧
      (∀ k, k ∉ s.coresOf x → t.core k = { s.core k with sfn := (t.core k).sfn, stbLoading := (t.core k).stbLoading }) ∧
      (∀ d ∈ t.descs, s.ringAuth d.ring = .ctx x → d.phase = .done ∨ d.phase = .posting ∨ d.phase = .stopping) ∧
      (∀ n i d, s.ringAuth n = .ctx x → s.desc n i = some d → d.phase ≠ .done → d.phase ≠ .posting → d.phase ≠ .stopping →
        (∀ k ∈ s.coresOf x, ∀ l, (s.core k).launch = some l → l.ring ≠ n ∨ l.idx ≠ i) → ∃ e, t.desc n i = some e ∧ e.status = .aborted ∧ e.held = false) ∧
      (∀ n i, s.ringAuth n ≠ .ctx x → (∀ k ∈ s.coresOf x, ∀ l, (s.core k).launch = some l → l.ring ≠ n) → t.desc n i = s.desc n i)) ∧
  ∀ (s : State) (src : Source) (x : Ctx), s.mayUse src = true → s.aborted x = true →
    (s.fld (Reg.ERR_CTX x) Reg.ERR_CTX_DRAINING = 1 → ∃ t, exec (.abortClear src x) s = .next t ∧ t.aborted x = true ∧ t = { s with setup := t.setup }) ∧
    (s.fld (Reg.ERR_CTX x) Reg.ERR_CTX_DRAINING = 0 → ∃ u : State, exec (.abortClear src x) s = .next (u.post (event 0x0008 (BitVec.ofNat 48 x.val) (some x))) ∧
      u.aborted x = false ∧ u.active = s.active.filter (fun e => !(e.severity = 2 && e.ctx = some x)) ∧
      u = { s with setup := u.setup, active := u.active })

namespace Sys2Proof.Claims

/-! ### Flits received -/

/-- Flit `f` of FTYPE `kind` on receive channel `c` passes every check (R236, R243, R256); `u` is the state once it counts toward the
channel's confirmation, which nothing waits for. -/
structure Good (s u : State) (c : ChanId) (f : Flit) (kind : Nat) : Prop where
  rx : chRx c = true
  locked : s.opt.locked.contains c.val = true
  crc : f.crcOk = true
  ftype : f.ftype = kind
  known : 1 ≤ kind ∧ kind ≤ 5
  length : f.payload.length = 320
  line : f.widx = chLine c
  far : s.fibState (chFiber c) = 2 → ¬(kind = 2 ∧ s.opt.fenced.contains (chFiber c) = true) →
    f.fidx = s.farFiber (chFiber c) ∧ f.scoord = s.farCoord (chFiber c)
  settled : s.fibState (chFiber c) = 2 → s.inMap c = true ∨ Maps.get 0 s.opt.confirm c < 63
  counted : u = { s with opt := { s.opt with seen := Maps.set s.opt.seen c f.next
                                             confirm := Maps.put 0 s.opt.confirm c (min 64 (Maps.get 0 s.opt.confirm c + 1)) } }

/-- The flit's sequence fields and credits change nothing: ACK passes no flit kept, no NAK, no credits; nothing is held. -/
structure Quiet (s : State) (f : Flit) : Prop where
  acks : ∀ g ∈ (s.link f.scoord).replay, seqLe (g.seq + 1) f.ack = false
  nak : f.nak = false
  credits : 30 ≤ f.creditA.1 ∧ 30 ≤ f.creditB.1
  held : s.fab.held = []

/-- The data flit that is due from `nb` is lost: every receive channel in the maps of the link has gone past it, and no NAK is out (the
model's reading, log entry 80). -/
def Lost (u : State) (nb : Coord) : Prop :=
  (u.link nb).nak = false ∧ u.rxChannels nb ≠ [] ∧
    ∀ d ∈ u.rxChannels nb, ∃ e, u.opt.seen.find? (fun e => e.1 = d) = some e ∧ seqLe e.2 (u.link nb).rxSeq = false

/-- All eight channels of a fiber direction are in service, none being out for calibration. -/
def AllIn (s : State) (F : Nat) (rx : Bool) : Prop :=
  s.stage < 3 ∧ (s.pass (engOf F)).cur = none ∧ s.chMap F rx = 255 ∧ ∀ w < 8, s.chState (chan F rx w) = 2

end Sys2Proof.Claims

/-- R256: a flit whose codeword or link CRC fails or whose FTYPE is reserved is discarded and counted in FLIT_BAD. A good data flit with
the expected SEQ is taken: SEQ moves on, NAK ends, and the packet of a single unit that it carries waits for its route, and the flits that waited for it follow; a
repeated flit is dropped; one ahead of its place waits, up to 2 µs of a channel, unless the flit before it is lost, which is answered with
NAK, and so is a loss that an idle flit shows. Corrected codewords of every kind of flit count in FEC_CORR. R257, R272: ACK frees the flits kept for replay, credits free a pool. R384: a
device that has flipped no topology table discards data. -/
def Obligations.DataFlitsAreTakenInSequence : Prop :=
  (∀ (s : State) (c : ChanId) (f : Flit) (n : Nat), chRx c = true →
    s.opt.locked.contains c.val = false ∨ 8 < n ∨ f.crcOk = false ∨ f.ftype = 0 ∨ 5 < f.ftype →
    ∃ t, exec (.dataFlit c f n) s = .next t ∧
      t = { s with opt := { s.opt with confirm := Maps.erase s.opt.confirm c }, setup := t.setup } ∧
      t.fld (Reg.ROUTE_FIB_CNT (chFiber c)) Reg.ROUTE_FIB_CNT_FLIT_BAD =
        min 65535 (s.fld (Reg.ROUTE_FIB_CNT (chFiber c)) Reg.ROUTE_FIB_CNT_FLIT_BAD + 1) ∧
      ∀ o, o ≠ Reg.ROUTE_FIB_CNT (chFiber c) → t.reg o = s.reg o) ∧
  (∀ (s u : State) (c : ChanId) (f : Flit), Good s u c f 1 → Quiet u f → s.fibState (chFiber c) = 2 → s.fab.flipped = true →
    (f.seq = (u.link f.scoord).rxSeq → (u.link f.scoord).early = [] → ∃ t, exec (.dataFlit c f 0) s = .next t ∧ (t.link f.scoord).rxSeq = f.seq + 1 ∧
      (t.link f.scoord).nak = false ∧ (∀ d, d ≠ f.scoord → t.link d = s.link d) ∧
      t = { u with links := t.links, fab := { u.fab with inbox := t.fab.inbox }, opt := { u.opt with seen := t.opt.seen } } ∧
      t.opt.seen = (if (u.link f.scoord).nak then [] else u.opt.seen) ∧
      ∀ p : Packet, (u.link f.scoord).lacks = 0 → f.first = 0 → p.payload = [] → p.plen = 0 → p.pcrc = 0 → (∃ b ∈ p.bytes, b ≠ 0xFF) →
        f.payload = p.bytes ++ List.replicate 288 0xFF → t.fab.inbox = s.fab.inbox ++ [(f.scoord, p)]) ∧
    (f.seq ≠ (u.link f.scoord).rxSeq → seqLe f.seq (u.link f.scoord).rxSeq = true → exec (.dataFlit c f 0) s = .next u) ∧
    (∀ k g, f.seq = (u.link f.scoord).rxSeq → (u.link f.scoord).early = [(k, g)] → g.seq = f.seq + 1 → ∃ t, exec (.dataFlit c f 0) s = .next t ∧
      (t.link f.scoord).rxSeq = f.seq + 2 ∧ (t.link f.scoord).early = [] ∧ ∀ p q : Packet, (u.link f.scoord).lacks = 0 → f.first = 0 →
        g.first = 0 → p.payload = [] → p.plen = 0 → p.pcrc = 0 → (∃ b ∈ p.bytes, b ≠ 0xFF) → q.payload = [] → q.plen = 0 → q.pcrc = 0 →
        (∃ b ∈ q.bytes, b ≠ 0xFF) → f.payload = p.bytes ++ List.replicate 288 0xFF → g.payload = q.bytes ++ List.replicate 288 0xFF →
        t.fab.inbox = s.fab.inbox ++ [(f.scoord, p), (f.scoord, q)]) ∧
    (seqLe f.seq (u.link f.scoord).rxSeq = false → (u.link f.scoord).nak = false → ¬Lost u f.scoord →
      ((u.link f.scoord).early.filter (fun e => e.1 = c.val)).length < 147 → (∀ e ∈ (u.link f.scoord).early, e.2.seq ≠ f.seq) →
      exec (.dataFlit c f 0) s = .next (u.setLink { u.link f.scoord with early := (u.link f.scoord).early ++ [(c.val, f)] })) ∧
    (∀ x, seqLe f.seq (u.link f.scoord).rxSeq = false → Lost u f.scoord → u.lane (chFiber c) = some x →
      ∃ t, exec (.dataFlit c f 0) s = .next (t.sendIdle x none) ∧ t = u.setLink { u.link f.scoord with nak := true, early := [] } ∧
        (t.link f.scoord).rxSeq = (u.link f.scoord).rxSeq ∧ (t.link f.scoord).nak = true ∧ t.fab.inbox = s.fab.inbox)) ∧
  (∀ (s u : State) (c : ChanId) (f : Flit) (x : Nat), Good s u c f 2 → Quiet u f → s.fibState (chFiber c) = 2 →
    u.opt.fenced.contains (chFiber c) = false → f.mapChg = false → Lost u f.scoord → u.lane (chFiber c) = some x →
    exec (.idleFlit c ⟨f, 0⟩) s = .next ((u.setLink { u.link f.scoord with nak := true, early := [] }).sendIdle x none)) ∧
  (∀ (s u : State) (c : ChanId) (f : Flit) (kind n : Nat), Good s u c f kind → 1 ≤ n → n ≤ 8 →
    let b := s.bump (Reg.ROUTE_FIB_CNT (chFiber c)) Reg.ROUTE_FIB_CNT_FEC_CORR
    b.fld (Reg.ROUTE_FIB_CNT (chFiber c)) Reg.ROUTE_FIB_CNT_FEC_CORR =
      min (2 ^ 24 - 1) (s.fld (Reg.ROUTE_FIB_CNT (chFiber c)) Reg.ROUTE_FIB_CNT_FEC_CORR + 1) ∧
    exec (.dataFlit c f n) s = exec (.dataFlit c f 0) b ∧ exec (.idleFlit c ⟨f, n⟩) s = exec (.idleFlit c ⟨f, 0⟩) b ∧
    exec (.fencedIdle c ⟨f, n⟩) s = exec (.fencedIdle c ⟨f, 0⟩) b ∧ exec (.trainingFlit c ⟨f, n⟩) s = exec (.trainingFlit c ⟨f, 0⟩) b ∧
    exec (.mismatch c ⟨f, n⟩) s = exec (.mismatch c ⟨f, 0⟩) b ∧ exec (.txOk c ⟨f, n⟩) s = exec (.txOk c ⟨f, 0⟩) b ∧
    exec (.quiesceNotice c ⟨f, n⟩) s = exec (.quiesceNotice c ⟨f, 0⟩) b ∧ exec (.calQuality c ⟨f, n⟩) s = exec (.calQuality c ⟨f, 0⟩) b ∧
    exec (.answer c ⟨f, n⟩) s = exec (.answer c ⟨f, 0⟩) b) ∧
  (∀ (s u : State) (c : ChanId) (f : Flit), Good s u c f 1 → s.fab.flipped = false → exec (.dataFlit c f 0) s = .next u) ∧
  (∀ (s u : State) (c : ChanId) (f : Flit), Good s u c f 2 → s.fibState (chFiber c) = 2 → u.opt.fenced.contains (chFiber c) = false →
    f.nak = false → f.mapChg = false → u.fab.held = [] → ¬Lost u f.scoord → seqLe f.ack (u.link f.scoord).txSeq = true → 30 ≤ f.creditB.1 →
    ∃ t, exec (.idleFlit c ⟨f, 0⟩) s = .next t ∧ t = { u with links := t.links } ∧
      (t.link f.scoord).replay = (u.link f.scoord).replay.filter (fun g => !seqLe (g.seq + 1) f.ack) ∧
      ∀ p, Maps.get 0 (t.link f.scoord).used p =
        if p = f.creditA.1 ∧ p < 30 then Maps.get 0 (u.link f.scoord).used p - f.creditA.2 else Maps.get 0 (u.link f.scoord).used p)

/-- R258: an idle flit with MAPDIR 0 gives the receive map and one with MAPDIR 1 asks for the transmit map, which is announced in an idle
flit; a FENCED_IDLE flit fences the link and, as it turns fenced, originates the abort of each context that uses the neighbour (R385; what the notice carries
is the model's choice, log entry 63), and an IDLE flit returns it to service with FAR_FIBER and FAR_COORD recorded afresh. R236, R255: a
training flit at link-up records the far indices and advances the phase, and at phase 2 on both ends the line enters both maps and the
pair, at its first link-up since reset, is in service. R255: three good alignment blocks in a row lock a channel and tell its BCOUNT, four bad ones unlock it. -/
def Obligations.IdleAndTrainingFlitsSetMaps : Prop :=
  (∀ (s u : State) (c : ChanId) (f : Flit), Good s u c f 2 → Quiet u f → s.fibState (chFiber c) = 2 →
    u.opt.fenced.contains (chFiber c) = false → ¬Lost u f.scoord →
    (f.mapChg = false → exec (.idleFlit c ⟨f, 0⟩) s = .next u) ∧
    (f.mapChg = true → f.mapDir = false → AllIn u (chFiber c) true → ∃ t, exec (.idleFlit c ⟨f, 0⟩) s = .next t ∧
      t.chMap (chFiber c) true = f.newMap ∧ t.chMap (chFiber c) false = u.chMap (chFiber c) false ∧
      ∀ w < 8, t.chState (chan (chFiber c) true w) = if f.newMap.testBit w then 2 else 3) ∧
    (f.mapChg = true → f.mapDir = true → AllIn u (chFiber c) false → f.newMap ≠ 0 → u.dark = false → u.txOff (chFiber c) = false →
      (u.link (u.farCoord (chFiber c))).owed = [] → ∃ t x g, exec (.idleFlit c ⟨f, 0⟩) s = .next t ∧
      t.chMap (chFiber c) false = f.newMap ∧ t.chMap (chFiber c) true = u.chMap (chFiber c) true ∧
      (∀ w < 8, t.chState (chan (chFiber c) false w) = if f.newMap.testBit w then 2 else 3) ∧
      Output.flit x g ∈ t.out ∧ x.val / 16 = chFiber c ∧ g.ftype = 2 ∧ g.mapChg = true ∧ g.mapDir = false ∧ g.newMap = f.newMap)) ∧
  (∀ (s u : State) (c : ChanId) (f : Flit), Good s u c f 2 → Quiet u f → s.fibState (chFiber c) = 2 → f.mapChg = false →
    u.opt.fenced.contains (chFiber c) = true → ∃ t, (¬Lost t f.scoord → exec (.idleFlit c ⟨f, 0⟩) s = .next t) ∧
      chFiber c ∉ t.opt.fenced ∧ t.farFiber (chFiber c) = f.fidx ∧ t.farCoord (chFiber c) = f.scoord ∧
      t = { u with setup := t.setup, opt := { u.opt with fenced := t.opt.fenced } } ∧
      (∀ F, F ≠ chFiber c → (F ∈ t.opt.fenced ↔ F ∈ u.opt.fenced)) ∧ ∀ o, o ≠ Reg.OPTIC_FIB_STATE (chFiber c) → t.reg o = s.reg o) ∧
  (∀ (s u : State) (c : ChanId) (f : Flit), Good s u c f 3 → s.fibState (chFiber c) = 2 →
    let nb := u.farCoord (chFiber c)
    let v := { u with opt := { u.opt with fenced := Maps.add u.opt.fenced (chFiber c) } }
    (u.farFenced nb = true → exec (.fencedIdle c ⟨f, 0⟩) s = .next (v.losePeer nb)) ∧
    (u.farFenced nb = false → exec (.fencedIdle c ⟨f, 0⟩) s =
      .next ((u.ctxsWith nb).foldl (fun (s : State) (x : Ctx) => s.abortOrigin x 0 0) (v.losePeer nb))) ∧
    v.linkUp nb = false ∧ (s.groups = [] → v.losePeer nb = v) ∧ (s.groups = [] → s.fab.outst = [] → u.ctxsWith nb = [])) ∧
  (∀ (s u : State) (c : ChanId) (f : Flit), Good s u c f 4 → s.fibState (chFiber c) = 1 → s.stage < 3 → u.fab.held = [] →
    (u.link f.scoord).met = false → (s.pass (engOf (chFiber c))).cur = none →
    (s.fld (Reg.OPTIC_ENG_STATE (engOf (chFiber c))) Reg.OPTIC_ENG_STATE_STATE = 1 ∨
      s.fld (Reg.OPTIC_ENG_STATE (engOf (chFiber c))) Reg.OPTIC_ENG_STATE_STATE = 2) →
    (∀ x < 3, s.fld (Reg.OPTIC_SUBST x) Reg.OPTIC_SUBST_REQUESTED = 0) →
    let x := chan (chFiber c) false (chLine c)
    let mine := Maps.get 0 s.opt.tphase x
    s.txLit x = true → ∃ t, exec (.trainingFlit c ⟨f, 0⟩) s = .next t ∧ t.farFiber (chFiber c) = f.fidx ∧ t.farCoord (chFiber c) = f.scoord ∧
      (mine = 0 → Maps.get 0 u.opt.confirm c = 64 → Maps.get 0 t.opt.tphase x = 1) ∧
      (mine = 0 → Maps.get 0 u.opt.confirm c ≠ 64 → Maps.get 0 t.opt.tphase x = 0) ∧
      (mine = 1 → f.byte 4 = 1 ∨ f.byte 4 = 2 → Maps.get 0 t.opt.tphase x = 2) ∧
      (mine = 2 → f.byte 4 = 2 → t.fibState (chFiber c) = 2 ∧ t.inMap x = true ∧ t.inMap c = true)) ∧
  ∀ (s : State) (c : ChanId) (b : BitVec 2880), chRx c = true →
    (bits b 63 0 = 0x9D2B6E41C7F0385A ∧ bits b 2879 2816 = 2 ^ 64 - 1 - 0x9D2B6E41C7F0385A →
      ∃ t, exec (.alignmentBlock c b) s = .next t ∧
        t = { s with opt := { s.opt with good := t.opt.good, bad := t.opt.bad, locked := t.opt.locked, blockCount := t.opt.blockCount } } ∧
        t.opt.blockCount.find? (fun e => e.1 = c.val) = some (c.val, bits b 108 85) ∧
        Maps.get 0 t.opt.good c = min 3 (Maps.get 0 s.opt.good c + 1) ∧ Maps.get 0 t.opt.bad c = 0 ∧
        (2 ≤ Maps.get 0 s.opt.good c → c.val ∈ t.opt.locked) ∧ (Maps.get 0 s.opt.good c < 2 → t.opt.locked = s.opt.locked)) ∧
    (¬(bits b 63 0 = 0x9D2B6E41C7F0385A ∧ bits b 2879 2816 = 2 ^ 64 - 1 - 0x9D2B6E41C7F0385A) →
      ∃ t, exec (.alignmentBlock c b) s = .next t ∧
        t = { s with opt := { s.opt with good := t.opt.good, bad := t.opt.bad, locked := t.opt.locked, confirm := t.opt.confirm } } ∧
        Maps.get 0 t.opt.bad c = min 4 (Maps.get 0 s.opt.bad c + 1) ∧ Maps.get 0 t.opt.good c = 0 ∧
        (3 ≤ Maps.get 0 s.opt.bad c → c.val ∉ t.opt.locked) ∧ (Maps.get 0 s.opt.bad c < 3 → t.opt.locked = s.opt.locked))

namespace Sys2Proof.Claims

/-! ### Control flits, link resets, packets at a hop -/

/-- A control flit of operation `op`, arrived whole on `c`, whose sequence fields change nothing (R259). -/
structure Control (s u : State) (c : ChanId) (f : Flit) (op : Nat) : Prop where
  good : Good s u c f 5
  quiet : Quiet u f
  whole : ¬Lost u f.scoord
  op : f.byte 0 = op

/-- The packet `p` has come whole from `nb`; `u` is the state once it is taken up (R260). -/
structure Whole (s u : State) (nb : Coord) (p : Packet) : Prop where
  here : (nb, p) ∈ s.fab.inbox
  taken : u = { s with fab := { s.fab with inbox := s.fab.inbox.erase (nb, p) } }
  awake : s.snap.salvage = false

/-- The packet as it goes out of this device: one HOP on, or HOP 0 and LEG 1 into the destination's block (R270). -/
def onward (p : Packet) (boundary : Bool) : Packet :=
  if boundary then { p with w0 := setBits p.w0 4 3 0, w1 := setBits p.w1 60 60 1 } else { p with w0 := setBits p.w0 4 3 (p.hop + 1) }

end Sys2Proof.Claims

/-- R243: on MISMATCH the far end relocks transmit ring v when its tone is on line w, and else answers TX_OK; on TX_OK the receive ring is
relocked and the notice ends. R259: QUIESCE and CAL_QUALITY act and are answered, ANSWER ends the repetition, and a control flit is sent at
most 8 times; notices about other lines stand, and none leaves after a device fault (R234). R249: on a quiesce notice the pair reads 3. -/
def Obligations.ControlFlitsActAndAreAnswered : Prop :=
  (∀ (s u : State) (c : ChanId) (f : Flit), Control s u c f 1 →
    let F := fiberOf c
    let w := f.byte 2 % 8
    let v := f.byte 3 % 8
    ((Maps.get 0 u.opt.tones (chan F false w)).testBit v = true → exec (.mismatch c ⟨f, 0⟩) s = .next ((u.relock (chan F false v)).answerControl F 1)) ∧
    ((Maps.get 0 u.opt.tones (chan F false w)).testBit v = false →
      exec (.mismatch c ⟨f, 0⟩) s = .next (u.sendAnswer F [0x02, BitVec.ofNat 8 F.val, BitVec.ofNat 8 w]))) ∧
  (∀ (s u : State) (c : ChanId) (f : Flit), Control s u c f 2 →
    let F := fiberOf c
    let w := f.byte 2 % 8
    u.chState (chan F true w) ≠ 6 → u.chState (chan F true w) ≠ 7 →
    exec (.txOk c ⟨f, 0⟩) s = .next ((u.stopControl F (fun x => x.op = 0x01 && (x.payload.getD 2 0).toNat = w)).relock (chan F true w))) ∧
  (∀ (s : State) (c : ChanId), (s.relock c.val).inMap c.val = false) ∧
  (∀ (s : State) (F : FiberId) (bs : List Byte) (x : Nat), s.txOff F = false → s.lane F = some x → bs.length ≤ 320 →
    ∃ g, Output.flit (chanId x) g ∈ (s.sendAnswer F bs).out ∧ g.ftype = 5 ∧ g.fidx = F.val ∧ g.payload = padTo 320 bs ∧ g.crcOk = true) ∧
  (∀ (s u : State) (c : ChanId) (f : Flit), Control s u c f 3 → ∃ t : State, exec (.quiesceNotice c ⟨f, 0⟩) s = .next t ∧
    t = (u.answerControl (fiberOf c) 3).fiberOut (fiberOf c) 3 7 ∧ t.fibState (fiberOf c) = 3 ∧
    t.chMap (fiberOf c) false = 0 ∧ t.chMap (fiberOf c) true = 0) ∧
  (∀ (s u : State) (c : ChanId) (f : Flit), Control s u c f 4 →
    let x := chan (fiberOf c) false (f.byte 2 % 8)
    let v := { u with opt := { u.opt with quality := Maps.set u.opt.quality x ((f.payload.drop 8).take 32) } }
    exec (.calQuality c ⟨f, 0⟩) s = .next (v.answerControl (fiberOf c) 4) ∧ Maps.get [] v.opt.quality x = (f.payload.drop 8).take 32) ∧
  (∀ (s u : State) (c : ChanId) (f : Flit), Control s u c f 5 → ∃ t : State, exec (.answer c ⟨f, 0⟩) s = .next t ∧ t = { u with links := t.links } ∧
    (t.link (u.farCoord (fiberOf c))).ctrl =
      (u.link (u.farCoord (fiberOf c))).ctrl.eraseP (fun x => x.fiber = fiberOf c && x.op.toNat = f.byte 1)) ∧
  (∀ (s : State) (F : FiberId) (op : Byte) (bs : List Byte),
    (s.txOff F = true → s.sendControl F op bs = s ∧ s.putControl F bs = s) ∧
    (s.txOff F = false → ⟨F, op, bs, 1⟩ ∈ ((s.sendControl F op bs).link (s.farCoord F)).ctrl ∧
      ∀ x ∈ (s.link (s.farCoord F)).ctrl, x.fiber ≠ F ∨ x.payload.take 3 ≠ bs.take 3 → x ∈ ((s.sendControl F op bs).link (s.farCoord F)).ctrl)) ∧
  ∀ (s : State) (F : FiberId) (op : Byte) (x : Ctrl), (s.link (s.farCoord F)).ctrl = [x] → x.fiber = F → x.op = op →
    (x.sends < 8 → exec (.controlResend F op) s =
      .next ((s.setLink { s.link (s.farCoord F) with ctrl := [{ x with sends := x.sends + 1 }] }).putControl F x.payload)) ∧
    (8 ≤ x.sends → exec (.controlResend F op) s = .next (s.setLink { s.link (s.farCoord F) with ctrl := [] }))

/-- R257: 100 µs without progress of ACK, or a NAK after the sixteenth replay, resets the link: its pairs retrain, RESETS counts, the replay buffer
stays; when it carries data again the unacknowledged flits are sent again, else they are lost. R281: their packets, and one held for a dark
hop throughout LINK_HOLD_US, are answered. R272, R273: a held packet goes once the pool has room for all its units, MGT first.
R324: the groups with COL packets share their turn by deficit round robin, a quantum of WEIGHT × 8,192 bytes each. -/
def Obligations.LinkResetsAndHeldPackets : Prop :=
  (∀ (s : State) (nb : Coord), (s.link nb).replay ≠ [] → (s.link nb).resetting = false →
    ∃ t : State, exec (.linkAckTimeout nb) s = .next t ∧ (t.link nb).resetting = true ∧ (t.link nb).replay = (s.link nb).replay ∧
      ∀ F ∈ s.fibersTo nb, t.fibState F = 1 ∧
        t.fld (Reg.ROUTE_FIB_CNT F) Reg.ROUTE_FIB_CNT_RESETS = min 255 (s.fld (Reg.ROUTE_FIB_CNT F) Reg.ROUTE_FIB_CNT_RESETS + 1)) ∧
  (∀ (s : State) (nb : Coord), (s.link nb).replay = [] → exec (.linkAckTimeout nb) s = .next s) ∧
  (∀ (s : State) (nb : Coord) (F : Nat), (s.link nb).replay ≠ [] →
    (16 ≤ (s.link nb).replays → ((s.nakIn nb F).link nb).resetting = true) ∧
    ((s.link nb).replays < 16 → ((s.nakIn nb F).link nb).resetting = (s.link nb).resetting ∧
      ((s.nakIn nb F).link nb).replays = (s.link nb).replays + 1)) ∧
  (∀ (s : State) (nb : Coord), (s.link nb).resetting = true → s.txChannels nb ≠ [] → s.fab.held = [] →
    ∃ t : State, exec (.linkResume nb) s = .next t ∧ (t.link nb).resetting = false ∧ (t.link nb).replay = (s.link nb).replay ∧
      ∀ f ∈ (s.link nb).replay, ∃ x g, Output.flit x g ∈ t.out ∧ g.seq = f.seq ∧ g.payload = f.payload ∧ g.ftype = f.ftype) ∧
  (∀ (s : State) (nb : Coord) (q : BitVec 24) (p : Packet), (s.link nb).resetting = true →
    (∀ F < 64, ¬(s.fibState F = 1 ∧ s.farCoord F = nb)) →
    let u := s.setLink { s.link nb with resetting := false, replay := [], replays := 0, unacked := [], part := [], lacks := 0, used := [], owed := [] }
    ((s.link nb).unacked = [] → exec (.linkFail nb) s = .next u) ∧
    ((s.link nb).unacked = [(q, p)] → p.cls ≠ 1 → exec (.linkFail nb) s = .next (u.replyFrom p.dst p .retryExhausted [])) ∧
    ((s.link nb).unacked = [(q, p)] → p.cls = 1 → exec (.linkFail nb) s = .next u)) ∧
  (∀ (s : State) (nb : Coord) (h : Held), s.fab.held = [h] → h.nb = nb → s.linkUp nb = true → s.hasCredit nb h.pkt = true → h.pkt.cls ≤ 4 →
    let u := { s with fab := { s.fab with held := [] } }
    ∃ l, (h.pkt.cls ≠ 2 → l = (s.link nb).deficit) ∧ (∀ g, (colGid h.pkt).toNat = g → h.pkt.cls = 2 → (s.link nb).deficit = [] → 0 < h.pkt.plen →
        h.pkt.plen ≤ s.quantum g → l = [(g, s.quantum g - h.pkt.plen)]) ∧
      let v := u.setLink { u.link nb with deficit := l }
      exec (.creditSend nb) s = .next (match h.via with
        | some (d, p) => (v.sendPacket nb h.pkt).owe d p
        | none => v.sendPacket nb h.pkt)) ∧
  (∀ (s : State) (nb : Coord) (a b : Held) (g k da db : Nat), s.fab.held = [a, b] → a.nb = nb → b.nb = nb → a.pkt.cls = 2 → b.pkt.cls = 2 →
    (colGid a.pkt).toNat = g → (colGid b.pkt).toNat = k → g ≠ k → s.hasCredit nb a.pkt = true → s.hasCredit nb b.pkt = true →
    (s.link nb).deficit = [(g, da), (k, db)] →
    (a.pkt.plen ≤ da → s.nextOf nb 2 = some (a, [(g, da - a.pkt.plen), (k, db)])) ∧
    (da < a.pkt.plen → b.pkt.plen ≤ db + s.quantum k → s.nextOf nb 2 = some (b, [(k, db + s.quantum k - b.pkt.plen), (g, da)]))) ∧
  (∀ (s : State) (nb : Coord) (h g : Held), h ∈ s.fab.held → h.nb = nb → h.pkt.cls = 4 → s.hasCredit nb h.pkt = true →
    (∀ x ∈ s.fab.held, x.nb = nb → x.pkt.cls = 4 → x ≠ h → poolOf x.pkt.cls x.pkt.leg x.pkt.hop ≠ poolOf h.pkt.cls h.pkt.leg h.pkt.hop) →
    ∀ l, s.nextHeld nb = some (g, l) → g.pkt.cls = 4 ∧ s.hasCredit nb g.pkt = true) ∧
  ∀ (s : State) (nb : Coord) (h : Held), s.linkUp nb = false → s.fab.held.find? (fun h => h.nb = nb) = some h →
    let u := { s with fab := { s.fab with held := s.fab.held.erase h } }
    (h.via = none → h.pkt.cls ≠ 1 → exec (.linkHoldTimeout nb) s = .next (u.replyFrom h.pkt.dst h.pkt .epoch [])) ∧
    (∀ d p, h.via = some (d, p) → h.pkt.cls ≠ 1 → exec (.linkHoldTimeout nb) s = .next ((u.owe d p).replyFrom h.pkt.dst h.pkt .epoch [])) ∧
    (h.via = none → h.pkt.cls = 1 → exec (.linkHoldTimeout nb) s = .next u)

/-- R265, R269 to R271, R279, R281: a whole packet whose HCHK fails is discarded unanswered; one of a version not accepted or retired, one
without a route, and a misrouted one are answered EPOCH; at its destination it arrives, or is answered FORMAT or RETRY_EXHAUSTED; else it
goes on one HOP further, or with HOP 0 and LEG 1 when it enters its destination's block, and its pool is freed. -/
def Obligations.PacketsGoOnByTheirRoute : Prop :=
  ∀ (s u : State) (nb : Coord) (p : Packet), Whole s u nb p →
    (p.hchkOk = false → exec (.packetForward nb p) s = .next ((u.bump Reg.ROUTE_DISCARDS Reg.ROUTE_DISCARDS_HCHK_FAIL).owe nb p)) ∧
    (p.hchkOk = true → (u.topo p.epoch).accepted = false ∨ (u.topo p.epoch).retired = true → p.cls ≠ 1 → exec (.packetForward nb p) s =
      .next (((u.bump Reg.ROUTE_DISCARDS Reg.ROUTE_DISCARDS_EPOCH_DISC).owe nb p).replyFrom p.dst p .epoch [])) ∧
    (p.hchkOk = true → (u.topo p.epoch).accepted = true → (u.topo p.epoch).retired = false →
      (u.route p.epoch p.dst = .nowhere → p.cls ≠ 1 → exec (.packetForward nb p) s =
        .next (((u.bump Reg.ROUTE_DISCARDS Reg.ROUTE_DISCARDS_MISROUTE).owe nb p).replyFrom p.dst p .epoch [])) ∧
      (p.dst = u.self →
        (p.wellFormed = true → p.pcrcOk = true → exec (.packetForward nb p) s =
          .next { u with fab := { u.fab with arrived := u.fab.arrived ++ [⟨some nb, p⟩] } }) ∧
        (p.wellFormed = false → p.cls ≠ 1 → exec (.packetForward nb p) s = .next ((u.owe nb p).replyFrom p.dst p .format [])) ∧
        (p.wellFormed = true → p.pcrcOk = false → p.cls ≠ 1 → exec (.packetForward nb p) s =
          .next (((u.bump Reg.ROUTE_DISCARDS Reg.ROUTE_DISCARDS_PCRC_FAIL).owe nb p).replyFrom p.dst p .retryExhausted []))) ∧
      ∀ d, (u.route p.epoch p.dst).next = some d →
        let boundary := !p.leg && blockOf nb ≠ blockOf u.self && blockOf p.dst = blockOf u.self
        let q := u.marked d (onward p boundary)
        ((p.leg = false ∨ blockOf p.dst = blockOf u.self) → (boundary = true ∨ p.hop < 2) → u.linkUp d = true → u.hasCredit d q = true →
          (∀ h ∈ u.fab.held, h.nb ≠ d) → exec (.packetForward nb p) s = .next ((u.sendPacket d q).owe nb p)) ∧
        ((p.leg = true ∧ blockOf p.dst ≠ blockOf u.self) ∨ (boundary = false ∧ 2 ≤ p.hop) → p.cls ≠ 1 → exec (.packetForward nb p) s =
          .next (((u.bump Reg.ROUTE_DISCARDS Reg.ROUTE_DISCARDS_MISROUTE).owe nb p).replyFrom p.dst p .epoch [])))

namespace Sys2Proof.Claims

/-! ### Light source modules, lock loops, calibration, sweeps -/

/-- Nothing keeps module `m` dark (R232 to R234): enabled, seated, answering; its engine is in bring-up or in service. -/
structure Lightable (s : State) (m : ModuleId) : Prop where
  enabled : s.fld (Reg.OPTIC_LSM_CTRL m) Reg.OPTIC_LSM_CTRL_ENABLE = 1
  seated : s.fld (Reg.OPTIC_LSM_STATE m) Reg.OPTIC_LSM_STATE_PRESENT = 1
  usable : s.fld (Reg.OPTIC_LSM_STATE m) Reg.OPTIC_LSM_STATE_STATE ≠ 4
  engine : s.fld (Reg.OPTIC_ENG_STATE m) Reg.OPTIC_ENG_STATE_STATE = 1 ∨ s.fld (Reg.OPTIC_ENG_STATE m) Reg.OPTIC_ENG_STATE_STATE = 2
  awake : s.failsafe = false ∧ s.opt.shut = false ∧ s.inRecovery = false

/-- A field of module `m`'s state register. -/
def lsm (s : State) (m : ModuleId) (f : Field) : Nat := s.fld (Reg.OPTIC_LSM_STATE m) f

/-- A laser of module `m` whose failure has been acted on: its line is dark for good, or the spare settles on it or carries it (R246, R247). -/
def Handled (s : State) (m : ModuleId) (w : Nat) : Prop :=
  (Maps.get 0 s.opt.dead m).testBit w = true ∨ Maps.get 8 s.opt.settling m = w ∨
    (lsm s m Reg.OPTIC_LSM_STATE_SPARE_USED = 1 ∧ lsm s m Reg.OPTIC_LSM_STATE_SPARE_LINE = w)

/-- A ring's sweep, alone in the list of sweeps. -/
structure Sweeping (s : State) (c : ChanId) (w : Sweep) : Prop where
  only : s.opt.sweeps = [w]
  mine : w.ch = c.val

end Sys2Proof.Claims

/-- R232 to R234: LASER_EN follows ENABLE, the module, the engine and the device; a module that does not answer reads 4; 10 µs after a
device fault every LASER_EN is low. R245 to R247: a line that falls below half its power has its rings frozen; a laser reported failed has
the spare tuned to its line, and what the spare does not take stays dark; rings that reacquire are free again. R237: a pair that loses
light reads 0. -/
def Obligations.LaserModulesAndTheirFaults : Prop :=
  (∀ s : State, (s.txFenced = false → exec .laserShutdown s = .next s) ∧
    (s.txFenced = true → s.failsafe = false → s.snap.salvage = false → ∃ t, exec .laserShutdown s = .next t ∧ t.opt.shut = true ∧
      ∀ m : ModuleId, lsm t m Reg.OPTIC_LSM_STATE_LASER_EN = 0 ∧
        (lsm s m Reg.OPTIC_LSM_STATE_LASER_EN = 1 → Output.pin "LASER_EN" m 0 ∈ t.out))) ∧
  (∀ (s : State) (m : ModuleId), lsm s m Reg.OPTIC_LSM_STATE_PRESENT = 1 →
    (lsm s m Reg.OPTIC_LSM_STATE_STATE ≠ 4 → ∃ t, exec (.lsmAlert m none) s = .next t ∧ lsm t m Reg.OPTIC_LSM_STATE_STATE = 4 ∧
      lsm t m Reg.OPTIC_LSM_STATE_LASER_EN = 0) ∧
    (lsm s m Reg.OPTIC_LSM_STATE_STATE = 4 → ∀ st, exec (.lsmAlert m st) s = .next s) ∧
    (∀ v : BitVec 16, lsm s m Reg.OPTIC_LSM_STATE_STATE ≠ 4 →
      (s.fld (Reg.OPTIC_ENG_STATE m) Reg.OPTIC_ENG_STATE_STATE = 3 ∨ s.fld (Reg.OPTIC_ENG_STATE m) Reg.OPTIC_ENG_STATE_STATE = 4 ∨
          (bits v 7 7 = 0 ∧ ∀ w < 8, (bits v 15 8).testBit w = true → Handled s m w) →
        ∃ t, exec (.lsmAlert m (some v)) s = .next t ∧ lsm t m Reg.OPTIC_LSM_STATE_LASER_FAULT = bits v 15 8 ∧
          lsm t m Reg.OPTIC_LSM_STATE_SPARE_FAULT = bits v 7 7 ∧ t = { s with setup := t.setup } ∧
          ∀ o, o ≠ Reg.OPTIC_LSM_STATE m → t.reg o = s.reg o) ∧
      ∀ w : Fin 8, s.fld (Reg.OPTIC_ENG_STATE m) Reg.OPTIC_ENG_STATE_STATE ≠ 3 → s.fld (Reg.OPTIC_ENG_STATE m) Reg.OPTIC_ENG_STATE_STATE ≠ 4 →
        bits v 7 7 = 0 → bits v 15 8 = 2 ^ w.val → ¬Handled s m w →
        (lsm s m Reg.OPTIC_LSM_STATE_SPARE_USED = 0 → Maps.get 8 s.opt.settling m = 8 → ∃ t, exec (.lsmAlert m (some v)) s = .next t ∧
          Maps.get 8 t.opt.settling m = w.val ∧
          Output.sideband m 0x04 (setBits (setBits (Maps.get 0 s.opt.ctrl m) 2 0 w.val) 3 3 1) ∈ t.out) ∧
        (lsm s m Reg.OPTIC_LSM_STATE_SPARE_USED = 1 → ∃ t, exec (.lsmAlert m (some v)) s = .next t ∧
          (Maps.get 0 t.opt.dead m).testBit w = true ∧ t.opt.settling = s.opt.settling ∧
          lsm t m Reg.OPTIC_LSM_STATE_STATE = (if lsm s m Reg.OPTIC_LSM_STATE_STATE = 2 then 3 else lsm s m Reg.OPTIC_LSM_STATE_STATE)))) ∧
  (∀ (s : State) (m : ModuleId),
    (lsm s m Reg.OPTIC_LSM_STATE_PRESENT = 0 → s.fld (Reg.OPTIC_LSM_CTRL m) Reg.OPTIC_LSM_CTRL_ENABLE = 0 →
      ∀ acked, ∃ t, exec (.lsmPresenceChange m (.seated acked)) s = .next t ∧
      lsm t m Reg.OPTIC_LSM_STATE_PRESENT = 1 ∧ lsm t m Reg.OPTIC_LSM_STATE_STATE = 1 ∧ t = { s with setup := t.setup } ∧
      ∀ o, o ≠ Reg.OPTIC_LSM_STATE m → t.reg o = s.reg o) ∧
    (lsm s m Reg.OPTIC_LSM_STATE_PRESENT = 0 → s.fld (Reg.OPTIC_LSM_CTRL m) Reg.OPTIC_LSM_CTRL_ENABLE = 1 →
      (∃ t, exec (.lsmPresenceChange m (.seated false)) s = .next t ∧ lsm t m Reg.OPTIC_LSM_STATE_STATE = 4 ∧
        lsm t m Reg.OPTIC_LSM_STATE_LASER_EN = 0) ∧
      ∃ t, exec (.lsmPresenceChange m (.seated true)) s = .next t ∧ Output.sideband m 0x04 0x0100 ∈ t.out) ∧
    (lsm s m Reg.OPTIC_LSM_STATE_PRESENT = 1 → (∀ acked, exec (.lsmPresenceChange m (.seated acked)) s = .next s) ∧
      ∃ t, exec (.lsmPresenceChange m .removed) s = .next t ∧ t.reg (Reg.OPTIC_LSM_STATE m) = 0 ∧
        Maps.get 0 t.opt.ctrl m = 0 ∧ Maps.get 0 t.opt.dead m = 0)) ∧
  (∀ (s : State) (src : Source) (m : ModuleId) (p : BitVec 8), s.mayUse src = true →
    (∀ id, ∃ t, exec (.opticLsmEnable src m false id p) s = .next t ∧ t.fld (Reg.OPTIC_LSM_CTRL m) Reg.OPTIC_LSM_CTRL_ENABLE = 0 ∧
      lsm t m Reg.OPTIC_LSM_STATE_LASER_EN = 0) ∧
    (Lightable (s.setFld (Reg.OPTIC_LSM_CTRL m) Reg.OPTIC_LSM_CTRL_ENABLE 1) m → lsm s m Reg.OPTIC_LSM_STATE_LASER_EN = 0 →
      ∃ t, exec (.opticLsmEnable src m true (some 0x7405) p) s = .next t ∧ lsm t m Reg.OPTIC_LSM_STATE_LASER_EN = 1 ∧
        (∀ w < 8, (lsm t m Reg.OPTIC_LSM_STATE_LINE_LIT).testBit w = (p.getLsbD w &&
          !(lsm s m Reg.OPTIC_LSM_STATE_LASER_FAULT).testBit w && !(Maps.get 0 s.opt.dead m).testBit w)) ∧
        (Maps.get 0 s.opt.dead m = 0 → lsm s m Reg.OPTIC_LSM_STATE_LASER_FAULT = 0 → lsm t m Reg.OPTIC_LSM_STATE_STATE = 2) ∧
        (Maps.get 0 s.opt.dead m ≠ 0 → lsm t m Reg.OPTIC_LSM_STATE_STATE = 3) ∧ lsm t m Reg.OPTIC_LSM_STATE_SPARE_USED = 0 ∧
        Output.sideband m 0x04 0x0100 ∈ t.out ∧ Output.pin "LASER_EN" m 1 ∈ t.out)) ∧
  (∀ (s : State) (m : ModuleId) (w : Fin 8), ∃ t, exec (.linePowerLow m w) s = .next t ∧
    (lsm t m Reg.OPTIC_LSM_STATE_LINE_LIT).testBit w = false ∧
    (s.fld (Reg.OPTIC_ENG_STATE m) Reg.OPTIC_ENG_STATE_STATE = 3 ∨ s.fld (Reg.OPTIC_ENG_STATE m) Reg.OPTIC_ENG_STATE_STATE = 4 →
      t = { s with setup := t.setup }) ∧
    (s.fld (Reg.OPTIC_ENG_STATE m) Reg.OPTIC_ENG_STATE_STATE = 2 → ∀ i < 8, chan (8 * m.val + i) false w ∈ t.opt.frozen ∧
      (s.chState (chan (8 * m.val + i) false w) ≠ 6 → s.chState (chan (8 * m.val + i) false w) ≠ 7 →
        t.inMap (chan (8 * m.val + i) false w) = false))) ∧
  (∀ (s : State) (m : ModuleId), Maps.get 8 s.opt.settling m < 8 →
    (lsm s m Reg.OPTIC_LSM_STATE_SPARE_FAULT = 0 → ∃ t, exec (.spareSettled m true) s = .next t ∧
      lsm t m Reg.OPTIC_LSM_STATE_SPARE_USED = 1 ∧ lsm t m Reg.OPTIC_LSM_STATE_SPARE_LINE = Maps.get 8 s.opt.settling m ∧
      Output.sideband m 0x04 (setBits (setBits (Maps.get 0 s.opt.ctrl m) 7 7 1) 3 3 0) ∈ t.out ∧ Maps.get 8 t.opt.settling m = 8) ∧
    ∃ t, exec (.spareSettled m false) s = .next t ∧ (Maps.get 0 t.opt.dead m).testBit (Maps.get 8 s.opt.settling m) = true ∧
      lsm t m Reg.OPTIC_LSM_STATE_STATE = (if lsm s m Reg.OPTIC_LSM_STATE_STATE = 2 then 3 else lsm s m Reg.OPTIC_LSM_STATE_STATE) ∧
      lsm t m Reg.OPTIC_LSM_STATE_SPARE_USED = lsm s m Reg.OPTIC_LSM_STATE_SPARE_USED) ∧
  (∀ (s : State) (m : ModuleId) (b : BitVec 8), lsm s m Reg.OPTIC_LSM_STATE_SPARE_USED = 1 →
    ∃ t, exec (.ringsReacquired m b) s = .next t ∧
      (∀ i < 8, chan (8 * m.val + i) false (lsm s m Reg.OPTIC_LSM_STATE_SPARE_LINE) ∉ t.opt.frozen) ∧
      (b = 255 → (∀ i < 8, chan (8 * m.val + i) false (lsm s m Reg.OPTIC_LSM_STATE_SPARE_LINE) ∈ s.opt.frozen ∧
        s.chState (chan (8 * m.val + i) false (lsm s m Reg.OPTIC_LSM_STATE_SPARE_LINE)) = 5) →
        ∀ i < 8, t.chState (chan (8 * m.val + i) false (lsm s m Reg.OPTIC_LSM_STATE_SPARE_LINE)) = 4)) ∧
  ∀ (s : State) (F : FiberId), (s.fibState F = 1 ∨ s.fibState F = 2 ∨ s.fibState F = 4 → ∃ t, exec (.lightLost F) s = .next t ∧
    t.fibState F = 0 ∧ t.chMap F false = 0 ∧ t.chMap F true = 0) ∧ (s.fibState F = 0 → exec (.lightLost F) s = .next s)

/-- R236, R258: a lit transmit channel sends an idle flit, in its map or out of it, and a training flit while its pair trains or
it is calibrated; only fenced idle flits after a device fault and on a pair that is quiesced (R234, R249). R238, R239: the lock loop moves a ring's
heater unless it is frozen or swept; a line without its tone has its ring relocked. R240 to R242: a pass takes the channels of an engine in
ascending order, one out at a time; a scan gives a setpoint or a sweep; SER_LIMIT puts a channel ahead. R244: a sweep is deferred while its line is dark, else it clears the
lower lines, counts crossings, locks at its own, and fails for good at the third failure. -/
def Obligations.RingsAreHeldCalibratedAndSwept : Prop :=
  (∀ (s : State) (c : ChanId), chRx c.val = false → s.txLit c.val = true →
    (s.inMap c.val = true → s.fibState (chFiber c.val) = 2 → s.opt.asked = [] → exec (.idleFlitTimer c) s = .next (s.sendIdle c.val none)) ∧
    (s.fibState (chFiber c.val) = 2 → s.inMap c.val = false → s.txOff (chFiber c.val) = false →
      (s.chState c.val ≠ 3 → exec (.idleFlitTimer c) s = .next (s.sendIdle c.val none)) ∧
      (s.chState c.val = 3 → exec (.idleFlitTimer c) s = .next (s.sendTraining c.val))) ∧
    (s.fibState (chFiber c.val) = 1 → s.txOff (chFiber c.val) = false → exec (.idleFlitTimer c) s = .next (s.sendTraining c.val)) ∧
    (s.fibState (chFiber c.val) = 3 ∨ s.txOff (chFiber c.val) = true → exec (.idleFlitTimer c) s = .next (s.sendIdle c.val none)) ∧
    ((s.link (s.farCoord (chFiber c.val))).owed = [] → ∃ g, Output.flit c g ∈ (s.sendIdle c.val none).out ∧
      g.ftype = (if s.dark || s.txOff (chFiber c.val) || s.fibState (chFiber c.val) = 3 then 3 else 2) ∧ g.scoord = s.self ∧ g.fidx = chFiber c.val ∧ g.widx = chLine c.val ∧
      g.mapChg = false ∧ g.crcOk = true) ∧
    (s.txOff (chFiber c.val) = false → ∃ g, Output.flit c g ∈ (s.sendTraining c.val).out ∧ g.ftype = 4 ∧ g.scoord = s.self ∧
      g.fidx = chFiber c.val ∧ g.widx = chLine c.val ∧ g.crcOk = true)) ∧
  (∀ (s : State) (c : ChanId) (h : BitVec 16),
    (c.val ∉ s.opt.frozen → s.chState c.val ≠ 0 → s.chState c.val ≠ 1 → ∃ t, exec (.lockLoopUpdate c h) s = .next t ∧
      t.fld (Reg.OPTIC_CH_STATE c) Reg.OPTIC_CH_STATE_HEATER = h.toNat ∧ t = { s with setup := t.setup } ∧
      ∀ o, o ≠ Reg.OPTIC_CH_STATE c → t.reg o = s.reg o) ∧
    (c.val ∈ s.opt.frozen ∨ s.chState c.val = 0 ∨ s.chState c.val = 1 → exec (.lockLoopUpdate c h) s = .next s)) ∧
  (∀ (s : State) (F : FiberId) (l : List (BitVec 8)),
    (s.fibState F ≠ 2 → ∃ t, exec (.lineMonitor F l) s = .next t ∧ t = { s with setup := t.setup, opt := { s.opt with tones := t.opt.tones } } ∧
      ∀ w < 8, t.fld (Reg.OPTIC_CH_STATE (chan F false w)) Reg.OPTIC_CH_STATE_TONES = min 3 (popcount 8 (toneAt l w)) ∧
        Maps.get 0 t.opt.tones (chan F false w) = toneAt l w) ∧
    ∀ v < 8, s.fibState F = 2 → (∀ w < 8, w ≠ v → toneAt l w = 2 ^ w) → toneAt l v = 0 → s.inMap (chan F false v) = true →
      s.chState (chan F false v) ≠ 6 → s.chState (chan F false v) ≠ 7 → ∃ t, exec (.lineMonitor F l) s = .next t ∧
      t.inMap (chan F false v) = false ∧ t.fld (Reg.OPTIC_CH_STATE (chan F false v)) Reg.OPTIC_CH_STATE_TONES = 0) ∧
  (∀ (s : State) (e : EngineId), e.val < 8 → s.fld (Reg.OPTIC_ENG_STATE e) Reg.OPTIC_ENG_STATE_STATE = 2 → (s.pass e).running = false →
    (s.fld Reg.OPTIC_CAL_CFG Reg.OPTIC_CAL_CFG_ENABLE = 1 → s.fld Reg.OPTIC_CAL_CFG Reg.OPTIC_CAL_CFG_PERIOD_MS ≠ 0 →
      exec (.calPassStart e) s = .next (s.startPass e)) ∧
    (∀ src, s.mayUse src = true → exec (.calNow src e) s = .next (s.startPass e)) ∧
    (s.opt.urgent = [] → s.opt.frozen = [] → AllIn s (8 * e.val) false → s.fibState (8 * e.val) = 2 →
      (s.startPass e).pass e = ⟨((List.range 128).tail).map (fun i => (i, false)), some (0, false), true⟩ ∧
      (s.startPass e).chState (128 * e.val) = 3 ∧ (s.startPass e).inMap (128 * e.val) = false)) ∧
  (∀ (s : State) (c : ChanId), (s.pass (engOf (chFiber c))).cur = some (c.val % 128, false) →
    (∀ h : BitVec 16, ∃ t, exec (.calScanDone c (some h)) s = .next t ∧ t.fld (Reg.OPTIC_CH_STATE c) Reg.OPTIC_CH_STATE_HEATER = h.toNat ∧
      (t.pass (engOf (chFiber c))).cur = some (c.val % 128, true) ∧ Maps.get 0 t.opt.confirm c = 0) ∧
    ∃ t, exec (.calScanDone c none) s = .next t ∧ t.inMap c.val = false ∧ t = (s.relock c).endCal c) ∧
  (∀ (s : State) (c : ChanId) (n : Nat), s.fld Reg.OPTIC_CAL_CFG Reg.OPTIC_CAL_CFG_ENABLE = 1 →
    (n ≤ s.fld Reg.OPTIC_CAL_CFG Reg.OPTIC_CAL_CFG_SER_LIMIT → exec (.serWindow c n) s = .next s) ∧
    (s.fld Reg.OPTIC_CAL_CFG Reg.OPTIC_CAL_CFG_SER_LIMIT ≠ 0 → s.fld Reg.OPTIC_CAL_CFG Reg.OPTIC_CAL_CFG_SER_LIMIT < n →
      c.val ∉ s.opt.urgent → (s.pass (engOf (chFiber c))).cur ≠ none → s.opt.urgentAt.find? (fun a => a.1 = c.val) = none →
      ∃ t, exec (.serWindow c n) s = .next t ∧ t.opt.urgent = s.opt.urgent ++ [c.val] ∧ t = { s with opt := { s.opt with
        urgent := t.opt.urgent, urgentAt := t.opt.urgentAt } })) ∧
  ∀ (s : State) (c : ChanId) (w : Sweep), Sweeping s c w →
    (∀ l : BitVec 8, w.phase = 1 → s.chState c = 1 → let lit := if chRx c then l.getLsbD (chLine c) else s.txLit c
      (lit = true → ∃ t, exec (.sweepStep c (.settled l)) s = .next t ∧ t.opt.sweeps = [{ w with phase := 2 }] ∧
        ∀ v < chLine c, t.inMap (chan (chFiber c) (chRx c) v) = false) ∧
      (lit = false → ∃ t, exec (.sweepStep c (.settled l)) s = .next t ∧ t.opt.sweeps = [{ w with phase := 0, count := 0 }] ∧
        t.chState c = 4)) ∧
    (∀ (l : Fin 8) (h : BitVec 16), w.phase = 2 → s.lit (chan (chFiber c) (chRx c) l) = false → l.val ≠ chLine c →
      exec (.sweepStep c (.crossing (BitVec.ofNat 3 l) h)) s = .next s) ∧
    (∀ (l : Fin 8) (h : BitVec 16), w.phase = 2 → s.lit (chan (chFiber c) (chRx c) l) = true →
      let goal := ((List.range (chLine c)).filter (fun v => s.lit (chan (chFiber c) (chRx c) v))).length + 1
      (w.count + 1 = goal → ∃ t, exec (.sweepStep c (.crossing (BitVec.ofNat 3 l) h)) s = .next t ∧
        t.fld (Reg.OPTIC_CH_STATE c) Reg.OPTIC_CH_STATE_HEATER = h.toNat ∧ t.chState c = 4 ∧ t.opt.sweeps = [{ w with phase := 3, count := goal }]) ∧
      (w.count + 1 ≠ goal → exec (.sweepStep c (.crossing (BitVec.ofNat 3 l) h)) s =
        .next { s with opt := { s.opt with sweeps := [{ w with count := w.count + 1 }] } })) ∧
    (w.phase ≠ 0 → 2 ≤ w.tries → ∃ t, exec (.sweepStep c .failed) s = .next t ∧ t.chState c = 6 ∧ t.inMap c.val = false ∧ t.opt.sweeps = []) ∧
    (w.phase ≠ 0 → w.tries < 2 → ∃ t, exec (.sweepStep c .failed) s = .next t ∧ t.inMap c.val = false ∧
      t.opt.sweeps.map (·.tries) = [w.tries + 1])

namespace Sys2Proof.Claims

/-! ### Spare fibers and the exchange of engines -/

/-- Engine `e` reads STATE `n`. -/
def EngState (s : State) (e : EngineId) (n : Nat) : Prop := s.fld (Reg.OPTIC_ENG_STATE e) Reg.OPTIC_ENG_STATE_STATE = n

end Sys2Proof.Claims

/-- R248: with AUTO set a pair that needs a spare, and has none, requests the first free one on another engine, or else the first free one;
with none free nothing happens; a failed, a crossed, a dark and a training pair need one, a quiesced one does not; on release the pair is in service again and the spare's fields clear but PIN. -/
def Sys2Proof.Claims.SpareFibersAreRequestedAndReleased : Prop :=
  (∀ (s : State) (F : FiberId) (x : Nat), s.fld Reg.OPTIC_SUBST_CFG Reg.OPTIC_SUBST_CFG_AUTO = 1 → s.shortPair F = true →
    s.spareOf F = none → (∀ y < 3, spareFiber y ≠ F.val) → x < 3 →
    (s.spareFree x = true ∧ engOf (spareFiber x) ≠ engOf F ∧ ∀ y < x, s.spareFree y = false ∨ engOf (spareFiber y) = engOf F) ∨
      (s.spareFree x = true ∧ ∀ y < 3, y ≠ x → s.spareFree y = false) →
    ∃ t, exec (.substPolicy F) s = .next t ∧ t.fld (Reg.OPTIC_SUBST x) Reg.OPTIC_SUBST_REQUESTED = 1 ∧
      t.fld (Reg.OPTIC_SUBST x) Reg.OPTIC_SUBST_FIBER = F.val ∧ t.fld (Reg.OPTIC_SUBST x) Reg.OPTIC_SUBST_FAR_COORD = (s.farCoord F).toNat ∧
      ∀ y < 3, y ≠ x → t.reg (Reg.OPTIC_SUBST y) = s.reg (Reg.OPTIC_SUBST y)) ∧
  (∀ (s : State) (F : FiberId), s.fld Reg.OPTIC_SUBST_CFG Reg.OPTIC_SUBST_CFG_AUTO = 0 ∨ s.shortPair F = false ∨ (s.spareOf F).isSome = true ∨
    (∀ y < 3, s.spareFree y = false) → exec (.substPolicy F) s = .next s) ∧
  (∀ (s : State) (F : FiberId), (s.fibState F = 4 ∨ s.fibState F = 6 → s.shortPair F = true) ∧
    (s.fibState F = 3 ∨ s.fibState F = 5 → s.shortPair F = false) ∧
    (s.fibState F < 3 → 1 ≤ s.fld Reg.OPTIC_SUBST_CFG Reg.OPTIC_SUBST_CFG_MIN_CH → s.chMap F false = 0 ∨ s.chMap F true = 0 →
      s.shortPair F = true)) ∧
  ∀ (s : State) (x : Fin 3), (s.fld (Reg.OPTIC_SUBST x) Reg.OPTIC_SUBST_ACTIVE = 0 → exec (.substReleased x) s = .next s) ∧
    (s.fld (Reg.OPTIC_SUBST x) Reg.OPTIC_SUBST_ACTIVE = 1 → s.fld (Reg.OPTIC_SUBST x) Reg.OPTIC_SUBST_FIBER ≠ spareFiber x →
      ∃ t, exec (.substReleased x) s = .next t ∧ t.reg (Reg.OPTIC_SUBST x) = s.reg (Reg.OPTIC_SUBST x) &&& Reg.OPTIC_SUBST_PIN.mask ∧
        t.fibState (s.fld (Reg.OPTIC_SUBST x) Reg.OPTIC_SUBST_FIBER) = 2 ∧ t.fibState (spareFiber x) = 1)

/-- R249: QUIESCE is refused when it would cut a peer off, unless FORCE is set; accepted, the engine reads 3, its calibration pass ends and
its pairs read 3; an engine without power only
keeps the bit; once drained it reads 4, LASER_EN is low and its socket is unpowered. R250: bring-up reads the part: an empty socket
reads 0, a wrong part 6, the right one 1 with its pairs training and every ring to be swept; at its end the engine reads 2, no sweep is
left, and a pair without light reads 0. -/
def Sys2Proof.Claims.EnginesAreQuiescedAndBroughtUp : Prop :=
  (∀ (s : State) (src : Sys2Proof.Source) (e : EngineId) (force : Bool), s.mayUse src = true → e.val < 8 → EngState s e 1 ∨ EngState s e 2 →
    (force = false → s.quiesceCuts e = true → ∃ t, exec (.quiesce src e force) s = .next t ∧
      t.fld (Reg.OPTIC_ENG_STATE e) Reg.OPTIC_ENG_STATE_QUIESCE_REFUSED = 1 ∧
      t.fld (Reg.OPTIC_ENG_STATE e) Reg.OPTIC_ENG_STATE_STATE = s.fld (Reg.OPTIC_ENG_STATE e) Reg.OPTIC_ENG_STATE_STATE ∧
      t = { s with setup := t.setup } ∧ ∀ o, o ≠ Reg.OPTIC_ENG_STATE e → o ≠ Reg.OPTIC_ENG_CTRL e → t.reg o = s.reg o) ∧
    (force = true ∨ s.quiesceCuts e = false → ∃ t, exec (.quiesce src e force) s = .next t ∧ EngState t e 3 ∧
      t.fld (Reg.OPTIC_ENG_CTRL e) Reg.OPTIC_ENG_CTRL_QUIESCE = 1 ∧ (t.pass e).todo = [] ∧ (t.pass e).running = false ∧
      ∀ i < 8, s.fibState (8 * e.val + i) ≠ 0 → t.fibState (8 * e.val + i) = 3)) ∧
  (∀ (s : State) (src : Sys2Proof.Source) (e : EngineId) (force : Bool), s.mayUse src = true → ¬EngState s e 1 → ¬EngState s e 2 →
    ∃ t, exec (.quiesce src e force) s = .next t ∧ t.fld (Reg.OPTIC_ENG_CTRL e) Reg.OPTIC_ENG_CTRL_QUIESCE = 1 ∧
      t = { s with setup := t.setup } ∧ ∀ o, o ≠ Reg.OPTIC_ENG_CTRL e → t.reg o = s.reg o) ∧
  (∀ (s : State) (e : EngineId), (EngState s e 3 → ∃ t, exec (.quiesceDone e) s = .next t ∧ EngState t e 4 ∧
      Output.pin "SOCKET_POWER" e 0 ∈ t.out ∧ ∀ m : ModuleId, m.val = e.val → lsm t m Reg.OPTIC_LSM_STATE_LASER_EN = 0) ∧
    (¬EngState s e 3 → exec (.quiesceDone e) s = .next s)) ∧
  (∀ (s : State) (src : Sys2Proof.Source) (e : EngineId) (part : BitVec 16), s.mayUse src = true → EngState s e 0 ∨ EngState s e 4 ∨ EngState s e 6 →
    ∃ t, exec (.engineBringUp src e part) s = .next t ∧ t.fld (Reg.OPTIC_ENG_STATE e) Reg.OPTIC_ENG_STATE_PART = part.toNat ∧
      (part = 0 → EngState t e 0) ∧ (part ≠ 0 → part.toNat ≠ (if e.val = 8 then 0x7411 else 0x7410) → EngState t e 6) ∧
      (part.toNat = (if e.val = 8 then 0x7411 else 0x7410) → EngState t e 1 ∧ Output.pin "SOCKET_POWER" e 1 ∈ t.out ∧
        (e.val < 8 → ∀ i < 8, s.fibState (8 * e.val + i) ≠ 5 → t.fibState (8 * e.val + i) = 1) ∧
        (∀ m : ModuleId, m.val = e.val → Maps.get 0 s.opt.dead m = 0 → lsm s m Reg.OPTIC_LSM_STATE_LASER_FAULT = 0 →
          lsm s m Reg.OPTIC_LSM_STATE_SPARE_FAULT = 0 → ∀ i < 128, ∃ w ∈ t.opt.sweeps, w.ch = 128 * e.val + i))) ∧
  (∀ (s : State) (src : Sys2Proof.Source) (e : EngineId) (part : BitVec 16), s.mayUse src = true → ¬EngState s e 0 → ¬EngState s e 4 →
    ¬EngState s e 6 → exec (.engineBringUp src e part) s = .next (s.setFld (Reg.OPTIC_ENG_CTRL e) Reg.OPTIC_ENG_CTRL_QUIESCE 0)) ∧
  ∀ (s : State) (e : EngineId) (b : BitVec 8), (¬EngState s e 1 → exec (.engineUp e b) s = .next s) ∧
    (EngState s e 1 → ∃ t, exec (.engineUp e b) s = .next t ∧ EngState t e 2 ∧
      (e.val < 8 → ∀ w ∈ t.opt.sweeps, engOf (chFiber w.ch) ≠ e.val) ∧
      (e.val < 8 → ∀ i < 8, s.fibState (8 * e.val + i) = 1 → t.fibState (8 * e.val + i) = if b.getLsbD i then 1 else 0))

namespace Sys2Proof.Claims

/-! ### Frames of the front ports, and device time -/

/-- Port `p` has accepted `r`; `u` is the state once it is taken up. -/
structure FromPort (s u : State) (p : PortId) (r : Rx) : Prop where
  here : (p, r) ∈ s.front.rx
  taken : u = { s with front := { s.front with rx := s.front.rx.erase (p, r) } }

/-- `t` is `s` with one more frame discarded on port `p`, and nothing else changed. -/
def Discarded (s t : State) (p : PortId) : Prop :=
  t = { s with setup := t.setup } ∧ t.fld (Reg.FRONT_PORT_STATE p) Reg.FRONT_PORT_STATE_DISCARDS =
    min (2 ^ (Reg.FRONT_PORT_STATE_DISCARDS.hi + 1 - Reg.FRONT_PORT_STATE_DISCARDS.lo) - 1)
      (s.fld (Reg.FRONT_PORT_STATE p) Reg.FRONT_PORT_STATE_DISCARDS + 1) ∧
  ∀ o, o ≠ Reg.FRONT_PORT_STATE p → t.reg o = s.reg o

/-- PTP message `m` of TYPE `typ`, from the chosen master, arrived on `p` while time comes from PTP; `u` is the state once it is taken. -/
structure FromMaster (s u : State) (p : PortId) (m : PtpMessage) (typ len : Nat) : Prop where
  port : FromPort s u p (.ptp m.bytes)
  source : s.fld Reg.FRONT_TIME_CFG Reg.FRONT_TIME_CFG_SOURCE = 0
  shape : s.ptpOk m.bytes len = true
  typ : ptpType m.bytes = typ
  chosen : s.front.chosen = some (p, ptpIdent m.bytes)

end Sys2Proof.Claims

/-- R334: a frame whose FCS fails, whose length is not from 64 to 9,216 bytes, or whose destination is not the port's is discarded and
counted; R335: an ARP request for the port's own address is taken and answered, echo requests are answered up to 1,000 per second, queries
with reports for the groups joined; a TCP segment's data goes to its connection. A frame sent is padded to 64 bytes, tagged exactly when
VLAN_EN is 1, and closed by its FCS. -/
def Obligations.FramesAreFilteredAndAnswered : Prop :=
  (∀ (s : State) (p : PortId) (f : List Byte), s.portTakes p = true →
    (fcsBad f = false → f.length < 64 ∨ 9216 < f.length ∨ s.takesMac p (BitVec.ofNat 48 (beAt (f.take (f.length - 4)) 0 6)) = false →
      ∃ t, exec (.frameRx p f) s = .next t ∧ Discarded s t p) ∧
    (fcsBad f = true → ∃ t : State, exec (.frameRx p f) s = .next t ∧ t = { s with setup := t.setup } ∧
      t.fld (Reg.FRONT_PORT_STATE p) Reg.FRONT_PORT_STATE_DISCARDS = (s.countDiscard p).fld (Reg.FRONT_PORT_STATE p) Reg.FRONT_PORT_STATE_DISCARDS ∧
      t.fld (Reg.FRONT_PORT_STATE p) Reg.FRONT_PORT_STATE_FCS_ERR =
        min (2 ^ (Reg.FRONT_PORT_STATE_FCS_ERR.hi + 1 - Reg.FRONT_PORT_STATE_FCS_ERR.lo) - 1)
          (s.fld (Reg.FRONT_PORT_STATE p) Reg.FRONT_PORT_STATE_FCS_ERR + 1)) ∧
    (∀ g, g = f.take (f.length - 4) → fcsBad f = false → 64 ≤ f.length → f.length ≤ 9216 →
      beAt g 0 6 = (s.portMac p).toNat ∨ beAt g 0 6 = 0xFFFFFFFFFFFF → s.fld (Reg.FRONT_PORT_CFG p) Reg.FRONT_PORT_CFG_VLAN_EN = 0 →
      beAt g 12 2 = 0x0806 → beAt g 14 6 = 0x000108000604 → beAt g 20 2 = 1 → s.portIp4 p ≠ 0 → beAt g 38 4 = s.portIp4 p →
      exec (.frameRx p f) s = .next { s with front := { s.front with rx := s.front.rx ++ [(p, .resolve g)] } })) ∧
  (∀ (s : State) (p : PortId) (dst : BitVec 48) (typ : Nat) (body : List Byte), s.portUp p = true → s.quiesceDone p = false →
    s.failsafe = false →
    let tag := if s.fld (Reg.FRONT_PORT_CFG p) Reg.FRONT_PORT_CFG_VLAN_EN = 1 then
      [0x81#8, 0x00#8] ++ beBytes 2 (s.fld (Reg.FRONT_PORT_CFG p) Reg.FRONT_PORT_CFG_VID) else []
    let f := padTo 60 (beBytes 6 dst.toNat ++ beBytes 6 (s.portMac p).toNat ++ tag ++ beBytes 2 typ ++ body)
    s.sendFrame p dst typ body = { s with out := s.out ++ [.frame p (f ++ leBytes 4 (crc32 f).toNat)] }) ∧
  (∀ (s u : State) (p : PortId) (g : List Byte), FromPort s u p (.resolve g) → beAt g 12 2 = 0x0806 → exec (.arpRequest p g) s =
    .next (u.sendFrame p (BitVec.ofNat 48 (beAt g 22 6)) 0x0806 ([0, 1, 8, 0, 6, 4, 0, 2] ++ beBytes 6 (s.portMac p).toNat ++
      beBytes 4 (s.portIp4 p) ++ (g.drop 22).take 10))) ∧
  (∀ (s u : State) (p : PortId) (g : List Byte) (i : IpPacket), FromPort s u p (.echo g) → ipOf (g.drop 14) = some i → i.v6 = false →
    let sec := s.devTime.toNat / 1000000000
    let n := if (Maps.get (0, 0) s.front.echoes p).1 = sec then (Maps.get (0, 0) s.front.echoes p).2 else 0
    (n < 1000 → ∃ v : State, v = { u with front := { u.front with echoes := v.front.echoes } } ∧ Maps.get (0, 0) v.front.echoes p = (sec, n + 1) ∧
      exec (.icmpEcho p g) s =
        .next (v.sendIp p (BitVec.ofNat 48 (beAt g 6 6)) i.dst i.src i.proto (withSum 0 2 ([0, 0, 0, 0] ++ i.body.drop 4)))) ∧
    (1000 ≤ n → ∃ t, exec (.icmpEcho p g) s = .next t ∧ Discarded u t p)) ∧
  (∀ (s u : State) (p : PortId) (g : List Byte) (i : IpPacket) (a : BitVec 128) (o : Option (BitVec 128)), FromPort s u p (.query g) →
    ipOf (g.drop 14) = some i → i.v6 = false → s.joined p = [(a, o)] → isMapped a = true → beAt i.body 4 4 = 0 ∨ mapped (beAt i.body 4 4) = a →
    exec (.igmpQuery p g) s = .next (u.sendReport p false 1 (groupRecord (if o.isSome then 1 else 2) false a o))) ∧
  (∀ (s u : State) (p : PortId) (c : TcpConn) (l : List Byte), FromPort s u p (.tcp c l) → exec (.nvmeTcpSegment p c l) s = .next { u with
    front := { u.front with conns := u.front.conns.map (fun x => if x.port = p ∧ x.peer = c then { x with got := x.got ++ l } else x) } }) ∧
  ∀ (s : State) (p : PortId) (up : Bool), ∃ t : State, exec (.portLinkChange p up) s = .next t ∧ t = { s with setup := t.setup } ∧
    t.fld (Reg.FRONT_PORT_STATE p) Reg.FRONT_PORT_STATE_LINK = (if up then 1 else 0) ∧ ∀ o, o ≠ Reg.FRONT_PORT_STATE p → t.reg o = s.reg o

/-- R336: a positive correction above 1 µs steps device time, every other one is slewed. R337: an Announce makes a master known, the best
becomes the chosen one; its Sync, of one step or two, starts a measurement, and the answer to the Delay_Req applies the offset. R338: a
TIME request is answered with t2, t3, STATE and DEPTH; with SOURCE 1 one leaves every 1 ms. R339: without Announce, or after 16 requests
without an applicable reply, the device is in HOLDOVER. The Sync that replaces a measurement under way is log entry 22. -/
def Obligations.DeviceTimeIsCorrected : Prop :=
  (∀ (s : State) (c : Int), (1000 < c → s.correct c = { s with devTime := s.devTime + BitVec.ofInt 64 c, slew := 0, timeSet := true }) ∧
    (c ≤ 1000 → s.correct c = { s with slew := c, timeSet := true })) ∧
  (∀ (s : State) (c : Int) (d : Nat), s.timeState ≠ 3 → d < 16 → ∃ t : State, s.lockTime c d = t ∧ t.timeState = 2 ∧
    t.fld Reg.FRONT_TIME_STATE Reg.FRONT_TIME_STATE_DEPTH = d ∧ t = { s.correct c with setup := t.setup }) ∧
  (∀ (s u : State) (p : PortId) (m : PtpMessage), FromPort s u p (.ptp m.bytes) → s.fld Reg.FRONT_TIME_CFG Reg.FRONT_TIME_CFG_SOURCE = 0 →
    s.ptpOk m.bytes 64 = true → ptpType m.bytes = 0xB → s.front.masters = [] → s.front.chosen = none → s.timeState = 0 →
    ∃ t : State, exec (.ptpAnnounce p m) s = .next t ∧
      t.front.masters = [⟨p, ptpIdent m.bytes, (m.bytes.drop 47).take 14, beAt m.bytes 61 2⟩] ∧
      t.front.chosen = some (p, ptpIdent m.bytes) ∧ t.timeState = 1 ∧ t.fld Reg.FRONT_TIME_STATE Reg.FRONT_TIME_STATE_PORT = p.val) ∧
  (∀ (s u : State) (p : PortId) (m : PtpMessage) (t2 : Word), FromMaster s u p m 0 44 →
    let y : PtpSync := ⟨ptpSeq m.bytes, none, t2, ptpCorr m.bytes, none, 0⟩
    (bit (m.bytes.getD 6 0) 1 = true → exec (.ptpSync p m t2) s = .next { u with front := { u.front with sync := some y } }) ∧
    (bit (m.bytes.getD 6 0) 1 = false → exec (.ptpSync p m t2) s = .next (u.sendDelayReq p y (ptpStamp m.bytes + ptpCorr m.bytes)))) ∧
  (∀ (s u : State) (p : PortId) (m : PtpMessage) (t2 : Word) (y : PtpSync), FromMaster s u p m 8 44 → s.front.sync = some y →
    y.seq = ptpSeq m.bytes → y.t1 = none →
    exec (.ptpSync p m t2) s = .next (u.sendDelayReq p y (ptpStamp m.bytes + y.corr + ptpCorr m.bytes))) ∧
  (∀ (s : State) (p : PortId) (y : PtpSync) (t1 : Int), (s.sendDelayReq p y t1).front.sync =
    some { y with t1 := some t1, dseq := some s.front.dseq, t3 := s.devTime }) ∧
  (∀ (s u : State) (p : PortId) (m : PtpMessage) (y : PtpSync) (t1 : Int), FromMaster s u p m 9 54 → s.front.sync = some y →
    (m.bytes.drop 44).take 10 = s.ptpSelf p → y.dseq = some (ptpSeq m.bytes) → y.t1 = some t1 →
    let offset : Int := ((y.t2.toNat - t1) - ((ptpStamp m.bytes - ptpCorr m.bytes) - y.t3.toNat)) / 2
    exec (.ptpDelayResp p m) s = .next ({ u with front := { u.front with sync := none } }.lockTime (-offset) 0)) ∧
  (∀ (s : State) (m : Master), s.fld Reg.FRONT_TIME_CFG Reg.FRONT_TIME_CFG_SOURCE = 0 → s.front.masters = [m] →
    s.front.chosen = some (m.port, m.ident) → s.timeState ≠ 3 → ∃ t, exec .announceTimeout s = .next t ∧ t.timeState = 3 ∧
      t.front.chosen = none ∧ t.front.masters = []) ∧
  (∀ (s u : State) (p : Packet) (t2 t3 : Word), Arrived s u p 4 0x34 → u.turnOf p = .now → p.plen = 0 → p.rlen = 32 → p.addr = 0 →
    exec (.timeRequest p t2 t3) s = .next (replied u p .ok (padTo 32 (leBytes 8 t2.toNat ++ leBytes 8 t3.toNat ++ leBytes 1 u.timeState ++
      leBytes 1 (u.fld Reg.FRONT_TIME_STATE Reg.FRONT_TIME_STATE_DEPTH))))) ∧
  ∀ (s : State) (t1 : Word), (s.fld Reg.FRONT_TIME_CFG Reg.FRONT_TIME_CFG_SOURCE ≠ 1 → exec (.fabricTimeTick t1) s = .next s) ∧
    (s.fld Reg.FRONT_TIME_CFG Reg.FRONT_TIME_CFG_SOURCE = 1 → s.front.misses < 16 → exec (.fabricTimeTick t1) s =
      .next ({ s with front := { s.front with misses := s.front.misses + 1 } }.request { newReq 4 0x34
        (BitVec.ofNat 12 (s.fld Reg.FRONT_TIME_CFG Reg.FRONT_TIME_CFG_UP_COORD)) agentFabric 0 0 (.time t1) with rlen := 32 })) ∧
    (s.fld Reg.FRONT_TIME_CFG Reg.FRONT_TIME_CFG_SOURCE = 1 → 16 ≤ s.front.misses →
      ∃ t, exec (.fabricTimeTick t1) s = .next t ∧ t.timeState = 3)

namespace Sys2Proof.Claims

/-! ### Video flows and EXR requests -/

/-- Flow `n` is `f`, with one open frame `fr`, and its ring has room. -/
structure OneFrame (s : State) (n : Nat) (f : Flow) (fr : Frame) : Prop where
  flows : s.front.flows = [f]
  num : f.num = n
  frames : f.frames = [fr]
  isOpen : fr.closed = false

/-- A range of memory of this device that flow `f` may write, and that answers. -/
structure FlowMay (s : State) (f : Flow) (o n : Nat) : Prop where
  permitted : s.Permits (s.me f.auth) .wr false o n
  answers : s.Clean f.auth o n
  source : s.isSource f.auth = false

/-- Where the Y, Cb and Cr samples of an SRD go in a slot, and the bytes written there (R342, R345). -/
def planes (f : Flow) (slot : Nat) (d : Srd) : List (Nat × List Byte) :=
  let gs := pixelGroups (d.data.length / 5) d.data
  let c := d.row * f.pitchC + d.off / 2 * f.esz
  [(slot + d.row * f.pitchY + d.off * f.esz, gs.flatMap (fun g => f.element true g.2.1 ++ f.element true g.2.2.2)),
   (slot + f.sizeY + c, gs.flatMap (fun g => f.element false g.1)), (slot + f.sizeY + f.sizeC + c, gs.flatMap (fun g => f.element false g.2.2.1))]

/-- The flow may write all three, and they do not overlap. -/
def PlanesMay (s : State) (f : Flow) (slot : Nat) (d : Srd) : Prop :=
  (∀ x ∈ planes f slot d, FlowMay s f x.1 x.2.length) ∧ (planes f slot d).Pairwise (fun x y => x.1 + x.2.length ≤ y.1)

/-- Exactly those bytes of memory changed. -/
def PlanesHold (s t : State) (f : Flow) (slot : Nat) (d : Srd) : Prop :=
  (∀ x ∈ planes f slot d, t.bytes x.1 x.2.length = x.2) ∧
  ∀ a, (∀ x ∈ planes f slot d, a < x.1 ∨ x.1 + x.2.length ≤ a) → t.byte a = s.byte a

/-- A datagram for the request engine, with the fields of R349. -/
structure Request (data : List Byte) (ep : Nat) : Prop where
  magic : 32 ≤ data.length ∧ leAt data 0 2 = 0x5845 ∧ leAt data 2 1 = 1
  size : leAt data 6 2 + 32 = data.length
  op : leAt data 3 1 = 1
  reserved : leAt data 5 1 = 0 ∧ leAt data 0x1C 4 = 0
  endpoint : leAt data 4 1 = ep

/-- The first EXR datagram of port `p` from `(a, q)`; `u` is the state once it is taken up. -/
structure FromClient (s u : State) (p : PortId) (mac : BitVec 48) (a : BitVec 128) (q : BitVec 16) (data : List Byte) : Prop where
  only : s.front.rx = [(p, .exr mac a q data)]
  taken : u = { s with front := { s.front with rx := [] } }
  idle : ∀ r ∈ s.exr, r.left = 0

/-- The reply that a refused request gets (R352): REJECT with a status, the client's tag, and no payload. -/
def rejected (u : State) (p : PortId) (mac : BitVec 48) (a : BitVec 128) (q : BitVec 16) (data : List Byte) (st : Status) : State :=
  u.countReject.sendUdp p mac a (u.fld Reg.FRONT_EXR_CFG Reg.FRONT_EXR_CFG_UDP_PORT) q.toNat
    (leBytes 2 0x5845 ++ [1, 3] ++ leBytes 1 (leAt data 4 1) ++ leBytes 1 st.code ++ leBytes 2 0 ++ leBytes 8 (wordAt data 8).toNat ++
      leBytes 8 0 ++ leBytes 4 0 ++ leBytes 4 0)

end Sys2Proof.Claims

/-- R340: FLOW_OPEN of a record that keeps R341, whose ranges may be written, opens the flow and joins its group; a word that must be zero, a
flow already open or a bad record gives FORMAT; FLOW_CLOSE closes it. R344, R346: a malformed packet counts in BAD and one of a closed frame
in LATE; a newer timestamp opens the next frame, or drops it when the ring is full. R347, R348: at its close time a frame that is not
complete gets INCOMPLETE, its trailer is written and its 32-byte record posts. -/
def Obligations.VideoFlowsFillTheirFrames : Prop :=
  (∀ (s : State) (n : RingId) (i : Index) (d : Desc) (o : Nat) (f : Flow), s.work n i 0x60 .started = some d →
    (s.flowOpenBad d = true → exec (.flowOpen n i) s = .next { s with descs := decideIn s n i .format 0 0 }) ∧
    (s.flowOpenBad d = false → Readable s n true (d.word 4).toNat 128 o →
      f = { num := bits (d.word 3) 6 0, ctx := s.ringEvtCtx n, rec_ := s.bytes o 128, frames := [], newest := none, next := 0, mark := none } →
      (s.flowOk f = false → exec (.flowOpen n i) s = .next { s with descs := decideIn s n i .format 0 0 }) ∧
      (s.flowOk f = true → FlowMay s f (bits f.slotBase 47 0) (2 ^ f.k * f.slotSize) → FlowMay s f (bits f.recBase 47 0) (2 ^ f.k * 32) →
        ∃ t, exec (.flowOpen n i) s = .next t ∧ t.front.flows = s.front.flows ++ [f] ∧
          t.fld (Reg.FRONT_FLOW_STATE f.num) Reg.FRONT_FLOW_STATE_STATE = 1 ∧ t.descs = decideIn s n i .ok 0 0))) ∧
  (∀ (s : State) (n : RingId) (i : Index) (d : Desc) (f : Flow), s.work n i 0x61 .started = some d → bits (d.word 3) 63 7 = 0 →
    (d.words.drop 4).all (· = 0) = true → s.front.flows = [f] → f.num = bits (d.word 3) 6 0 → f.frames = [] →
    ∃ t, exec (.flowClose n i) s = .next t ∧ t.front.flows = [] ∧ t.fld (Reg.FRONT_FLOW_STATE f.num) Reg.FRONT_FLOW_STATE_STATE = 0 ∧
      t.descs = decideIn s n i .ok 0 0) ∧
  (∀ (s u : State) (p : PortId) (k : RtpPacket) (ns : Word) (i : IpPacket) (sp dp : Nat) (data : List Byte) (f : Flow),
    FromPort s u p (.video k.bytes) → ipOf k.bytes = some i → udpOf i = some (sp, dp, data) → s.front.flows = [f] →
    f.addressed p i dp = true → f.frames = [] →
    (f.parse data = none → exec (.videoPacket p k ns) s = .next (u.bump (Reg.FRONT_FLOW_STATE f.num) Reg.FRONT_FLOW_STATE_BAD)) ∧
    ∀ v : VideoPacket, f.parse data = some v →
      (∀ x, f.newest = some x → newer v.ts x = false →
        exec (.videoPacket p k ns) s = .next (u.bump (Reg.FRONT_FLOW_STATE f.num) Reg.FRONT_FLOW_STATE_LATE)) ∧
      (f.newest = none → s.Permits (s.me f.auth) .rd false (bits f.cidx 47 0) 8 → s.Clean f.auth (bits f.cidx 47 0) 8 →
        let used := (f.next - BitVec.ofNat 32 (leAt (s.bytes (bits f.cidx 47 0) 8) 0 4)).toNat
        (2 ^ f.k ≤ used → ∃ t, exec (.videoPacket p k ns) s = .next t ∧ t.front.flows = [{ f with newest := some v.ts, mark := none }] ∧
          t.mem = s.mem) ∧
        (used < 2 ^ f.k → ∀ d : Srd, v.srds = [d] → v.marker = false →
          (∀ q, f.mark = some q → (v.seq - (q + 1)).toNat < 131072) → PlanesMay s f (f.slotOff f.next) d →
          ∃ t, exec (.videoPacket p k ns) s = .next t ∧ PlanesHold s t f (f.slotOff f.next) d ∧
          ∃ fr : Frame, t.front.flows = [{ f with frames := [fr], newest := some v.ts, next := f.next + 1, mark := none }] ∧
            fr.idx = f.next ∧ fr.ts = v.ts ∧ fr.taken = [v.seq] ∧ fr.firstNs = ns ∧ fr.lastNs = ns ∧ fr.closed = false ∧
            fr.pixels = 2 * (d.data.length / 5) ∧ fr.firstSeq = (match f.mark with
              | some q => q + 1
              | none => v.seq)))) ∧
  ∀ (s : State) (n : Fin 128) (f : Flow) (fr : Frame), OneFrame s n.val f fr → fr.complete f = false →
    let tr := f.slotOff fr.idx + f.sizeY + 2 * f.sizeC
    let rc := bits f.recBase 47 0 + 32 * (fr.idx.toNat % 2 ^ f.k)
    FlowMay s f tr 16416 → FlowMay s f rc 32 → rc + 32 ≤ tr ∨ tr + 16416 ≤ rc →
    ∃ t, exec (.frameTimeout n) s = .next t ∧ t.front.flows = [{ f with frames := [] }] ∧
      t.bytes tr 16416 = fr.trailer ∧ t.bytes rc 32 = ({ fr with closed := true, status := .incomplete }).record n.val f.k ∧
      ∀ a, (a < tr ∨ tr + 16416 ≤ a) → (a < rc ∨ rc + 32 ≤ a) → t.byte a = s.byte a

/-- R350, R351: ENABLE is set when the endpoint table passes its checks, else ERR; cleared, the engine drains until no request is left, and
the recent table empties. R352: a request is refused with the first status that applies, FORMAT, PERM, BOUND or THROTTLED, or is discarded;
one whose key is still held is not posted again, and one whose bytes go to another device waits for
them, the next one behind it; at its completion the reply leaves and its slots are free. R354: QUIESCE stops a port and
QDONE follows. -/
def Obligations.ExrRequestsAndQuiescedPorts : Prop :=
  (∀ (s u : State) (p : PortId) (mac : BitVec 48) (a : BitVec 128) (q : BitVec 16) (data : List Byte), FromClient s u p mac a q data →
    (s.fld Reg.FRONT_EXR_CFG Reg.FRONT_EXR_CFG_ENABLE = 0 → ∃ t, exec (.exrDatagram p a q data) s = .next t ∧ Discarded u t p) ∧
    (s.fld Reg.FRONT_EXR_CFG Reg.FRONT_EXR_CFG_ENABLE = 1 →
      (data.length < 32 ∨ leAt data 0 2 ≠ 0x5845 ∨ leAt data 2 1 ≠ 1 ∨ leAt data 6 2 + 32 ≠ data.length →
        ∃ t, exec (.exrDatagram p a q data) s = .next t ∧ Discarded u t p) ∧
      (32 ≤ data.length ∧ leAt data 0 2 = 0x5845 ∧ leAt data 2 1 = 1 ∧ leAt data 6 2 + 32 = data.length →
        leAt data 3 1 ≠ 1 ∨ leAt data 5 1 ≠ 0 ∨ leAt data 0x1C 4 ≠ 0 →
        exec (.exrDatagram p a q data) s = .next (rejected u p mac a q data .format)) ∧
      ∀ ep, Request data ep → leAt data 6 2 ≤ 8192 →
        ((∀ e ∈ s.front.endpoints, e.1 ≠ ep) → exec (.exrDatagram p a q data) s = .next (rejected u p mac a q data .perm)) ∧
        ∀ e : Endpoint, s.front.endpoints = [(ep, e)] →
          (e.admits a = false → exec (.exrDatagram p a q data) s = .next (rejected u p mac a q data .perm)) ∧
          (e.admits a = true → e.slotBytes < data.length → exec (.exrDatagram p a q data) s = .next (rejected u p mac a q data .bound)) ∧
          (e.admits a = true → data.length ≤ e.slotBytes →
            (∀ r : Recent, s.front.recent = [r] → r.key = ⟨a, q, BitVec.ofNat 8 ep, wordAt data 8⟩ →
              (r.reply = none → exec (.exrDatagram p a q data) s = .next u) ∧
              (∀ st r0 r1, r.reply = some (st, r0, r1) → exec (.exrDatagram p a q data) s = .next (u.exrAgain r st r0 r1))) ∧
            (s.front.recent = [] → s.exrSlot ep e = none → exec (.exrDatagram p a q data) s = .next (rejected u p mac a q data .throttled)) ∧
            (∀ (slot out : Nat) (fail : Option Status) (v : State), s.front.recent = [] → s.exrSlot ep e = some slot →
              u.exrPost ep e slot data = ((out, fail), v) →
              let pidx := s.fld (Reg.RING_STATE e.ring) Reg.RING_STATE_PIDX
              let r : ExrReq := ⟨e.ring, BitVec.ofNat 32 pidx, slot, ep, p, mac, a, q, wordAt data 8, out, fail, none⟩
              (out ≠ 0 → exec (.exrDatagram p a q data) s = .next { v with exr := v.exr ++ [r] }) ∧
              (∀ st, out = 0 → fail = some st → exec (.exrDatagram p a q data) s = .next (rejected v p mac a q data st).settleExr) ∧
              (∀ w : State, out = 0 → fail = none → v.doorbell (v.ringAuth e.ring) e.ring 0 8 (BitVec.ofNat 64 (e.ring.val * 2 ^ 48 +
                  ((BitVec.ofNat 32 pidx).toNat + 1) % 2 ^ 32)) = (.ok, w) → w.front.recent = [] → ∃ t, exec (.exrDatagram p a q data) s = .next t ∧
                t.front.recent = [⟨⟨a, q, BitVec.ofNat 8 ep, wordAt data 8⟩, p, mac, slot, none, false⟩] ∧ t.exr = w.exr ++ [r]))))) ∧
  (∀ (s : State) (p : PortId) (a : BitVec 128) (q : BitVec 16) (data : List Byte), (∃ r ∈ s.exr, r.left ≠ 0) →
    exec (.exrDatagram p a q data) s = .next s) ∧
  (∀ (s : State) (r : ExrReq) (st : Status), s.exr = [r] → r.fail = none → (1 < r.left → s.exrAck r.ring r.idx st =
      { s with exr := [{ r with left := r.left - 1, fail := if st = .ok then none else some st }] }) ∧
    (r.left = 1 → st ≠ .ok → s.exrAck r.ring r.idx st =
      (State.exrSend (State.countReject { s with exr := [] }) r.port r.mac r.addr r.sport (exrBytes 3 r.endpoint st.code r.ctag 0 0 false [])).settleExr)) ∧
  (∀ (s : State) (n : RingId) (i : Index) (r : ExrReq) (st : Status) (r0 : Word) (r1 : BitVec 32), s.exr = [r] → r.ring = n → r.idx = i →
    (r.cpl = none → exec (.exrReply n i) s = .next s) ∧
    (r.cpl = some (st, r0, r1) → ∃ t, exec (.exrReply n i) s = .next t ∧ t.exr = [] ∧
      (s.fld Reg.FRONT_EXR_CFG Reg.FRONT_EXR_CFG_ENABLE = 0 → t.front.recent = [] ∧
        t.fld Reg.FRONT_EXR_STATE Reg.FRONT_EXR_STATE_DRAINING = 0) ∧
      (s.portSends r.port = false → t.out = s.out))) ∧
  (∀ (s : State) (k : ExrKey), exec (.exrKeyExpire k) s = .next { s with
    front := { s.front with recent := s.front.recent.filter (fun r => r.key ≠ k) } }) ∧
  (∀ (s : State) (src : Source) (v : Word), s.mayUse src = true → s.fld Reg.FRONT_EXR_STATE Reg.FRONT_EXR_STATE_DRAINING = 0 →
    (v.getLsbD 63 = true → s.fld Reg.FRONT_EXR_CFG Reg.FRONT_EXR_CFG_ENABLE = 0 →
      let u := s.writeWord .FRONT_EXR_CFG [] Reg.FRONT_EXR_CFG (setBit v 63 false) (-1)
      (∀ (es : List (Nat × Endpoint)) (w : State), u.exrTable = (some es, w) → exec (.exrEnable src v) s =
        .next ({ w with front := { w.front with endpoints := es } }.setFld Reg.FRONT_EXR_CFG Reg.FRONT_EXR_CFG_ENABLE 1)) ∧
      (∀ w : State, u.exrTable = (none, w) → exec (.exrEnable src v) s =
        .next (w.setFld Reg.FRONT_EXR_STATE Reg.FRONT_EXR_STATE_ERR 1)) ∧
      (u.fld Reg.FRONT_EXR_CFG Reg.FRONT_EXR_CFG_UDP_PORT = 0 → u.exrTable = (none, u))) ∧
    (v.getLsbD 63 = false → s.fld Reg.FRONT_EXR_CFG Reg.FRONT_EXR_CFG_ENABLE = 1 → ∃ t, exec (.exrDisable src v) s = .next t ∧
      t.fld Reg.FRONT_EXR_CFG Reg.FRONT_EXR_CFG_ENABLE = 0 ∧ t.exr = s.exr ∧
      t.fld Reg.FRONT_EXR_STATE Reg.FRONT_EXR_STATE_DRAINING = (if s.exr = [] then 0 else 1))) ∧
  (∀ (s : State) (src : Source), s.mayUse src = true → s.front.flows = [] → s.front.chosen = none → s.front.masters = [] →
    ∃ t, exec (.portQuiesce src 1) s = .next t ∧ t.quiesced 0 = true ∧ t.quiesced 1 = false ∧ t.quiesceDone 1 = false ∧
      (∀ c ∈ t.front.conns, c.port ≠ 0 ∨ s.quiesced 0 = true) ∧ ∀ f, exec (.frameRx 0 f) t = .next t) ∧
  ∀ (s : State) (p : PortId), (s.quiesced p = true → ∃ t, exec (.portQuiesceDone p) s = .next t ∧ t.quiesceDone p = true ∧
    t = { s with setup := t.setup } ∧ ∀ o, o ≠ Reg.FRONT_CTRL → t.reg o = s.reg o) ∧
    (s.quiesced p = false → exec (.portQuiesceDone p) s = .next s)

namespace Sys2Proof.Claims

/-! ### Heat, power and supply -/

/-- The steady state of island `j` at `mw` milliwatts, and its estimate 10 µs on (R400). -/
def steady (s : State) (j mw : Nat) : Rat := s.plate + Config.islandR j * ((mw : Rat) / 1000) + (s.island j).off
def nextT (s : State) (j mw : Nat) : Rat :=
  (s.island j).tHat + (steady s j mw - (s.island j).tHat) * ((1 : Rat) / 100 / Config.islandTau j)

/-- Islands but `j` are unchanged, and of island `j` nothing but what `f` says. -/
def OnlyIsland (s t : State) (j : Nat) (f : Island → Island) : Prop :=
  t = { s with power := { s.power with islands := t.power.islands } } ∧ t.island j = f (s.island j) ∧ ∀ i, i ≠ j → t.island i = s.island i

end Sys2Proof.Claims

/-- R400, R402: a Thermos update moves every estimate toward its steady state, sets Warning and Throttle by it with their hysteresis, and the
throttle demand is 8 on setting and 2 more at each update that stays hot, up to 15; an estimate or diode reading at the shutdown threshold
is fail-safe. R403: the 32 cores of a cluster share one rate-of-rise demand. R401: a thermistor reading holds its packages at a level. R402:
the demand decays by 1, the warning ceiling falls or rises by 25 MHz, and the cut grows while a fixed island is at Throttle. -/
def Obligations.ThermosEstimatesAndThrottles : Prop :=
  (∀ (s : State) (p : List Nat), (∀ j < 148, nextT s j (p.getD j 0) < (s.shutdownAt : Rat)) → ∃ t, exec (.thermosUpdate p) s = .next t ∧
    t.failsafe = s.failsafe ∧ ∀ j < 148, (t.island j).tHat = nextT s j (p.getD j 0) ∧ (t.island j).off = (s.island j).off ∧
      (t.island j).rise = (steady s j (p.getD j 0) - nextT s j (p.getD j 0)) / Config.islandTau j ∧
      ((s.warnSet : Rat) ≤ (t.island j).tHat → t.warned j = true) ∧
      ((t.island j).tHat < s.warnSet → (t.island j).tHat ≤ s.warnClr → t.warned j = false) ∧
      ((t.island j).tHat < s.warnSet → s.warnClr < (t.island j).tHat → t.warned j = s.warned j) ∧
      ((s.throttleSet : Rat) ≤ (t.island j).tHat → t.throttled j = true ∧
        (j < 132 → (t.island j).thresh = if s.throttled j then min 15 ((s.island j).thresh + 2) else 8)) ∧
      ((t.island j).tHat < s.throttleSet → (t.island j).thresh = (s.island j).thresh ∧
        t.throttled j = if (t.island j).tHat ≤ s.throttleClr then false else s.throttled j) ∧
      (j < 128 → (t.island j).riseD = (t.island (j / 32 * 32)).riseD ∧ (t.island j).riseD ≤ 15) ∧
      (j < 128 → (∀ i, i / 32 = j / 32 → (steady s i (p.getD i 0) - nextT s i (p.getD i 0)) / Config.islandTau i ≤ (s.riseLimit : Rat) ∧
        (s.island i).riseD = 0) → (t.island j).riseD = 0)) ∧
  (∀ (s : State) (p : List Nat) (j : Nat), j < 148 → (s.shutdownAt : Rat) ≤ nextT s j (p.getD j 0) →
    ∃ t, exec (.thermosUpdate p) s = .next t ∧ t.failsafe = true) ∧
  (∀ (s : State) (l : List Int), ((∀ d ∈ l, d < 16 * s.shutdownAt) → ∃ t, exec (.diodeSample l) s = .next t ∧ t.failsafe = s.failsafe ∧
      ∀ (j : Nat) (d : Int), j < 148 → l[j]? = some d → (t.island j).off = (s.island j).off + ((d : Rat) / 16 - (s.island j).tHat) / 8 ∧
        (t.island j).tHat = (s.island j).tHat ∧ (t.fld (Reg.THERM_ISL j) Reg.THERM_ISL_T_DIODE : Int) = d % 65536) ∧
    ((∃ d ∈ l, (16 * s.shutdownAt : Int) ≤ d) → ∃ t, exec (.diodeSample l) s = .next t ∧ t.failsafe = true)) ∧
  (∀ (s : State) (r : List (Option Int)), ∃ t, exec (.thermistorRead r) s = .next t ∧
    (∀ j < 4, (∀ d, r.getD j none = some d → t.fld (Reg.THERM_TH j) Reg.THERM_TH_FAULT = 0 ∧
      (t.fld (Reg.THERM_TH j) Reg.THERM_TH_TEMP : Int) = d % 65536) ∧ (r.getD j none = none → t.fld (Reg.THERM_TH j) Reg.THERM_TH_FAULT = 1)) ∧
    (∀ d, r.getD 1 none = some d → t.power.west = heldLevel (min 95 (s.fld Reg.THERM_TH_CFG Reg.THERM_TH_CFG_LPDDR_LIMIT)) s.power.west d) ∧
    (∀ d, r.getD 2 none = some d → t.power.east = heldLevel (min 95 (s.fld Reg.THERM_TH_CFG Reg.THERM_TH_CFG_LPDDR_LIMIT)) s.power.east d) ∧
    (∀ p < 26, (if p < 13 then t.power.west else t.power.east) ≤ 3 →  Maps.get 0 s.power.pkg p ≤ 3 →
      t.fld (Reg.MEM_PKG_TEMP p) Reg.MEM_PKG_TEMP_LEVEL = max (Maps.get 0 s.power.pkg p) (if p < 13 then t.power.west else t.power.east))) ∧
  (∀ (lim : Nat) (d : Int), heldLevel lim 0 d =
    (if 16 * (lim + 10 : Int) ≤ d then 3 else if 16 * (lim + 5 : Int) ≤ d then 2 else if 16 * (lim : Int) ≤ d then 1 else 0) ∧
    (16 * (lim : Int) - 48 < d → 1 ≤ heldLevel lim 1 d) ∧ (d ≤ 16 * (lim : Int) - 48 → heldLevel lim 1 d = 0)) ∧
  (∀ (s : State) (j : IslandId), j.val < 132 → s.throttled j = false → ∃ t, exec (.throttleDecay j) s = .next t ∧
    (t.island j).thresh = (s.island j).thresh - 1 ∧ t = { s with power := { s.power with islands := t.power.islands } } ∧
    ∀ i, i ≠ j.val → t.island i = s.island i) ∧
  ∀ (s : State), ∃ t, exec .warningCeilingTick s = .next t ∧ ∀ j < 132,
    (s.fld Reg.POLICY_THERM_CFG Reg.POLICY_THERM_CFG_WARN_ACT = 1 → (t.island j).ceiling =
      if s.warned j then max 16 ((s.island j).ceiling - 1) else min 80 ((s.island j).ceiling + 1)) ∧
    (s.fld Reg.POLICY_THERM_CFG Reg.POLICY_THERM_CFG_WARN_ACT = 0 → (t.island j).ceiling = 80) ∧
    ((∀ i < 16, s.throttled (132 + i) = false) → t.power.cut = 0) ∧
    ((∃ i, i < 16 ∧ s.throttled (132 + i) = true) →
      t.power.cut = min 100 (s.power.cut + min 50 (s.fld Reg.POLICY_THERM_CFG Reg.POLICY_THERM_CFG_EDGE_CUT_PCT)))

/-- R405: the fast power limiter's demand rises by 2 above CAP_W + 50 W and falls by 1 below CAP_W. R404: the policy lowers its cap by 25 MHz
for each 20 W above CAP_W, raises it by 25 MHz below CAP_W - HYST_W, and a pinned cap stands. R396, R398: a PLL moves 25 MHz a step; the
divider covers the level. R407, R408: a stage is entered when bulk is below its threshold, and left in descending order; a rail undervoltage
or stage 5 is fail-safe; stage 4 enters self-refresh. R409: a notice posts PEER_BROWNOUT. R410: a dip stretches the clock. -/
def Obligations.PowerIsCappedAndSupplyWatched : Prop :=
  (∀ (s : State) (w mv : Nat), w < 65536 → mv < 65536 → ∃ t, exec (.powerSample w mv) s = .next t ∧
    t.fld Reg.CLKPWR_POWER Reg.CLKPWR_POWER_P_IN_W = w ∧ t.fld Reg.CLKPWR_POWER Reg.CLKPWR_POWER_BULK_MV = mv ∧
    (s.capW + 50 < w → t.power.fast = min 15 (s.power.fast + 2)) ∧ (w < s.capW → t.power.fast = s.power.fast - 1) ∧
    (s.capW ≤ w → w ≤ s.capW + 50 → t.power.fast = s.power.fast)) ∧
  (∀ (s : State) (w : Nat), s.power.samples = List.replicate 10 w → ∃ t, exec .powerPolicy s = .next t ∧
    (∀ pin, s.fld Reg.POLICY_PWR_CFG Reg.POLICY_PWR_CFG_PIN_FREQ = pin →
      (pin ≠ 0 → t.power.fPwr = max 16 (min 80 pin)) ∧
      (pin = 0 → s.capW < w → t.power.fPwr = max 16 (s.power.fPwr - (w - s.capW + 19) / 20)) ∧
      (pin = 0 → w + s.fld Reg.POLICY_PWR_CFG Reg.POLICY_PWR_CFG_HYST_W < s.capW → t.power.fPwr = min 80 (s.power.fPwr + 1)) ∧
      (pin = 0 → w ≤ s.capW → s.capW ≤ w + s.fld Reg.POLICY_PWR_CFG Reg.POLICY_PWR_CFG_HYST_W → t.power.fPwr = s.power.fPwr))) ∧
  (∀ (s : State) (j : IslandId), j.val < 132 →
    (2 ≤ (s.island j).lvl → ∃ t, exec (.dividerMove j) s = .next t ∧ OnlyIsland s t j (fun x => { x with
      n := min ((x.lvl + 1) / 2) (if j.val < 128 then min 8 (x.pll / 2 - 8) else 8)
      covered := if (x.lvl + 1) / 2 ≤ (if j.val < 128 then min 8 (x.pll / 2 - 8) else 8) then x.lvl else 0 })) ∧
    ∃ t, exec (.pllStep j) s = .next t ∧
      (t.island j).pll = (if (s.island j).pll < s.pllTarget j then (s.island j).pll + 1
        else if s.pllTarget j < (s.island j).pll then (s.island j).pll - 1 else (s.island j).pll) ∧
      t = { s with power := { s.power with islands := t.power.islands } } ∧ ∀ i, i ≠ j.val → t.island i = s.island i) ∧
  (∀ (s : State) (k : Fin 6) (mv : Nat), s.boot.bulk = true → s.fld Reg.POLICY_SHED_CFG Reg.POLICY_SHED_CFG_PIN_STAGE = 0 →
    (∃ t, exec (.supplyStageEnter k mv true) s = .next t ∧ t.failsafe = true) ∧
    (k.val = 5 → mv < 36000 → ∃ t, exec (.supplyStageEnter k mv false) s = .next t ∧ t.failsafe = true) ∧
    (1 ≤ k.val → k.val ≤ 4 → mv < 46000 - 2000 * k.val → s.power.measured < k.val → s.stage = s.power.measured →
      ∃ t, exec (.supplyStageEnter k mv false) s = .next t ∧ t.stage = k.val ∧ t.power.measured = k.val ∧
        t.fld Reg.CLKPWR_POWER Reg.CLKPWR_POWER_BULK_MV = mv ∧ (k.val = 4 → t.selfRefresh = true) ∧ (3 ≤ k.val → t.coresPaused = true) ∧
        t.fld Reg.CLKPWR_SHED Reg.CLKPWR_SHED_ENTRIES = min 65535 (s.fld Reg.CLKPWR_SHED Reg.CLKPWR_SHED_ENTRIES + 1)) ∧
    (1 ≤ k.val → k.val ≤ 4 → 46000 - 2000 * k.val ≤ mv → ∃ t, exec (.supplyStageEnter k mv false) s = .next t ∧ t.stage = s.stage ∧
      t = { s with setup := t.setup })) ∧
  (∀ (s : State) (mv : Nat), s.fld Reg.POLICY_SHED_CFG Reg.POLICY_SHED_CFG_PIN_STAGE = 0 → s.stage = s.power.measured →
    1 ≤ s.power.measured → s.power.measured ≤ 4 →
    (46000 - 2000 * s.power.measured + 1000 < mv → 1 < s.power.measured ∨ (∀ d ∈ s.descs, d.typ = 0x50 → d.phase ≠ .working) →
      ∃ t, exec (.supplyStageLeave mv) s = .next t ∧ t.stage = s.stage - 1 ∧
      t.power.measured = s.power.measured - 1) ∧
    (mv ≤ 46000 - 2000 * s.power.measured + 1000 → exec (.supplyStageLeave mv) s = .next s)) ∧
  (∀ s : State, s.selfRefresh = true → s.stage < 4 →
    ∃ t, exec .selfRefreshExit s = .next t ∧ t.selfRefresh = false ∧ t = { s with selfRefresh := false }.sendBrownout 0) ∧
  (∀ (s u : State) (p : Packet), Arrived s u p 4 0x33 → p.payload.length = 32 → p.pcrcOk = true →
    brownoutOk p.payload = true →
    exec (.brownout p) s = .next (u.post (event 0x0009 (BitVec.ofNat 48 (leAt p.payload 0 2 % 4096)) none))) ∧
  ∀ (s : State) (k : CoreId), (∃ t, exec (.droopDip k) s = .next t ∧ OnlyIsland s t k (fun x => { x with stretch := true })) ∧
    ∃ t, exec (.droopRestore k) s = .next t ∧ OnlyIsland s t k (fun x => { x with stretch := false })

namespace Sys2Proof.Claims

/-! ### Snapshots -/

/-- The plan of the descriptor was read, `u` being the state after. -/
def PlanRead (s u : State) (n : RingId) (a : Word) (whole : Bool) (p l : List Byte) : Prop := s.readPlan n a whole = (.ok (p, l), u)

/-- Both image headers at the keeper are asked for: what a capture or a restore from layer 1 sends first (R359, R366). -/
def headerGets (u : State) (n : RingId) (i : Index) (p : List Byte) : List Req :=
  (List.range 2).map fun m => { newReq 3 0x29 (planKeeper p) (u.ringAgent n) (u.ringCtx n) (keeperAt p m) (.desc n i (posHeader + m)) with rlen := 64 }

/-- A cascade of context `x` from image `src` to image `dst` has begun in `t`: the target's header reads STATE 1 (R361). -/
def Begun (s t : State) (x : Ctx) (k : Cascade) (src dst : Nat) : Prop :=
  k.src = src ∧ k.dst = dst ∧ k.fail = none ∧ k.header = Maps.get [] (s.snapCtx x).hdrs src ∧
  t.imageRead (s.snapCtx x).plan dst 0 64 = ({ headerOf (Maps.get [] (s.snapCtx x).hdrs src) with state := 1 } : SnapHeader).bytes

end Sys2Proof.Claims

/-- R359, R363: a capture with a malformed slot gets FORMAT, with ENABLE 0 FENCED, waits from stage 1 on, and else asks the keeper for both
headers; an old generation gets FORMAT; at its end GEN_L1 holds the generation. R366: a restore asks its source likewise; a granule whose
digest disagrees is poisoned. R367: SNAP_DIGEST stores the digest of its granules' digests. R372: a query asks for every context. R373:
SNAP_SHADOW sets ROLE and PEER. -/
def Obligations.SnapshotDescriptors : Prop :=
  (∀ (s : State) (n : RingId) (i : Index) (d : Desc), s.work n i 0x50 .started = some d →
    (bits (d.word 3) 63 33 ≠ 0 → exec (.snapCapture n i) s = .next { s with descs := decideIn s n i .format 0 0 }) ∧
    (bits (d.word 3) 63 33 = 0 → (d.words.drop 5).all (· = 0) = true →
      (s.fld Reg.SNAP_CFG Reg.SNAP_CFG_ENABLE = 0 → exec (.snapCapture n i) s = .next { s with descs := decideIn s n i .fenced 0 0 }) ∧
      (s.fld Reg.SNAP_CFG Reg.SNAP_CFG_ENABLE = 1 → 1 ≤ s.stage → exec (.snapCapture n i) s = .next s) ∧
      (s.fld Reg.SNAP_CFG Reg.SNAP_CFG_ENABLE = 1 → s.stage = 0 → s.snapBusy n i 0x50 = false →
        s.fld Reg.MEM_DIRTY_STATUS Reg.MEM_DIRTY_STATUS_BUSY = 0 → ∀ u p l, PlanRead s u n (d.word 4) true p l →
        ∃ t, exec (.snapCapture n i) s = .next t ∧ t.fab.waiting = u.fab.waiting ++ headerGets u n i p ∧ t.mem = u.mem))) ∧
  (∀ (s : State) (n : RingId) (i : Index) (d : Desc) (h : SnapHeader), h ∈ d.headers → h.holds (s.ringCtx n) (planDigest d.keep) = true →
    d.gen ≤ h.gen → s.captureCopy n i d = { s with descs := (s.endDesc n i .format 0 0).descs }) ∧
  (∀ (s : State) (n : RingId) (i : Index) (d e : Desc), s.desc n i = some e → e.phase = .working → Finished (s.captureEnd n i d) n i .ok d.r0.toNat ∧
    (s.captureEnd n i d).fld (Reg.SNAP_CTX_GEN (s.ringCtx n)) Reg.SNAP_CTX_GEN_GEN_L1 = d.gen) ∧
  (∀ (s : State) (n : RingId) (i : Index) (d : Desc), s.work n i 0x51 .started = some d →
    (bits (d.word 3) 63 35 ≠ 0 → exec (.snapRestore n i) s = .next { s with descs := decideIn s n i .format 0 0 }) ∧
    (bits (d.word 3) 63 35 = 0 → bits (d.word 5) 63 12 = 0 → d.word 6 = 0 → d.word 7 = 0 → ∀ u p l, PlanRead s u n (d.word 4) true p l →
      u.descs = s.descs →
      (d.source = 1 → u.hamperFenced = true → exec (.snapRestore n i) s = .next { u with descs := decideIn s n i .fenced 0 0 }) ∧
      (d.source = 0 → d.left = 0 → ∃ t, exec (.snapRestore n i) s = .next t ∧ t.fab.waiting = u.fab.waiting ++ headerGets u n i p ∧ t.mem = u.mem))) ∧
  (∀ (s : State) (n : RingId) (i : Index) (d : Desc) (j : Nat), d.source ≠ 4 →
    let o := (keepGranules d.keep).getD j 0
    let bs := d.joined 0 posHeader
    ((d.joined posTable (posTable + 2 ^ 32)).drop (8 * j)).take 8 ≠ leBytes 8 (crc64 bs).toNat →
    s.Permits (s.me (s.ringAuth n)) .wr false o granuleSize →
    (s.restoreGranule n i d j).mem = s.mem ∧ ∀ a ∈ unitsOf o granuleSize, (s.restoreGranule n i d j).poisoned a = true) ∧
  (∀ (s : State) (n : RingId) (os : List Nat), (∀ o ∈ os, s.Permits (s.me (s.ringAuth n)) .rd false o granuleSize ∧ s.Clean (s.ringAuth n) o granuleSize) →
    s.digestGranules n os = (.ok (os.flatMap (fun o => leBytes 8 (crc64 (s.bytes o granuleSize)).toNat)), s)) ∧
  (∀ (s : State) (n : RingId) (i : Index) (d : Desc), s.work n i 0x52 .started = some d →
    (d.word 3 ≠ 0 → exec (.snapDigest n i) s = .next { s with descs := decideIn s n i .format 0 0 }) ∧
    (d.word 3 = 0 → d.word 7 = 0 → (d.word 5).toNat % 8 = 0 → d.word 6 = 0 → ∀ p l tab o, PlanRead s s n (d.word 4) false p l →
      s.digestGranules n (keepGranules (keepOf l)) = (.ok tab, s) → Writable s n true (d.word 5).toNat 8 o →
      ∃ t, exec (.snapDigest n i) s = .next t ∧ t.bytes o 8 = leBytes 8 (crc64 tab).toNat ∧ Finished t n i .ok 0)) ∧
  (∀ (s : State) (n : RingId) (i : Index) (d : Desc), s.work n i 0x53 .started = some d → (d.words.drop 4).all (· = 0) = true →
    let peer : Coord := BitVec.ofNat 12 (bits (d.word 3) 11 0)
    (bits (d.word 3) 63 14 ≠ 0 ∨ bits (d.word 3) 13 12 = 3 → exec (.snapShadow n i) s = .next { s with descs := decideIn s n i .format 0 0 }) ∧
    (bits (d.word 3) 63 14 = 0 → bits (d.word 3) 13 12 = 2 → ∃ t, exec (.snapShadow n i) s = .next t ∧ t.snap.mirror = none ∧
      t.fld Reg.SNAP_SHADOW_STATE Reg.SNAP_SHADOW_STATE_ROLE = 2 ∧ t.descs = decideIn s n i .ok 0 0) ∧
    (bits (d.word 3) 63 14 = 0 → bits (d.word 3) 13 12 = 0 → blockOf peer = blockOf s.self → peer ≠ s.self → s.present peer = true →
      ∃ t, exec (.snapShadow n i) s = .next t ∧ t.snap.mirror = some (s.ringCtx n) ∧ t.fld Reg.SNAP_SHADOW_STATE Reg.SNAP_SHADOW_STATE_ROLE = 0 ∧
        t.fld Reg.SNAP_SHADOW_STATE Reg.SNAP_SHADOW_STATE_PEER = peer.toNat ∧ t.descs = decideIn s n i .ok 0 0) ∧
    (bits (d.word 3) 63 14 = 0 → bits (d.word 3) 13 12 = 1 → blockOf peer = blockOf s.self → peer ≠ s.self → s.present peer = true →
      ∃ t, exec (.snapShadow n i) s = .next t ∧ t.snap.mirror = some (s.ringCtx n) ∧ t.fld Reg.SNAP_SHADOW_STATE Reg.SNAP_SHADOW_STATE_ROLE = 1 ∧
        t.fab.waiting = s.fab.waiting ++ [{ newReq 3 0x29 peer agentFabric (s.ringCtx n) groupsAddr (.desc n i 0) with rlen := 8192 }])) ∧
  ∀ (s : State) (n : RingId) (i : Index) (d : Desc) (o : Nat), s.work n i 0x54 .started = some d → (d.words.drop 5).all (· = 0) = true →
    let c : Coord := BitVec.ofNat 12 (bits (d.word 3) 11 0)
    (bits (d.word 3) 63 12 ≠ 0 → exec (.snapSalvageQuery n i) s = .next { s with descs := decideIn s n i .format 0 0 }) ∧
    (bits (d.word 3) 63 12 = 0 → s.locate true (d.word 4).toNat 8192 = .here o →
      (s.present c = false → exec (.snapSalvageQuery n i) s = .next { s with descs := decideIn s n i .bound 0 0 }) ∧
      (s.present c = true → ∃ t, exec (.snapSalvageQuery n i) s = .next t ∧ t.fab.waiting = s.fab.waiting ++ (List.range 64).map (fun x =>
        { newReq 4 0x35 c agentRanger 0 0 (.desc n i (128 * x)) with payload := leBytes 1 x ++ List.replicate 15 0, rlen := 128 })))

/-- R362: setting ENABLE takes over dirty tracking and no image counts as completed. R361: a cascade begins when the layer above holds a newer
complete generation, the third one at most once in SHARED_PERIOD_S; its target reads STATE 1 until it is done, then STATE 2. R368: a due snapshot sets DUE and posts INFO; a second of a
running launch counts. R372: a faulted device that has dumped enters salvage state and serves SALVAGE to a Ranger of its block. -/
def Obligations.CascadesPolicyAndSalvage : Prop :=
  (∀ (s : State) (src : Source) (v : Word), s.mayUse src = true →
    let u := s.writeWord .SNAP_CFG [] Reg.SNAP_CFG v (-1)
    (s.fld Reg.SNAP_CFG Reg.SNAP_CFG_ENABLE = 0 → u.fld Reg.SNAP_CFG Reg.SNAP_CFG_ENABLE = 1 → ∃ t, exec (.snapEnable src v) s = .next t ∧
      t.fld Reg.MEM_DIRTY_CTRL Reg.MEM_DIRTY_CTRL_ENABLE = 1 ∧ t.fld Reg.SNAP_CFG Reg.SNAP_CFG_ENABLE = 1 ∧
      (s.fld Reg.MEM_DIRTY_CTRL Reg.MEM_DIRTY_CTRL_ENABLE = 0 → t.dirtyActive = []) ∧ ∀ e ∈ t.snap.ctxs, e.2.fresh = []) ∧
    (s.fld Reg.SNAP_CFG Reg.SNAP_CFG_ENABLE = 1 → exec (.snapEnable src v) s = .next u)) ∧
  (∀ (s : State) (x : Ctx) (src dst : Nat), s.fld Reg.SNAP_CFG Reg.SNAP_CFG_ENABLE = 1 → s.hamperFenced = false → s.hamperHeld = false →
    ((s.snapCtx x).layer2 = none → (s.snapCtx x).cascade 0 2 = some (src, dst) → (s.snapCtx x).layer3.map (·.src) ≠ some dst →
      ∃ t k, exec (.layer2Cascade x) s = .next t ∧ (t.snapCtx x).layer2 = some k ∧ Begun s t x k src dst) ∧
    ((s.snapCtx x).cascade 0 2 = none → exec (.layer2Cascade x) s = .next s) ∧
    ((s.snapCtx x).layer3 = none → (s.snapCtx x).plan ≠ [] → planTarget (s.snapCtx x).plan ≠ 0xFF → (s.snapCtx x).cascade 2 4 = some (src, dst) →
      (∀ t0, (s.snapCtx x).third = some t0 → s.fld Reg.SNAP_CFG Reg.SNAP_CFG_SHARED_PERIOD_S * 1000000000 ≤ (s.devTime - t0).toNat) →
      ∃ t k, exec (.layer3Cascade x) s = .next t ∧ (t.snapCtx x).layer3 = some k ∧ Begun s t x k src dst ∧
        (t.snapCtx x).third = some s.devTime) ∧
    (∀ t0, (s.snapCtx x).third = some t0 → (s.devTime - t0).toNat < s.fld Reg.SNAP_CFG Reg.SNAP_CFG_SHARED_PERIOD_S * 1000000000 →
      exec (.layer3Cascade x) s = .next s) ∧
    ((s.snapCtx x).cascade 2 4 = none → exec (.layer3Cascade x) s = .next s)) ∧
  (∀ (c : SnapCtx) (src dst : Nat), c.cascade 0 2 = some (src, dst) → src < 2 ∧ (dst = 2 ∨ dst = 3) ∧
    ∃ g, c.genOf src = some g ∧ (∀ m < 2, ∀ h, c.genOf m = some h → h ≤ g) ∧ ∀ m, m = 2 ∨ m = 3 → ∀ h, c.genOf m = some h → h < g) ∧
  (∀ (s : State) (x : Ctx) (k : Cascade), s.hamperHeld = false → (s.snapCtx x).layer2 = some k → k.dst = 2 ∨ k.dst = 3 →
    (k.left = 0 → k.fail = none → k.header.length = 64 → ∃ t, exec (.cascadeDone x 2 true) s = .next t ∧ (t.snapCtx x).layer2 = none ∧
      t.imageRead (s.snapCtx x).plan k.dst 0 64 = k.header ∧ Maps.get [] (t.snapCtx x).hdrs k.dst = k.header ∧
      t.fld (Reg.SNAP_CTX_GEN x) Reg.SNAP_CTX_GEN_GEN_L2 = (headerOf k.header).gen) ∧
    ∃ t, exec (.cascadeDone x 2 false) s = .next t ∧ (t.snapCtx x).layer2 = none ∧ (t.snapCtx x).hdrs = (s.snapCtx x).hdrs ∧ t.hamper = s.hamper) ∧
  (∀ (s : State) (x : Ctx) (t0 : Word), (s.snapCtx x).last = some t0 →
    ((s.devTime - t0).toNat < s.interval x * 1000000000 → exec (.snapshotDue x) s = .next s) ∧
    (s.interval x * 1000000000 ≤ (s.devTime - t0).toNat → s.fld (Reg.POLICY_SNAP_STATE x) Reg.POLICY_SNAP_STATE_DUE = 0 → exec (.snapshotDue x) s =
      .next ((s.setFld (Reg.POLICY_SNAP_STATE x) Reg.POLICY_SNAP_STATE_DUE 1).post (event 0x0007 (BitVec.ofNat 48 (s.interval x)) (some x)))) ∧
    (s.fld (Reg.POLICY_SNAP_STATE x) Reg.POLICY_SNAP_STATE_DUE = 1 → exec (.snapshotDue x) s = .next s)) ∧
  (∀ (s : State) (x : Ctx), (s.coresOf x ≠ [] → ∃ t, exec (.runSecond x) s = .next t ∧ (t.snapCtx x).runS = (s.snapCtx x).runS + 1 ∧
      ∀ y, y ≠ x → t.snapCtx y = s.snapCtx y) ∧ (s.coresOf x = [] → exec (.runSecond x) s = .next s)) ∧
  (∀ s : State, (s.fld Reg.ERR_STATUS Reg.ERR_STATUS_FAULTED = 1 → s.failsafe = false → s.fld Reg.ERR_DUMP_STATE Reg.ERR_DUMP_STATE_BUSY = 0 →
      s.dumpQ = [] → s.fld Reg.SNAP_CFG Reg.SNAP_CFG_SALVAGE_EN = 1 → s.hamperFenced = false → s.snap.salvage = false →
      ∃ t, exec .salvageEnter s = .next t ∧ t.snap.salvage = true ∧
        t.fld Reg.ERR_STATUS Reg.ERR_STATUS_SALVAGE = 1 ∧ ∀ m : ModuleId, m.val < 4 → Lightable { s with opt := { s.opt with shut := false } } m →
        lsm t m Reg.OPTIC_LSM_STATE_LASER_EN = 1) ∧
    (s.fld Reg.ERR_STATUS Reg.ERR_STATUS_FAULTED = 0 ∨ s.fld Reg.SNAP_CFG Reg.SNAP_CFG_SALVAGE_EN = 0 → exec .salvageEnter s = .next s)) ∧
  ∀ (s u : State) (p : Packet), Arrived s u p 4 0x35 → u.turnOf p = .now → p.payload.length = 16 → p.addr = 0 → leAt p.payload 0 1 ≤ 63 →
    leAt p.payload 1 1 ≤ 1 → leAt p.payload 2 2 = 0 → leAt p.payload 4 4 ≤ 8192 →
    (u.snap.salvage = false → exec (.salvage p) s = .next (replied u p .fenced [])) ∧
    (u.snap.salvage = true → p.agent ≠ agentRanger ∨ blockOf p.src ≠ blockOf u.self → exec (.salvage p) s = .next (replied u p .perm [])) ∧
    (u.snap.salvage = true → p.agent = agentRanger → blockOf p.src = blockOf u.self → u.hamperFenced = false →
      exec (.salvage p) s = .next (replied u p .ok (u.salvageRead p.payload)))

namespace Sys2Proof.Claims

/-! ### Boot, updates, presence -/

/-- Step `i` of the boot is in progress. -/
structure AtStep (s : State) (i : Nat) : Prop where
  awake : s.failsafe = false
  served : s.boot.rom = false
  running : i ∈ s.boot.running

/-- A request under presence: `src` may use the window, its button window is open, the seal is closed. -/
structure Present (s : State) (src : Sys2Proof.Source) : Prop where
  may : s.mayUse src = true
  window : s.fld Reg.PRES_STATE Reg.PRES_STATE_WINDOW = 2
  kind : s.fld Reg.PRES_STATE Reg.PRES_STATE_OWNER_KIND = (s.sourceKind src).1
  owner : s.fld Reg.PRES_STATE Reg.PRES_STATE_OWNER = (s.sourceKind src).2
  closed : s.fld Reg.PRES_STATE Reg.PRES_STATE_SEAL_OPEN = 0

/-- The last record of `t`'s Trail log is of type `typ`, and begins with these body bytes (R420, R421). -/
def Recorded (t : State) (typ : Nat) (body : List Byte) : Prop :=
  ∃ r, t.trail.getLast? = some r ∧ recType r.bytes = typ ∧ (recBody r.bytes).take body.length = body

end Sys2Proof.Claims

/-- R431, R432: leaving standby numbers the start and begins step 1; the bulk supply releases the other islands; the standby domain draws from
VBULK, VSTBY or nothing. R416, R417: a step that ends leaves its record; without a sound pair step 1 is fail-safe; step 8 clears SRAM and
trays; steps 9 to 13 run in parallel, then 14; step 15 sets SETUP_LOCK and DONE. R450: an adjacency that trains with agreeing manifests is
up; one that does not is recorded. -/
def Obligations.BootRunsItsSteps : Prop :=
  (∀ s : State, (s.boot.started = true → exec .standbyRelease s = .next s) ∧
    (s.boot.started = false → ∃ t, exec .standbyRelease s = .next t ∧ t.boot.started = true ∧ t.boot.running = s.boot.running ++ [1] ∧
      Recorded t 2 [1, 1] ∧ ∀ n, (∀ r ∈ s.trail, recStart r.bytes < n) → (n = 1 ∨ ∃ r ∈ s.trail, recStart r.bytes + 1 = n) → n < 2 ^ 32 →
        t.fld Reg.BOOT_STATE Reg.BOOT_STATE_START = n)) ∧
  (∀ s : State, (s.boot.bulk = true → exec .bulkRelease s = .next s) ∧
    (s.boot.bulk = false → ∃ t, exec .bulkRelease s = .next t ∧ t.boot.bulk = true ∧
      (∀ d < 6, t.fld (Reg.IDENT_DIE_STATE d) Reg.IDENT_DIE_STATE_STATE = 1) ∧
      (4 ∈ s.boot.ended → 5 ∉ s.boot.ended → s.boot.rom = false → s.boot.running = [] → s.failsafe = false →
        t.boot.running = [5] ∧ Recorded t 2 [5, 1]) ∧ (4 ∉ s.boot.ended → t.boot.running = s.boot.running))) ∧
  (∀ (s : State) (r : BootReport), (s.failsafe = true ∨ s.boot.rom = true ∨ r.step.val ∉ s.boot.running →
    exec (.bootStepDone r) s = .next s)) ∧
  (∀ (s : State) (u : List Nat) (l : List (BitVec 32)), AtStep s 1 → s.fld Reg.ERR_STATUS Reg.ERR_STATUS_PAIRS = 15 →
    (∃ t, exec (.bootStepDone ⟨1, false, u, l⟩) s = .next t ∧ t.failsafe = true) ∧
    ∃ t, exec (.bootStepDone ⟨1, true, [], l⟩) s = .next t ∧ t.failsafe = false ∧ 1 ∈ t.boot.ended ∧ 2 ∈ t.boot.running) ∧
  (∀ (s : State) (u : List Nat) (l : List (BitVec 32)), AtStep s 4 → ∃ t, exec (.bootStepDone ⟨4, true, u, l⟩) s = .next t ∧
    t.boot.ended = s.boot.ended ++ [4] ∧ t.boot.running = s.boot.running.filter (· ≠ 4) ++ (if s.boot.bulk then [5] else [])) ∧
  (∀ (s : State) (l : List (BitVec 32)), AtStep s 8 → ∃ t, exec (.bootStepDone ⟨8, true, [], l⟩) s = .next t ∧
    t.boot.running = s.boot.running.filter (· ≠ 8) ++ [9, 10, 11, 12, 13] ∧
    ∀ a, lpddrTop ≤ a → a < setupBase → s.altUnits 8 = [] → t.byte a = 0) ∧
  (∀ (s : State) (l : List (BitVec 32)), AtStep s 12 → (∀ j ∈ [9, 10, 11, 13], j ∈ s.boot.ended) →
    ∃ t, exec (.bootStepDone ⟨12, true, [], l⟩) s = .next t ∧ t.boot.running = s.boot.running.filter (· ≠ 12) ++ [14]) ∧
  (∀ (s : State) (u : List Nat) (l : List (BitVec 32)), AtStep s 15 → ∃ t, exec (.bootStepDone ⟨15, true, u, l⟩) s = .next t ∧ t.locked = true ∧
    t.fld Reg.BOOT_STATE Reg.BOOT_STATE_DONE = 1 ∧ t.fld Reg.BOOT_STATE Reg.BOOT_STATE_STEP = 15 ∧ s.fuses.floor ≤ t.fuses.floor) ∧
  (∀ (s : State) (a : Fin 8) (x y : List Byte), s.boot.bulk = true → (∀ e ∈ s.boot.adj, e.1 ≠ a.val) →
    (exec (.adjacencyUp a false x y) s = .next { s with boot := { s.boot with adj := s.boot.adj ++ [(a.val, 3)] } }) ∧
    (manifestOk x (adjDies a).1 = true → manifestOk y (adjDies a).2 = true → manifestsAgree x y = true →
      ∃ t, exec (.adjacencyUp a true x y) s = .next t ∧ t.boot.adj = s.boot.adj ++ [(a.val, 1)] ∧
        t.fld (Reg.IDENT_DIE_STATE (adjDies a).1) Reg.IDENT_DIE_STATE_NOC_VER = min (leAt x 0x0E 2) (leAt y 0x0E 2) ∧
        t.fld (Reg.IDENT_DIE_STATE (adjDies a).2) Reg.IDENT_DIE_STATE_CAPS = leAt x 0x10 4 &&& leAt y 0x10 4) ∧
    (manifestsAgree x y = false → ∃ t, exec (.adjacencyUp a true x y) s = .next t ∧ t.boot.adj = s.boot.adj ++ [(a.val, 2)])) ∧
  ∀ (s : State) (vb vs : Nat),
    let src := if 40000 ≤ vb then 1 else if 11400 ≤ vs ∧ vs ≤ 12600 then 2 else if 36000 ≤ vb then 1 else 0
    (src ≠ 0 ∨ s.boot.source = 0 → exec (.standbySourceChange vb vs) s = .next { s with boot := { s.boot with source := src } }) ∧
    (src = 0 → s.boot.source ≠ 0 → ∃ t, exec (.standbySourceChange vb vs) s = .next t ∧ t.boot.source = 0 ∧
      t = { s.deviceReset 1 with boot := { (s.deviceReset 1).boot with source := 0 } })

/-- R423: GO with LENGTH 0 gives FORMAT; data that pass their check are held in PHASE 2, others are refused with a record and PHASE 0. R424:
SWITCH is refused with FENCED while the other slot is not valid, else the image is checked and loaded in PHASE 4; then the new image leads, or
on a timeout reads STATE 3. R423: data written and read back end with OK. R435: UPD_CHECK keeps length and digest for 600 s, UPD_WRITE needs
them. -/
def Obligations.UpdatesAreCheckedAndWritten : Prop :=
  (∀ (s : State) (src : Source), s.mayUse src = true → s.updPhase = 0 →
    (∃ t, exec (.updateFirmware src 0) s = .next t ∧ t.updPhase = 0 ∧ t.fld Reg.BOOT_UPD_STATE Reg.BOOT_UPD_STATE_STATUS = Status.format.code ∧ t.nor = s.nor) ∧
    (∃ t, exec (.updateConfig src 0) s = .next t ∧ t.updPhase = 0 ∧ t.fld Reg.BOOT_UPD_STATE Reg.BOOT_UPD_STATE_STATUS = Status.format.code ∧ t.nor = s.nor) ∧
    (∃ t, exec (.updateCalibration src 0) s = .next t ∧ t.updPhase = 0 ∧ t.fld Reg.BOOT_UPD_STATE Reg.BOOT_UPD_STATE_STATUS = Status.format.code ∧
      t.nor = s.nor)) ∧
  (∀ (s : State) (src : Source) (len : BitVec 32) (o : Nat), s.mayUse src = true → s.updPhase = 0 → len ≠ 0 →
    s.locate false (s.reg Reg.BOOT_UPD_SRC).toNat len.toNat = .here o → s.Permits (s.me .ranger) .rd false o len.toNat → s.Clean .ranger o len.toNat →
    ∀ e ∈ ([(.updateFirmware, 0), (.updateConfig, 1), (.updateCalibration, 2)] : List ((Sys2Proof.Source → BitVec 32 → Instr) × Nat)),
      let c := s.updateCheck e.2 (s.bytes o len.toNat)
      (c.1 = .ok → ∃ t, exec (e.1 src len) s = .next t ∧ t.updPhase = 2 ∧ t.boot.upd = some ⟨e.2, c.2.1, c.2.2, s.bytes o len.toNat, false⟩ ∧
        t.nor = s.nor ∧ t.trail = s.trail) ∧
      (c.1 ≠ .ok → ∃ t, exec (e.1 src len) s = .next t ∧ t.updPhase = 0 ∧ t.boot.upd = none ∧ t.nor = s.nor ∧
        t.fld Reg.BOOT_UPD_STATE Reg.BOOT_UPD_STATE_STATUS = c.1.code ∧
        Recorded t 5 (leBytes 1 e.2 ++ leBytes 1 c.2.1 ++ leBytes 1 c.1.code ++ [0]))) ∧
  (∀ (s : State) (b : List Byte), s.imageCheck b = .ok → 256 ≤ b.length ∧ leAt b 0 4 = 0x52464D57 ∧ 256 + leAt b 0x10 4 = b.length ∧
    (s.fuses.floor ≤ leAt b 8 2 ∨ s.downgraded b = true) ∧
    ∃ k ∈ s.fuses.keys, k.1 = leAt b 10 1 ∧ k.1 ∉ s.fuses.revoked ∧ Config.verify k.2 b = true) ∧
  (∀ (s : State) (src : Source), s.mayUse src = true → s.updPhase = 0 →
    (s.fld (Reg.BOOT_IMG s.idleSlot) Reg.BOOT_IMG_STATE ≠ 1 → ∃ t, exec (.switch src) s = .next t ∧ t.updPhase = 0 ∧
      t.fld Reg.BOOT_UPD_STATE Reg.BOOT_UPD_STATE_STATUS = Status.fenced.code ∧ t = { s with setup := t.setup }) ∧
    (s.fld (Reg.BOOT_IMG s.idleSlot) Reg.BOOT_IMG_STATE = 1 → s.fld Reg.ERR_STATUS Reg.ERR_STATUS_PAIRS = 15 →
      s.fld Reg.ERR_RESET_STATE Reg.ERR_RESET_STATE_PHASE = 0 → s.stage < 3 → s.imageCheck (s.imageBytes s.idleSlot) = .ok →
      ∃ t, exec (.switch src) s = .next t ∧ t.updPhase = 4 ∧ t = { s with setup := t.setup })) ∧
  (∀ s : State, (s.updPhase ≠ 4 → exec .switchDone s = .next s ∧ exec .switchTimeout s = .next s) ∧
    (s.updPhase = 4 →
      (∃ t, exec .switchDone s = .next t ∧ t.runSlot = s.idleSlot ∧ t.updPhase = 0 ∧ t.fld Reg.BOOT_UPD_STATE Reg.BOOT_UPD_STATE_STATUS = 0 ∧
        t.fld Reg.BOOT_CFG Reg.BOOT_CFG_PREF = s.idleSlot) ∧
      ∃ t, exec .switchTimeout s = .next t ∧ t.runSlot = s.runSlot ∧ t.updPhase = 0 ∧
        t.fld (Reg.BOOT_IMG s.idleSlot) Reg.BOOT_IMG_STATE = 3 ∧ t.fld Reg.BOOT_UPD_STATE Reg.BOOT_UPD_STATE_STATUS = Status.timeout.code)) ∧
  (∀ (s : State) (u : Update), s.boot.upd = some u → u.target ≤ 1 →
    (u.data.length ≤ u.room → ∃ t, exec (.updateDone true) s = .next t ∧ t.boot.upd = none ∧ t.updPhase = 0 ∧
      t.norBytes u.base u.data.length = u.data ∧ (∀ o, o < u.base ∨ u.base + u.room ≤ o → t.norByte o = s.norByte o) ∧
      (u.kind = 0 → t.fld (Reg.BOOT_IMG u.target) Reg.BOOT_IMG_STATE = 1) ∧ t.fld Reg.BOOT_UPD_STATE Reg.BOOT_UPD_STATE_STATUS = 0) ∧
    ∃ t, exec (.updateDone false) s = .next t ∧ t.boot.upd = none ∧ t.updPhase = 0 ∧
      (u.kind = 0 → t.fld (Reg.BOOT_IMG u.target) Reg.BOOT_IMG_STATE = 2) ∧ (u.kind ≠ 0 → t.nor = s.nor)) ∧
  (∀ (s : State) (b : List Byte), (s.imageCheck b = .ok → exec (.updCheck b) s = .next
      ({ s with boot := { s.boot with checked := some (b.length, sha384 b) } }.emit (.mgmt (leBytes 1 0)))) ∧
    (s.imageCheck b ≠ .ok → exec (.updCheck b) s = .next (s.emit (.mgmt (leBytes 1 (s.imageCheck b).code))))) ∧
  (∀ s : State, exec .updCheckExpire s = .next { s with boot := { s.boot with checked := none } }) ∧
  ∀ (s : State) (b : List Byte), (s.updPhase ≠ 0 → ∀ k, exec (.updWrite k b) s = .next (s.emit (.mgmt (leBytes 1 Status.fenced.code)))) ∧
    (s.updPhase = 0 → s.boot.checked = some (b.length, sha384 b) → ∃ t, exec (.updWrite 0 b) s = .next t ∧ t.updPhase = 2 ∧
      t.boot.upd = some ⟨0, s.idleSlot, leAt b 4 4, b, true⟩) ∧
    (s.updPhase = 0 → s.boot.checked = none → ∃ t, exec (.updWrite 0 b) s = .next t ∧ t.boot.upd = s.boot.upd ∧ t.nor = s.nor ∧
      t.out = s.out ++ [.mgmt (leBytes 1 Status.format.code)])

/-- R425, R426: outside its limits a request gets FORMAT, with the seal open PERM; without a window it opens one that awaits a press; another
source's gets PERM; under its window, or a jumper that permits it, it runs, sets STATUS and appends a PRESENCE record. A press opens the
window for 300 s and runs the pending command; a window that closes refuses it. Fuses are only blown. R427: an open loop sets SEAL_OPEN,
appends a SEAL record and closes the window. R435: the management port reads the log and asks for commands. -/
def Obligations.PresenceGuardsTrust : Prop :=
  (∀ e ∈ ([(.keyInstall, 1), (.keyRevoke, 2), (.debugUnlock, 3), (.downgrade, 4), (.fuseProgram, 5), (.factoryReset, 6), (.sealClear, 7)] :
    List ((Sys2Proof.Source → Bool → List Byte → Instr) × Nat)), ∀ (s : State) (src : Source) (pm : Bool) (a : List Byte), s.mayUse src = true →
    (argOk e.2 a = false → ∃ t, exec (e.1 src pm a) s = .next t ∧ t.fuses = s.fuses ∧
      t.fld Reg.PRES_STATE Reg.PRES_STATE_STATUS = Status.format.code ∧ Recorded t 6 (leBytes 1 e.2)) ∧
    (argOk e.2 a = true → s.fld Reg.PRES_STATE Reg.PRES_STATE_SEAL_OPEN = 1 → e.2 ≠ 7 → ∃ t, exec (e.1 src pm a) s = .next t ∧
      t.fuses = s.fuses ∧ t.boot.debug = s.boot.debug ∧ t.fld Reg.PRES_STATE Reg.PRES_STATE_STATUS = Status.perm.code) ∧
    (argOk e.2 a = true → s.fld Reg.PRES_STATE Reg.PRES_STATE_SEAL_OPEN = 0 → pm = false ∨ byJumper e.2 = false →
      (s.fld Reg.PRES_STATE Reg.PRES_STATE_WINDOW = 0 → ∃ t, exec (e.1 src pm a) s = .next t ∧ t.fuses = s.fuses ∧ t.boot.arg = a ∧
        t.fld Reg.PRES_STATE Reg.PRES_STATE_WINDOW = 1 ∧ t.fld Reg.PRES_STATE Reg.PRES_STATE_PENDING = e.2 ∧
        t.fld Reg.PRES_STATE Reg.PRES_STATE_OWNER_KIND = (s.sourceKind src).1 ∧ t.fld Reg.PRES_STATE Reg.PRES_STATE_OWNER = (s.sourceKind src).2 ∧
        t.trail = s.trail) ∧
      (s.fld Reg.PRES_STATE Reg.PRES_STATE_WINDOW ≠ 0 → s.fld Reg.PRES_STATE Reg.PRES_STATE_OWNER_KIND ≠ (s.sourceKind src).1 →
        ∃ t, exec (e.1 src pm a) s = .next t ∧ t.fuses = s.fuses ∧ t.fld Reg.PRES_STATE Reg.PRES_STATE_STATUS = Status.perm.code))) ∧
  (∀ (s : State) (src : Source) (a : List Byte), Present s src →
    (argOk 1 a = true →
      ((∀ k ∈ s.fuses.keys, k.1 ≠ leAt a 0 1) → ∃ t, exec (.keyInstall src false a) s = .next t ∧
        t.fuses = { s.fuses with keys := s.fuses.keys ++ [(leAt a 0 1, (a.drop 1).take 48)] } ∧ t.fld Reg.PRES_STATE Reg.PRES_STATE_STATUS = 0) ∧
      ((∃ k ∈ s.fuses.keys, k.1 = leAt a 0 1) → ∃ t, exec (.keyInstall src false a) s = .next t ∧ t.fuses = s.fuses ∧
        t.fld Reg.PRES_STATE Reg.PRES_STATE_STATUS = Status.perm.code)) ∧
    (argOk 2 a = true → leAt (s.norBytes (slotBase s.runSlot) 256) 10 1 ≠ leAt a 0 1 → ∃ t, exec (.keyRevoke src false a) s = .next t ∧
      leAt a 0 1 ∈ t.fuses.revoked ∧ t.fld Reg.PRES_STATE Reg.PRES_STATE_STATUS = 0) ∧
    (argOk 2 a = true → leAt (s.norBytes (slotBase s.runSlot) 256) 10 1 = leAt a 0 1 → ∃ t, exec (.keyRevoke src false a) s = .next t ∧
      t.fuses = s.fuses ∧ t.fld Reg.PRES_STATE Reg.PRES_STATE_STATUS = Status.perm.code) ∧
    (argOk 5 a = true → ∃ t, exec (.fuseProgram src false a) s = .next t ∧
      t.fuses = { s.fuses with owner := s.fuses.owner ||| BitVec.ofNat 256 (leNat (a.take 32)) } ∧ t.fld Reg.PRES_STATE Reg.PRES_STATE_STATUS = 0) ∧
    (argOk 7 a = true → s.boot.loopOpen = false → ∃ t, exec (.sealClear src false a) s = .next t ∧
      t.fld Reg.PRES_STATE Reg.PRES_STATE_SEAL_OPEN = 0 ∧ t.fld Reg.PRES_STATE Reg.PRES_STATE_STATUS = 0) ∧
    (argOk 6 a = true → ∃ u : State, u = { s with boot := { s.boot with permit := false }, setup := u.setup } ∧
      exec (.factoryReset src false a) s =
        .next ({ u.norErase 0x8000000 0x20000 with trail := [], trailNext := 0, trailSeq := 0, hamper := [] }.deviceReset 3))) ∧
  (∀ (s : State) (src : Source) (a : List Byte), s.mayUse src = true → s.fld Reg.PRES_STATE Reg.PRES_STATE_SEAL_OPEN = 0 →
    (argOk 3 a = true → ∃ t, exec (.debugUnlock src true a) s = .next t ∧ t.boot.debug = true ∧ t.fld Reg.PRES_STATE Reg.PRES_STATE_STATUS = 0 ∧
      Recorded t 6 [3]) ∧
    (argOk 4 a = true → ∃ t, exec (.downgrade src true a) s = .next t ∧ t.fuses = s.fuses ∧ t.fld Reg.PRES_STATE Reg.PRES_STATE_STATUS = 0 ∧
      Recorded t 6 [4] ∧ ∃ r, t.trail.getLast? = some r ∧ (r.bytes.drop 0x30).take 48 = a.take 48)) ∧
  (∀ s : State, (s.fld Reg.PRES_STATE Reg.PRES_STATE_WINDOW ≠ 1 → exec .presencePress s = .next s) ∧
    (s.fld Reg.PRES_STATE Reg.PRES_STATE_WINDOW = 1 → s.fld Reg.PRES_STATE Reg.PRES_STATE_PENDING = 5 → ∃ t, exec .presencePress s = .next t ∧
      t.fld Reg.PRES_STATE Reg.PRES_STATE_WINDOW = 2 ∧ t.fld Reg.PRES_STATE Reg.PRES_STATE_PENDING = 0 ∧ t.boot.winEnd = s.devTime + 300000000000 ∧
      t.fuses.owner = s.fuses.owner ||| BitVec.ofNat 256 (leNat (s.boot.arg.take 32))) ∧
    (s.fld Reg.PRES_STATE Reg.PRES_STATE_WINDOW = 1 → ∃ t, exec .presenceWindowExpire s = .next t ∧ t.fuses = s.fuses ∧
      t.fld Reg.PRES_STATE Reg.PRES_STATE_WINDOW = 0 ∧ t.fld Reg.PRES_STATE Reg.PRES_STATE_PENDING = 0 ∧
      t.fld Reg.PRES_STATE Reg.PRES_STATE_STATUS = Status.perm.code)) ∧
  (∀ s : State, s.fld Reg.PRES_STATE Reg.PRES_STATE_SEAL_OPEN = 0 →
    exec (.sealSample false) s = .next { s with boot := { s.boot with loopOpen := false } } ∧
    ∃ t, exec (.sealSample true) s = .next t ∧ t.fld Reg.PRES_STATE Reg.PRES_STATE_SEAL_OPEN = 1 ∧ t.boot.loopOpen = true ∧
      t.fld Reg.PRES_STATE Reg.PRES_STATE_WINDOW = 0 ∧ t.fuses = s.fuses ∧
      (s.fld Reg.PRES_STATE Reg.PRES_STATE_WINDOW = 0 → Recorded t 7 [1])) ∧
  (∀ (s : State) (i : BitVec 32), (∀ r, s.trail[i.toNat]? = some r → exec (.mgmtTrail i) s =
      .next { s with out := s.out ++ [.mgmt ([0] ++ padTo 256 r.bytes)] }) ∧
    (s.trail.length ≤ i.toNat → exec (.mgmtTrail i) s =
      .next { s with out := s.out ++ [.mgmt (leBytes 1 Status.bound.code ++ List.replicate 256 0)] })) ∧
  ∀ (s : State) (code : Byte) (pm : Bool) (a : List Byte), (s.boot.rom = true → exec (.mgmtPresence code pm a) s = .next s) ∧
    (s.boot.rom = false → argOk code.toNat a = false → ∃ t, exec (.mgmtPresence code pm a) s = .next t ∧ t.fuses = s.fuses ∧
      t.out = s.out ++ [.mgmt (leBytes 1 Status.format.code)] ∧ Recorded t 6 [code, 1]) ∧
    (s.boot.rom = false → argOk code.toNat a = true → s.fld Reg.PRES_STATE Reg.PRES_STATE_SEAL_OPEN = 0 → pm = false →
      s.fld Reg.PRES_STATE Reg.PRES_STATE_WINDOW = 0 → ∃ t, exec (.mgmtPresence code pm a) s = .next t ∧ t.fuses = s.fuses ∧
        t.fld Reg.PRES_STATE Reg.PRES_STATE_WINDOW = 1 ∧ t.fld Reg.PRES_STATE Reg.PRES_STATE_PENDING = code.toNat ∧
        t.fld Reg.PRES_STATE Reg.PRES_STATE_OWNER_KIND = 1)

namespace Sys2Proof.Claims

/-! ### The whole device -/

end Sys2Proof.Claims

/-- A step takes the command at the front of the queue and runs it with the queue's rest. With no command waiting device time goes on, by
0, 1 or 2 ns (log entry 13), and at most one thing goes wrong by itself: a memory cell, a column, a bit of a loop-back (log entry 79). No word spells a command, since the opcode table gives its rows no bits. -/
def Obligations.StepRunsTheFrontCommand : Prop :=
  (∀ (c : Instr) (rest : List Instr) (s : State), step { s with pending := c :: rest } = exec c { s with pending := rest }) ∧
  (∀ s : State, s.pending = [] → ∃ d : BitVec 64, d.toNat ≤ 2 ∧ ∃ t u : State, step s = .next t ∧ t.devTime = s.devTime + d ∧
    t.pending = [] ∧
    u = { s with devTime := t.devTime, slew := u.slew, front := { s.front with slewAge := u.front.slewAge }, freeCtr := u.freeCtr } ∧
    (t = u ∨ (∃ o b, o % 64 = 0 ∧ t = { u with ecc := Maps.set u.ecc o b }) ∨
      (∃ k : CoreId, Fenced (s.core k) (t.core k) ∧ t = (u.fenceDomain 0 k.val false).post (event 0x0100 (BitVec.ofNat 48 k.val) none)) ∨
      ∃ p < 104, u.fld (Reg.MEM_CH_LB p) Reg.MEM_CH_LB_MODE ≠ 0 ∧ t = u.bump (Reg.MEM_CH_LB p) Reg.MEM_CH_LB_ERRORS)) ∧
  ∀ (s : State) (n w : Nat), decodeTableWord n w = none ∧ s.withFetchWord n w = s

/-- Every command, with every operand, in every sound state, is carried out, and leaves the queue of commands as it is. -/
def Obligations.EveryCommandCompletesAndLeavesTheQueue : Prop :=
  ∀ (c : Instr) (s : State), s.Sound → ∃ t, exec c s = .next t ∧ t.pending = s.pending

/-- Memory and the setup window are canonical tables in every state that a step leads to from a sound one, and a step always leads to one. -/
def Obligations.StepsKeepTheTablesCanonical : Prop :=
  ∀ s : State, s.Sound → ∃ t, step s = .next t ∧ t.Sound

/-- R414, R425: fuses are only blown. A key slot that holds a digest holds it for ever, a revoked slot stays revoked, the SVN floor never falls
and an owner bit once set stays set, whatever step is taken, device resets and FACTORY_RESET included. -/
def Obligations.FusesAreOnlyBlown : Prop :=
  ∀ s t : State, s.Sound → step s = .next t → s.fuses.Kept t.fuses

/-- Reset is sound: its tables are canonical. -/
def Sys2Proof.Claims.ResetIsSound : Prop :=
  State.reset.Sound

/-- R445: after reset every field of every register reads its Reset column, the module's serial number apart;
the values of the setup table that the spec leaves to the boot read 0. What R445 gives no value to holds the value of log entries 2 and 3: every
core is idle, its registers and memory read 0 and p0 reads 1. -/
def Sys2Proof.Claims.ResetLoadsTheResetColumn : Prop :=
  (∀ (off : Nat) (r : RegName) (is : List Nat), regAt off = some (r, is) → r ≠ .IDENT_SERIAL →
    ∀ f ∈ r.fieldsAt is, State.reset.fld off f.fld = f.reset) ∧
  (∀ off, regAt off = none → State.reset.reg off = 0) ∧
  (∀ k : CoreId, (State.reset.core k).run = .idle ∧ (State.reset.core k).trapActive = false ∧ (State.reset.core k).queue = [] ∧
    (∀ r, (State.reset.core k).greg r = 0) ∧ ∀ p, (State.reset.core k).preg p = decide (p = 0)) ∧
  (∀ a, State.reset.byte a = 0) ∧ State.reset.pending = [] ∧ State.reset.descs = [] ∧ State.reset.groups = []

/-- R1: IDENT_SILICON_REV reads 0x00A1 after every device reset, and an 8-byte write to it leaves it. -/
def Obligations.SiliconRevisionReadsA1 : Prop :=
  State.reset.setupWord 0x10 = 0x00A1 ∧ (∀ (s : State) (cause : Nat), (s.deviceReset cause).setupWord 0x10 = 0x00A1) ∧
  ∀ (s : State) (src : Source) (v : Word), s.mayUse src = true → ∃ t, exec (.setupWrite src 8 0x10 v) s = .next t ∧
    t.setupWord 0x10 = s.setupWord 0x10

/-- R7, R443: registers are aligned. A read of 8 bytes returns a register's word, one of 4 bytes a half of it; a write of 4 bytes changes
one half by its fields' access types and leaves the other. Any other size or alignment reads zero or writes nothing, and posts the INFO
event. An offset without a register reads as zero, ignores writes and posts nothing. -/
def Obligations.RegistersAreReachedWholeOrByHalves : Prop :=
  (∀ (off : Nat) (r : RegName) (is : List Nat), regAt off = some (r, is) → off % 8 = 0) ∧
  (∀ (s : State) (off : Nat), off % 8 = 0 → s.setupRead 8 off = (s.setupWord off, s) ∧
    s.setupRead 4 off = (((s.setupWord off).setWidth 32).setWidth 64, s) ∧ s.setupRead 4 (off + 4) = (s.setupWord off >>> 32, s)) ∧
  (∀ (s : State) (src : Source) (off : BitVec 24) (h : Nat) (v : Word) (r : RegName) (is : List Nat), s.mayUse src = true → off.toNat % 8 = 0 →
    h < 2 → regAt off.toNat = some (r, is) → r ∉ subjectRegs →
    ∃ t, exec (.setupWrite src 4 (off + BitVec.ofNat 24 (4 * h)) v) s = .next t ∧ t = { s with setup := t.setup } ∧
      (∀ f ∈ r.fieldsAt is, ∀ b, f.fld.lo ≤ b → b ≤ f.fld.hi → (t.reg off.toNat).getLsbD b =
        if b / 32 = h then bitAfter f.acc s.locked (s.unitOn r is) ((s.reg off.toNat).getLsbD b) (v.getLsbD (b - 32 * h))
        else (s.reg off.toNat).getLsbD b) ∧
      (∀ b < 64, (∀ f ∈ r.fieldsAt is, ¬(f.fld.lo ≤ b ∧ b ≤ f.fld.hi)) → (t.reg off.toNat).getLsbD b = (s.reg off.toNat).getLsbD b) ∧
      ∀ o, o ≠ off.toNat → (o = Reg.IDENT_LOCK → s.locked = false) → t.reg o = s.reg o) ∧
  (∀ (s : State) (size off : Nat), ¬(size = 8 ∧ off % 8 = 0) → ¬(size = 4 ∧ off % 4 = 0) →
    s.setupRead size off = (0, s.post (event 0x0001 (BitVec.ofNat 48 off) none))) ∧
  (∀ (s : State) (src : Source) (size : Nat) (off : BitVec 24) (v : Word), s.mayUse src = true → ¬(size = 8 ∧ off.toNat % 8 = 0) →
    ¬(size = 4 ∧ off.toNat % 4 = 0) → exec (.setupWrite src size off v) s = .next (s.post (event 0x0001 (BitVec.ofNat 48 off.toNat) none))) ∧
  ∀ (s : State) (src : Source) (size : Nat) (off : BitVec 24) (v : Word), s.mayUse src = true → regAt (off.toNat / 8 * 8) = none →
    size = 8 ∧ off.toNat % 8 = 0 ∨ size = 4 ∧ off.toNat % 4 = 0 →
    s.setupRead size off.toNat = (0, s) ∧ exec (.setupWrite src size off v) s = .next s

/-- R69: every integer operation of two registers writes its 64-bit result to rd and goes on, and changes nothing else. R69: the same
operations of a register and the sign-extended imm32; INSH puts imm32 above the low half of rs1. -/
def Obligations.IntegerArithmeticResults : Prop :=
  Sys2Proof.Claims.IntegerRegisterResults ∧ Sys2Proof.Claims.IntegerImmediateResults

/-- R70: an FP32 operation reads bits [31:0] of its registers, writes its result with bits [63:32] zero, and adds its flags to the sticky
ones; nothing else changes. The FP32 compares write pd, the conversions rd; both add their flags to the sticky ones, and nothing else
changes. R71: FCMPLT and FCMPLE set NV when either operand is NaN, FCMPEQ and FCMPUN set no flag, FMIN, FMAX, FABS and FNEG set no flag,
CVT.F2I and CVT.F2IN set NV alone for a NaN and give 0, and FFMA of a zero and an infinity sets NV and gives the canonical NaN whatever
the addend. -/
def Obligations.FloatResults : Prop :=
  Sys2Proof.Claims.FloatArithmeticResults ∧ Sys2Proof.Claims.FloatCompareAndConvertResults ∧ Sys2Proof.Claims.FloatFlagsOfSpecialValues

/-- R67: a word with a reserved field or a reserved value takes ILLEGAL whatever its guard. With SYS_TVEC enabled and no trap active, the core
is in its handler with FORMAT, the word as SYS_BADADDR, and SYS_EPC at the word itself. R67: a legal word whose guard reads 0, inverted by
PNEG, only goes on: no effect and no trap. NOP and both kinds of FENCE go on with no other effect (one core in order: R68, R75). -/
def Obligations.IllegalGuardedOffAndNopWords : Prop :=
  Sys2Proof.Claims.IllegalWordTakesIllegalTrap ∧ Sys2Proof.Claims.GuardedOffWordHasNoEffect ∧ Sys2Proof.Claims.NopAndFencesOnlyGoOn

/-- R72: an aligned load of the own device, of memory that answers, writes its little-endian value to rd, sign-extended with SEXT, and changes
nothing else; a load from a doorbell page reads the ring's number and producer index (R200). R72: an aligned store to the own device, of
memory that answers, stores the low bytes of rs at its address, and changes nothing else but the core's pc and what the device keeps about
that memory. R76, R294: an 8-byte atomic of the own device performs its read-modify-write in one step: the new value is stored, rd
receives the old one, pd becomes 1; AFADD does so for 4 bytes with the FP32 sum of R33, ACAS2 for 16 bytes with register pairs. -/
def Obligations.LocalMemoryAccessResults : Prop :=
  Sys2Proof.Claims.LocalLoadResults ∧ Sys2Proof.Claims.LocalStoreResults ∧ Sys2Proof.Claims.LocalAtomicResults

/-- R77: WAITV ends with p7 = 1 when the 8 bytes differ from rd, with p7 = 0 when they do not and the count is zero, and waits otherwise; a
read in the wait ends it with p7 = 1 once the bytes differ and changes nothing before; the count's end gives p7 = 0. R86: BWAIT goes on
when no more than imm12 broad instructions are queued or executing, and waits otherwise. R82: HALT begins to wait. HALT_DONE, with every
broad instruction retired, every access performed, no fault pending and no broad write failed, halts the core and completes the launch
descriptor with OK, its cycle count a free value (log entry 5); with a fault pending it delivers the oldest as a trap of the HALT. -/
def Obligations.WaitsOfScalarCode : Prop :=
  Sys2Proof.Claims.WaitvWaitsForChange ∧ Sys2Proof.Claims.BwaitCountsOutstanding ∧ Sys2Proof.Claims.HaltWaitsThenCompletesLaunch

/-- R85: the oldest instruction, once it has finished with OK, leaves the queue and its pause cycles are counted; one that finished with
another status discards the instructions that have not started, SYS_BDISCARD counts them, and BROAD_FAULT arrives with its status and its
address. R125, R142: on an otherwise empty sequencer, BROAD_START of a FARINV ends it with OK and drops the far-read lines that overlap
its range, or all of them, and keeps loads in flight from filling them; nothing else changes. R122, R124: the time limit of a CWAIT and of
a SYNC ends it with TIMEOUT, the SYNC's arrival withdrawn. -/
def Obligations.BroadInstructionsStartAndRetire : Prop :=
  Sys2Proof.Claims.BroadInstructionsRetireInOrder ∧ Sys2Proof.Claims.BroadStartAndTimeouts

/-- R175, R176: the patrol scrub acts on what it finds as a read would: nothing on a clean unit; a correctable error is corrected and, in
LPDDR6, counted; an uncorrectable one of a raw unit sets POISON and, in LPDDR6, is counted; nothing else changes. R175: a read of a range
with a poisoned unit, or an uncorrectable one, gives no bytes; the uncorrectable unit becomes poisoned; a write of a whole poisoned unit
stores its data and clears POISON; a shorter write to it completes with POISON and changes nothing. -/
def Obligations.PoisonAndScrub : Prop :=
  Sys2Proof.Claims.PatrolScrubActsAsRead ∧ Sys2Proof.Claims.PoisonBlocksReadsUntilWholeUnitWritten

/-- R186: dt ns after its last refill, the half-bucket of a context on an edge die, counted in half bytes, has gained half its rate and holds
at most half its depth, and what waited on it may test again; nothing else changes. R187: of a package at level 0, a readout sets level 0,
1 or 2 by the thresholds it reaches, and the level throttles its channels; the register holds the readout. -/
def Obligations.RegulatorsAndPackageTemperature : Prop :=
  Sys2Proof.Claims.RegulatorRefillsHalfBucket ∧ Sys2Proof.Claims.PackageTemperatureSetsLevel

/-- R185, R183, R382: a channel that fails in service, or that its reset row names, is fenced and counted while a spare of some edge die is
free; the recalibrated spare takes its place in MEM_CHMAP, the lowest free one of its own die before the other's; the written spare
serves, its units zero and poisoned, its record appended and CHANNEL_SPARED posted. R193: a write to MODE clears ERRORS, sets MODE in
states 1, 2, 4 and 5, and leaves MODE reading 0 in any other state; a channel that runs loop-back is noted: it serves again only after the
next start has trained it. -/
def Obligations.ChannelsAreSparedAndLoopedBack : Prop :=
  Sys2Proof.Claims.FailedChannelIsSpared ∧ Sys2Proof.Claims.LoopbackModeFollowsChannelState

/-- R149, R126: at the next boundary the shadow step-table bank of a load that asked for a flip becomes active and the old one its unaccepted
shadow, and the load completes with OK; a TBLSEL whose shadow bank is accepted does the same, and one whose bank is not accepted is
refused with TABLE_REJECTED and no flip. R130: a validated load counts a generation and is accepted, and one that fails is refused. R158,
R171: a slot table that passes its check is accepted in the slot's shadow bank, with its owner, and counts a generation; one that fails
leaves the bank as it was; either way the slot is no longer loading. -/
def Obligations.TablesOfACoreAreAcceptedOrRefused : Prop :=
  Sys2Proof.Claims.StepTableBanksFlipWhenAccepted ∧ Sys2Proof.Claims.SlotTablesAreAcceptedOrRefused

/-- R248: with AUTO set a pair that needs a spare, and has none, requests the first free one on another engine, or else the first free one;
with none free nothing happens; a failed, a crossed, a dark and a training pair need one, a quiesced one does not; on release the pair is
in service again and the spare's fields clear but PIN. R249: QUIESCE is refused when it would cut a peer off, unless FORCE is set;
accepted, the engine reads 3, its calibration pass ends and its pairs read 3; an engine without power only keeps the bit; once drained it
reads 4, LASER_EN is low and its socket is unpowered. R250: bring-up reads the part: an empty socket reads 0, a wrong part 6, the right
one 1 with its pairs training and every ring to be swept; at its end the engine reads 2, no sweep is left, and a pair without light reads
0. -/
def Obligations.EnginesAndTheirSpareFibers : Prop :=
  Sys2Proof.Claims.SpareFibersAreRequestedAndReleased ∧ Sys2Proof.Claims.EnginesAreQuiescedAndBroughtUp

/-- Reset is sound: its tables are canonical. R445: after reset every field of every register reads its Reset column, the module's serial
number apart; the values of the setup table that the spec leaves to the boot read 0. What R445 gives no value to holds the value of log
entries 2 and 3: every core is idle, its registers and memory read 0 and p0 reads 1. -/
def Obligations.ResetIsSoundAndLoadsTheResetColumn : Prop :=
  Sys2Proof.Claims.ResetIsSound ∧ Sys2Proof.Claims.ResetLoadsTheResetColumn
end

