-- ==== Sys2Proof/Laws/Maps.lean ====
section
/-! SUPPORT. Laws of sparse tables: reads after writes, and the canonical form that every operation keeps. -/
namespace Sys2Proof.Maps

set_option Elab.async false

variable {β : Type}

/-- Entries that rise from `lo` rise from any lower bound. -/
theorem rising_mono {lo lo' : Nat} {m : List (Nat × β)} (h : lo' ≤ lo) (hm : rising lo m = true) : rising lo' m = true := by
  cases m with
  | nil => rfl
  | cons e m =>
    simp only [rising, Bool.and_eq_true, decide_eq_true_eq] at hm ⊢
    exact ⟨by omega, hm.2⟩

/-- A filtered table still rises. -/
theorem rising_filter (p : Nat × β → Bool) (m : List (Nat × β)) : ∀ lo : Nat, rising lo m = true → rising lo (m.filter p) = true := by
  induction m with
  | nil => intro lo h; exact h
  | cons e m ih =>
    intro lo h
    simp only [rising, Bool.and_eq_true, decide_eq_true_eq] at h
    by_cases hp : p e = true
    · simp only [List.filter_cons_of_pos hp, rising, Bool.and_eq_true, decide_eq_true_eq]
      exact ⟨h.1, ih _ h.2⟩
    · rw [List.filter_cons_of_neg hp]
      exact rising_mono (by omega) (ih _ h.2)

/-- Placing an unlisted key keeps the order. -/
theorem rising_place (k : Nat) (v : β) (m : List (Nat × β)) :
    ∀ lo : Nat, lo ≤ k → (∀ e ∈ m, e.1 ≠ k) → rising lo m = true → rising lo (place k v m) = true := by
  induction m with
  | nil => intro lo h _ _; simp [place, rising, h]
  | cons e m ih =>
    intro lo hk hm h
    simp only [rising, Bool.and_eq_true, decide_eq_true_eq] at h
    have he : e.1 ≠ k := hm e (by simp)
    by_cases hlt : k < e.1
    · simp only [place, hlt, if_true, rising, Bool.and_eq_true, decide_eq_true_eq]
      exact ⟨hk, by omega, h.2⟩
    · simp only [place, hlt, if_false, rising, Bool.and_eq_true, decide_eq_true_eq]
      exact ⟨h.1, ih _ (by omega) (fun x hx => hm x (by simp [hx])) h.2⟩

/-- What is in a table after a key is placed. -/
theorem mem_place (k : Nat) (v : β) (m : List (Nat × β)) (x : Nat × β) (h : x ∈ place k v m) : x = (k, v) ∨ x ∈ m := by
  induction m with
  | nil => simp [place] at h; exact Or.inl h
  | cons e m ih =>
    by_cases hlt : k < e.1
    · simp only [place, hlt, if_true, List.mem_cons] at h ⊢
      exact h
    · simp only [place, hlt, if_false, List.mem_cons] at h ⊢
      rcases h with h | h
      · exact Or.inr (Or.inl h)
      · rcases ih h with h | h
        · exact Or.inl h
        · exact Or.inr (Or.inr h)

/-- Reading an erased table. -/
theorem get_erase (d : β) (m : List (Nat × β)) (k a : Nat) : get d (erase m k) a = if a = k then d else get d m a := by
  induction m with
  | nil => simp [erase, get]
  | cons e m ih =>
    unfold erase at ih ⊢
    by_cases hk : e.1 = k
    · rw [List.filter_cons_of_neg (by simp [hk]), ih]
      by_cases ha : a = k
      · simp [ha]
      · have : ¬ e.1 = a := by omega
        simp [ha, get, this]
    · rw [List.filter_cons_of_pos (by simp [hk])]
      simp only [get]
      by_cases hea : e.1 = a
      · have : ¬ a = k := by omega
        simp [hea, this]
      · simp only [hea, if_false]; exact ih

/-- Reading a table after a key was placed among others. -/
theorem get_place (d : β) (k : Nat) (v : β) (m : List (Nat × β)) (hm : ∀ e ∈ m, e.1 ≠ k) (a : Nat) :
    get d (place k v m) a = if a = k then v else get d m a := by
  induction m with
  | nil => simp only [place, get]; by_cases h : k = a <;> simp [h, eq_comm]
  | cons e m ih =>
    have he : e.1 ≠ k := hm e (by simp)
    by_cases hlt : k < e.1
    · simp only [place, hlt, if_true, get]
      by_cases h : k = a
      · simp [h]
      · simp [h, eq_comm]
    · simp only [place, hlt, if_false, get]
      by_cases hea : e.1 = a
      · have : ¬ a = k := by omega
        simp [hea, this]
      · simp only [hea, if_false]; exact ih (fun x hx => hm x (by simp [hx]))

variable [DecidableEq β]

/-- A filtered table is canonical when the table is. -/
theorem wf_filter (d : β) (p : Nat × β → Bool) (m : List (Nat × β)) (h : wf d m = true) : wf d (m.filter p) = true := by
  simp only [wf, Bool.and_eq_true, List.all_eq_true] at h ⊢
  exact ⟨rising_filter p m 0 h.1, fun e he => h.2 e (List.mem_filter.mp he).1⟩

/-- Removing a key keeps the canonical form. -/
theorem wf_erase (d : β) (m : List (Nat × β)) (k : Nat) (h : wf d m = true) : wf d (erase m k) = true := wf_filter d _ m h

/-- Clearing a range keeps the canonical form. -/
theorem wf_clear (d : β) (m : List (Nat × β)) (lo hi : Nat) (h : wf d m = true) : wf d (clear m lo hi) = true := wf_filter d _ m h

/-- Writing a key keeps the canonical form. -/
theorem wf_put (d : β) (m : List (Nat × β)) (k : Nat) (v : β) (h : wf d m = true) : wf d (put d m k v) = true := by
  unfold put
  split
  · exact wf_erase d m k h
  · rename_i hv
    have he := wf_erase d m k h
    simp only [wf, Bool.and_eq_true, List.all_eq_true] at he ⊢
    refine ⟨rising_place k v _ 0 (by omega) (fun e hm => ?_) he.1, fun x hx => ?_⟩
    · simpa using (List.mem_filter.mp hm).2
    · rcases mem_place k v _ x hx with rfl | hx
      · simpa using hv
      · exact he.2 x hx

/-- A read after a write: the value written at its key, what was there at every other. -/
theorem get_put (d : β) (m : List (Nat × β)) (k : Nat) (v : β) (a : Nat) :
    get d (put d m k v) a = if a = k then v else get d m a := by
  unfold put
  split
  · rename_i hv; rw [get_erase, hv]
  · unfold set
    rw [get_place d k v _ (fun e he => by simpa using (List.mem_filter.mp he).2), get_erase]
    by_cases h : a = k <;> simp [h]

end Sys2Proof.Maps
end

