-- ==== Sys2Proof/Laws/State.lean ====
section
/-! SUPPORT. The fields of a state after each named update, and what registers and cores read after one. -/
namespace Sys2Proof.Machine

set_option Elab.async false

@[simp] theorem State.setReg_pending (s : State) (off : Nat) (v : Word) : (s.setReg off v).pending = s.pending := rfl
@[simp] theorem State.setReg_cores (s : State) (off : Nat) (v : Word) : (s.setReg off v).cores = s.cores := rfl
@[simp] theorem State.setReg_barriers (s : State) (off : Nat) (v : Word) : (s.setReg off v).barriers = s.barriers := rfl
@[simp] theorem State.setReg_fencedClusters (s : State) (off : Nat) (v : Word) : (s.setReg off v).fencedClusters = s.fencedClusters := rfl
@[simp] theorem State.setReg_mem (s : State) (off : Nat) (v : Word) : (s.setReg off v).mem = s.mem := rfl
@[simp] theorem State.setReg_poison (s : State) (off : Nat) (v : Word) : (s.setReg off v).poison = s.poison := rfl
@[simp] theorem State.setReg_ecc (s : State) (off : Nat) (v : Word) : (s.setReg off v).ecc = s.ecc := rfl
@[simp] theorem State.setReg_cfmt (s : State) (off : Nat) (v : Word) : (s.setReg off v).cfmt = s.cfmt := rfl
@[simp] theorem State.setReg_dirtyActive (s : State) (off : Nat) (v : Word) : (s.setReg off v).dirtyActive = s.dirtyActive := rfl
@[simp] theorem State.setReg_dirtyFrozen (s : State) (off : Nat) (v : Word) : (s.setReg off v).dirtyFrozen = s.dirtyFrozen := rfl
@[simp] theorem State.setReg_dirtyAt (s : State) (off : Nat) (v : Word) : (s.setReg off v).dirtyAt = s.dirtyAt := rfl
@[simp] theorem State.setReg_buckets (s : State) (off : Nat) (v : Word) : (s.setReg off v).buckets = s.buckets := rfl
@[simp] theorem State.setReg_regWait (s : State) (off : Nat) (v : Word) : (s.setReg off v).regWait = s.regWait := rfl
@[simp] theorem State.setReg_selfRefresh (s : State) (off : Nat) (v : Word) : (s.setReg off v).selfRefresh = s.selfRefresh := rfl
@[simp] theorem State.setReg_looped (s : State) (off : Nat) (v : Word) : (s.setReg off v).looped = s.looped := rfl
@[simp] theorem State.setReg_descs (s : State) (off : Nat) (v : Word) : (s.setReg off v).descs = s.descs := rfl
@[simp] theorem State.setReg_fetches (s : State) (off : Nat) (v : Word) : (s.setReg off v).fetches = s.fetches := rfl
@[simp] theorem State.setReg_heldCpl (s : State) (off : Nat) (v : Word) : (s.setReg off v).heldCpl = s.heldCpl := rfl
@[simp] theorem State.setReg_launchQ (s : State) (off : Nat) (v : Word) : (s.setReg off v).launchQ = s.launchQ := rfl
@[simp] theorem State.setReg_evtCons (s : State) (off : Nat) (v : Word) : (s.setReg off v).evtCons = s.evtCons := rfl
@[simp] theorem State.setReg_evtWait (s : State) (off : Nat) (v : Word) : (s.setReg off v).evtWait = s.evtWait := rfl
@[simp] theorem State.setReg_active (s : State) (off : Nat) (v : Word) : (s.setReg off v).active = s.active := rfl
@[simp] theorem State.setReg_events (s : State) (off : Nat) (v : Word) : (s.setReg off v).events = s.events := rfl
@[simp] theorem State.setReg_lanterns (s : State) (off : Nat) (v : Word) : (s.setReg off v).lanterns = s.lanterns := rfl
@[simp] theorem State.setReg_lastStep (s : State) (off : Nat) (v : Word) : (s.setReg off v).lastStep = s.lastStep := rfl
@[simp] theorem State.setReg_fab (s : State) (off : Nat) (v : Word) : (s.setReg off v).fab = s.fab := rfl
@[simp] theorem State.setReg_links (s : State) (off : Nat) (v : Word) : (s.setReg off v).links = s.links := rfl
@[simp] theorem State.setReg_opt (s : State) (off : Nat) (v : Word) : (s.setReg off v).opt = s.opt := rfl
@[simp] theorem State.setReg_strag (s : State) (off : Nat) (v : Word) : (s.setReg off v).strag = s.strag := rfl
@[simp] theorem State.setReg_exr (s : State) (off : Nat) (v : Word) : (s.setReg off v).exr = s.exr := rfl
@[simp] theorem State.setReg_groups (s : State) (off : Nat) (v : Word) : (s.setReg off v).groups = s.groups := rfl
@[simp] theorem State.setReg_joins (s : State) (off : Nat) (v : Word) : (s.setReg off v).joins = s.joins := rfl
@[simp] theorem State.setReg_front (s : State) (off : Nat) (v : Word) : (s.setReg off v).front = s.front := rfl
@[simp] theorem State.setReg_snap (s : State) (off : Nat) (v : Word) : (s.setReg off v).snap = s.snap := rfl
@[simp] theorem State.setReg_power (s : State) (off : Nat) (v : Word) : (s.setReg off v).power = s.power := rfl
@[simp] theorem State.setReg_boot (s : State) (off : Nat) (v : Word) : (s.setReg off v).boot = s.boot := rfl
@[simp] theorem State.setReg_resets (s : State) (off : Nat) (v : Word) : (s.setReg off v).resets = s.resets := rfl
@[simp] theorem State.setReg_dumpQ (s : State) (off : Nat) (v : Word) : (s.setReg off v).dumpQ = s.dumpQ := rfl
@[simp] theorem State.setReg_shadows (s : State) (off : Nat) (v : Word) : (s.setReg off v).shadows = s.shadows := rfl
@[simp] theorem State.setReg_txFenced (s : State) (off : Nat) (v : Word) : (s.setReg off v).txFenced = s.txFenced := rfl
@[simp] theorem State.setReg_failsafe (s : State) (off : Nat) (v : Word) : (s.setReg off v).failsafe = s.failsafe := rfl
@[simp] theorem State.setReg_hamper (s : State) (off : Nat) (v : Word) : (s.setReg off v).hamper = s.hamper := rfl
@[simp] theorem State.setReg_hamperFenced (s : State) (off : Nat) (v : Word) : (s.setReg off v).hamperFenced = s.hamperFenced := rfl
@[simp] theorem State.setReg_nor (s : State) (off : Nat) (v : Word) : (s.setReg off v).nor = s.nor := rfl
@[simp] theorem State.setReg_trail (s : State) (off : Nat) (v : Word) : (s.setReg off v).trail = s.trail := rfl
@[simp] theorem State.setReg_trailNext (s : State) (off : Nat) (v : Word) : (s.setReg off v).trailNext = s.trailNext := rfl
@[simp] theorem State.setReg_trailSeq (s : State) (off : Nat) (v : Word) : (s.setReg off v).trailSeq = s.trailSeq := rfl
@[simp] theorem State.setReg_fuses (s : State) (off : Nat) (v : Word) : (s.setReg off v).fuses = s.fuses := rfl
@[simp] theorem State.setReg_resetCause (s : State) (off : Nat) (v : Word) : (s.setReg off v).resetCause = s.resetCause := rfl
@[simp] theorem State.setReg_timeSet (s : State) (off : Nat) (v : Word) : (s.setReg off v).timeSet = s.timeSet := rfl
@[simp] theorem State.setReg_abortSeq (s : State) (off : Nat) (v : Word) : (s.setReg off v).abortSeq = s.abortSeq := rfl
@[simp] theorem State.setReg_abortsSeen (s : State) (off : Nat) (v : Word) : (s.setReg off v).abortsSeen = s.abortsSeen := rfl
@[simp] theorem State.setReg_out (s : State) (off : Nat) (v : Word) : (s.setReg off v).out = s.out := rfl
@[simp] theorem State.setReg_devTime (s : State) (off : Nat) (v : Word) : (s.setReg off v).devTime = s.devTime := rfl
@[simp] theorem State.setReg_slew (s : State) (off : Nat) (v : Word) : (s.setReg off v).slew = s.slew := rfl
@[simp] theorem State.setReg_freeCtr (s : State) (off : Nat) (v : Word) : (s.setReg off v).freeCtr = s.freeCtr := rfl

@[simp] theorem State.setFld_pending (s : State) (off : Nat) (f : Field) (n : Nat) : (s.setFld off f n).pending = s.pending := rfl
@[simp] theorem State.setFld_cores (s : State) (off : Nat) (f : Field) (n : Nat) : (s.setFld off f n).cores = s.cores := rfl
@[simp] theorem State.setFld_barriers (s : State) (off : Nat) (f : Field) (n : Nat) : (s.setFld off f n).barriers = s.barriers := rfl
@[simp] theorem State.setFld_fencedClusters (s : State) (off : Nat) (f : Field) (n : Nat) : (s.setFld off f n).fencedClusters = s.fencedClusters := rfl
@[simp] theorem State.setFld_mem (s : State) (off : Nat) (f : Field) (n : Nat) : (s.setFld off f n).mem = s.mem := rfl
@[simp] theorem State.setFld_poison (s : State) (off : Nat) (f : Field) (n : Nat) : (s.setFld off f n).poison = s.poison := rfl
@[simp] theorem State.setFld_ecc (s : State) (off : Nat) (f : Field) (n : Nat) : (s.setFld off f n).ecc = s.ecc := rfl
@[simp] theorem State.setFld_cfmt (s : State) (off : Nat) (f : Field) (n : Nat) : (s.setFld off f n).cfmt = s.cfmt := rfl
@[simp] theorem State.setFld_dirtyActive (s : State) (off : Nat) (f : Field) (n : Nat) : (s.setFld off f n).dirtyActive = s.dirtyActive := rfl
@[simp] theorem State.setFld_dirtyFrozen (s : State) (off : Nat) (f : Field) (n : Nat) : (s.setFld off f n).dirtyFrozen = s.dirtyFrozen := rfl
@[simp] theorem State.setFld_dirtyAt (s : State) (off : Nat) (f : Field) (n : Nat) : (s.setFld off f n).dirtyAt = s.dirtyAt := rfl
@[simp] theorem State.setFld_buckets (s : State) (off : Nat) (f : Field) (n : Nat) : (s.setFld off f n).buckets = s.buckets := rfl
@[simp] theorem State.setFld_regWait (s : State) (off : Nat) (f : Field) (n : Nat) : (s.setFld off f n).regWait = s.regWait := rfl
@[simp] theorem State.setFld_selfRefresh (s : State) (off : Nat) (f : Field) (n : Nat) : (s.setFld off f n).selfRefresh = s.selfRefresh := rfl
@[simp] theorem State.setFld_looped (s : State) (off : Nat) (f : Field) (n : Nat) : (s.setFld off f n).looped = s.looped := rfl
@[simp] theorem State.setFld_descs (s : State) (off : Nat) (f : Field) (n : Nat) : (s.setFld off f n).descs = s.descs := rfl
@[simp] theorem State.setFld_fetches (s : State) (off : Nat) (f : Field) (n : Nat) : (s.setFld off f n).fetches = s.fetches := rfl
@[simp] theorem State.setFld_heldCpl (s : State) (off : Nat) (f : Field) (n : Nat) : (s.setFld off f n).heldCpl = s.heldCpl := rfl
@[simp] theorem State.setFld_launchQ (s : State) (off : Nat) (f : Field) (n : Nat) : (s.setFld off f n).launchQ = s.launchQ := rfl
@[simp] theorem State.setFld_evtCons (s : State) (off : Nat) (f : Field) (n : Nat) : (s.setFld off f n).evtCons = s.evtCons := rfl
@[simp] theorem State.setFld_evtWait (s : State) (off : Nat) (f : Field) (n : Nat) : (s.setFld off f n).evtWait = s.evtWait := rfl
@[simp] theorem State.setFld_active (s : State) (off : Nat) (f : Field) (n : Nat) : (s.setFld off f n).active = s.active := rfl
@[simp] theorem State.setFld_events (s : State) (off : Nat) (f : Field) (n : Nat) : (s.setFld off f n).events = s.events := rfl
@[simp] theorem State.setFld_lanterns (s : State) (off : Nat) (f : Field) (n : Nat) : (s.setFld off f n).lanterns = s.lanterns := rfl
@[simp] theorem State.setFld_lastStep (s : State) (off : Nat) (f : Field) (n : Nat) : (s.setFld off f n).lastStep = s.lastStep := rfl
@[simp] theorem State.setFld_fab (s : State) (off : Nat) (f : Field) (n : Nat) : (s.setFld off f n).fab = s.fab := rfl
@[simp] theorem State.setFld_links (s : State) (off : Nat) (f : Field) (n : Nat) : (s.setFld off f n).links = s.links := rfl
@[simp] theorem State.setFld_opt (s : State) (off : Nat) (f : Field) (n : Nat) : (s.setFld off f n).opt = s.opt := rfl
@[simp] theorem State.setFld_strag (s : State) (off : Nat) (f : Field) (n : Nat) : (s.setFld off f n).strag = s.strag := rfl
@[simp] theorem State.setFld_exr (s : State) (off : Nat) (f : Field) (n : Nat) : (s.setFld off f n).exr = s.exr := rfl
@[simp] theorem State.setFld_groups (s : State) (off : Nat) (f : Field) (n : Nat) : (s.setFld off f n).groups = s.groups := rfl
@[simp] theorem State.setFld_joins (s : State) (off : Nat) (f : Field) (n : Nat) : (s.setFld off f n).joins = s.joins := rfl
@[simp] theorem State.setFld_front (s : State) (off : Nat) (f : Field) (n : Nat) : (s.setFld off f n).front = s.front := rfl
@[simp] theorem State.setFld_snap (s : State) (off : Nat) (f : Field) (n : Nat) : (s.setFld off f n).snap = s.snap := rfl
@[simp] theorem State.setFld_power (s : State) (off : Nat) (f : Field) (n : Nat) : (s.setFld off f n).power = s.power := rfl
@[simp] theorem State.setFld_boot (s : State) (off : Nat) (f : Field) (n : Nat) : (s.setFld off f n).boot = s.boot := rfl
@[simp] theorem State.setFld_resets (s : State) (off : Nat) (f : Field) (n : Nat) : (s.setFld off f n).resets = s.resets := rfl
@[simp] theorem State.setFld_dumpQ (s : State) (off : Nat) (f : Field) (n : Nat) : (s.setFld off f n).dumpQ = s.dumpQ := rfl
@[simp] theorem State.setFld_shadows (s : State) (off : Nat) (f : Field) (n : Nat) : (s.setFld off f n).shadows = s.shadows := rfl
@[simp] theorem State.setFld_txFenced (s : State) (off : Nat) (f : Field) (n : Nat) : (s.setFld off f n).txFenced = s.txFenced := rfl
@[simp] theorem State.setFld_failsafe (s : State) (off : Nat) (f : Field) (n : Nat) : (s.setFld off f n).failsafe = s.failsafe := rfl
@[simp] theorem State.setFld_hamper (s : State) (off : Nat) (f : Field) (n : Nat) : (s.setFld off f n).hamper = s.hamper := rfl
@[simp] theorem State.setFld_hamperFenced (s : State) (off : Nat) (f : Field) (n : Nat) : (s.setFld off f n).hamperFenced = s.hamperFenced := rfl
@[simp] theorem State.setFld_nor (s : State) (off : Nat) (f : Field) (n : Nat) : (s.setFld off f n).nor = s.nor := rfl
@[simp] theorem State.setFld_trail (s : State) (off : Nat) (f : Field) (n : Nat) : (s.setFld off f n).trail = s.trail := rfl
@[simp] theorem State.setFld_trailNext (s : State) (off : Nat) (f : Field) (n : Nat) : (s.setFld off f n).trailNext = s.trailNext := rfl
@[simp] theorem State.setFld_trailSeq (s : State) (off : Nat) (f : Field) (n : Nat) : (s.setFld off f n).trailSeq = s.trailSeq := rfl
@[simp] theorem State.setFld_fuses (s : State) (off : Nat) (f : Field) (n : Nat) : (s.setFld off f n).fuses = s.fuses := rfl
@[simp] theorem State.setFld_resetCause (s : State) (off : Nat) (f : Field) (n : Nat) : (s.setFld off f n).resetCause = s.resetCause := rfl
@[simp] theorem State.setFld_timeSet (s : State) (off : Nat) (f : Field) (n : Nat) : (s.setFld off f n).timeSet = s.timeSet := rfl
@[simp] theorem State.setFld_abortSeq (s : State) (off : Nat) (f : Field) (n : Nat) : (s.setFld off f n).abortSeq = s.abortSeq := rfl
@[simp] theorem State.setFld_abortsSeen (s : State) (off : Nat) (f : Field) (n : Nat) : (s.setFld off f n).abortsSeen = s.abortsSeen := rfl
@[simp] theorem State.setFld_out (s : State) (off : Nat) (f : Field) (n : Nat) : (s.setFld off f n).out = s.out := rfl
@[simp] theorem State.setFld_devTime (s : State) (off : Nat) (f : Field) (n : Nat) : (s.setFld off f n).devTime = s.devTime := rfl
@[simp] theorem State.setFld_slew (s : State) (off : Nat) (f : Field) (n : Nat) : (s.setFld off f n).slew = s.slew := rfl
@[simp] theorem State.setFld_freeCtr (s : State) (off : Nat) (f : Field) (n : Nat) : (s.setFld off f n).freeCtr = s.freeCtr := rfl

@[simp] theorem State.bump_pending (s : State) (off : Nat) (f : Field) : (s.bump off f).pending = s.pending := rfl
@[simp] theorem State.bump_cores (s : State) (off : Nat) (f : Field) : (s.bump off f).cores = s.cores := rfl
@[simp] theorem State.bump_barriers (s : State) (off : Nat) (f : Field) : (s.bump off f).barriers = s.barriers := rfl
@[simp] theorem State.bump_fencedClusters (s : State) (off : Nat) (f : Field) : (s.bump off f).fencedClusters = s.fencedClusters := rfl
@[simp] theorem State.bump_mem (s : State) (off : Nat) (f : Field) : (s.bump off f).mem = s.mem := rfl
@[simp] theorem State.bump_poison (s : State) (off : Nat) (f : Field) : (s.bump off f).poison = s.poison := rfl
@[simp] theorem State.bump_ecc (s : State) (off : Nat) (f : Field) : (s.bump off f).ecc = s.ecc := rfl
@[simp] theorem State.bump_cfmt (s : State) (off : Nat) (f : Field) : (s.bump off f).cfmt = s.cfmt := rfl
@[simp] theorem State.bump_dirtyActive (s : State) (off : Nat) (f : Field) : (s.bump off f).dirtyActive = s.dirtyActive := rfl
@[simp] theorem State.bump_dirtyFrozen (s : State) (off : Nat) (f : Field) : (s.bump off f).dirtyFrozen = s.dirtyFrozen := rfl
@[simp] theorem State.bump_dirtyAt (s : State) (off : Nat) (f : Field) : (s.bump off f).dirtyAt = s.dirtyAt := rfl
@[simp] theorem State.bump_buckets (s : State) (off : Nat) (f : Field) : (s.bump off f).buckets = s.buckets := rfl
@[simp] theorem State.bump_regWait (s : State) (off : Nat) (f : Field) : (s.bump off f).regWait = s.regWait := rfl
@[simp] theorem State.bump_selfRefresh (s : State) (off : Nat) (f : Field) : (s.bump off f).selfRefresh = s.selfRefresh := rfl
@[simp] theorem State.bump_looped (s : State) (off : Nat) (f : Field) : (s.bump off f).looped = s.looped := rfl
@[simp] theorem State.bump_descs (s : State) (off : Nat) (f : Field) : (s.bump off f).descs = s.descs := rfl
@[simp] theorem State.bump_fetches (s : State) (off : Nat) (f : Field) : (s.bump off f).fetches = s.fetches := rfl
@[simp] theorem State.bump_heldCpl (s : State) (off : Nat) (f : Field) : (s.bump off f).heldCpl = s.heldCpl := rfl
@[simp] theorem State.bump_launchQ (s : State) (off : Nat) (f : Field) : (s.bump off f).launchQ = s.launchQ := rfl
@[simp] theorem State.bump_evtCons (s : State) (off : Nat) (f : Field) : (s.bump off f).evtCons = s.evtCons := rfl
@[simp] theorem State.bump_evtWait (s : State) (off : Nat) (f : Field) : (s.bump off f).evtWait = s.evtWait := rfl
@[simp] theorem State.bump_active (s : State) (off : Nat) (f : Field) : (s.bump off f).active = s.active := rfl
@[simp] theorem State.bump_events (s : State) (off : Nat) (f : Field) : (s.bump off f).events = s.events := rfl
@[simp] theorem State.bump_lanterns (s : State) (off : Nat) (f : Field) : (s.bump off f).lanterns = s.lanterns := rfl
@[simp] theorem State.bump_lastStep (s : State) (off : Nat) (f : Field) : (s.bump off f).lastStep = s.lastStep := rfl
@[simp] theorem State.bump_fab (s : State) (off : Nat) (f : Field) : (s.bump off f).fab = s.fab := rfl
@[simp] theorem State.bump_links (s : State) (off : Nat) (f : Field) : (s.bump off f).links = s.links := rfl
@[simp] theorem State.bump_opt (s : State) (off : Nat) (f : Field) : (s.bump off f).opt = s.opt := rfl
@[simp] theorem State.bump_strag (s : State) (off : Nat) (f : Field) : (s.bump off f).strag = s.strag := rfl
@[simp] theorem State.bump_exr (s : State) (off : Nat) (f : Field) : (s.bump off f).exr = s.exr := rfl
@[simp] theorem State.bump_groups (s : State) (off : Nat) (f : Field) : (s.bump off f).groups = s.groups := rfl
@[simp] theorem State.bump_joins (s : State) (off : Nat) (f : Field) : (s.bump off f).joins = s.joins := rfl
@[simp] theorem State.bump_front (s : State) (off : Nat) (f : Field) : (s.bump off f).front = s.front := rfl
@[simp] theorem State.bump_snap (s : State) (off : Nat) (f : Field) : (s.bump off f).snap = s.snap := rfl
@[simp] theorem State.bump_power (s : State) (off : Nat) (f : Field) : (s.bump off f).power = s.power := rfl
@[simp] theorem State.bump_boot (s : State) (off : Nat) (f : Field) : (s.bump off f).boot = s.boot := rfl
@[simp] theorem State.bump_resets (s : State) (off : Nat) (f : Field) : (s.bump off f).resets = s.resets := rfl
@[simp] theorem State.bump_dumpQ (s : State) (off : Nat) (f : Field) : (s.bump off f).dumpQ = s.dumpQ := rfl
@[simp] theorem State.bump_shadows (s : State) (off : Nat) (f : Field) : (s.bump off f).shadows = s.shadows := rfl
@[simp] theorem State.bump_txFenced (s : State) (off : Nat) (f : Field) : (s.bump off f).txFenced = s.txFenced := rfl
@[simp] theorem State.bump_failsafe (s : State) (off : Nat) (f : Field) : (s.bump off f).failsafe = s.failsafe := rfl
@[simp] theorem State.bump_hamper (s : State) (off : Nat) (f : Field) : (s.bump off f).hamper = s.hamper := rfl
@[simp] theorem State.bump_hamperFenced (s : State) (off : Nat) (f : Field) : (s.bump off f).hamperFenced = s.hamperFenced := rfl
@[simp] theorem State.bump_nor (s : State) (off : Nat) (f : Field) : (s.bump off f).nor = s.nor := rfl
@[simp] theorem State.bump_trail (s : State) (off : Nat) (f : Field) : (s.bump off f).trail = s.trail := rfl
@[simp] theorem State.bump_trailNext (s : State) (off : Nat) (f : Field) : (s.bump off f).trailNext = s.trailNext := rfl
@[simp] theorem State.bump_trailSeq (s : State) (off : Nat) (f : Field) : (s.bump off f).trailSeq = s.trailSeq := rfl
@[simp] theorem State.bump_fuses (s : State) (off : Nat) (f : Field) : (s.bump off f).fuses = s.fuses := rfl
@[simp] theorem State.bump_resetCause (s : State) (off : Nat) (f : Field) : (s.bump off f).resetCause = s.resetCause := rfl
@[simp] theorem State.bump_timeSet (s : State) (off : Nat) (f : Field) : (s.bump off f).timeSet = s.timeSet := rfl
@[simp] theorem State.bump_abortSeq (s : State) (off : Nat) (f : Field) : (s.bump off f).abortSeq = s.abortSeq := rfl
@[simp] theorem State.bump_abortsSeen (s : State) (off : Nat) (f : Field) : (s.bump off f).abortsSeen = s.abortsSeen := rfl
@[simp] theorem State.bump_out (s : State) (off : Nat) (f : Field) : (s.bump off f).out = s.out := rfl
@[simp] theorem State.bump_devTime (s : State) (off : Nat) (f : Field) : (s.bump off f).devTime = s.devTime := rfl
@[simp] theorem State.bump_slew (s : State) (off : Nat) (f : Field) : (s.bump off f).slew = s.slew := rfl
@[simp] theorem State.bump_freeCtr (s : State) (off : Nat) (f : Field) : (s.bump off f).freeCtr = s.freeCtr := rfl

@[simp] theorem State.wrapInc_pending (s : State) (off : Nat) (f : Field) : (s.wrapInc off f).pending = s.pending := rfl
@[simp] theorem State.wrapInc_cores (s : State) (off : Nat) (f : Field) : (s.wrapInc off f).cores = s.cores := rfl
@[simp] theorem State.wrapInc_barriers (s : State) (off : Nat) (f : Field) : (s.wrapInc off f).barriers = s.barriers := rfl
@[simp] theorem State.wrapInc_fencedClusters (s : State) (off : Nat) (f : Field) : (s.wrapInc off f).fencedClusters = s.fencedClusters := rfl
@[simp] theorem State.wrapInc_mem (s : State) (off : Nat) (f : Field) : (s.wrapInc off f).mem = s.mem := rfl
@[simp] theorem State.wrapInc_poison (s : State) (off : Nat) (f : Field) : (s.wrapInc off f).poison = s.poison := rfl
@[simp] theorem State.wrapInc_ecc (s : State) (off : Nat) (f : Field) : (s.wrapInc off f).ecc = s.ecc := rfl
@[simp] theorem State.wrapInc_cfmt (s : State) (off : Nat) (f : Field) : (s.wrapInc off f).cfmt = s.cfmt := rfl
@[simp] theorem State.wrapInc_dirtyActive (s : State) (off : Nat) (f : Field) : (s.wrapInc off f).dirtyActive = s.dirtyActive := rfl
@[simp] theorem State.wrapInc_dirtyFrozen (s : State) (off : Nat) (f : Field) : (s.wrapInc off f).dirtyFrozen = s.dirtyFrozen := rfl
@[simp] theorem State.wrapInc_dirtyAt (s : State) (off : Nat) (f : Field) : (s.wrapInc off f).dirtyAt = s.dirtyAt := rfl
@[simp] theorem State.wrapInc_buckets (s : State) (off : Nat) (f : Field) : (s.wrapInc off f).buckets = s.buckets := rfl
@[simp] theorem State.wrapInc_regWait (s : State) (off : Nat) (f : Field) : (s.wrapInc off f).regWait = s.regWait := rfl
@[simp] theorem State.wrapInc_selfRefresh (s : State) (off : Nat) (f : Field) : (s.wrapInc off f).selfRefresh = s.selfRefresh := rfl
@[simp] theorem State.wrapInc_looped (s : State) (off : Nat) (f : Field) : (s.wrapInc off f).looped = s.looped := rfl
@[simp] theorem State.wrapInc_descs (s : State) (off : Nat) (f : Field) : (s.wrapInc off f).descs = s.descs := rfl
@[simp] theorem State.wrapInc_fetches (s : State) (off : Nat) (f : Field) : (s.wrapInc off f).fetches = s.fetches := rfl
@[simp] theorem State.wrapInc_heldCpl (s : State) (off : Nat) (f : Field) : (s.wrapInc off f).heldCpl = s.heldCpl := rfl
@[simp] theorem State.wrapInc_launchQ (s : State) (off : Nat) (f : Field) : (s.wrapInc off f).launchQ = s.launchQ := rfl
@[simp] theorem State.wrapInc_evtCons (s : State) (off : Nat) (f : Field) : (s.wrapInc off f).evtCons = s.evtCons := rfl
@[simp] theorem State.wrapInc_evtWait (s : State) (off : Nat) (f : Field) : (s.wrapInc off f).evtWait = s.evtWait := rfl
@[simp] theorem State.wrapInc_active (s : State) (off : Nat) (f : Field) : (s.wrapInc off f).active = s.active := rfl
@[simp] theorem State.wrapInc_events (s : State) (off : Nat) (f : Field) : (s.wrapInc off f).events = s.events := rfl
@[simp] theorem State.wrapInc_lanterns (s : State) (off : Nat) (f : Field) : (s.wrapInc off f).lanterns = s.lanterns := rfl
@[simp] theorem State.wrapInc_lastStep (s : State) (off : Nat) (f : Field) : (s.wrapInc off f).lastStep = s.lastStep := rfl
@[simp] theorem State.wrapInc_fab (s : State) (off : Nat) (f : Field) : (s.wrapInc off f).fab = s.fab := rfl
@[simp] theorem State.wrapInc_links (s : State) (off : Nat) (f : Field) : (s.wrapInc off f).links = s.links := rfl
@[simp] theorem State.wrapInc_opt (s : State) (off : Nat) (f : Field) : (s.wrapInc off f).opt = s.opt := rfl
@[simp] theorem State.wrapInc_strag (s : State) (off : Nat) (f : Field) : (s.wrapInc off f).strag = s.strag := rfl
@[simp] theorem State.wrapInc_exr (s : State) (off : Nat) (f : Field) : (s.wrapInc off f).exr = s.exr := rfl
@[simp] theorem State.wrapInc_groups (s : State) (off : Nat) (f : Field) : (s.wrapInc off f).groups = s.groups := rfl
@[simp] theorem State.wrapInc_joins (s : State) (off : Nat) (f : Field) : (s.wrapInc off f).joins = s.joins := rfl
@[simp] theorem State.wrapInc_front (s : State) (off : Nat) (f : Field) : (s.wrapInc off f).front = s.front := rfl
@[simp] theorem State.wrapInc_snap (s : State) (off : Nat) (f : Field) : (s.wrapInc off f).snap = s.snap := rfl
@[simp] theorem State.wrapInc_power (s : State) (off : Nat) (f : Field) : (s.wrapInc off f).power = s.power := rfl
@[simp] theorem State.wrapInc_boot (s : State) (off : Nat) (f : Field) : (s.wrapInc off f).boot = s.boot := rfl
@[simp] theorem State.wrapInc_resets (s : State) (off : Nat) (f : Field) : (s.wrapInc off f).resets = s.resets := rfl
@[simp] theorem State.wrapInc_dumpQ (s : State) (off : Nat) (f : Field) : (s.wrapInc off f).dumpQ = s.dumpQ := rfl
@[simp] theorem State.wrapInc_shadows (s : State) (off : Nat) (f : Field) : (s.wrapInc off f).shadows = s.shadows := rfl
@[simp] theorem State.wrapInc_txFenced (s : State) (off : Nat) (f : Field) : (s.wrapInc off f).txFenced = s.txFenced := rfl
@[simp] theorem State.wrapInc_failsafe (s : State) (off : Nat) (f : Field) : (s.wrapInc off f).failsafe = s.failsafe := rfl
@[simp] theorem State.wrapInc_hamper (s : State) (off : Nat) (f : Field) : (s.wrapInc off f).hamper = s.hamper := rfl
@[simp] theorem State.wrapInc_hamperFenced (s : State) (off : Nat) (f : Field) : (s.wrapInc off f).hamperFenced = s.hamperFenced := rfl
@[simp] theorem State.wrapInc_nor (s : State) (off : Nat) (f : Field) : (s.wrapInc off f).nor = s.nor := rfl
@[simp] theorem State.wrapInc_trail (s : State) (off : Nat) (f : Field) : (s.wrapInc off f).trail = s.trail := rfl
@[simp] theorem State.wrapInc_trailNext (s : State) (off : Nat) (f : Field) : (s.wrapInc off f).trailNext = s.trailNext := rfl
@[simp] theorem State.wrapInc_trailSeq (s : State) (off : Nat) (f : Field) : (s.wrapInc off f).trailSeq = s.trailSeq := rfl
@[simp] theorem State.wrapInc_fuses (s : State) (off : Nat) (f : Field) : (s.wrapInc off f).fuses = s.fuses := rfl
@[simp] theorem State.wrapInc_resetCause (s : State) (off : Nat) (f : Field) : (s.wrapInc off f).resetCause = s.resetCause := rfl
@[simp] theorem State.wrapInc_timeSet (s : State) (off : Nat) (f : Field) : (s.wrapInc off f).timeSet = s.timeSet := rfl
@[simp] theorem State.wrapInc_abortSeq (s : State) (off : Nat) (f : Field) : (s.wrapInc off f).abortSeq = s.abortSeq := rfl
@[simp] theorem State.wrapInc_abortsSeen (s : State) (off : Nat) (f : Field) : (s.wrapInc off f).abortsSeen = s.abortsSeen := rfl
@[simp] theorem State.wrapInc_out (s : State) (off : Nat) (f : Field) : (s.wrapInc off f).out = s.out := rfl
@[simp] theorem State.wrapInc_devTime (s : State) (off : Nat) (f : Field) : (s.wrapInc off f).devTime = s.devTime := rfl
@[simp] theorem State.wrapInc_slew (s : State) (off : Nat) (f : Field) : (s.wrapInc off f).slew = s.slew := rfl
@[simp] theorem State.wrapInc_freeCtr (s : State) (off : Nat) (f : Field) : (s.wrapInc off f).freeCtr = s.freeCtr := rfl

@[simp] theorem State.bumpBy_pending (s : State) (off : Nat) (f : Field) (n : Nat) : (s.bumpBy off f n).pending = s.pending := rfl
@[simp] theorem State.bumpBy_cores (s : State) (off : Nat) (f : Field) (n : Nat) : (s.bumpBy off f n).cores = s.cores := rfl
@[simp] theorem State.bumpBy_barriers (s : State) (off : Nat) (f : Field) (n : Nat) : (s.bumpBy off f n).barriers = s.barriers := rfl
@[simp] theorem State.bumpBy_fencedClusters (s : State) (off : Nat) (f : Field) (n : Nat) : (s.bumpBy off f n).fencedClusters = s.fencedClusters := rfl
@[simp] theorem State.bumpBy_mem (s : State) (off : Nat) (f : Field) (n : Nat) : (s.bumpBy off f n).mem = s.mem := rfl
@[simp] theorem State.bumpBy_poison (s : State) (off : Nat) (f : Field) (n : Nat) : (s.bumpBy off f n).poison = s.poison := rfl
@[simp] theorem State.bumpBy_ecc (s : State) (off : Nat) (f : Field) (n : Nat) : (s.bumpBy off f n).ecc = s.ecc := rfl
@[simp] theorem State.bumpBy_cfmt (s : State) (off : Nat) (f : Field) (n : Nat) : (s.bumpBy off f n).cfmt = s.cfmt := rfl
@[simp] theorem State.bumpBy_dirtyActive (s : State) (off : Nat) (f : Field) (n : Nat) : (s.bumpBy off f n).dirtyActive = s.dirtyActive := rfl
@[simp] theorem State.bumpBy_dirtyFrozen (s : State) (off : Nat) (f : Field) (n : Nat) : (s.bumpBy off f n).dirtyFrozen = s.dirtyFrozen := rfl
@[simp] theorem State.bumpBy_dirtyAt (s : State) (off : Nat) (f : Field) (n : Nat) : (s.bumpBy off f n).dirtyAt = s.dirtyAt := rfl
@[simp] theorem State.bumpBy_buckets (s : State) (off : Nat) (f : Field) (n : Nat) : (s.bumpBy off f n).buckets = s.buckets := rfl
@[simp] theorem State.bumpBy_regWait (s : State) (off : Nat) (f : Field) (n : Nat) : (s.bumpBy off f n).regWait = s.regWait := rfl
@[simp] theorem State.bumpBy_selfRefresh (s : State) (off : Nat) (f : Field) (n : Nat) : (s.bumpBy off f n).selfRefresh = s.selfRefresh := rfl
@[simp] theorem State.bumpBy_looped (s : State) (off : Nat) (f : Field) (n : Nat) : (s.bumpBy off f n).looped = s.looped := rfl
@[simp] theorem State.bumpBy_descs (s : State) (off : Nat) (f : Field) (n : Nat) : (s.bumpBy off f n).descs = s.descs := rfl
@[simp] theorem State.bumpBy_fetches (s : State) (off : Nat) (f : Field) (n : Nat) : (s.bumpBy off f n).fetches = s.fetches := rfl
@[simp] theorem State.bumpBy_heldCpl (s : State) (off : Nat) (f : Field) (n : Nat) : (s.bumpBy off f n).heldCpl = s.heldCpl := rfl
@[simp] theorem State.bumpBy_launchQ (s : State) (off : Nat) (f : Field) (n : Nat) : (s.bumpBy off f n).launchQ = s.launchQ := rfl
@[simp] theorem State.bumpBy_evtCons (s : State) (off : Nat) (f : Field) (n : Nat) : (s.bumpBy off f n).evtCons = s.evtCons := rfl
@[simp] theorem State.bumpBy_evtWait (s : State) (off : Nat) (f : Field) (n : Nat) : (s.bumpBy off f n).evtWait = s.evtWait := rfl
@[simp] theorem State.bumpBy_active (s : State) (off : Nat) (f : Field) (n : Nat) : (s.bumpBy off f n).active = s.active := rfl
@[simp] theorem State.bumpBy_events (s : State) (off : Nat) (f : Field) (n : Nat) : (s.bumpBy off f n).events = s.events := rfl
@[simp] theorem State.bumpBy_lanterns (s : State) (off : Nat) (f : Field) (n : Nat) : (s.bumpBy off f n).lanterns = s.lanterns := rfl
@[simp] theorem State.bumpBy_lastStep (s : State) (off : Nat) (f : Field) (n : Nat) : (s.bumpBy off f n).lastStep = s.lastStep := rfl
@[simp] theorem State.bumpBy_fab (s : State) (off : Nat) (f : Field) (n : Nat) : (s.bumpBy off f n).fab = s.fab := rfl
@[simp] theorem State.bumpBy_links (s : State) (off : Nat) (f : Field) (n : Nat) : (s.bumpBy off f n).links = s.links := rfl
@[simp] theorem State.bumpBy_opt (s : State) (off : Nat) (f : Field) (n : Nat) : (s.bumpBy off f n).opt = s.opt := rfl
@[simp] theorem State.bumpBy_strag (s : State) (off : Nat) (f : Field) (n : Nat) : (s.bumpBy off f n).strag = s.strag := rfl
@[simp] theorem State.bumpBy_exr (s : State) (off : Nat) (f : Field) (n : Nat) : (s.bumpBy off f n).exr = s.exr := rfl
@[simp] theorem State.bumpBy_groups (s : State) (off : Nat) (f : Field) (n : Nat) : (s.bumpBy off f n).groups = s.groups := rfl
@[simp] theorem State.bumpBy_joins (s : State) (off : Nat) (f : Field) (n : Nat) : (s.bumpBy off f n).joins = s.joins := rfl
@[simp] theorem State.bumpBy_front (s : State) (off : Nat) (f : Field) (n : Nat) : (s.bumpBy off f n).front = s.front := rfl
@[simp] theorem State.bumpBy_snap (s : State) (off : Nat) (f : Field) (n : Nat) : (s.bumpBy off f n).snap = s.snap := rfl
@[simp] theorem State.bumpBy_power (s : State) (off : Nat) (f : Field) (n : Nat) : (s.bumpBy off f n).power = s.power := rfl
@[simp] theorem State.bumpBy_boot (s : State) (off : Nat) (f : Field) (n : Nat) : (s.bumpBy off f n).boot = s.boot := rfl
@[simp] theorem State.bumpBy_resets (s : State) (off : Nat) (f : Field) (n : Nat) : (s.bumpBy off f n).resets = s.resets := rfl
@[simp] theorem State.bumpBy_dumpQ (s : State) (off : Nat) (f : Field) (n : Nat) : (s.bumpBy off f n).dumpQ = s.dumpQ := rfl
@[simp] theorem State.bumpBy_shadows (s : State) (off : Nat) (f : Field) (n : Nat) : (s.bumpBy off f n).shadows = s.shadows := rfl
@[simp] theorem State.bumpBy_txFenced (s : State) (off : Nat) (f : Field) (n : Nat) : (s.bumpBy off f n).txFenced = s.txFenced := rfl
@[simp] theorem State.bumpBy_failsafe (s : State) (off : Nat) (f : Field) (n : Nat) : (s.bumpBy off f n).failsafe = s.failsafe := rfl
@[simp] theorem State.bumpBy_hamper (s : State) (off : Nat) (f : Field) (n : Nat) : (s.bumpBy off f n).hamper = s.hamper := rfl
@[simp] theorem State.bumpBy_hamperFenced (s : State) (off : Nat) (f : Field) (n : Nat) : (s.bumpBy off f n).hamperFenced = s.hamperFenced := rfl
@[simp] theorem State.bumpBy_nor (s : State) (off : Nat) (f : Field) (n : Nat) : (s.bumpBy off f n).nor = s.nor := rfl
@[simp] theorem State.bumpBy_trail (s : State) (off : Nat) (f : Field) (n : Nat) : (s.bumpBy off f n).trail = s.trail := rfl
@[simp] theorem State.bumpBy_trailNext (s : State) (off : Nat) (f : Field) (n : Nat) : (s.bumpBy off f n).trailNext = s.trailNext := rfl
@[simp] theorem State.bumpBy_trailSeq (s : State) (off : Nat) (f : Field) (n : Nat) : (s.bumpBy off f n).trailSeq = s.trailSeq := rfl
@[simp] theorem State.bumpBy_fuses (s : State) (off : Nat) (f : Field) (n : Nat) : (s.bumpBy off f n).fuses = s.fuses := rfl
@[simp] theorem State.bumpBy_resetCause (s : State) (off : Nat) (f : Field) (n : Nat) : (s.bumpBy off f n).resetCause = s.resetCause := rfl
@[simp] theorem State.bumpBy_timeSet (s : State) (off : Nat) (f : Field) (n : Nat) : (s.bumpBy off f n).timeSet = s.timeSet := rfl
@[simp] theorem State.bumpBy_abortSeq (s : State) (off : Nat) (f : Field) (n : Nat) : (s.bumpBy off f n).abortSeq = s.abortSeq := rfl
@[simp] theorem State.bumpBy_abortsSeen (s : State) (off : Nat) (f : Field) (n : Nat) : (s.bumpBy off f n).abortsSeen = s.abortsSeen := rfl
@[simp] theorem State.bumpBy_out (s : State) (off : Nat) (f : Field) (n : Nat) : (s.bumpBy off f n).out = s.out := rfl
@[simp] theorem State.bumpBy_devTime (s : State) (off : Nat) (f : Field) (n : Nat) : (s.bumpBy off f n).devTime = s.devTime := rfl
@[simp] theorem State.bumpBy_slew (s : State) (off : Nat) (f : Field) (n : Nat) : (s.bumpBy off f n).slew = s.slew := rfl
@[simp] theorem State.bumpBy_freeCtr (s : State) (off : Nat) (f : Field) (n : Nat) : (s.bumpBy off f n).freeCtr = s.freeCtr := rfl

@[simp] theorem State.setCore_pending (s : State) (k : CoreId) (c : Core) : (s.setCore k c).pending = s.pending := rfl
@[simp] theorem State.setCore_barriers (s : State) (k : CoreId) (c : Core) : (s.setCore k c).barriers = s.barriers := rfl
@[simp] theorem State.setCore_fencedClusters (s : State) (k : CoreId) (c : Core) : (s.setCore k c).fencedClusters = s.fencedClusters := rfl
@[simp] theorem State.setCore_mem (s : State) (k : CoreId) (c : Core) : (s.setCore k c).mem = s.mem := rfl
@[simp] theorem State.setCore_poison (s : State) (k : CoreId) (c : Core) : (s.setCore k c).poison = s.poison := rfl
@[simp] theorem State.setCore_ecc (s : State) (k : CoreId) (c : Core) : (s.setCore k c).ecc = s.ecc := rfl
@[simp] theorem State.setCore_cfmt (s : State) (k : CoreId) (c : Core) : (s.setCore k c).cfmt = s.cfmt := rfl
@[simp] theorem State.setCore_dirtyActive (s : State) (k : CoreId) (c : Core) : (s.setCore k c).dirtyActive = s.dirtyActive := rfl
@[simp] theorem State.setCore_dirtyFrozen (s : State) (k : CoreId) (c : Core) : (s.setCore k c).dirtyFrozen = s.dirtyFrozen := rfl
@[simp] theorem State.setCore_dirtyAt (s : State) (k : CoreId) (c : Core) : (s.setCore k c).dirtyAt = s.dirtyAt := rfl
@[simp] theorem State.setCore_buckets (s : State) (k : CoreId) (c : Core) : (s.setCore k c).buckets = s.buckets := rfl
@[simp] theorem State.setCore_regWait (s : State) (k : CoreId) (c : Core) : (s.setCore k c).regWait = s.regWait := rfl
@[simp] theorem State.setCore_selfRefresh (s : State) (k : CoreId) (c : Core) : (s.setCore k c).selfRefresh = s.selfRefresh := rfl
@[simp] theorem State.setCore_looped (s : State) (k : CoreId) (c : Core) : (s.setCore k c).looped = s.looped := rfl
@[simp] theorem State.setCore_setup (s : State) (k : CoreId) (c : Core) : (s.setCore k c).setup = s.setup := rfl
@[simp] theorem State.setCore_descs (s : State) (k : CoreId) (c : Core) : (s.setCore k c).descs = s.descs := rfl
@[simp] theorem State.setCore_fetches (s : State) (k : CoreId) (c : Core) : (s.setCore k c).fetches = s.fetches := rfl
@[simp] theorem State.setCore_heldCpl (s : State) (k : CoreId) (c : Core) : (s.setCore k c).heldCpl = s.heldCpl := rfl
@[simp] theorem State.setCore_launchQ (s : State) (k : CoreId) (c : Core) : (s.setCore k c).launchQ = s.launchQ := rfl
@[simp] theorem State.setCore_evtCons (s : State) (k : CoreId) (c : Core) : (s.setCore k c).evtCons = s.evtCons := rfl
@[simp] theorem State.setCore_evtWait (s : State) (k : CoreId) (c : Core) : (s.setCore k c).evtWait = s.evtWait := rfl
@[simp] theorem State.setCore_active (s : State) (k : CoreId) (c : Core) : (s.setCore k c).active = s.active := rfl
@[simp] theorem State.setCore_events (s : State) (k : CoreId) (c : Core) : (s.setCore k c).events = s.events := rfl
@[simp] theorem State.setCore_lanterns (s : State) (k : CoreId) (c : Core) : (s.setCore k c).lanterns = s.lanterns := rfl
@[simp] theorem State.setCore_lastStep (s : State) (k : CoreId) (c : Core) : (s.setCore k c).lastStep = s.lastStep := rfl
@[simp] theorem State.setCore_fab (s : State) (k : CoreId) (c : Core) : (s.setCore k c).fab = s.fab := rfl
@[simp] theorem State.setCore_links (s : State) (k : CoreId) (c : Core) : (s.setCore k c).links = s.links := rfl
@[simp] theorem State.setCore_opt (s : State) (k : CoreId) (c : Core) : (s.setCore k c).opt = s.opt := rfl
@[simp] theorem State.setCore_strag (s : State) (k : CoreId) (c : Core) : (s.setCore k c).strag = s.strag := rfl
@[simp] theorem State.setCore_exr (s : State) (k : CoreId) (c : Core) : (s.setCore k c).exr = s.exr := rfl
@[simp] theorem State.setCore_groups (s : State) (k : CoreId) (c : Core) : (s.setCore k c).groups = s.groups := rfl
@[simp] theorem State.setCore_joins (s : State) (k : CoreId) (c : Core) : (s.setCore k c).joins = s.joins := rfl
@[simp] theorem State.setCore_front (s : State) (k : CoreId) (c : Core) : (s.setCore k c).front = s.front := rfl
@[simp] theorem State.setCore_snap (s : State) (k : CoreId) (c : Core) : (s.setCore k c).snap = s.snap := rfl
@[simp] theorem State.setCore_power (s : State) (k : CoreId) (c : Core) : (s.setCore k c).power = s.power := rfl
@[simp] theorem State.setCore_boot (s : State) (k : CoreId) (c : Core) : (s.setCore k c).boot = s.boot := rfl
@[simp] theorem State.setCore_resets (s : State) (k : CoreId) (c : Core) : (s.setCore k c).resets = s.resets := rfl
@[simp] theorem State.setCore_dumpQ (s : State) (k : CoreId) (c : Core) : (s.setCore k c).dumpQ = s.dumpQ := rfl
@[simp] theorem State.setCore_shadows (s : State) (k : CoreId) (c : Core) : (s.setCore k c).shadows = s.shadows := rfl
@[simp] theorem State.setCore_txFenced (s : State) (k : CoreId) (c : Core) : (s.setCore k c).txFenced = s.txFenced := rfl
@[simp] theorem State.setCore_failsafe (s : State) (k : CoreId) (c : Core) : (s.setCore k c).failsafe = s.failsafe := rfl
@[simp] theorem State.setCore_hamper (s : State) (k : CoreId) (c : Core) : (s.setCore k c).hamper = s.hamper := rfl
@[simp] theorem State.setCore_hamperFenced (s : State) (k : CoreId) (c : Core) : (s.setCore k c).hamperFenced = s.hamperFenced := rfl
@[simp] theorem State.setCore_nor (s : State) (k : CoreId) (c : Core) : (s.setCore k c).nor = s.nor := rfl
@[simp] theorem State.setCore_trail (s : State) (k : CoreId) (c : Core) : (s.setCore k c).trail = s.trail := rfl
@[simp] theorem State.setCore_trailNext (s : State) (k : CoreId) (c : Core) : (s.setCore k c).trailNext = s.trailNext := rfl
@[simp] theorem State.setCore_trailSeq (s : State) (k : CoreId) (c : Core) : (s.setCore k c).trailSeq = s.trailSeq := rfl
@[simp] theorem State.setCore_fuses (s : State) (k : CoreId) (c : Core) : (s.setCore k c).fuses = s.fuses := rfl
@[simp] theorem State.setCore_resetCause (s : State) (k : CoreId) (c : Core) : (s.setCore k c).resetCause = s.resetCause := rfl
@[simp] theorem State.setCore_timeSet (s : State) (k : CoreId) (c : Core) : (s.setCore k c).timeSet = s.timeSet := rfl
@[simp] theorem State.setCore_abortSeq (s : State) (k : CoreId) (c : Core) : (s.setCore k c).abortSeq = s.abortSeq := rfl
@[simp] theorem State.setCore_abortsSeen (s : State) (k : CoreId) (c : Core) : (s.setCore k c).abortsSeen = s.abortsSeen := rfl
@[simp] theorem State.setCore_out (s : State) (k : CoreId) (c : Core) : (s.setCore k c).out = s.out := rfl
@[simp] theorem State.setCore_devTime (s : State) (k : CoreId) (c : Core) : (s.setCore k c).devTime = s.devTime := rfl
@[simp] theorem State.setCore_slew (s : State) (k : CoreId) (c : Core) : (s.setCore k c).slew = s.slew := rfl
@[simp] theorem State.setCore_freeCtr (s : State) (k : CoreId) (c : Core) : (s.setCore k c).freeCtr = s.freeCtr := rfl

@[simp] theorem State.mapCore_pending (s : State) (k : CoreId) (f : Core → Core) : (s.mapCore k f).pending = s.pending := rfl
@[simp] theorem State.mapCore_barriers (s : State) (k : CoreId) (f : Core → Core) : (s.mapCore k f).barriers = s.barriers := rfl
@[simp] theorem State.mapCore_fencedClusters (s : State) (k : CoreId) (f : Core → Core) : (s.mapCore k f).fencedClusters = s.fencedClusters := rfl
@[simp] theorem State.mapCore_mem (s : State) (k : CoreId) (f : Core → Core) : (s.mapCore k f).mem = s.mem := rfl
@[simp] theorem State.mapCore_poison (s : State) (k : CoreId) (f : Core → Core) : (s.mapCore k f).poison = s.poison := rfl
@[simp] theorem State.mapCore_ecc (s : State) (k : CoreId) (f : Core → Core) : (s.mapCore k f).ecc = s.ecc := rfl
@[simp] theorem State.mapCore_cfmt (s : State) (k : CoreId) (f : Core → Core) : (s.mapCore k f).cfmt = s.cfmt := rfl
@[simp] theorem State.mapCore_dirtyActive (s : State) (k : CoreId) (f : Core → Core) : (s.mapCore k f).dirtyActive = s.dirtyActive := rfl
@[simp] theorem State.mapCore_dirtyFrozen (s : State) (k : CoreId) (f : Core → Core) : (s.mapCore k f).dirtyFrozen = s.dirtyFrozen := rfl
@[simp] theorem State.mapCore_dirtyAt (s : State) (k : CoreId) (f : Core → Core) : (s.mapCore k f).dirtyAt = s.dirtyAt := rfl
@[simp] theorem State.mapCore_buckets (s : State) (k : CoreId) (f : Core → Core) : (s.mapCore k f).buckets = s.buckets := rfl
@[simp] theorem State.mapCore_regWait (s : State) (k : CoreId) (f : Core → Core) : (s.mapCore k f).regWait = s.regWait := rfl
@[simp] theorem State.mapCore_selfRefresh (s : State) (k : CoreId) (f : Core → Core) : (s.mapCore k f).selfRefresh = s.selfRefresh := rfl
@[simp] theorem State.mapCore_looped (s : State) (k : CoreId) (f : Core → Core) : (s.mapCore k f).looped = s.looped := rfl
@[simp] theorem State.mapCore_setup (s : State) (k : CoreId) (f : Core → Core) : (s.mapCore k f).setup = s.setup := rfl
@[simp] theorem State.mapCore_descs (s : State) (k : CoreId) (f : Core → Core) : (s.mapCore k f).descs = s.descs := rfl
@[simp] theorem State.mapCore_fetches (s : State) (k : CoreId) (f : Core → Core) : (s.mapCore k f).fetches = s.fetches := rfl
@[simp] theorem State.mapCore_heldCpl (s : State) (k : CoreId) (f : Core → Core) : (s.mapCore k f).heldCpl = s.heldCpl := rfl
@[simp] theorem State.mapCore_launchQ (s : State) (k : CoreId) (f : Core → Core) : (s.mapCore k f).launchQ = s.launchQ := rfl
@[simp] theorem State.mapCore_evtCons (s : State) (k : CoreId) (f : Core → Core) : (s.mapCore k f).evtCons = s.evtCons := rfl
@[simp] theorem State.mapCore_evtWait (s : State) (k : CoreId) (f : Core → Core) : (s.mapCore k f).evtWait = s.evtWait := rfl
@[simp] theorem State.mapCore_active (s : State) (k : CoreId) (f : Core → Core) : (s.mapCore k f).active = s.active := rfl
@[simp] theorem State.mapCore_events (s : State) (k : CoreId) (f : Core → Core) : (s.mapCore k f).events = s.events := rfl
@[simp] theorem State.mapCore_lanterns (s : State) (k : CoreId) (f : Core → Core) : (s.mapCore k f).lanterns = s.lanterns := rfl
@[simp] theorem State.mapCore_lastStep (s : State) (k : CoreId) (f : Core → Core) : (s.mapCore k f).lastStep = s.lastStep := rfl
@[simp] theorem State.mapCore_fab (s : State) (k : CoreId) (f : Core → Core) : (s.mapCore k f).fab = s.fab := rfl
@[simp] theorem State.mapCore_links (s : State) (k : CoreId) (f : Core → Core) : (s.mapCore k f).links = s.links := rfl
@[simp] theorem State.mapCore_opt (s : State) (k : CoreId) (f : Core → Core) : (s.mapCore k f).opt = s.opt := rfl
@[simp] theorem State.mapCore_strag (s : State) (k : CoreId) (f : Core → Core) : (s.mapCore k f).strag = s.strag := rfl
@[simp] theorem State.mapCore_exr (s : State) (k : CoreId) (f : Core → Core) : (s.mapCore k f).exr = s.exr := rfl
@[simp] theorem State.mapCore_groups (s : State) (k : CoreId) (f : Core → Core) : (s.mapCore k f).groups = s.groups := rfl
@[simp] theorem State.mapCore_joins (s : State) (k : CoreId) (f : Core → Core) : (s.mapCore k f).joins = s.joins := rfl
@[simp] theorem State.mapCore_front (s : State) (k : CoreId) (f : Core → Core) : (s.mapCore k f).front = s.front := rfl
@[simp] theorem State.mapCore_snap (s : State) (k : CoreId) (f : Core → Core) : (s.mapCore k f).snap = s.snap := rfl
@[simp] theorem State.mapCore_power (s : State) (k : CoreId) (f : Core → Core) : (s.mapCore k f).power = s.power := rfl
@[simp] theorem State.mapCore_boot (s : State) (k : CoreId) (f : Core → Core) : (s.mapCore k f).boot = s.boot := rfl
@[simp] theorem State.mapCore_resets (s : State) (k : CoreId) (f : Core → Core) : (s.mapCore k f).resets = s.resets := rfl
@[simp] theorem State.mapCore_dumpQ (s : State) (k : CoreId) (f : Core → Core) : (s.mapCore k f).dumpQ = s.dumpQ := rfl
@[simp] theorem State.mapCore_shadows (s : State) (k : CoreId) (f : Core → Core) : (s.mapCore k f).shadows = s.shadows := rfl
@[simp] theorem State.mapCore_txFenced (s : State) (k : CoreId) (f : Core → Core) : (s.mapCore k f).txFenced = s.txFenced := rfl
@[simp] theorem State.mapCore_failsafe (s : State) (k : CoreId) (f : Core → Core) : (s.mapCore k f).failsafe = s.failsafe := rfl
@[simp] theorem State.mapCore_hamper (s : State) (k : CoreId) (f : Core → Core) : (s.mapCore k f).hamper = s.hamper := rfl
@[simp] theorem State.mapCore_hamperFenced (s : State) (k : CoreId) (f : Core → Core) : (s.mapCore k f).hamperFenced = s.hamperFenced := rfl
@[simp] theorem State.mapCore_nor (s : State) (k : CoreId) (f : Core → Core) : (s.mapCore k f).nor = s.nor := rfl
@[simp] theorem State.mapCore_trail (s : State) (k : CoreId) (f : Core → Core) : (s.mapCore k f).trail = s.trail := rfl
@[simp] theorem State.mapCore_trailNext (s : State) (k : CoreId) (f : Core → Core) : (s.mapCore k f).trailNext = s.trailNext := rfl
@[simp] theorem State.mapCore_trailSeq (s : State) (k : CoreId) (f : Core → Core) : (s.mapCore k f).trailSeq = s.trailSeq := rfl
@[simp] theorem State.mapCore_fuses (s : State) (k : CoreId) (f : Core → Core) : (s.mapCore k f).fuses = s.fuses := rfl
@[simp] theorem State.mapCore_resetCause (s : State) (k : CoreId) (f : Core → Core) : (s.mapCore k f).resetCause = s.resetCause := rfl
@[simp] theorem State.mapCore_timeSet (s : State) (k : CoreId) (f : Core → Core) : (s.mapCore k f).timeSet = s.timeSet := rfl
@[simp] theorem State.mapCore_abortSeq (s : State) (k : CoreId) (f : Core → Core) : (s.mapCore k f).abortSeq = s.abortSeq := rfl
@[simp] theorem State.mapCore_abortsSeen (s : State) (k : CoreId) (f : Core → Core) : (s.mapCore k f).abortsSeen = s.abortsSeen := rfl
@[simp] theorem State.mapCore_out (s : State) (k : CoreId) (f : Core → Core) : (s.mapCore k f).out = s.out := rfl
@[simp] theorem State.mapCore_devTime (s : State) (k : CoreId) (f : Core → Core) : (s.mapCore k f).devTime = s.devTime := rfl
@[simp] theorem State.mapCore_slew (s : State) (k : CoreId) (f : Core → Core) : (s.mapCore k f).slew = s.slew := rfl
@[simp] theorem State.mapCore_freeCtr (s : State) (k : CoreId) (f : Core → Core) : (s.mapCore k f).freeCtr = s.freeCtr := rfl

@[simp] theorem State.emit_pending (s : State) (o : Output) : (s.emit o).pending = s.pending := rfl
@[simp] theorem State.emit_cores (s : State) (o : Output) : (s.emit o).cores = s.cores := rfl
@[simp] theorem State.emit_barriers (s : State) (o : Output) : (s.emit o).barriers = s.barriers := rfl
@[simp] theorem State.emit_fencedClusters (s : State) (o : Output) : (s.emit o).fencedClusters = s.fencedClusters := rfl
@[simp] theorem State.emit_mem (s : State) (o : Output) : (s.emit o).mem = s.mem := rfl
@[simp] theorem State.emit_poison (s : State) (o : Output) : (s.emit o).poison = s.poison := rfl
@[simp] theorem State.emit_ecc (s : State) (o : Output) : (s.emit o).ecc = s.ecc := rfl
@[simp] theorem State.emit_cfmt (s : State) (o : Output) : (s.emit o).cfmt = s.cfmt := rfl
@[simp] theorem State.emit_dirtyActive (s : State) (o : Output) : (s.emit o).dirtyActive = s.dirtyActive := rfl
@[simp] theorem State.emit_dirtyFrozen (s : State) (o : Output) : (s.emit o).dirtyFrozen = s.dirtyFrozen := rfl
@[simp] theorem State.emit_dirtyAt (s : State) (o : Output) : (s.emit o).dirtyAt = s.dirtyAt := rfl
@[simp] theorem State.emit_buckets (s : State) (o : Output) : (s.emit o).buckets = s.buckets := rfl
@[simp] theorem State.emit_regWait (s : State) (o : Output) : (s.emit o).regWait = s.regWait := rfl
@[simp] theorem State.emit_selfRefresh (s : State) (o : Output) : (s.emit o).selfRefresh = s.selfRefresh := rfl
@[simp] theorem State.emit_looped (s : State) (o : Output) : (s.emit o).looped = s.looped := rfl
@[simp] theorem State.emit_setup (s : State) (o : Output) : (s.emit o).setup = s.setup := rfl
@[simp] theorem State.emit_descs (s : State) (o : Output) : (s.emit o).descs = s.descs := rfl
@[simp] theorem State.emit_fetches (s : State) (o : Output) : (s.emit o).fetches = s.fetches := rfl
@[simp] theorem State.emit_heldCpl (s : State) (o : Output) : (s.emit o).heldCpl = s.heldCpl := rfl
@[simp] theorem State.emit_launchQ (s : State) (o : Output) : (s.emit o).launchQ = s.launchQ := rfl
@[simp] theorem State.emit_evtCons (s : State) (o : Output) : (s.emit o).evtCons = s.evtCons := rfl
@[simp] theorem State.emit_evtWait (s : State) (o : Output) : (s.emit o).evtWait = s.evtWait := rfl
@[simp] theorem State.emit_active (s : State) (o : Output) : (s.emit o).active = s.active := rfl
@[simp] theorem State.emit_events (s : State) (o : Output) : (s.emit o).events = s.events := rfl
@[simp] theorem State.emit_lanterns (s : State) (o : Output) : (s.emit o).lanterns = s.lanterns := rfl
@[simp] theorem State.emit_lastStep (s : State) (o : Output) : (s.emit o).lastStep = s.lastStep := rfl
@[simp] theorem State.emit_fab (s : State) (o : Output) : (s.emit o).fab = s.fab := rfl
@[simp] theorem State.emit_links (s : State) (o : Output) : (s.emit o).links = s.links := rfl
@[simp] theorem State.emit_opt (s : State) (o : Output) : (s.emit o).opt = s.opt := rfl
@[simp] theorem State.emit_strag (s : State) (o : Output) : (s.emit o).strag = s.strag := rfl
@[simp] theorem State.emit_exr (s : State) (o : Output) : (s.emit o).exr = s.exr := rfl
@[simp] theorem State.emit_groups (s : State) (o : Output) : (s.emit o).groups = s.groups := rfl
@[simp] theorem State.emit_joins (s : State) (o : Output) : (s.emit o).joins = s.joins := rfl
@[simp] theorem State.emit_front (s : State) (o : Output) : (s.emit o).front = s.front := rfl
@[simp] theorem State.emit_snap (s : State) (o : Output) : (s.emit o).snap = s.snap := rfl
@[simp] theorem State.emit_power (s : State) (o : Output) : (s.emit o).power = s.power := rfl
@[simp] theorem State.emit_boot (s : State) (o : Output) : (s.emit o).boot = s.boot := rfl
@[simp] theorem State.emit_resets (s : State) (o : Output) : (s.emit o).resets = s.resets := rfl
@[simp] theorem State.emit_dumpQ (s : State) (o : Output) : (s.emit o).dumpQ = s.dumpQ := rfl
@[simp] theorem State.emit_shadows (s : State) (o : Output) : (s.emit o).shadows = s.shadows := rfl
@[simp] theorem State.emit_txFenced (s : State) (o : Output) : (s.emit o).txFenced = s.txFenced := rfl
@[simp] theorem State.emit_failsafe (s : State) (o : Output) : (s.emit o).failsafe = s.failsafe := rfl
@[simp] theorem State.emit_hamper (s : State) (o : Output) : (s.emit o).hamper = s.hamper := rfl
@[simp] theorem State.emit_hamperFenced (s : State) (o : Output) : (s.emit o).hamperFenced = s.hamperFenced := rfl
@[simp] theorem State.emit_nor (s : State) (o : Output) : (s.emit o).nor = s.nor := rfl
@[simp] theorem State.emit_trail (s : State) (o : Output) : (s.emit o).trail = s.trail := rfl
@[simp] theorem State.emit_trailNext (s : State) (o : Output) : (s.emit o).trailNext = s.trailNext := rfl
@[simp] theorem State.emit_trailSeq (s : State) (o : Output) : (s.emit o).trailSeq = s.trailSeq := rfl
@[simp] theorem State.emit_fuses (s : State) (o : Output) : (s.emit o).fuses = s.fuses := rfl
@[simp] theorem State.emit_resetCause (s : State) (o : Output) : (s.emit o).resetCause = s.resetCause := rfl
@[simp] theorem State.emit_timeSet (s : State) (o : Output) : (s.emit o).timeSet = s.timeSet := rfl
@[simp] theorem State.emit_abortSeq (s : State) (o : Output) : (s.emit o).abortSeq = s.abortSeq := rfl
@[simp] theorem State.emit_abortsSeen (s : State) (o : Output) : (s.emit o).abortsSeen = s.abortsSeen := rfl
@[simp] theorem State.emit_devTime (s : State) (o : Output) : (s.emit o).devTime = s.devTime := rfl
@[simp] theorem State.emit_slew (s : State) (o : Output) : (s.emit o).slew = s.slew := rfl
@[simp] theorem State.emit_freeCtr (s : State) (o : Output) : (s.emit o).freeCtr = s.freeCtr := rfl

@[simp] theorem State.emit_out (s : State) (o : Output) : (s.emit o).out = s.out ++ [o] := rfl

/-! ### Registers -/

/-- A register reads what was stored last; every other register is as it was. -/
theorem State.setReg_reg (s : State) (o : Nat) (v : Word) (a : Nat) : (s.setReg o v).reg a = if a = o then v else s.reg a := by
  unfold State.reg State.setReg
  by_cases h : a = o
  · subst h; simp [Maps.get_put]
  · simp only [h, if_false]
    unfold Maps.put
    split
    · rw [Maps.get_erase]; simp [h]
    · unfold Maps.set
      rw [Maps.get_place _ _ _ _ (by intro e he; simpa [Maps.erase] using (List.mem_filter.mp he).2), Maps.get_erase]
      simp [h]

@[simp] theorem State.setReg_reg_same (s : State) (o : Nat) (v : Word) : (s.setReg o v).reg o = v := by simp [State.setReg_reg]

theorem State.setReg_reg_other (s : State) (o : Nat) (v : Word) (a : Nat) (h : a ≠ o) : (s.setReg o v).reg a = s.reg a := by
  simp [State.setReg_reg, h]

theorem State.setFld_reg (s : State) (o : Nat) (f : Field) (n a : Nat) :
    (s.setFld o f n).reg a = if a = o then setBits (s.reg o) f.hi f.lo n else s.reg a := State.setReg_reg _ _ _ _

theorem State.setFld_reg_other (s : State) (o : Nat) (f : Field) (n a : Nat) (h : a ≠ o) : (s.setFld o f n).reg a = s.reg a := by
  simp [State.setFld_reg, h]

theorem State.setFld_fld_other (s : State) (o : Nat) (f g : Field) (n a : Nat) (h : a ≠ o) : (s.setFld o f n).fld a g = s.fld a g := by
  simp [State.fld, State.setFld_reg, h]

@[simp] theorem State.setCore_reg (s : State) (k : CoreId) (c : Core) (a : Nat) : (s.setCore k c).reg a = s.reg a := rfl
@[simp] theorem State.mapCore_reg (s : State) (k : CoreId) (f : Core → Core) (a : Nat) : (s.mapCore k f).reg a = s.reg a := rfl
@[simp] theorem State.setCore_fld (s : State) (k : CoreId) (c : Core) (a : Nat) (f : Field) : (s.setCore k c).fld a f = s.fld a f := rfl
@[simp] theorem State.mapCore_fld (s : State) (k : CoreId) (g : Core → Core) (a : Nat) (f : Field) : (s.mapCore k g).fld a f = s.fld a f := rfl

/-- The value put into a field reads back, cut to the field's width. -/
theorem bits_setBits (w : Word) (hi lo v : Nat) (h : lo ≤ hi) (h' : hi < 64) : bits (setBits w hi lo v) hi lo = v % 2 ^ (hi + 1 - lo) := by
  have hm : ∀ n i : Nat, (n * 2 ^ lo).testBit i = (decide (lo ≤ i) && n.testBit (i - lo)) := fun n i => Nat.testBit_mul_two_pow n i lo
  apply Nat.eq_of_testBit_eq
  intro i
  simp only [bits, setBits, Nat.testBit_mod_two_pow, Nat.testBit_div_two_pow, BitVec.toNat_or, BitVec.toNat_and, Nat.testBit_or,
    Nat.testBit_and, BitVec.testBit_toNat, BitVec.getLsbD_not, BitVec.getLsbD_ofNat, hm, Nat.testBit_two_pow_sub_one]
  by_cases hi' : i < hi + 1 - lo
  · have h2 : i + lo < 64 := by omega
    simp [hi', h2]
  · simp [hi']

theorem State.setFld_fld_same (s : State) (o : Nat) (f : Field) (n : Nat) (h : f.lo ≤ f.hi) (h' : f.hi < 64) :
    (s.setFld o f n).fld o f = n % 2 ^ (f.hi + 1 - f.lo) := by
  simp only [State.fld, State.setFld_reg]
  exact bits_setBits _ _ _ _ h h'

/-! ### Cores -/

@[simp] theorem State.setCore_core (s : State) (k : CoreId) (c : Core) : (s.setCore k c).core k = c := by
  simp [State.core, State.setCore]

theorem State.setCore_core_other (s : State) (k j : CoreId) (c : Core) (h : j ≠ k) : (s.setCore k c).core j = s.core j := by
  have hv : k.val ≠ j.val := fun e => h (Fin.ext e.symm)
  simp [State.core, State.setCore, hv]

@[simp] theorem State.mapCore_core (s : State) (k : CoreId) (f : Core → Core) : (s.mapCore k f).core k = f (s.core k) := by
  simp [State.mapCore]

theorem State.mapCore_core_other (s : State) (k j : CoreId) (f : Core → Core) (h : j ≠ k) : (s.mapCore k f).core j = s.core j :=
  State.setCore_core_other _ _ _ _ h

@[simp] theorem State.setCore_setCore (s : State) (k : CoreId) (c d : Core) : (s.setCore k c).setCore k d = s.setCore k d := by
  simp [State.setCore]

@[simp] theorem State.mapCore_mapCore (s : State) (k : CoreId) (f g : Core → Core) :
    (s.mapCore k f).mapCore k g = s.mapCore k (fun c => g (f c)) := by
  simp [State.mapCore]

/-! ### Registers of a core (R62) -/

@[simp] theorem Core.greg_zero (c : Core) : c.greg 0 = 0 := rfl
@[simp] theorem Core.setG_zero (c : Core) (v : Word) : c.setG 0 v = c := rfl
@[simp] theorem Core.preg_zero (c : Core) : c.preg 0 = true := rfl
@[simp] theorem Core.setP_zero (c : Core) (v : Bool) : c.setP 0 v = c := rfl

theorem Core.setG_greg (c : Core) (r : BitVec 5) (v : Word) (q : BitVec 5) :
    (c.setG r v).greg q = if q = r && r ≠ 0 then v else c.greg q := by
  unfold Core.greg Core.setG
  by_cases hr : r = 0
  · simp [hr]
  · rw [if_neg hr]
    by_cases hq : q = r
    · subst hq; have hz : ¬q = 0#5 := hr; simp [hz]
    · have hn : r.toNat ≠ q.toNat := fun e => hq (BitVec.eq_of_toNat_eq e.symm)
      simp [hq, hn]

end Sys2Proof.Machine
end

