-- ==== Sys2Proof/Laws/Access.lean ====
section
/-! SUPPORT. What a permitted access to memory that answers reads and writes. -/
namespace Sys2Proof.Machine

set_option Elab.async false

theorem State.regionsOf_settled (s : State) (x : Ctx) (h1 : (s.reg Reg.FAB_RT_VALID).getLsbD x = true)
    (h2 : s.fab.regionLoad.contains x.val = false) : s.regionsOf x = (some (Maps.get [] s.fab.regions x), s) := by
  unfold State.regionsOf
  rw [if_pos h1, if_neg (by rw [h2]; simp)]

theorem State.protect_permits {s : State} {w : Who} {k : Kind} {repub : Bool} {o n : Nat} (h : s.Permits w k repub o n) :
    s.protect w k repub o n = (.ok (placeOfRange o n), s) := by
  obtain ⟨a, src⟩ := w
  unfold State.protect
  cases a with
  | ranger => rcases h.place with hp | ⟨c, hp⟩ | ⟨j, hp, hs⟩ <;> rw [hp] <;> simp_all
  | ctx x =>
    obtain ⟨h1, h2, h3⟩ := h.regions x rfl
    have hr := s.regionsOf_settled x h1 h2
    rcases h.place with hp | ⟨c, hp⟩ | ⟨j, hp, hs⟩ <;> rw [hp] <;> dsimp only <;> rw [hr] <;> dsimp only <;> rw [if_pos h3]
    · simp
    · simp
    · have hs' : src = s.self := hs
      simp [hs']

theorem State.chargeAll_unregulated (s : State) (slow : Bool) (x : Ctx) (l : List (Nat × Nat))
    (h : s.fld (Reg.MEM_CTX x) Reg.MEM_CTX_ENABLE = 0) : s.chargeAll slow x l = .go s := by
  induction l with
  | nil => rfl
  | cons p l ih => obtain ⟨d, n⟩ := p; simp [State.chargeAll, State.charge, h, ih]

theorem State.scanRange_clean (s : State) (o n : Nat) (h : s.ecc = []) : s.scanRange o n = ([], s) := by
  unfold State.scanRange
  generalize piecesOf o n = l
  suffices hs : ∀ r : List Nat × State, r = ([], s) → l.foldl (fun r p =>
      match r.2.granuleScan p with | (b, s) => (if b then p :: r.1 else r.1, s)) r = ([], s) from hs _ rfl
  induction l with
  | nil => intro r hr; exact hr
  | cons p l ih =>
    rintro _ rfl
    rw [List.foldl_cons]
    apply ih
    simp [State.granuleScan, h]

theorem State.readUnits_clean (s : State) (l : List Nat) (h : ∀ u ∈ l, s.unitFenced u = false ∧ s.poisoned u = false) (he : s.ecc = []) :
    s.readUnits [] l = (none, s) := by
  induction l with
  | nil => rfl
  | cons u l ih =>
    have hu := h u (by simp)
    have hl := ih (fun v hv => h v (by simp [hv]))
    simp [State.readUnits, State.touchUnit, hu.1, hu.2, he, hl]

theorem State.chargeFor_unregulated (s : State) (a : Auth) (slow : Bool) (l : List (Nat × Nat))
    (h : ∀ x, a = .ctx x → s.fld (Reg.MEM_CTX x) Reg.MEM_CTX_ENABLE = 0) : s.chargeFor a slow l = .go s := by
  unfold State.chargeFor
  cases a with
  | ranger => rfl
  | ctx x => exact s.chargeAll_unregulated slow x _ (h x rfl)

/-- A read of memory that answers gives its bytes and changes nothing. -/
theorem State.load_clean {s : State} {a : Auth} {o n : Nat} (slow : Bool) (h : s.Clean a o n) :
    s.load a o n slow = (.ok (s.bytes o n), s) := by
  unfold State.load
  rw [s.chargeFor_unregulated a slow _ h.unregulated]
  simp [State.readNow, State.scanRange_clean s o n h.errors, State.readUnits_clean s _ h.served h.errors]

/-- A permitted read of memory that answers gives its bytes and changes nothing. -/
theorem State.readFor_clean {s : State} {w : Who} {o n : Nat} (slow : Bool) (hp : s.Permits w .rd false o n) (h : s.Clean w.auth o n) :
    s.readFor w o n slow = (.ok (s.bytes o n), s) := by
  unfold State.readFor
  rw [State.protect_permits hp]
  rcases hp.place with h1 | ⟨c, h1⟩ | ⟨j, h1, _⟩ <;> rw [h1] <;> exact State.load_clean slow h

/-- Bytes put from `a` on read back, and every other byte is as it was. -/
theorem get_putBytes (l : List Byte) : ∀ (m : List Host.Cell) (a x : Nat),
    Maps.get (0 : Byte) (putBytes m a l) x = if a ≤ x ∧ x < a + l.length then l.getD (x - a) 0 else Maps.get 0 m x := by
  induction l with
  | nil => intro m a x; simp only [putBytes, List.length_nil]; rw [if_neg (by omega)]
  | cons b l ih =>
    intro m a x
    rw [putBytes, ih, Maps.get_put]
    simp only [List.length_cons]
    by_cases h1 : x = a
    · subst h1; rw [if_neg (by omega), if_pos rfl, if_pos (by omega)]; simp
    · by_cases h2 : a + 1 ≤ x ∧ x < a + 1 + l.length
      · rw [if_pos h2, if_pos (by omega)]
        obtain ⟨d, rfl⟩ : ∃ d, x = a + 1 + d := ⟨x - (a + 1), by omega⟩
        have e1 : a + 1 + d - (a + 1) = d := by omega
        have e2 : a + 1 + d - a = d + 1 := by omega
        rw [e1, e2]; simp
      · rw [if_neg h2, if_neg h1, if_neg (by omega)]

theorem mem_unitsOf {o n u : Nat} : u ∈ unitsOf o n ↔ n ≠ 0 ∧ u % 64 = 0 ∧ o / 64 ≤ u / 64 ∧ u / 64 ≤ (o + n - 1) / 64 := by
  unfold unitsOf
  split
  · simp_all
  · simp only [List.mem_map, List.mem_range]
    constructor
    · rintro ⟨i, hi, rfl⟩; refine ⟨by assumption, ?_, ?_, ?_⟩ <;> omega
    · rintro ⟨_, h1, h2, h3⟩; exact ⟨u / 64 - o / 64, by omega, by omega⟩

theorem State.SameButMemory.refl (s : State) : s.SameButMemory s := ⟨rfl⟩

theorem State.SameButMemory.trans {r s t : State} (h : r.SameButMemory s) (h' : s.SameButMemory t) : r.SameButMemory t := by
  constructor; rw [h'.eq, h.eq]

/-- Writing the part of a range that falls into one unit that answers. -/
theorem State.writeUnit_clean (s : State) (o : Nat) (bs : List Byte) (u : Nat) (hu : u ∈ unitsOf o bs.length)
    (hf : s.unitFenced u = false) (hp : s.poisoned u = false) (he : s.ecc = []) (ha : s.failsafe = false) :
    ∃ t, s.writeUnit [] o bs u = (none, t) ∧ s.SameButMemory t ∧ t.ecc = [] ∧ (∀ v, s.poisoned v = false → t.poisoned v = false) ∧
      ∀ a, t.byte a = if (o ≤ a ∧ a < o + bs.length) ∧ a / 64 = u / 64 then bs.getD (a - o) 0 else s.byte a := by
  have hm := mem_unitsOf.mp hu
  have hd : ∀ (s : State) o, s.SameButMemory (s.markDirty o) ∧ (s.markDirty o).ecc = s.ecc ∧ (s.markDirty o).poison = s.poison ∧
      (s.markDirty o).mem = s.mem := by
    intro s o
    unfold State.markDirty
    split
    · split <;> exact ⟨⟨rfl⟩, rfl, rfl, rfl⟩
    · exact ⟨⟨rfl⟩, rfl, rfl, rfl⟩
  have hb : ∀ a, Maps.get (0 : Byte) (putBytes s.mem (max o u)
      ((bs.drop (max o u - o)).take (min (o + bs.length) (u + 64) - max o u))) a =
      if (o ≤ a ∧ a < o + bs.length) ∧ a / 64 = u / 64 then bs.getD (a - o) 0 else s.byte a := by
    intro a
    rw [get_putBytes]
    simp only [List.length_take, List.length_drop, State.byte]
    by_cases h : (o ≤ a ∧ a < o + bs.length) ∧ a / 64 = u / 64
    · rw [if_pos h, if_pos (by omega)]
      have e : a - max o u < min (o + bs.length) (u + 64) - max o u := by omega
      have e2 : max o u - o + (a - max o u) = a - o := by omega
      simp only [List.getD_eq_getElem?_getD]
      rw [List.getElem?_take_of_lt e, List.getElem?_drop, e2]
    · rw [if_neg h, if_neg (by omega)]
  unfold State.writeUnit
  dsimp only
  rw [if_neg (by simp [hf, ha])]
  split
  · rename_i hw
    simp only [Bool.and_eq_true, decide_eq_true_eq] at hw
    have hlo : max o u = u := hw.1
    refine ⟨_, rfl, State.SameButMemory.trans ⟨rfl⟩ (hd _ _).1, ?_, ?_, ?_⟩
    · rw [(hd _ _).2.1]; simp [State.clearPoison, he, Maps.erase]
    · intro v hv
      unfold State.poisoned at hv ⊢
      rw [(hd _ _).2.2.1]
      simp only [Maps.mem, State.clearPoison, Maps.del] at hv ⊢
      simp only [List.contains_eq_mem, decide_eq_false_iff_not] at hv ⊢
      exact fun hc => hv (List.mem_filter.mp hc).1
    · intro a
      unfold State.byte
      rw [(hd _ _).2.2.2]
      have := hb a
      rw [hlo] at this
      simpa [State.clearPoison, hlo, State.byte] using this
  · rw [if_neg (by simp)]
    have ht : s.touchUnit u = (none, s) := by simp [State.touchUnit, hf, hp, he]
    rw [ht]
    refine ⟨_, rfl, State.SameButMemory.trans ⟨rfl⟩ (hd _ _).1, ?_, ?_, ?_⟩
    · rw [(hd _ _).2.1]; exact he
    · intro v hv; unfold State.poisoned at hv ⊢; rw [(hd _ _).2.2.1]; exact hv
    · intro a
      unfold State.byte
      rw [(hd _ _).2.2.2]; exact hb a

theorem State.writeUnits_clean (o : Nat) (bs : List Byte) (us : List Nat) : ∀ (s : State), (∀ u ∈ us, u ∈ unitsOf o bs.length) →
    (∀ u ∈ us, s.unitFenced u = false ∧ s.poisoned u = false) → s.ecc = [] → s.failsafe = false →
    ∃ t, s.writeUnits [] o bs us = (none, t) ∧ s.SameButMemory t ∧
      ∀ a, t.byte a = if (o ≤ a ∧ a < o + bs.length) ∧ ∃ u ∈ us, a / 64 = u / 64 then bs.getD (a - o) 0 else s.byte a := by
  induction us with
  | nil => intro s _ _ _ _; exact ⟨s, rfl, .refl s, by intro a; rw [if_neg (by simp)]⟩
  | cons u us ih =>
    intro s hm hs he ha
    obtain ⟨t, h1, h2, h3, h4, h5⟩ := s.writeUnit_clean o bs u (hm u (by simp)) (hs u (by simp)).1 (hs u (by simp)).2 he ha
    have hfen : ∀ v, t.unitFenced v = s.unitFenced v := by intro v; rw [h2.eq]; rfl
    have hsafe : t.failsafe = false := by rw [h2.eq]; exact ha
    obtain ⟨r, g1, g2, g3⟩ := ih t (fun v hv => hm v (by simp [hv]))
      (fun v hv => ⟨(hfen v).trans (hs v (by simp [hv])).1, h4 v (hs v (by simp [hv])).2⟩) h3 hsafe
    refine ⟨r, by simp [State.writeUnits, h1, g1], h2.trans g2, ?_⟩
    intro a
    rw [g3, h5]
    by_cases c1 : (o ≤ a ∧ a < o + bs.length) ∧ ∃ v ∈ us, a / 64 = v / 64
    · rw [if_pos c1, if_pos ⟨c1.1, by obtain ⟨v, hv, e⟩ := c1.2; exact ⟨v, by simp [hv], e⟩⟩]
    · rw [if_neg c1]
      by_cases c2 : (o ≤ a ∧ a < o + bs.length) ∧ a / 64 = u / 64
      · rw [if_pos c2, if_pos ⟨c2.1, u, by simp, c2.2⟩]
      · rw [if_neg c2, if_neg]
        rintro ⟨hr, v, hv, e⟩
        rcases List.mem_cons.mp hv with rfl | hv
        · exact c2 ⟨hr, e⟩
        · exact c1 ⟨hr, v, hv, e⟩

theorem State.setForm_same {r s : State} (o : Nat) (c : Option Nat) (h : r.SameButMemory s) :
    r.SameButMemory (s.setForm o c) ∧ (s.setForm o c).mem = s.mem := by
  unfold State.setForm
  dsimp only
  split
  · exact ⟨h, rfl⟩
  · split <;> exact ⟨h.trans ⟨rfl⟩, rfl⟩

/-- The forms that granules take change no byte. -/
theorem State.setForms_same {r : State} (l : List (Nat × Option Nat)) : ∀ {s : State}, r.SameButMemory s →
    r.SameButMemory (l.foldl (fun (s : State) f => s.setForm f.1 f.2) s) ∧ (l.foldl (fun (s : State) f => s.setForm f.1 f.2) s).mem = s.mem := by
  induction l with
  | nil => intro s h; exact ⟨h, rfl⟩
  | cons f l ih =>
    intro s h
    obtain ⟨h1, h2⟩ := State.setForm_same f.1 f.2 h
    obtain ⟨h3, h4⟩ := ih h1
    exact ⟨h3, h4.trans h2⟩

/-- A store to memory that answers changes exactly its bytes. -/
theorem State.store_clean {s : State} {a : Auth} {o : Nat} {bs : List Byte} (slow : Bool) (h : s.Clean a o bs.length) :
    ∃ t, s.store a o bs slow = (.ok [], t) ∧ s.Stored t o bs := by
  obtain ⟨t, h1, h2, h3⟩ := State.writeUnits_clean o bs (unitsOf o bs.length) s (fun _ hu => hu) h.served h.errors h.awake
  have hb : ∀ x, t.byte x = if o ≤ x ∧ x < o + bs.length then bs.getD (x - o) 0 else s.byte x := by
    intro x
    rw [h3]
    by_cases c : o ≤ x ∧ x < o + bs.length
    · rw [if_pos c, if_pos ⟨c, x / 64 * 64, mem_unitsOf.mpr ⟨by omega, by omega, by omega, by omega⟩, by omega⟩]
    · rw [if_neg c, if_neg (fun hh => c hh.1)]
  unfold State.store
  dsimp only
  rw [s.chargeFor_unregulated a slow _ h.unregulated]
  dsimp only
  unfold State.writeNow
  rw [State.scanRange_clean s o _ h.errors]
  dsimp only
  rw [h1]
  obtain ⟨f1, f2⟩ := State.setForms_same
    (((if placeOf o = .lpddr then (granuleParts o bs.length).map (fun p => (p, s.compressAs a o bs p)) else []) :
      List ((Nat × Nat) × Option Nat)).map (fun p => (p.1.1, p.2))) h2
  refine ⟨_, rfl, f1, ?_⟩
  intro x
  rw [← hb x]
  unfold State.byte
  rw [f2]

/-- A permitted write to memory that answers changes exactly its bytes. -/
theorem State.writeFor_clean {s : State} {w : Who} {repub : Bool} {o : Nat} {bs : List Byte} (slow : Bool)
    (hp : s.Permits w .wr repub o bs.length) (h : s.Clean w.auth o bs.length) :
    ∃ t, s.writeFor w repub o bs slow = (.ok [], t) ∧ s.Stored t o bs := by
  unfold State.writeFor
  rw [State.protect_permits hp]
  rcases hp.place with h1 | ⟨c, h1⟩ | ⟨j, h1, _⟩ <;> rw [h1] <;> exact State.store_clean slow h

end Sys2Proof.Machine
end

