-- ==== Sys2Proof/Laws/Exec.lean ====
section
/-! SUPPORT. What `exec` is on each command: the command's meaning. -/
namespace Sys2Proof.Machine

set_option Elab.async false

@[simp] theorem exec_setupWrite (src) (size) (off) (v) (s : State) : exec (.setupWrite src size off v) s = execSetupWrite src size off v s := rfl
@[simp] theorem exec_setupLock (src) (s : State) : exec (.setupLock src) s = execSetupLock src s := rfl
@[simp] theorem exec_coreLaunch (k) (s : State) : exec (.coreLaunch k) s = execCoreLaunch k s := rfl
@[simp] theorem exec_add (k) (w) (s : State) : exec (.add k w) s = execAdd k w s := rfl
@[simp] theorem exec_sub (k) (w) (s : State) : exec (.sub k w) s = execSub k w s := rfl
@[simp] theorem exec_and (k) (w) (s : State) : exec (.and k w) s = execAnd k w s := rfl
@[simp] theorem exec_or (k) (w) (s : State) : exec (.or k w) s = execOr k w s := rfl
@[simp] theorem exec_xor (k) (w) (s : State) : exec (.xor k w) s = execXor k w s := rfl
@[simp] theorem exec_sll (k) (w) (s : State) : exec (.sll k w) s = execSll k w s := rfl
@[simp] theorem exec_srl (k) (w) (s : State) : exec (.srl k w) s = execSrl k w s := rfl
@[simp] theorem exec_sra (k) (w) (s : State) : exec (.sra k w) s = execSra k w s := rfl
@[simp] theorem exec_mul (k) (w) (s : State) : exec (.mul k w) s = execMul k w s := rfl
@[simp] theorem exec_mulhs (k) (w) (s : State) : exec (.mulhs k w) s = execMulhs k w s := rfl
@[simp] theorem exec_mulhu (k) (w) (s : State) : exec (.mulhu k w) s = execMulhu k w s := rfl
@[simp] theorem exec_divs (k) (w) (s : State) : exec (.divs k w) s = execDivs k w s := rfl
@[simp] theorem exec_divu (k) (w) (s : State) : exec (.divu k w) s = execDivu k w s := rfl
@[simp] theorem exec_rems (k) (w) (s : State) : exec (.rems k w) s = execRems k w s := rfl
@[simp] theorem exec_remu (k) (w) (s : State) : exec (.remu k w) s = execRemu k w s := rfl
@[simp] theorem exec_min (k) (w) (s : State) : exec (.min k w) s = execMin k w s := rfl
@[simp] theorem exec_max (k) (w) (s : State) : exec (.max k w) s = execMax k w s := rfl
@[simp] theorem exec_minu (k) (w) (s : State) : exec (.minu k w) s = execMinu k w s := rfl
@[simp] theorem exec_maxu (k) (w) (s : State) : exec (.maxu k w) s = execMaxu k w s := rfl
@[simp] theorem exec_addi (k) (w) (s : State) : exec (.addi k w) s = execAddi k w s := rfl
@[simp] theorem exec_subi (k) (w) (s : State) : exec (.subi k w) s = execSubi k w s := rfl
@[simp] theorem exec_andi (k) (w) (s : State) : exec (.andi k w) s = execAndi k w s := rfl
@[simp] theorem exec_ori (k) (w) (s : State) : exec (.ori k w) s = execOri k w s := rfl
@[simp] theorem exec_xori (k) (w) (s : State) : exec (.xori k w) s = execXori k w s := rfl
@[simp] theorem exec_slli (k) (w) (s : State) : exec (.slli k w) s = execSlli k w s := rfl
@[simp] theorem exec_srli (k) (w) (s : State) : exec (.srli k w) s = execSrli k w s := rfl
@[simp] theorem exec_srai (k) (w) (s : State) : exec (.srai k w) s = execSrai k w s := rfl
@[simp] theorem exec_muli (k) (w) (s : State) : exec (.muli k w) s = execMuli k w s := rfl
@[simp] theorem exec_mulhsi (k) (w) (s : State) : exec (.mulhsi k w) s = execMulhsi k w s := rfl
@[simp] theorem exec_mulhui (k) (w) (s : State) : exec (.mulhui k w) s = execMulhui k w s := rfl
@[simp] theorem exec_divsi (k) (w) (s : State) : exec (.divsi k w) s = execDivsi k w s := rfl
@[simp] theorem exec_divui (k) (w) (s : State) : exec (.divui k w) s = execDivui k w s := rfl
@[simp] theorem exec_remsi (k) (w) (s : State) : exec (.remsi k w) s = execRemsi k w s := rfl
@[simp] theorem exec_remui (k) (w) (s : State) : exec (.remui k w) s = execRemui k w s := rfl
@[simp] theorem exec_mini (k) (w) (s : State) : exec (.mini k w) s = execMini k w s := rfl
@[simp] theorem exec_maxi (k) (w) (s : State) : exec (.maxi k w) s = execMaxi k w s := rfl
@[simp] theorem exec_minui (k) (w) (s : State) : exec (.minui k w) s = execMinui k w s := rfl
@[simp] theorem exec_maxui (k) (w) (s : State) : exec (.maxui k w) s = execMaxui k w s := rfl
@[simp] theorem exec_insh (k) (w) (s : State) : exec (.insh k w) s = execInsh k w s := rfl
@[simp] theorem exec_cmpeqi (k) (w) (s : State) : exec (.cmpeqi k w) s = execCmpeqi k w s := rfl
@[simp] theorem exec_cmpnei (k) (w) (s : State) : exec (.cmpnei k w) s = execCmpnei k w s := rfl
@[simp] theorem exec_cmplti (k) (w) (s : State) : exec (.cmplti k w) s = execCmplti k w s := rfl
@[simp] theorem exec_cmpltui (k) (w) (s : State) : exec (.cmpltui k w) s = execCmpltui k w s := rfl
@[simp] theorem exec_cmpgei (k) (w) (s : State) : exec (.cmpgei k w) s = execCmpgei k w s := rfl
@[simp] theorem exec_cmpgeui (k) (w) (s : State) : exec (.cmpgeui k w) s = execCmpgeui k w s := rfl
@[simp] theorem exec_ld (k) (w) (s : State) : exec (.ld k w) s = execLd k w s := rfl
@[simp] theorem exec_st (k) (w) (s : State) : exec (.st k w) s = execSt k w s := rfl
@[simp] theorem exec_aadd (k) (w) (s : State) : exec (.aadd k w) s = execAadd k w s := rfl
@[simp] theorem exec_amin (k) (w) (s : State) : exec (.amin k w) s = execAmin k w s := rfl
@[simp] theorem exec_amax (k) (w) (s : State) : exec (.amax k w) s = execAmax k w s := rfl
@[simp] theorem exec_aand (k) (w) (s : State) : exec (.aand k w) s = execAand k w s := rfl
@[simp] theorem exec_aor (k) (w) (s : State) : exec (.aor k w) s = execAor k w s := rfl
@[simp] theorem exec_axor (k) (w) (s : State) : exec (.axor k w) s = execAxor k w s := rfl
@[simp] theorem exec_aswap (k) (w) (s : State) : exec (.aswap k w) s = execAswap k w s := rfl
@[simp] theorem exec_acas (k) (w) (s : State) : exec (.acas k w) s = execAcas k w s := rfl
@[simp] theorem exec_acas2 (k) (w) (s : State) : exec (.acas2 k w) s = execAcas2 k w s := rfl
@[simp] theorem exec_afadd (k) (w) (s : State) : exec (.afadd k w) s = execAfadd k w s := rfl
@[simp] theorem exec_bra (k) (w) (s : State) : exec (.bra k w) s = execBra k w s := rfl
@[simp] theorem exec_jmpr (k) (w) (s : State) : exec (.jmpr k w) s = execJmpr k w s := rfl
@[simp] theorem exec_cmpeq (k) (w) (s : State) : exec (.cmpeq k w) s = execCmpeq k w s := rfl
@[simp] theorem exec_cmpne (k) (w) (s : State) : exec (.cmpne k w) s = execCmpne k w s := rfl
@[simp] theorem exec_cmplt (k) (w) (s : State) : exec (.cmplt k w) s = execCmplt k w s := rfl
@[simp] theorem exec_cmpltu (k) (w) (s : State) : exec (.cmpltu k w) s = execCmpltu k w s := rfl
@[simp] theorem exec_cmpge (k) (w) (s : State) : exec (.cmpge k w) s = execCmpge k w s := rfl
@[simp] theorem exec_cmpgeu (k) (w) (s : State) : exec (.cmpgeu k w) s = execCmpgeu k w s := rfl
@[simp] theorem exec_fcmpeq (k) (w) (s : State) : exec (.fcmpeq k w) s = execFcmpeq k w s := rfl
@[simp] theorem exec_fcmplt (k) (w) (s : State) : exec (.fcmplt k w) s = execFcmplt k w s := rfl
@[simp] theorem exec_fcmple (k) (w) (s : State) : exec (.fcmple k w) s = execFcmple k w s := rfl
@[simp] theorem exec_fcmpun (k) (w) (s : State) : exec (.fcmpun k w) s = execFcmpun k w s := rfl
@[simp] theorem exec_pand (k) (w) (s : State) : exec (.pand k w) s = execPand k w s := rfl
@[simp] theorem exec_por (k) (w) (s : State) : exec (.por k w) s = execPor k w s := rfl
@[simp] theorem exec_pxor (k) (w) (s : State) : exec (.pxor k w) s = execPxor k w s := rfl
@[simp] theorem exec_pandn (k) (w) (s : State) : exec (.pandn k w) s = execPandn k w s := rfl
@[simp] theorem exec_pmovg (k) (w) (s : State) : exec (.pmovg k w) s = execPmovg k w s := rfl
@[simp] theorem exec_fadd (k) (w) (s : State) : exec (.fadd k w) s = execFadd k w s := rfl
@[simp] theorem exec_fsub (k) (w) (s : State) : exec (.fsub k w) s = execFsub k w s := rfl
@[simp] theorem exec_fmul (k) (w) (s : State) : exec (.fmul k w) s = execFmul k w s := rfl
@[simp] theorem exec_fdiv (k) (w) (s : State) : exec (.fdiv k w) s = execFdiv k w s := rfl
@[simp] theorem exec_fsqrt (k) (w) (s : State) : exec (.fsqrt k w) s = execFsqrt k w s := rfl
@[simp] theorem exec_ffma (k) (w) (s : State) : exec (.ffma k w) s = execFfma k w s := rfl
@[simp] theorem exec_fmin (k) (w) (s : State) : exec (.fmin k w) s = execFmin k w s := rfl
@[simp] theorem exec_fmax (k) (w) (s : State) : exec (.fmax k w) s = execFmax k w s := rfl
@[simp] theorem exec_fabs (k) (w) (s : State) : exec (.fabs k w) s = execFabs k w s := rfl
@[simp] theorem exec_fneg (k) (w) (s : State) : exec (.fneg k w) s = execFneg k w s := rfl
@[simp] theorem exec_cvtF2i (k) (w) (s : State) : exec (.cvtF2i k w) s = execCvtF2i k w s := rfl
@[simp] theorem exec_cvtF2in (k) (w) (s : State) : exec (.cvtF2in k w) s = execCvtF2in k w s := rfl
@[simp] theorem exec_cvtI2f (k) (w) (s : State) : exec (.cvtI2f k w) s = execCvtI2f k w s := rfl
@[simp] theorem exec_cvtF2bf (k) (w) (s : State) : exec (.cvtF2bf k w) s = execCvtF2bf k w s := rfl
@[simp] theorem exec_cvtF2h (k) (w) (s : State) : exec (.cvtF2h k w) s = execCvtF2h k w s := rfl
@[simp] theorem exec_cvtBf2f (k) (w) (s : State) : exec (.cvtBf2f k w) s = execCvtBf2f k w s := rfl
@[simp] theorem exec_cvtH2f (k) (w) (s : State) : exec (.cvtH2f k w) s = execCvtH2f k w s := rfl
@[simp] theorem exec_mfs (k) (w) (s : State) : exec (.mfs k w) s = execMfs k w s := rfl
@[simp] theorem exec_mts (k) (w) (s : State) : exec (.mts k w) s = execMts k w s := rfl
@[simp] theorem exec_fenceLocal (k) (w) (s : State) : exec (.fenceLocal k w) s = execFenceLocal k w s := rfl
@[simp] theorem exec_fenceIssue (k) (w) (s : State) : exec (.fenceIssue k w) s = execFenceIssue k w s := rfl
@[simp] theorem exec_trap (k) (w) (s : State) : exec (.trap k w) s = execTrap k w s := rfl
@[simp] theorem exec_rte (k) (w) (s : State) : exec (.rte k w) s = execRte k w s := rfl
@[simp] theorem exec_halt (k) (w) (s : State) : exec (.halt k w) s = execHalt k w s := rfl
@[simp] theorem exec_haltDone (k) (s : State) : exec (.haltDone k) s = execHaltDone k s := rfl
@[simp] theorem exec_waitv (k) (w) (s : State) : exec (.waitv k w) s = execWaitv k w s := rfl
@[simp] theorem exec_waitvWake (k) (s : State) : exec (.waitvWake k) s = execWaitvWake k s := rfl
@[simp] theorem exec_waitvCountExpired (k) (s : State) : exec (.waitvCountExpired k) s = execWaitvCountExpired k s := rfl
@[simp] theorem exec_bwait (k) (w) (s : State) : exec (.bwait k w) s = execBwait k w s := rfl
@[simp] theorem exec_nop (k) (w) (s : State) : exec (.nop k w) s = execNop k w s := rfl
@[simp] theorem exec_tload (k) (b) (s : State) : exec (.tload k b) s = execTload k b s := rfl
@[simp] theorem exec_tstore (k) (b) (s : State) : exec (.tstore k b) s = execTstore k b s := rfl
@[simp] theorem exec_xmov (k) (b) (s : State) : exec (.xmov k b) s = execXmov k b s := rfl
@[simp] theorem exec_mma (k) (b) (s : State) : exec (.mma k b) s = execMma k b s := rfl
@[simp] theorem exec_conv (k) (b) (s : State) : exec (.conv k b) s = execConv k b s := rfl
@[simp] theorem exec_aflush (k) (b) (s : State) : exec (.aflush k b) s = execAflush k b s := rfl
@[simp] theorem exec_ewise (k) (b) (s : State) : exec (.ewise k b) s = execEwise k b s := rfl
@[simp] theorem exec_sfn (k) (b) (s : State) : exec (.sfn k b) s = execSfn k b s := rfl
@[simp] theorem exec_rowstat (k) (b) (s : State) : exec (.rowstat k b) s = execRowstat k b s := rfl
@[simp] theorem exec_smax1 (k) (b) (s : State) : exec (.smax1 k b) s = execSmax1 k b s := rfl
@[simp] theorem exec_smax2 (k) (b) (s : State) : exec (.smax2 k b) s = execSmax2 k b s := rfl
@[simp] theorem exec_smaxc (k) (b) (s : State) : exec (.smaxc k b) s = execSmaxc k b s := rfl
@[simp] theorem exec_norm (k) (b) (s : State) : exec (.norm k b) s = execNorm k b s := rfl
@[simp] theorem exec_qnt (k) (b) (s : State) : exec (.qnt k b) s = execQnt k b s := rfl
@[simp] theorem exec_dqnt (k) (b) (s : State) : exec (.dqnt k b) s = execDqnt k b s := rfl
@[simp] theorem exec_csend (k) (b) (s : State) : exec (.csend k b) s = execCsend k b s := rfl
@[simp] theorem exec_cwait (k) (b) (s : State) : exec (.cwait k b) s = execCwait k b s := rfl
@[simp] theorem exec_cwaitTimeout (k) (s : State) : exec (.cwaitTimeout k) s = execCwaitTimeout k s := rfl
@[simp] theorem exec_headcount (k) (b) (s : State) : exec (.headcount k b) s = execHeadcount k b s := rfl
@[simp] theorem exec_sync (k) (b) (s : State) : exec (.sync k b) s = execSync k b s := rfl
@[simp] theorem exec_syncTimeout (k) (s : State) : exec (.syncTimeout k) s = execSyncTimeout k s := rfl
@[simp] theorem exec_farinv (k) (b) (s : State) : exec (.farinv k b) s = execFarinv k b s := rfl
@[simp] theorem exec_tblsel (k) (b) (s : State) : exec (.tblsel k b) s = execTblsel k b s := rfl
@[simp] theorem exec_broadStart (k) (s : State) : exec (.broadStart k) s = execBroadStart k s := rfl
@[simp] theorem exec_broadRetire (k) (s : State) : exec (.broadRetire k) s = execBroadRetire k s := rfl
@[simp] theorem exec_bankFlip (k) (s : State) : exec (.bankFlip k) s = execBankFlip k s := rfl
@[simp] theorem exec_patrolScrub (unit) (found) (s : State) : exec (.patrolScrub unit found) s = execPatrolScrub unit found s := rfl
@[simp] theorem exec_regulatorRetest (x) (die) (dt) (s : State) : exec (.regulatorRetest x die dt) s = execRegulatorRetest x die dt s := rfl
@[simp] theorem exec_channelFailed (pc) (s : State) : exec (.channelFailed pc) s = execChannelFailed pc s := rfl
@[simp] theorem exec_spareRecalibrated (pc) (s : State) : exec (.spareRecalibrated pc) s = execSpareRecalibrated pc s := rfl
@[simp] theorem exec_spareFillDone (pc) (s : State) : exec (.spareFillDone pc) s = execSpareFillDone pc s := rfl
@[simp] theorem exec_pkgTempRead (p) (t) (s : State) : exec (.pkgTempRead p t) s = execPkgTempRead p t s := rfl
@[simp] theorem exec_memDirtyEnable (src) (s : State) : exec (.memDirtyEnable src) s = execMemDirtyEnable src s := rfl
@[simp] theorem exec_swap (src) (s : State) : exec (.swap src) s = execSwap src s := rfl
@[simp] theorem exec_dirtyBitmapWritten (s : State) : exec (.dirtyBitmapWritten) s = execDirtyBitmapWritten s := rfl
@[simp] theorem exec_loopbackMode (src) (pc) (mode) (s : State) : exec (.loopbackMode src pc mode) s = execLoopbackMode src pc mode s := rfl
@[simp] theorem exec_ringEnable (src) (n) (v) (s : State) : exec (.ringEnable src n v) s = execRingEnable src n v s := rfl
@[simp] theorem exec_ringDisable (src) (n) (v) (s : State) : exec (.ringDisable src n v) s = execRingDisable src n v s := rfl
@[simp] theorem exec_doorbell (src) (n) (off) (size) (v) (s : State) : exec (.doorbell src n off size v) s = execDoorbell src n off size v s := rfl
@[simp] theorem exec_doorbellRead (n) (off) (size) (s : State) : exec (.doorbellRead n off size) s = execDoorbellRead n off size s := rfl
@[simp] theorem exec_descriptorStart (n) (s : State) : exec (.descriptorStart n) s = execDescriptorStart n s := rfl
@[simp] theorem exec_seqRecheck (n) (s : State) : exec (.seqRecheck n) s = execSeqRecheck n s := rfl
@[simp] theorem exec_seqWaitTimeout (n) (s : State) : exec (.seqWaitTimeout n) s = execSeqWaitTimeout n s := rfl
@[simp] theorem exec_descriptorFinish (n) (s : State) : exec (.descriptorFinish n) s = execDescriptorFinish n s := rfl
@[simp] theorem exec_ringFaultedRetry (src) (n) (s : State) : exec (.ringFaultedRetry src n) s = execRingFaultedRetry src n s := rfl
@[simp] theorem exec_ringStoppedClear (src) (n) (s : State) : exec (.ringStoppedClear src n) s = execRingStoppedClear src n s := rfl
@[simp] theorem exec_evtRingEnable (src) (e) (v) (s : State) : exec (.evtRingEnable src e v) s = execEvtRingEnable src e v s := rfl
@[simp] theorem exec_lantern (s : State) : exec (.lantern) s = execLantern s := rfl
@[simp] theorem exec_lanternPeriodWrite (src) (us) (s : State) : exec (.lanternPeriodWrite src us) s = execLanternPeriodWrite src us s := rfl
@[simp] theorem exec_nopDesc (n) (idx) (s : State) : exec (.nopDesc n idx) s = execNopDesc n idx s := rfl
@[simp] theorem exec_wait (n) (idx) (s : State) : exec (.wait n idx) s = execWait n idx s := rfl
@[simp] theorem exec_waitPoll (n) (idx) (s : State) : exec (.waitPoll n idx) s = execWaitPoll n idx s := rfl
@[simp] theorem exec_waitTimeout (n) (idx) (s : State) : exec (.waitTimeout n idx) s = execWaitTimeout n idx s := rfl
@[simp] theorem exec_write (n) (idx) (s : State) : exec (.write n idx) s = execWrite n idx s := rfl
@[simp] theorem exec_launch (n) (idx) (s : State) : exec (.launch n idx) s = execLaunch n idx s := rfl
@[simp] theorem exec_programLoad (n) (idx) (s : State) : exec (.programLoad n idx) s = execProgramLoad n idx s := rfl
@[simp] theorem exec_stepLoad (n) (idx) (s : State) : exec (.stepLoad n idx) s = execStepLoad n idx s := rfl
@[simp] theorem exec_stepTableValidated (k) (s : State) : exec (.stepTableValidated k) s = execStepTableValidated k s := rfl
@[simp] theorem exec_sfnLoad (n) (idx) (s : State) : exec (.sfnLoad n idx) s = execSfnLoad n idx s := rfl
@[simp] theorem exec_sfnTableChecked (k) (slot) (s : State) : exec (.sfnTableChecked k slot) s = execSfnTableChecked k slot s := rfl
@[simp] theorem exec_copy (n) (idx) (s : State) : exec (.copy n idx) s = execCopy n idx s := rfl
@[simp] theorem exec_fill (n) (idx) (s : State) : exec (.fill n idx) s = execFill n idx s := rfl
@[simp] theorem exec_put (n) (idx) (s : State) : exec (.put n idx) s = execPut n idx s := rfl
@[simp] theorem exec_get (n) (idx) (s : State) : exec (.get n idx) s = execGet n idx s := rfl
@[simp] theorem exec_laserShutdown (s : State) : exec (.laserShutdown) s = execLaserShutdown s := rfl
@[simp] theorem exec_lsmAlert (m) (status) (s : State) : exec (.lsmAlert m status) s = execLsmAlert m status s := rfl
@[simp] theorem exec_lsmPresenceChange (m) (present) (s : State) : exec (.lsmPresenceChange m present) s = execLsmPresenceChange m present s := rfl
@[simp] theorem exec_opticLsmEnable (src) (m) (enable) (id) (powersOk) (s : State) : exec (.opticLsmEnable src m enable id powersOk) s = execOpticLsmEnable src m enable id powersOk s := rfl
@[simp] theorem exec_idleFlitTimer (c) (s : State) : exec (.idleFlitTimer c) s = execIdleFlitTimer c s := rfl
@[simp] theorem exec_lightLost (f) (s : State) : exec (.lightLost f) s = execLightLost f s := rfl
@[simp] theorem exec_lockLoopUpdate (c) (heater) (s : State) : exec (.lockLoopUpdate c heater) s = execLockLoopUpdate c heater s := rfl
@[simp] theorem exec_lineMonitor (f) (tones) (s : State) : exec (.lineMonitor f tones) s = execLineMonitor f tones s := rfl
@[simp] theorem exec_calPassStart (e) (s : State) : exec (.calPassStart e) s = execCalPassStart e s := rfl
@[simp] theorem exec_calNow (src) (e) (s : State) : exec (.calNow src e) s = execCalNow src e s := rfl
@[simp] theorem exec_calScanDone (c) (setpoint) (s : State) : exec (.calScanDone c setpoint) s = execCalScanDone c setpoint s := rfl
@[simp] theorem exec_serWindow (c) (corrected) (s : State) : exec (.serWindow c corrected) s = execSerWindow c corrected s := rfl
@[simp] theorem exec_sweepStep (c) (ev) (s : State) : exec (.sweepStep c ev) s = execSweepStep c ev s := rfl
@[simp] theorem exec_linePowerLow (m) (line) (s : State) : exec (.linePowerLow m line) s = execLinePowerLow m line s := rfl
@[simp] theorem exec_spareSettled (m) (settled) (s : State) : exec (.spareSettled m settled) s = execSpareSettled m settled s := rfl
@[simp] theorem exec_ringsReacquired (m) (fibers) (s : State) : exec (.ringsReacquired m fibers) s = execRingsReacquired m fibers s := rfl
@[simp] theorem exec_substPolicy (f) (s : State) : exec (.substPolicy f) s = execSubstPolicy f s := rfl
@[simp] theorem exec_substReleased (x) (s : State) : exec (.substReleased x) s = execSubstReleased x s := rfl
@[simp] theorem exec_quiesce (src) (e) (force) (s : State) : exec (.quiesce src e force) s = execQuiesce src e force s := rfl
@[simp] theorem exec_quiesceDone (e) (s : State) : exec (.quiesceDone e) s = execQuiesceDone e s := rfl
@[simp] theorem exec_engineBringUp (src) (e) (part) (s : State) : exec (.engineBringUp src e part) s = execEngineBringUp src e part s := rfl
@[simp] theorem exec_engineUp (e) (fibers) (s : State) : exec (.engineUp e fibers) s = execEngineUp e fibers s := rfl
@[simp] theorem exec_dataFlit (c) (f) (symErrs) (s : State) : exec (.dataFlit c f symErrs) s = execDataFlit c f symErrs s := rfl
@[simp] theorem exec_idleFlit (c) (f) (s : State) : exec (.idleFlit c f) s = execIdleFlit c f s := rfl
@[simp] theorem exec_fencedIdle (c) (f) (s : State) : exec (.fencedIdle c f) s = execFencedIdle c f s := rfl
@[simp] theorem exec_trainingFlit (c) (f) (s : State) : exec (.trainingFlit c f) s = execTrainingFlit c f s := rfl
@[simp] theorem exec_alignmentBlock (c) (blk) (s : State) : exec (.alignmentBlock c blk) s = execAlignmentBlock c blk s := rfl
@[simp] theorem exec_mismatch (c) (f) (s : State) : exec (.mismatch c f) s = execMismatch c f s := rfl
@[simp] theorem exec_txOk (c) (f) (s : State) : exec (.txOk c f) s = execTxOk c f s := rfl
@[simp] theorem exec_quiesceNotice (c) (f) (s : State) : exec (.quiesceNotice c f) s = execQuiesceNotice c f s := rfl
@[simp] theorem exec_calQuality (c) (f) (s : State) : exec (.calQuality c f) s = execCalQuality c f s := rfl
@[simp] theorem exec_answer (c) (f) (s : State) : exec (.answer c f) s = execAnswer c f s := rfl
@[simp] theorem exec_controlResend (f) (ctrl) (s : State) : exec (.controlResend f ctrl) s = execControlResend f ctrl s := rfl
@[simp] theorem exec_linkAckTimeout (nb) (s : State) : exec (.linkAckTimeout nb) s = execLinkAckTimeout nb s := rfl
@[simp] theorem exec_linkResume (nb) (s : State) : exec (.linkResume nb) s = execLinkResume nb s := rfl
@[simp] theorem exec_linkFail (nb) (s : State) : exec (.linkFail nb) s = execLinkFail nb s := rfl
@[simp] theorem exec_packetForward (nb) (p) (s : State) : exec (.packetForward nb p) s = execPacketForward nb p s := rfl
@[simp] theorem exec_creditSend (nb) (s : State) : exec (.creditSend nb) s = execCreditSend nb s := rfl
@[simp] theorem exec_linkHoldTimeout (nb) (s : State) : exec (.linkHoldTimeout nb) s = execLinkHoldTimeout nb s := rfl
@[simp] theorem exec_packetInject (cls) (d) (s : State) : exec (.packetInject cls d) s = execPacketInject cls d s := rfl
@[simp] theorem exec_reqLoad (p) (s : State) : exec (.reqLoad p) s = execReqLoad p s := rfl
@[simp] theorem exec_reqStore (p) (s : State) : exec (.reqStore p) s = execReqStore p s := rfl
@[simp] theorem exec_reqAadd (p) (s : State) : exec (.reqAadd p) s = execReqAadd p s := rfl
@[simp] theorem exec_reqAmin (p) (s : State) : exec (.reqAmin p) s = execReqAmin p s := rfl
@[simp] theorem exec_reqAmax (p) (s : State) : exec (.reqAmax p) s = execReqAmax p s := rfl
@[simp] theorem exec_reqAand (p) (s : State) : exec (.reqAand p) s = execReqAand p s := rfl
@[simp] theorem exec_reqAor (p) (s : State) : exec (.reqAor p) s = execReqAor p s := rfl
@[simp] theorem exec_reqAxor (p) (s : State) : exec (.reqAxor p) s = execReqAxor p s := rfl
@[simp] theorem exec_reqAswap (p) (s : State) : exec (.reqAswap p) s = execReqAswap p s := rfl
@[simp] theorem exec_reqAcas (p) (s : State) : exec (.reqAcas p) s = execReqAcas p s := rfl
@[simp] theorem exec_reqAcas2 (p) (s : State) : exec (.reqAcas2 p) s = execReqAcas2 p s := rfl
@[simp] theorem exec_reqAfadd (p) (s : State) : exec (.reqAfadd p) s = execReqAfadd p s := rfl
@[simp] theorem exec_drain (p) (s : State) : exec (.drain p) s = execDrain p s := rfl
@[simp] theorem exec_republishData (p) (s : State) : exec (.republishData p) s = execRepublishData p s := rfl
@[simp] theorem exec_republishNotice (p) (s : State) : exec (.republishNotice p) s = execRepublishNotice p s := rfl
@[simp] theorem exec_msgPut (p) (s : State) : exec (.msgPut p) s = execMsgPut p s := rfl
@[simp] theorem exec_msgGet (p) (s : State) : exec (.msgGet p) s = execMsgGet p s := rfl
@[simp] theorem exec_notify (p) (s : State) : exec (.notify p) s = execNotify p s := rfl
@[simp] theorem exec_mread (p) (s : State) : exec (.mread p) s = execMread p s := rfl
@[simp] theorem exec_mwrite (p) (s : State) : exec (.mwrite p) s = execMwrite p s := rfl
@[simp] theorem exec_timeRequest (p) (t2) (t3) (s : State) : exec (.timeRequest p t2 t3) s = execTimeRequest p t2 t3 s := rfl
@[simp] theorem exec_rdata (p) (t4) (s : State) : exec (.rdata p t4) s = execRdata p t4 s := rfl
@[simp] theorem exec_rspAck (p) (s : State) : exec (.rspAck p) s = execRspAck p s := rfl
@[simp] theorem exec_reqTimeout (cls) (d) (s : State) : exec (.reqTimeout cls d) s = execReqTimeout cls d s := rfl
@[simp] theorem exec_dedupExpire (src) (tag) (s : State) : exec (.dedupExpire src tag) s = execDedupExpire src tag s := rfl
@[simp] theorem exec_routeTblLoad (src) (s : State) : exec (.routeTblLoad src) s = execRouteTblLoad src s := rfl
@[simp] theorem exec_routeTblChecked (s : State) : exec (.routeTblChecked) s = execRouteTblChecked s := rfl
@[simp] theorem exec_flip (src) (s : State) : exec (.flip src) s = execFlip src s := rfl
@[simp] theorem exec_epochRetire (s : State) : exec (.epochRetire) s = execEpochRetire s := rfl
@[simp] theorem exec_fabRtLoad (src) (v) (s : State) : exec (.fabRtLoad src v) s = execFabRtLoad src v s := rfl
@[simp] theorem exec_fabRtLoadDone (s : State) : exec (.fabRtLoadDone) s = execFabRtLoadDone s := rfl
@[simp] theorem exec_replDeclare (src) (set) (v) (s : State) : exec (.replDeclare src set v) s = execReplDeclare src set v s := rfl
@[simp] theorem exec_republishStart (n) (idx) (s : State) : exec (.republishStart n idx) s = execRepublishStart n idx s := rfl
@[simp] theorem exec_rollcall (n) (idx) (s : State) : exec (.rollcall n idx) s = execRollcall n idx s := rfl
@[simp] theorem exec_join (p) (s : State) : exec (.join p) s = execJoin p s := rfl
@[simp] theorem exec_ready (p) (s : State) : exec (.ready p) s = execReady p s := rfl
@[simp] theorem exec_rollcallMismatch (p) (s : State) : exec (.rollcallMismatch p) s = execRollcallMismatch p s := rfl
@[simp] theorem exec_rollcallTimeout (n) (idx) (s : State) : exec (.rollcallTimeout n idx) s = execRollcallTimeout n idx s := rfl
@[simp] theorem exec_collective (n) (idx) (s : State) : exec (.collective n idx) s = execCollective n idx s := rfl
@[simp] theorem exec_collectiveCurrent (h) (s : State) : exec (.collectiveCurrent h) s = execCollectiveCurrent h s := rfl
@[simp] theorem exec_grant (p) (s : State) : exec (.grant p) s = execGrant p s := rfl
@[simp] theorem exec_cdata (p) (s : State) : exec (.cdata p) s = execCdata p s := rfl
@[simp] theorem exec_collAck (p) (s : State) : exec (.collAck p) s = execCollAck p s := rfl
@[simp] theorem exec_chunkResend (h) (j) (s : State) : exec (.chunkResend h j) s = execChunkResend h j s := rfl
@[simp] theorem exec_lost (p) (s : State) : exec (.lost p) s = execLost p s := rfl
@[simp] theorem exec_fail (p) (s : State) : exec (.fail p) s = execFail p s := rfl
@[simp] theorem exec_tallyDigest (p) (s : State) : exec (.tallyDigest p) s = execTallyDigest p s := rfl
@[simp] theorem exec_tallyVerdict (p) (s : State) : exec (.tallyVerdict p) s = execTallyVerdict p s := rfl
@[simp] theorem exec_collTimeout (h) (s : State) : exec (.collTimeout h) s = execCollTimeout h s := rfl
@[simp] theorem exec_disband (n) (idx) (s : State) : exec (.disband n idx) s = execDisband n idx s := rfl
@[simp] theorem exec_frameRx (port) (frame) (s : State) : exec (.frameRx port frame) s = execFrameRx port frame s := rfl
@[simp] theorem exec_arpRequest (port) (frame) (s : State) : exec (.arpRequest port frame) s = execArpRequest port frame s := rfl
@[simp] theorem exec_icmpEcho (port) (frame) (s : State) : exec (.icmpEcho port frame) s = execIcmpEcho port frame s := rfl
@[simp] theorem exec_igmpQuery (port) (frame) (s : State) : exec (.igmpQuery port frame) s = execIgmpQuery port frame s := rfl
@[simp] theorem exec_ptpSync (port) (msg) (t2) (s : State) : exec (.ptpSync port msg t2) s = execPtpSync port msg t2 s := rfl
@[simp] theorem exec_ptpDelayResp (port) (msg) (s : State) : exec (.ptpDelayResp port msg) s = execPtpDelayResp port msg s := rfl
@[simp] theorem exec_ptpAnnounce (port) (msg) (s : State) : exec (.ptpAnnounce port msg) s = execPtpAnnounce port msg s := rfl
@[simp] theorem exec_announceTimeout (s : State) : exec (.announceTimeout) s = execAnnounceTimeout s := rfl
@[simp] theorem exec_fabricTimeTick (t1) (s : State) : exec (.fabricTimeTick t1) s = execFabricTimeTick t1 s := rfl
@[simp] theorem exec_videoPacket (port) (pkt) (rxNs) (s : State) : exec (.videoPacket port pkt rxNs) s = execVideoPacket port pkt rxNs s := rfl
@[simp] theorem exec_frameTimeout (flow) (s : State) : exec (.frameTimeout flow) s = execFrameTimeout flow s := rfl
@[simp] theorem exec_flowOpen (n) (idx) (s : State) : exec (.flowOpen n idx) s = execFlowOpen n idx s := rfl
@[simp] theorem exec_flowClose (n) (idx) (s : State) : exec (.flowClose n idx) s = execFlowClose n idx s := rfl
@[simp] theorem exec_exrDatagram (port) (src) (srcPort) (data) (s : State) : exec (.exrDatagram port src srcPort data) s = execExrDatagram port src srcPort data s := rfl
@[simp] theorem exec_exrReply (n) (idx) (s : State) : exec (.exrReply n idx) s = execExrReply n idx s := rfl
@[simp] theorem exec_exrKeyExpire (key) (s : State) : exec (.exrKeyExpire key) s = execExrKeyExpire key s := rfl
@[simp] theorem exec_exrEnable (src) (v) (s : State) : exec (.exrEnable src v) s = execExrEnable src v s := rfl
@[simp] theorem exec_exrDisable (src) (v) (s : State) : exec (.exrDisable src v) s = execExrDisable src v s := rfl
@[simp] theorem exec_nvmeTcpSegment (port) (conn) (data) (s : State) : exec (.nvmeTcpSegment port conn data) s = execNvmeTcpSegment port conn data s := rfl
@[simp] theorem exec_portLinkChange (port) (up) (s : State) : exec (.portLinkChange port up) s = execPortLinkChange port up s := rfl
@[simp] theorem exec_portQuiesce (src) (v) (s : State) : exec (.portQuiesce src v) s = execPortQuiesce src v s := rfl
@[simp] theorem exec_portQuiesceDone (port) (s : State) : exec (.portQuiesceDone port) s = execPortQuiesceDone port s := rfl
@[simp] theorem exec_snapCapture (n) (idx) (s : State) : exec (.snapCapture n idx) s = execSnapCapture n idx s := rfl
@[simp] theorem exec_snapRestore (n) (idx) (s : State) : exec (.snapRestore n idx) s = execSnapRestore n idx s := rfl
@[simp] theorem exec_snapDigest (n) (idx) (s : State) : exec (.snapDigest n idx) s = execSnapDigest n idx s := rfl
@[simp] theorem exec_snapShadow (n) (idx) (s : State) : exec (.snapShadow n idx) s = execSnapShadow n idx s := rfl
@[simp] theorem exec_snapSalvageQuery (n) (idx) (s : State) : exec (.snapSalvageQuery n idx) s = execSnapSalvageQuery n idx s := rfl
@[simp] theorem exec_snapEnable (src) (v) (s : State) : exec (.snapEnable src v) s = execSnapEnable src v s := rfl
@[simp] theorem exec_layer2Cascade (x) (s : State) : exec (.layer2Cascade x) s = execLayer2Cascade x s := rfl
@[simp] theorem exec_layer3Cascade (x) (s : State) : exec (.layer3Cascade x) s = execLayer3Cascade x s := rfl
@[simp] theorem exec_cascadeDone (x) (layer) (ok) (s : State) : exec (.cascadeDone x layer ok) s = execCascadeDone x layer ok s := rfl
@[simp] theorem exec_snapshotDue (x) (s : State) : exec (.snapshotDue x) s = execSnapshotDue x s := rfl
@[simp] theorem exec_runSecond (x) (s : State) : exec (.runSecond x) s = execRunSecond x s := rfl
@[simp] theorem exec_salvageEnter (s : State) : exec (.salvageEnter) s = execSalvageEnter s := rfl
@[simp] theorem exec_salvage (p) (s : State) : exec (.salvage p) s = execSalvage p s := rfl
@[simp] theorem exec_abort (p) (s : State) : exec (.abort p) s = execAbort p s := rfl
@[simp] theorem exec_errAbort (src) (v) (s : State) : exec (.errAbort src v) s = execErrAbort src v s := rfl
@[simp] theorem exec_abortClear (src) (x) (s : State) : exec (.abortClear src x) s = execAbortClear src x s := rfl
@[simp] theorem exec_resetCore (src) (k) (s : State) : exec (.resetCore src k) s = execResetCore src k s := rfl
@[simp] theorem exec_resetCluster (src) (c) (s : State) : exec (.resetCluster src c) s = execResetCluster src c s := rfl
@[simp] theorem exec_resetDevice (src) (s : State) : exec (.resetDevice src) s = execResetDevice src s := rfl
@[simp] theorem exec_resetOptic (src) (e) (s : State) : exec (.resetOptic src e) s = execResetOptic src e s := rfl
@[simp] theorem exec_resetChannel (src) (pc) (s : State) : exec (.resetChannel src pc) s = execResetChannel src pc s := rfl
@[simp] theorem exec_fenceDrained (s : State) : exec (.fenceDrained) s = execFenceDrained s := rfl
@[simp] theorem exec_dump (deaf) (s : State) : exec (.dump deaf) s = execDump deaf s := rfl
@[simp] theorem exec_dumpDone (s : State) : exec (.dumpDone) s = execDumpDone s := rfl
@[simp] theorem exec_domainResetDone (s : State) : exec (.domainResetDone) s = execDomainResetDone s := rfl
@[simp] theorem exec_suspectReplay (x) (hung) (s : State) : exec (.suspectReplay x hung) s = execSuspectReplay x hung s := rfl
@[simp] theorem exec_hangDetect (e) (s : State) : exec (.hangDetect e) s = execHangDetect e s := rfl
@[simp] theorem exec_shadowRead (deaf) (s : State) : exec (.shadowRead deaf) s = execShadowRead deaf s := rfl
@[simp] theorem exec_failsafeEnter (cause) (s : State) : exec (.failsafeEnter cause) s = execFailsafeEnter cause s := rfl
@[simp] theorem exec_rangerWatchdog (s : State) : exec (.rangerWatchdog) s = execRangerWatchdog s := rfl
@[simp] theorem exec_lockstepPair (pair) (s : State) : exec (.lockstepPair pair) s = execLockstepPair pair s := rfl
@[simp] theorem exec_thermosUpdate (p) (s : State) : exec (.thermosUpdate p) s = execThermosUpdate p s := rfl
@[simp] theorem exec_diodeSample (t) (s : State) : exec (.diodeSample t) s = execDiodeSample t s := rfl
@[simp] theorem exec_thermistorRead (r) (s : State) : exec (.thermistorRead r) s = execThermistorRead r s := rfl
@[simp] theorem exec_throttleDecay (j) (s : State) : exec (.throttleDecay j) s = execThrottleDecay j s := rfl
@[simp] theorem exec_warningCeilingTick (s : State) : exec (.warningCeilingTick) s = execWarningCeilingTick s := rfl
@[simp] theorem exec_powerSample (watts) (mv) (s : State) : exec (.powerSample watts mv) s = execPowerSample watts mv s := rfl
@[simp] theorem exec_powerPolicy (s : State) : exec (.powerPolicy) s = execPowerPolicy s := rfl
@[simp] theorem exec_dividerMove (j) (s : State) : exec (.dividerMove j) s = execDividerMove j s := rfl
@[simp] theorem exec_pllStep (j) (s : State) : exec (.pllStep j) s = execPllStep j s := rfl
@[simp] theorem exec_supplyStageEnter (stage) (mv) (rail) (s : State) : exec (.supplyStageEnter stage mv rail) s = execSupplyStageEnter stage mv rail s := rfl
@[simp] theorem exec_supplyStageLeave (mv) (s : State) : exec (.supplyStageLeave mv) s = execSupplyStageLeave mv s := rfl
@[simp] theorem exec_selfRefreshExit (s : State) : exec (.selfRefreshExit) s = execSelfRefreshExit s := rfl
@[simp] theorem exec_brownout (p) (s : State) : exec (.brownout p) s = execBrownout p s := rfl
@[simp] theorem exec_droopDip (k) (s : State) : exec (.droopDip k) s = execDroopDip k s := rfl
@[simp] theorem exec_droopRestore (k) (s : State) : exec (.droopRestore k) s = execDroopRestore k s := rfl
@[simp] theorem exec_standbyRelease (s : State) : exec (.standbyRelease) s = execStandbyRelease s := rfl
@[simp] theorem exec_bulkRelease (s : State) : exec (.bulkRelease) s = execBulkRelease s := rfl
@[simp] theorem exec_bootStepDone (r) (s : State) : exec (.bootStepDone r) s = execBootStepDone r s := rfl
@[simp] theorem exec_adjacencyUp (a) (trained) (manA) (manB) (s : State) : exec (.adjacencyUp a trained manA manB) s = execAdjacencyUp a trained manA manB s := rfl
@[simp] theorem exec_resetNAssert (s : State) : exec (.resetNAssert) s = execResetNAssert s := rfl
@[simp] theorem exec_updateFirmware (src) (len) (s : State) : exec (.updateFirmware src len) s = execUpdateFirmware src len s := rfl
@[simp] theorem exec_updateConfig (src) (len) (s : State) : exec (.updateConfig src len) s = execUpdateConfig src len s := rfl
@[simp] theorem exec_updateCalibration (src) (len) (s : State) : exec (.updateCalibration src len) s = execUpdateCalibration src len s := rfl
@[simp] theorem exec_switch (src) (s : State) : exec (.switch src) s = execSwitch src s := rfl
@[simp] theorem exec_switchTimeout (s : State) : exec (.switchTimeout) s = execSwitchTimeout s := rfl
@[simp] theorem exec_keyInstall (src) (permit) (arg) (s : State) : exec (.keyInstall src permit arg) s = execKeyInstall src permit arg s := rfl
@[simp] theorem exec_keyRevoke (src) (permit) (arg) (s : State) : exec (.keyRevoke src permit arg) s = execKeyRevoke src permit arg s := rfl
@[simp] theorem exec_debugUnlock (src) (permit) (arg) (s : State) : exec (.debugUnlock src permit arg) s = execDebugUnlock src permit arg s := rfl
@[simp] theorem exec_downgrade (src) (permit) (arg) (s : State) : exec (.downgrade src permit arg) s = execDowngrade src permit arg s := rfl
@[simp] theorem exec_fuseProgram (src) (permit) (arg) (s : State) : exec (.fuseProgram src permit arg) s = execFuseProgram src permit arg s := rfl
@[simp] theorem exec_factoryReset (src) (permit) (arg) (s : State) : exec (.factoryReset src permit arg) s = execFactoryReset src permit arg s := rfl
@[simp] theorem exec_sealClear (src) (permit) (arg) (s : State) : exec (.sealClear src permit arg) s = execSealClear src permit arg s := rfl
@[simp] theorem exec_presencePress (s : State) : exec (.presencePress) s = execPresencePress s := rfl
@[simp] theorem exec_presenceWindowExpire (s : State) : exec (.presenceWindowExpire) s = execPresenceWindowExpire s := rfl
@[simp] theorem exec_sealSample (isOpen) (s : State) : exec (.sealSample isOpen) s = execSealSample isOpen s := rfl
@[simp] theorem exec_mgmtRead (off) (s : State) : exec (.mgmtRead off) s = execMgmtRead off s := rfl
@[simp] theorem exec_mgmtWrite (off) (v) (s : State) : exec (.mgmtWrite off v) s = execMgmtWrite off v s := rfl
@[simp] theorem exec_mgmtTrail (pos) (s : State) : exec (.mgmtTrail pos) s = execMgmtTrail pos s := rfl
@[simp] theorem exec_updCheck (img) (s : State) : exec (.updCheck img) s = execUpdCheck img s := rfl
@[simp] theorem exec_updWrite (kind) (data) (s : State) : exec (.updWrite kind data) s = execUpdWrite kind data s := rfl
@[simp] theorem exec_mgmtPresence (code) (permit) (arg) (s : State) : exec (.mgmtPresence code permit arg) s = execMgmtPresence code permit arg s := rfl
@[simp] theorem exec_updCheckExpire (s : State) : exec (.updCheckExpire) s = execUpdCheckExpire s := rfl
@[simp] theorem exec_updateDone (ok) (s : State) : exec (.updateDone ok) s = execUpdateDone ok s := rfl
@[simp] theorem exec_switchDone (s : State) : exec (.switchDone) s = execSwitchDone s := rfl
@[simp] theorem exec_standbySourceChange (vbulk) (vstby) (s : State) : exec (.standbySourceChange vbulk vstby) s = execStandbySourceChange vbulk vstby s := rfl

end Sys2Proof.Machine
end

