-- ==== Sys2Proof/Laws/Keep.lean ====
section
/-! SUPPORT. What no operation undoes, as one relation between a starting state and any later one: the queue is untouched, blown fuses
stay blown, memory and the setup window keep their canonical form. The files named Keep… hold one lemma for each operation that
answers a state. -/
namespace Sys2Proof.Machine

set_option Elab.async false

/-- `s` still keeps what the commands that led from `r` to it must keep. -/
structure State.Keeps (r s : State) : Prop where
  queue : s.pending = r.pending
  fuses : r.fuses.Kept s.fuses
  mem : Memory.wf s.mem = true
  setup : Setup.wf s.setup

theorem Fuses.Kept.refl (a : Fuses) : a.Kept a := ⟨fun _ h => h, fun _ h => h, Nat.le_refl _, by simp⟩

theorem State.Keeps.refl (s : State) (h : s.Sound) : s.Keeps s := ⟨rfl, Fuses.Kept.refl _, h.1, h.2⟩

theorem State.Keeps.sound {r s : State} (h : r.Keeps s) : s.Sound := ⟨h.3, h.4⟩

/-- An update of other fields keeps everything. -/
theorem State.keeps_with {r : State} (s : State) (a1 : Vector Core 128) (a2 : List Barrier) (a3 : List Nat) (a5 : List Nat) (a6 : List (Nat × Bool)) (a7 : List (Nat × Nat)) (a8 : List Nat) (a9 : List Nat) (a10 : Nat) (a11 : List (Nat × Int)) (a12 : List Nat) (a13 : Bool) (a14 : List Nat) (a16 : List Desc) (a17 : List Fetch) (a18 : List HeldCpl) (a19 : List Launch) (a20 : List (Nat × BitVec 32)) (a21 : List (Nat × RecSrc)) (a22 : List Event) (a23 : List Event) (a24 : Word) (a25 : List (Nat × BitVec 32)) (a26 : Fabric) (a27 : List Link) (a28 : Optics) (a29 : List (Nat × Strag)) (a30 : List ExrReq) (a31 : List Group) (a32 : List Join) (a33 : Front) (a34 : Snap) (a35 : Power) (a36 : Boot) (a37 : List Reset) (a38 : List DumpReq) (a39 : List Shadow) (a40 : Bool) (a41 : Bool) (a42 : List (Nat × Byte)) (a43 : Bool) (a44 : List (Nat × Byte)) (a45 : List TrailRec) (a46 : Nat) (a47 : Nat) (a49 : Nat) (a50 : Bool) (a51 : BitVec 16) (a52 : List (Coord × BitVec 16)) (a53 : List Output) (a54 : Word) (a55 : Int) (a56 : Nat) (h : r.Keeps s) : r.Keeps (State.mk s.pending a1 a2 a3 s.mem a5 a6 a7 a8 a9 a10 a11 a12 a13 a14 s.setup a16 a17 a18 a19 a20 a21 a22 a23 a24 a25 a26 a27 a28 a29 a30 a31 a32 a33 a34 a35 a36 a37 a38 a39 a40 a41 a42 a43 a44 a45 a46 a47 s.fuses a49 a50 a51 a52 a53 a54 a55 a56) := ⟨h.1, h.2, h.3, h.4⟩

/-- An update of memory in canonical form. -/
theorem State.keeps_mem {r : State} (s : State) (m : List Host.Cell) (a1 : Vector Core 128) (a2 : List Barrier) (a3 : List Nat) (a5 : List Nat) (a6 : List (Nat × Bool)) (a7 : List (Nat × Nat)) (a8 : List Nat) (a9 : List Nat) (a10 : Nat) (a11 : List (Nat × Int)) (a12 : List Nat) (a13 : Bool) (a14 : List Nat) (a16 : List Desc) (a17 : List Fetch) (a18 : List HeldCpl) (a19 : List Launch) (a20 : List (Nat × BitVec 32)) (a21 : List (Nat × RecSrc)) (a22 : List Event) (a23 : List Event) (a24 : Word) (a25 : List (Nat × BitVec 32)) (a26 : Fabric) (a27 : List Link) (a28 : Optics) (a29 : List (Nat × Strag)) (a30 : List ExrReq) (a31 : List Group) (a32 : List Join) (a33 : Front) (a34 : Snap) (a35 : Power) (a36 : Boot) (a37 : List Reset) (a38 : List DumpReq) (a39 : List Shadow) (a40 : Bool) (a41 : Bool) (a42 : List (Nat × Byte)) (a43 : Bool) (a44 : List (Nat × Byte)) (a45 : List TrailRec) (a46 : Nat) (a47 : Nat) (a49 : Nat) (a50 : Bool) (a51 : BitVec 16) (a52 : List (Coord × BitVec 16)) (a53 : List Output) (a54 : Word) (a55 : Int) (a56 : Nat) (h : r.Keeps s) (hm : Memory.wf m = true) : r.Keeps (State.mk s.pending a1 a2 a3 m a5 a6 a7 a8 a9 a10 a11 a12 a13 a14 s.setup a16 a17 a18 a19 a20 a21 a22 a23 a24 a25 a26 a27 a28 a29 a30 a31 a32 a33 a34 a35 a36 a37 a38 a39 a40 a41 a42 a43 a44 a45 a46 a47 s.fuses a49 a50 a51 a52 a53 a54 a55 a56) :=
  ⟨h.1, h.2, hm, h.4⟩

/-- A property that every step of a fold keeps. -/
theorem foldl_keep {σ α : Type} (P : σ → Prop) (f : σ → α → σ) (hf : ∀ s a, P s → P (f s a)) :
    ∀ (l : List α) (s : σ), P s → P (l.foldl f s)
  | [], _, h => h
  | a :: l, s, h => foldl_keep P f hf l (f s a) (hf s a h)

theorem State.foldl_keeps {r : State} {α : Type} (f : State → α → State) (l : List α) (s : State) (hf : ∀ s a, r.Keeps s → r.Keeps (f s a))
    (h : r.Keeps s) : r.Keeps (l.foldl f s) := foldl_keep _ f hf l s h

theorem State.foldl_keeps₂ {r : State} {α β : Type} (f : β × State → α → β × State) (l : List α) (x : β × State)
    (hf : ∀ x a, r.Keeps x.2 → r.Keeps (f x a).2) (h : r.Keeps x.2) : r.Keeps (l.foldl f x).2 :=
  foldl_keep (fun x : β × State => r.Keeps x.2) f hf l x h

grind_pattern State.foldl_keeps₂ => List.foldl f x l, State.Keeps r x.2
grind_pattern State.keeps_with => State.mk s.pending a1 a2 a3 s.mem a5 a6 a7 a8 a9 a10 a11 a12 a13 a14 s.setup a16 a17 a18 a19 a20 a21 a22 a23 a24 a25 a26 a27 a28 a29 a30 a31 a32 a33 a34 a35 a36 a37 a38 a39 a40 a41 a42 a43 a44 a45 a46 a47 s.fuses a49 a50 a51 a52 a53 a54 a55 a56, State.Keeps r s
grind_pattern State.foldl_keeps => List.foldl f s l, State.Keeps r s

/-- Bytes put into a canonical memory leave it canonical. -/
theorem putBytes_wf : ∀ (l : List Byte) (m : List Host.Cell) (a : Nat), Memory.wf m = true → Memory.wf (putBytes m a l) = true
  | [], _, _, h => h
  | b :: l, _, _, h => putBytes_wf l _ _ (Maps.wf_put 0 _ _ b h)

/-- A register write keeps the window's canonical form. -/
theorem setReg_wf (m : List (Nat × Word)) (off : Nat) (v : Word) (h : Setup.wf m) : Setup.wf (Maps.put (resetAt off) m off v) := by
  unfold Maps.put
  split
  · exact ⟨Maps.rising_filter _ _ 0 h.1, fun e he => h.2 e (List.mem_filter.mp he).1⟩
  · rename_i hv
    refine ⟨Maps.rising_place off v _ 0 (by omega) (fun e hm => ?_) (Maps.rising_filter _ _ 0 h.1), fun x hx => ?_⟩
    · simpa using (List.mem_filter.mp hm).2
    · rcases Maps.mem_place off v _ x hx with rfl | hx
      · exact hv
      · exact h.2 x (List.mem_filter.mp hx).1

theorem State.setReg_keeps {r : State} (s : State) (off : Nat) (v : Word) (h : r.Keeps s) : r.Keeps (s.setReg off v) :=
  ⟨h.1, h.2, h.3, setReg_wf _ _ _ h.4⟩
grind_pattern State.setReg_keeps => s.setReg off v, State.Keeps r s

end Sys2Proof.Machine
end

