-- ==== Sys2Proof/Laws/KeepOps.lean ====
section
/-! SUPPORT. What the operations of Machine/Ops.lean keep. -/
namespace Sys2Proof.Machine

set_option Elab.async false

theorem State.free_keeps {r₀ : State} (s : State) (hk : State.Keeps r₀ s) : State.Keeps r₀ (State.free s).2 := by unfold State.free; grind
grind_pattern State.free_keeps => State.free s, State.Keeps r₀ s
theorem State.setFld_keeps {r₀ : State} (s : State) (off) (f) (v) (hk : State.Keeps r₀ s) : State.Keeps r₀ (State.setFld s off f v) := by unfold State.setFld; grind
grind_pattern State.setFld_keeps => State.setFld s off f v, State.Keeps r₀ s
theorem State.bump_keeps {r₀ : State} (s : State) (off) (f) (hk : State.Keeps r₀ s) : State.Keeps r₀ (State.bump s off f) := by unfold State.bump; grind
grind_pattern State.bump_keeps => State.bump s off f, State.Keeps r₀ s
theorem State.wrapInc_keeps {r₀ : State} (s : State) (off) (f) (hk : State.Keeps r₀ s) : State.Keeps r₀ (State.wrapInc s off f) := by unfold State.wrapInc; grind
grind_pattern State.wrapInc_keeps => State.wrapInc s off f, State.Keeps r₀ s
theorem State.bumpBy_keeps {r₀ : State} (s : State) (off) (f) (n) (hk : State.Keeps r₀ s) : State.Keeps r₀ (State.bumpBy s off f n) := by unfold State.bumpBy; grind
grind_pattern State.bumpBy_keeps => State.bumpBy s off f n, State.Keeps r₀ s
theorem State.setCore_keeps {r₀ : State} (s : State) (k) (c) (hk : State.Keeps r₀ s) : State.Keeps r₀ (State.setCore s k c) := by unfold State.setCore; grind
grind_pattern State.setCore_keeps => State.setCore s k c, State.Keeps r₀ s
theorem State.mapCore_keeps {r₀ : State} (s : State) (k) (f) (hk : State.Keeps r₀ s) : State.Keeps r₀ (State.mapCore s k f) := by unfold State.mapCore; grind
grind_pattern State.mapCore_keeps => State.mapCore s k f, State.Keeps r₀ s
theorem State.mapCores_keeps {r₀ : State} (s : State) (f) (hk : State.Keeps r₀ s) : State.Keeps r₀ (State.mapCores s f) := by unfold State.mapCores; grind
grind_pattern State.mapCores_keeps => State.mapCores s f, State.Keeps r₀ s
theorem State.emit_keeps {r₀ : State} (s : State) (o) (hk : State.Keeps r₀ s) : State.Keeps r₀ (State.emit s o) := by unfold State.emit; grind
grind_pattern State.emit_keeps => State.emit s o, State.Keeps r₀ s
theorem State.setTopo_keeps {r₀ : State} (s : State) (v) (t) (hk : State.Keeps r₀ s) : State.Keeps r₀ (State.setTopo s v t) := by unfold State.setTopo; grind
grind_pattern State.setTopo_keeps => State.setTopo s v t, State.Keeps r₀ s

end Sys2Proof.Machine
end

