-- ==== Sys2Proof/Laws/KeepMemory.lean ====
section
/-! SUPPORT. What the operations of Machine/Memory.lean keep. -/
namespace Sys2Proof.Machine

set_option Elab.async false

theorem State.regionsOf_keeps {r₀ : State} (s : State) (x) (hk : State.Keeps r₀ s) : State.Keeps r₀ (State.regionsOf s x).2 := by unfold State.regionsOf; grind
grind_pattern State.regionsOf_keeps => State.regionsOf s x, State.Keeps r₀ s
theorem State.protect_keeps {r₀ : State} (s : State) (w) (k) (repub) (o) (n) (hk : State.Keeps r₀ s) : State.Keeps r₀ (State.protect s w k repub o n).2 := by unfold State.protect; grind
grind_pattern State.protect_keeps => State.protect s w k repub o n, State.Keeps r₀ s
theorem State.setPoison_keeps {r₀ : State} (s : State) (u) (hk : State.Keeps r₀ s) : State.Keeps r₀ (State.setPoison s u) := by unfold State.setPoison; grind
grind_pattern State.setPoison_keeps => State.setPoison s u, State.Keeps r₀ s
theorem State.poisonUnits_keeps {r₀ : State} (s : State) (us) (hk : State.Keeps r₀ s) : State.Keeps r₀ (State.poisonUnits s us) := by unfold State.poisonUnits; grind
grind_pattern State.poisonUnits_keeps => State.poisonUnits s us, State.Keeps r₀ s
theorem State.clearPoison_keeps {r₀ : State} (s : State) (u) (hk : State.Keeps r₀ s) : State.Keeps r₀ (State.clearPoison s u) := by unfold State.clearPoison; grind
grind_pattern State.clearPoison_keeps => State.clearPoison s u, State.Keeps r₀ s
theorem State.countErr_keeps {r₀ : State} (s : State) (u) (uncorrectable) (hk : State.Keeps r₀ s) : State.Keeps r₀ (State.countErr s u uncorrectable) := by unfold State.countErr; grind
grind_pattern State.countErr_keeps => State.countErr s u uncorrectable, State.Keeps r₀ s
theorem State.touchUnit_keeps {r₀ : State} (s : State) (u) (hk : State.Keeps r₀ s) : State.Keeps r₀ (State.touchUnit s u).2 := by unfold State.touchUnit; grind
grind_pattern State.touchUnit_keeps => State.touchUnit s u, State.Keeps r₀ s
theorem State.granuleScan_keeps {r₀ : State} (s : State) (o) (hk : State.Keeps r₀ s) : State.Keeps r₀ (State.granuleScan s o).2 := by unfold State.granuleScan; grind
grind_pattern State.granuleScan_keeps => State.granuleScan s o, State.Keeps r₀ s
theorem State.scanRange_keeps {r₀ : State} (s : State) (o) (n) (hk : State.Keeps r₀ s) : State.Keeps r₀ (State.scanRange s o n).2 := by
  unfold State.scanRange
  exact foldl_keep (fun x : List Nat × State => State.Keeps r₀ x.2) _ (by grind) _ _ hk
grind_pattern State.scanRange_keeps => State.scanRange s o n, State.Keeps r₀ s
theorem State.readUnits_keeps {r₀ : State} (s : State) (bad) (a) (hk : State.Keeps r₀ s) : State.Keeps r₀ (State.readUnits s bad a).2 := by
  induction a generalizing s with
  | nil => grind [State.readUnits]
  | cons u us ih => grind [State.readUnits]
grind_pattern State.readUnits_keeps => State.readUnits s bad a, State.Keeps r₀ s
theorem State.markDirty_keeps {r₀ : State} (s : State) (o) (hk : State.Keeps r₀ s) : State.Keeps r₀ (State.markDirty s o) := by unfold State.markDirty; grind
grind_pattern State.markDirty_keeps => State.markDirty s o, State.Keeps r₀ s
theorem State.writeUnit_keeps {r₀ : State} (s : State) (bad) (o) (bs) (u) (hk : State.Keeps r₀ s) : State.Keeps r₀ (State.writeUnit s bad o bs u).2 := by
  have hm : ∀ s' : State, State.Keeps r₀ s' → ∀ a l e, State.Keeps r₀ { s' with mem := putBytes s'.mem a l, ecc := e } :=
    fun s' h' a l e => State.keeps_mem s' _ (h := h') (hm := putBytes_wf _ _ _ h'.mem) ..
  have hn : ∀ s' : State, State.Keeps r₀ s' → ∀ a l, State.Keeps r₀ { s' with mem := putBytes s'.mem a l } :=
    fun s' h' a l => State.keeps_mem s' _ (h := h') (hm := putBytes_wf _ _ _ h'.mem) ..
  unfold State.writeUnit
  grind
grind_pattern State.writeUnit_keeps => State.writeUnit s bad o bs u, State.Keeps r₀ s
theorem State.writeUnits_keeps {r₀ : State} (s : State) (bad) (o) (bs) (a) (hk : State.Keeps r₀ s) : State.Keeps r₀ (State.writeUnits s bad o bs a).2 := by
  induction a generalizing s with
  | nil => grind [State.writeUnits]
  | cons u us ih => grind [State.writeUnits]
grind_pattern State.writeUnits_keeps => State.writeUnits s bad o bs a, State.Keeps r₀ s
theorem State.charge_keeps {r : State} (s : State) (x) (d) (n) (h : State.Keeps r s) (t : State) (ht : State.charge s x d n = .go t) : State.Keeps r t := by grind [State.charge]
grind_pattern State.charge_keeps => State.charge s x d n, State.Keeps r s, Grant.go t
theorem State.chargeAll_keeps {r : State} (slow) (x) (l : List (Nat × Nat)) : ∀ (s : State) (t : State), State.Keeps r s → State.chargeAll s slow x l = .go t → State.Keeps r t := by
  induction l with
  | nil => grind [State.chargeAll]
  | cons p l ih => obtain ⟨d, n⟩ := p; grind [State.chargeAll]
grind_pattern State.chargeAll_keeps => State.chargeAll s slow x l, State.Keeps r s, Grant.go t
theorem State.chargeFor_keeps {r : State} (s : State) (a) (slow) (l) (h : State.Keeps r s) (t : State) (ht : State.chargeFor s a slow l = .go t) : State.Keeps r t := by
  unfold State.chargeFor at ht
  cases a with
  | ranger => cases ht; exact h
  | ctx x => exact State.chargeAll_keeps _ _ _ _ _ h ht
grind_pattern State.chargeFor_keeps => State.chargeFor s a slow l, State.Keeps r s, Grant.go t
theorem State.readNow_keeps {r₀ : State} (s : State) (o) (n) (hk : State.Keeps r₀ s) : State.Keeps r₀ (State.readNow s o n).2 := by unfold State.readNow; grind
grind_pattern State.readNow_keeps => State.readNow s o n, State.Keeps r₀ s
theorem State.load_keeps {r₀ : State} (s : State) (a) (o) (n) (slow) (hk : State.Keeps r₀ s) : State.Keeps r₀ (State.load s a o n slow).2 := by unfold State.load; grind
grind_pattern State.load_keeps => State.load s a o n slow, State.Keeps r₀ s
theorem State.setForm_keeps {r₀ : State} (s : State) (o) (c) (hk : State.Keeps r₀ s) : State.Keeps r₀ (State.setForm s o c) := by unfold State.setForm; grind
grind_pattern State.setForm_keeps => State.setForm s o c, State.Keeps r₀ s
theorem State.writeNow_keeps {r₀ : State} (s : State) (o) (bs) (forms) (hk : State.Keeps r₀ s) : State.Keeps r₀ (State.writeNow s o bs forms).2 := by unfold State.writeNow; grind
grind_pattern State.writeNow_keeps => State.writeNow s o bs forms, State.Keeps r₀ s
theorem State.store_keeps {r₀ : State} (s : State) (a) (o) (bs) (slow) (hk : State.Keeps r₀ s) : State.Keeps r₀ (State.store s a o bs slow).2 := by unfold State.store; grind
grind_pattern State.store_keeps => State.store s a o bs slow, State.Keeps r₀ s
theorem State.readFor_keeps {r₀ : State} (s : State) (w) (o) (n) (slow) (hk : State.Keeps r₀ s) : State.Keeps r₀ (State.readFor s w o n slow).2 := by unfold State.readFor; grind
grind_pattern State.readFor_keeps => State.readFor s w o n slow, State.Keeps r₀ s
theorem State.writeFor_keeps {r₀ : State} (s : State) (w) (repub) (o) (bs) (slow) (hk : State.Keeps r₀ s) : State.Keeps r₀ (State.writeFor s w repub o bs slow).2 := by unfold State.writeFor; grind
grind_pattern State.writeFor_keeps => State.writeFor s w repub o bs slow, State.Keeps r₀ s

end Sys2Proof.Machine
end

