-- ==== Sys2Proof/Laws/KeepPackets.lean ====
section
/-! SUPPORT. What the operations of Machine/Packets.lean keep. -/
namespace Sys2Proof.Machine

set_option Elab.async false

theorem State.setLink_keeps {r₀ : State} (s : State) (l) (hk : State.Keeps r₀ s) : State.Keeps r₀ (State.setLink s l) := by unfold State.setLink; grind
grind_pattern State.setLink_keeps => State.setLink s l, State.Keeps r₀ s
theorem State.prbs_keeps {r₀ : State} (s : State) (c) (n) (hk : State.Keeps r₀ s) : State.Keeps r₀ (State.prbs s c n).2 := by unfold State.prbs; grind
grind_pattern State.prbs_keeps => State.prbs s c n, State.Keeps r₀ s
theorem State.lineOut_keeps {r₀ : State} (s : State) (c) (f) (hk : State.Keeps r₀ s) : State.Keeps r₀ (State.lineOut s c f) := by unfold State.lineOut; grind
grind_pattern State.lineOut_keeps => State.lineOut s c f, State.Keeps r₀ s
theorem State.sendDataFlit_keeps {r₀ : State} (s : State) (nb) (first) (payload) (hk : State.Keeps r₀ s) : State.Keeps r₀ (State.sendDataFlit s nb first payload) := by unfold State.sendDataFlit; grind
grind_pattern State.sendDataFlit_keeps => State.sendDataFlit s nb first payload, State.Keeps r₀ s
theorem State.sendPacket_keeps {r₀ : State} (s : State) (nb) (p) (hk : State.Keeps r₀ s) : State.Keeps r₀ (State.sendPacket s nb p) := by unfold State.sendPacket; grind
grind_pattern State.sendPacket_keeps => State.sendPacket s nb p, State.Keeps r₀ s
theorem State.owe_keeps {r₀ : State} (s : State) (nb) (p) (hk : State.Keeps r₀ s) : State.Keeps r₀ (State.owe s nb p) := by unfold State.owe; grind
grind_pattern State.owe_keeps => State.owe s nb p, State.Keeps r₀ s
theorem State.takeArrived_keeps {r₀ : State} (s : State) (p) (hk : State.Keeps r₀ s) (t₁ : State) (ht : State.takeArrived s p = some t₁) : State.Keeps r₀ t₁ := by unfold State.takeArrived at ht; grind
grind_pattern State.takeArrived_keeps => State.takeArrived s p, State.Keeps r₀ s, some t₁
theorem State.sendOrHold_keeps {r₀ : State} (s : State) (nb) (p) (hk : State.Keeps r₀ s) : State.Keeps r₀ (State.sendOrHold s nb p) := by unfold State.sendOrHold; grind
grind_pattern State.sendOrHold_keeps => State.sendOrHold s nb p, State.Keeps r₀ s
theorem State.inject_keeps {r₀ : State} (s : State) (p) (hk : State.Keeps r₀ s) : State.Keeps r₀ (State.inject s p) := by unfold State.inject; grind
grind_pattern State.inject_keeps => State.inject s p, State.Keeps r₀ s
theorem State.replyFrom_keeps {r₀ : State} (s : State) (src) (req) (st) (data) (hk : State.Keeps r₀ s) : State.Keeps r₀ (State.replyFrom s src req st data) := by unfold State.replyFrom; grind
grind_pattern State.replyFrom_keeps => State.replyFrom s src req st data, State.Keeps r₀ s
theorem State.reply_keeps {r₀ : State} (s : State) (req) (st) (data) (hk : State.Keeps r₀ s) : State.Keeps r₀ (State.reply s req st data) := by unfold State.reply; grind
grind_pattern State.reply_keeps => State.reply s req st data, State.Keeps r₀ s

end Sys2Proof.Machine
end

