-- ==== Sys2Proof/Laws/KeepGroup.lean ====
section
/-! SUPPORT. What the operations of Machine/Group.lean keep. -/
namespace Sys2Proof.Machine

set_option Elab.async false

theorem State.countGroups_keeps {r₀ : State} (s : State) (hk : State.Keeps r₀ s) : State.Keeps r₀ (State.countGroups s) := by unfold State.countGroups; grind
grind_pattern State.countGroups_keeps => State.countGroups s, State.Keeps r₀ s
theorem State.showGroup_keeps {r₀ : State} (s : State) (g) (hk : State.Keeps r₀ s) : State.Keeps r₀ (State.showGroup s g) := by unfold State.showGroup; grind
grind_pattern State.showGroup_keeps => State.showGroup s g, State.Keeps r₀ s
theorem State.setGroup_keeps {r₀ : State} (s : State) (g) (hk : State.Keeps r₀ s) : State.Keeps r₀ (State.setGroup s g) := by unfold State.setGroup; grind
grind_pattern State.setGroup_keeps => State.setGroup s g, State.Keeps r₀ s
theorem State.dropGroup_keeps {r₀ : State} (s : State) (h) (hk : State.Keeps r₀ s) : State.Keeps r₀ (State.dropGroup s h) := by unfold State.dropGroup; grind
grind_pattern State.dropGroup_keeps => State.dropGroup s h, State.Keeps r₀ s
theorem State.poisonResult_keeps {r₀ : State} (s : State) (a) (g) (c) (hk : State.Keeps r₀ s) : State.Keeps r₀ (State.poisonResult s a g c) := by unfold State.poisonResult; grind
grind_pattern State.poisonResult_keeps => State.poisonResult s a g c, State.Keeps r₀ s

end Sys2Proof.Machine
end

