-- ==== Sys2Proof/Laws/KeepRequests.lean ====
section
/-! SUPPORT. What the operations of Machine/Requests.lean keep. -/
namespace Sys2Proof.Machine

set_option Elab.async false

theorem State.request_keeps {r₀ : State} (s : State) (r) (hk : State.Keeps r₀ s) : State.Keeps r₀ (State.request s r) := by unfold State.request; grind
grind_pattern State.request_keeps => State.request s r, State.Keeps r₀ s
theorem State.requestLoads_keeps {r₀ : State} (s : State) (dst) (agent) (x) (o) (n) (own) (hk : State.Keeps r₀ s) : State.Keeps r₀ (State.requestLoads s dst agent x o n own) := by unfold State.requestLoads; grind
grind_pattern State.requestLoads_keeps => State.requestLoads s dst agent x o n own, State.Keeps r₀ s
theorem State.requestStores_keeps {r₀ : State} (s : State) (dst) (agent) (x) (o) (bs) (own) (hk : State.Keeps r₀ s) : State.Keeps r₀ (State.requestStores s dst agent x o bs own) := by unfold State.requestStores; grind
grind_pattern State.requestStores_keeps => State.requestStores s dst agent x o bs own, State.Keeps r₀ s
theorem State.mirror_keeps {r₀ : State} (s : State) (a) (o) (bs) (hk : State.Keeps r₀ s) : State.Keeps r₀ (State.mirror s a o bs) := by unfold State.mirror; grind
grind_pattern State.mirror_keeps => State.mirror s a o bs, State.Keeps r₀ s
theorem State.sendVerdict_keeps {r₀ : State} (s : State) (a) (v) (hk : State.Keeps r₀ s) : State.Keeps r₀ (State.sendVerdict s a v) := by unfold State.sendVerdict; grind
grind_pattern State.sendVerdict_keeps => State.sendVerdict s a v, State.Keeps r₀ s

end Sys2Proof.Machine
end

