-- ==== Sys2Proof/Laws/KeepEvents.lean ====
section
/-! SUPPORT. What the operations of Machine/Events.lean keep. -/
namespace Sys2Proof.Machine

set_option Elab.async false

theorem State.dropRecord_keeps {r₀ : State} (s : State) (e) (hk : State.Keeps r₀ s) : State.Keeps r₀ (State.dropRecord s e) := by unfold State.dropRecord; grind
grind_pattern State.dropRecord_keeps => State.dropRecord s e, State.Keeps r₀ s
theorem State.putRecord_keeps {r₀ : State} (s : State) (e) (src) (hk : State.Keeps r₀ s) : State.Keeps r₀ (State.putRecord s e src) := by unfold State.putRecord; grind
grind_pattern State.putRecord_keeps => State.putRecord s e src, State.Keeps r₀ s
theorem State.writeRecord_keeps {r₀ : State} (s : State) (e) (src) (hk : State.Keeps r₀ s) : State.Keeps r₀ (State.writeRecord s e src) := by unfold State.writeRecord; grind
grind_pattern State.writeRecord_keeps => State.writeRecord s e src, State.Keeps r₀ s
theorem State.postTo_keeps {r₀ : State} (s : State) (e) (ev) (hk : State.Keeps r₀ s) : State.Keeps r₀ (State.postTo s e ev) := by unfold State.postTo; grind
grind_pattern State.postTo_keeps => State.postTo s e ev, State.Keeps r₀ s
theorem State.noteActive_keeps {r₀ : State} (s : State) (ev) (hk : State.Keeps r₀ s) : State.Keeps r₀ (State.noteActive s ev) := by unfold State.noteActive; grind
grind_pattern State.noteActive_keeps => State.noteActive s ev, State.Keeps r₀ s
theorem State.clearActive_keeps {r₀ : State} (s : State) (f) (hk : State.Keeps r₀ s) : State.Keeps r₀ (State.clearActive s f) := by unfold State.clearActive; grind
grind_pattern State.clearActive_keeps => State.clearActive s f, State.Keeps r₀ s
theorem State.postPlain_keeps {r₀ : State} (s : State) (ev) (hk : State.Keeps r₀ s) : State.Keeps r₀ (State.postPlain s ev) := by unfold State.postPlain; grind
grind_pattern State.postPlain_keeps => State.postPlain s ev, State.Keeps r₀ s
theorem State.mapDesc_keeps {r₀ : State} (s : State) (n) (i) (f) (hk : State.Keeps r₀ s) : State.Keeps r₀ (State.mapDesc s n i f) := by unfold State.mapDesc; grind
grind_pattern State.mapDesc_keeps => State.mapDesc s n i f, State.Keeps r₀ s
theorem State.endDesc_keeps {r₀ : State} (s : State) (n) (i) (st) (r0) (r1) (hk : State.Keeps r₀ s) : State.Keeps r₀ (State.endDesc s n i st r0 r1) := by unfold State.endDesc; grind
grind_pattern State.endDesc_keeps => State.endDesc s n i st r0 r1, State.Keeps r₀ s
theorem State.endLaunch_keeps {r₀ : State} (s : State) (k) (st) (t) (hk : State.Keeps r₀ s) : State.Keeps r₀ (State.endLaunch s k st t) := by unfold State.endLaunch; grind
grind_pattern State.endLaunch_keeps => State.endLaunch s k st t, State.Keeps r₀ s
theorem State.disown_keeps {r₀ : State} (s : State) (p) (hk : State.Keeps r₀ s) : State.Keeps r₀ (State.disown s p) := by unfold State.disown; grind
grind_pattern State.disown_keeps => State.disown s p, State.Keeps r₀ s
theorem State.orphanCore_keeps {r₀ : State} (s : State) (k) (hk : State.Keeps r₀ s) : State.Keeps r₀ (State.orphanCore s k) := by unfold State.orphanCore; grind
grind_pattern State.orphanCore_keeps => State.orphanCore s k, State.Keeps r₀ s
theorem State.dropLoad_keeps {r₀ : State} (s : State) (d) (hk : State.Keeps r₀ s) : State.Keeps r₀ (State.dropLoad s d) := by unfold State.dropLoad; grind
grind_pattern State.dropLoad_keeps => State.dropLoad s d, State.Keeps r₀ s
theorem State.stopDesc_keeps {r₀ : State} (s : State) (st) (await) (d) (hk : State.Keeps r₀ s) : State.Keeps r₀ (State.stopDesc s st await d) := by unfold State.stopDesc; grind
grind_pattern State.stopDesc_keeps => State.stopDesc s st await d, State.Keeps r₀ s
theorem State.refetch_keeps {r₀ : State} (s : State) (hk : State.Keeps r₀ s) : State.Keeps r₀ (State.refetch s) := by unfold State.refetch; grind
grind_pattern State.refetch_keeps => State.refetch s, State.Keeps r₀ s
theorem State.abortCore_keeps {r₀ : State} (s : State) (k) (hk : State.Keeps r₀ s) : State.Keeps r₀ (State.abortCore s k) := by unfold State.abortCore; grind
grind_pattern State.abortCore_keeps => State.abortCore s k, State.Keeps r₀ s
theorem State.flood_keeps {r₀ : State} (s : State) (op) (payload) (hk : State.Keeps r₀ s) : State.Keeps r₀ (State.flood s op payload) := by unfold State.flood; grind
grind_pattern State.flood_keeps => State.flood s op payload, State.Keeps r₀ s
theorem State.settleGroup_keeps {r₀ : State} (s : State) (h) (hk : State.Keeps r₀ s) : State.Keeps r₀ (State.settleGroup s h) := by unfold State.settleGroup; grind
grind_pattern State.settleGroup_keeps => State.settleGroup s h, State.Keeps r₀ s
theorem State.abortGroup_keeps {r₀ : State} (s : State) (x) (g) (hk : State.Keeps r₀ s) : State.Keeps r₀ (State.abortGroup s x g) := by unfold State.abortGroup; grind
grind_pattern State.abortGroup_keeps => State.abortGroup s x g, State.Keeps r₀ s
theorem State.abortAct_keeps {r₀ : State} (s : State) (x) (detail) (hk : State.Keeps r₀ s) : State.Keeps r₀ (State.abortAct s x detail) := by (unfold State.abortAct); (try dsimp only); with_reducible (repeat' first | assumption | (intro _ _ _) | apply State.abortCore_keeps | apply State.abortGroup_keeps | apply State.bump_keeps | apply State.postPlain_keeps | apply State.refetch_keeps | apply State.setFld_keeps | apply State.stopDesc_keeps | apply State.foldl_keeps | apply State.foldl_keeps₂ | split); all_goals grind
grind_pattern State.abortAct_keeps => State.abortAct s x detail, State.Keeps r₀ s
theorem State.abortOrigin_keeps {r₀ : State} (s : State) (x) (cause) (step) (hk : State.Keeps r₀ s) : State.Keeps r₀ (State.abortOrigin s x cause step) := by unfold State.abortOrigin; grind
grind_pattern State.abortOrigin_keeps => State.abortOrigin s x cause step, State.Keeps r₀ s
theorem State.post_keeps {r₀ : State} (s : State) (ev) (step) (hk : State.Keeps r₀ s) : State.Keeps r₀ (State.post s ev step) := by unfold State.post; grind
grind_pattern State.post_keeps => State.post s ev step, State.Keeps r₀ s
theorem State.trapHalt_keeps {r₀ : State} (s : State) (k) (t) (hk : State.Keeps r₀ s) : State.Keeps r₀ (State.trapHalt s k t) := by unfold State.trapHalt; grind
grind_pattern State.trapHalt_keeps => State.trapHalt s k t, State.Keeps r₀ s
theorem State.trap_keeps {r₀ : State} (s : State) (k) (t) (resume) (hk : State.Keeps r₀ s) : State.Keeps r₀ (State.trap s k t resume) := by unfold State.trap; grind
grind_pattern State.trap_keeps => State.trap s k t resume, State.Keeps r₀ s
theorem State.deliver_keeps {r₀ : State} (s : State) (k) (hk : State.Keeps r₀ s) : State.Keeps r₀ (State.deliver s k) := by unfold State.deliver; grind
grind_pattern State.deliver_keeps => State.deliver s k, State.Keeps r₀ s
theorem State.imprecise_keeps {r₀ : State} (s : State) (k) (t) (hk : State.Keeps r₀ s) : State.Keeps r₀ (State.imprecise s k t) := by unfold State.imprecise; grind
grind_pattern State.imprecise_keeps => State.imprecise s k t, State.Keeps r₀ s

end Sys2Proof.Machine
end

