-- ==== Sys2Proof/Laws/KeepDoorbell.lean ====
section
/-! SUPPORT. What the operations of Machine/Doorbell.lean keep. -/
namespace Sys2Proof.Machine

set_option Elab.async false

theorem State.rejectDoorbell_keeps {r₀ : State} (s : State) (n) (p) (hk : State.Keeps r₀ s) : State.Keeps r₀ (State.rejectDoorbell s n p) := by unfold State.rejectDoorbell; grind
grind_pattern State.rejectDoorbell_keeps => State.rejectDoorbell s n p, State.Keeps r₀ s
theorem State.doorbell_keeps {r₀ : State} (s : State) (a) (n) (off) (size) (v) (hk : State.Keeps r₀ s) : State.Keeps r₀ (State.doorbell s a n off size v).2 := by
  unfold State.doorbell
  dsimp only
  repeat' split
  all_goals first | exact hk | exact State.rejectDoorbell_keeps _ _ _ hk | exact State.setFld_keeps _ _ _ _ hk
grind_pattern State.doorbell_keeps => State.doorbell s a n off size v, State.Keeps r₀ s
theorem State.poke_keeps {r₀ : State} (s : State) (w) (repub) (o) (bs) (hk : State.Keeps r₀ s) : State.Keeps r₀ (State.poke s w repub o bs).2 := by unfold State.poke; grind
grind_pattern State.poke_keeps => State.poke s w repub o bs, State.Keeps r₀ s
theorem State.peek_keeps {r₀ : State} (s : State) (w) (o) (n) (hk : State.Keeps r₀ s) : State.Keeps r₀ (State.peek s w o n).2 := by unfold State.peek; grind
grind_pattern State.peek_keeps => State.peek s w o n, State.Keeps r₀ s

end Sys2Proof.Machine
end

