-- ==== Sys2Proof/Laws/KeepOperands.lean ====
section
/-! SUPPORT. What the operations of Machine/Operands.lean keep. -/
namespace Sys2Proof.Machine

set_option Elab.async false

theorem State.goto_keeps {r₀ : State} (s : State) (k) (a) (hk : State.Keeps r₀ s) : State.Keeps r₀ (State.goto s k a) := by unfold State.goto; grind
grind_pattern State.goto_keeps => State.goto s k a, State.Keeps r₀ s
theorem State.advance_keeps {r₀ : State} (s : State) (k) (hk : State.Keeps r₀ s) : State.Keeps r₀ (State.advance s k) := by unfold State.advance; grind
grind_pattern State.advance_keeps => State.advance s k, State.Keeps r₀ s
theorem State.illegal_keeps {r₀ : State} (s : State) (k) (w) (hk : State.Keeps r₀ s) : State.Keeps r₀ (State.illegal s k w) := by unfold State.illegal; grind
grind_pattern State.illegal_keeps => State.illegal s k w, State.Keeps r₀ s
theorem State.issue_keeps {r₀ : State} (s : State) (k) (w) (op) (legal) (regs) (step) (body) (hbody : ∀ s, State.Keeps r₀ s → State.Keeps r₀ (body s )) (hk : State.Keeps r₀ s) : State.Keeps r₀ (State.issue s k w op legal regs step body) := by unfold State.issue; grind
grind_pattern State.issue_keeps => State.issue s k w op legal regs step body, State.Keeps r₀ s
theorem State.writeG_keeps {r₀ : State} (s : State) (k) (r) (v) (hk : State.Keeps r₀ s) : State.Keeps r₀ (State.writeG s k r v) := by unfold State.writeG; grind
grind_pattern State.writeG_keeps => State.writeG s k r v, State.Keeps r₀ s
theorem State.writeP_keeps {r₀ : State} (s : State) (k) (r) (v) (hk : State.Keeps r₀ s) : State.Keeps r₀ (State.writeP s k r v) := by unfold State.writeP; grind
grind_pattern State.writeP_keeps => State.writeP s k r v, State.Keeps r₀ s

end Sys2Proof.Machine
end

