-- ==== Sys2Proof/Laws/KeepFlags.lean ====
section
/-! SUPPORT. What the operations of Machine/Flags.lean keep. -/
namespace Sys2Proof.Machine

set_option Elab.async false

theorem State.atomicHere_keeps {r₀ : State} (s : State) (w) (op) (o) (operand) (cmp) (slow) (hk : State.Keeps r₀ s) : State.Keeps r₀ (State.atomicHere s w op o operand cmp slow).2 := by (unfold State.atomicHere); (try dsimp only); with_reducible (repeat' first | assumption | (intro _ _ _) | apply State.protect_keeps | apply State.readNow_keeps | apply State.writeNow_keeps | apply State.foldl_keeps | apply State.foldl_keeps₂ | split); all_goals grind
grind_pattern State.atomicHere_keeps => State.atomicHere s w op o operand cmp slow, State.Keeps r₀ s

end Sys2Proof.Machine
end

