-- ==== Sys2Proof/Laws/KeepScalarMem.lean ====
section
/-! SUPPORT. What the operations of Machine/ScalarMem.lean keep. -/
namespace Sys2Proof.Machine

set_option Elab.async false

theorem State.preciseTrap_keeps {r₀ : State} (s : State) (k) (cause) (st) (bad) (hk : State.Keeps r₀ s) : State.Keeps r₀ (State.preciseTrap s k cause st bad) := by unfold State.preciseTrap; grind
grind_pattern State.preciseTrap_keeps => State.preciseTrap s k cause st bad, State.Keeps r₀ s
theorem State.spoilFills_keeps {r₀ : State} (s : State) (cores) (hit) (hk : State.Keeps r₀ s) : State.Keeps r₀ (State.spoilFills s cores hit) := by unfold State.spoilFills; grind
grind_pattern State.spoilFills_keeps => State.spoilFills s cores hit, State.Keeps r₀ s
theorem State.staleLines_keeps {r₀ : State} (s : State) (k) (d) (o) (n) (hk : State.Keeps r₀ s) : State.Keeps r₀ (State.staleLines s k d o n) := by unfold State.staleLines; grind
grind_pattern State.staleLines_keeps => State.staleLines s k d o n, State.Keeps r₀ s
theorem State.ovlChoice_keeps {r₀ : State} (s : State) (o) (bs) (a) (hk : State.Keeps r₀ s) : State.Keeps r₀ (State.ovlChoice s o bs a).2 := by
  induction a generalizing s bs with
  | nil => grind [State.ovlChoice]
  | cons p ps ih => unfold State.ovlChoice; grind
grind_pattern State.ovlChoice_keeps => State.ovlChoice s o bs a, State.Keeps r₀ s
theorem State.loadFault_keeps {r₀ : State} (s : State) (k) (rd) (st) (addr) (hk : State.Keeps r₀ s) : State.Keeps r₀ (State.loadFault s k rd st addr) := by unfold State.loadFault; grind
grind_pattern State.loadFault_keeps => State.loadFault s k rd st addr, State.Keeps r₀ s
theorem State.loadHere_keeps {r₀ : State} (s : State) (k) (w) (addr) (o) (n) (hk : State.Keeps r₀ s) : State.Keeps r₀ (State.loadHere s k w addr o n) := by unfold State.loadHere; grind
grind_pattern State.loadHere_keeps => State.loadHere s k w addr o n, State.Keeps r₀ s
theorem State.loadThere_keeps {r₀ : State} (s : State) (k) (w) (addr) (d) (o) (n) (hk : State.Keeps r₀ s) : State.Keeps r₀ (State.loadThere s k w addr d o n) := by unfold State.loadThere; grind
grind_pattern State.loadThere_keeps => State.loadThere s k w addr d o n, State.Keeps r₀ s
theorem execLd_keeps {r₀ : State} (k) (w) (s : State) (hk : State.Keeps r₀ s) (t₁ : State) (ht : execLd k w s = .next t₁) : State.Keeps r₀ t₁ := by unfold execLd at ht; grind
theorem State.storeFault_keeps {r₀ : State} (s : State) (k) (st) (addr) (hk : State.Keeps r₀ s) : State.Keeps r₀ (State.storeFault s k st addr) := by unfold State.storeFault; grind
grind_pattern State.storeFault_keeps => State.storeFault s k st addr, State.Keeps r₀ s
theorem State.storeHere_keeps {r₀ : State} (s : State) (k) (addr) (o) (bs) (hk : State.Keeps r₀ s) : State.Keeps r₀ (State.storeHere s k addr o bs) := by unfold State.storeHere; grind
grind_pattern State.storeHere_keeps => State.storeHere s k addr o bs, State.Keeps r₀ s
theorem execSt_keeps {r₀ : State} (k) (w) (s : State) (hk : State.Keeps r₀ s) (t₁ : State) (ht : execSt k w s = .next t₁) : State.Keeps r₀ t₁ := by unfold execSt at ht; grind
theorem State.atomicFault_keeps {r₀ : State} (s : State) (k) (st) (addr) (hk : State.Keeps r₀ s) : State.Keeps r₀ (State.atomicFault s k st addr) := by unfold State.atomicFault; grind
grind_pattern State.atomicFault_keeps => State.atomicFault s k st addr, State.Keeps r₀ s
theorem State.atomicDone_keeps {r₀ : State} (s : State) (k) (rd) (pd) (wide) (addr) (st) (bs) (hk : State.Keeps r₀ s) : State.Keeps r₀ (State.atomicDone s k rd pd wide addr st bs) := by unfold State.atomicDone; grind
grind_pattern State.atomicDone_keeps => State.atomicDone s k rd pd wide addr st bs, State.Keeps r₀ s
theorem State.atomic_keeps {r₀ : State} (s : State) (k) (w) (op) (hk : State.Keeps r₀ s) : State.Keeps r₀ (State.atomic s k w op) := by unfold State.atomic; grind
grind_pattern State.atomic_keeps => State.atomic s k w op, State.Keeps r₀ s
theorem execAadd_keeps {r₀ : State} (k) (w) (s : State) (hk : State.Keeps r₀ s) (t₁ : State) (ht : execAadd k w s = .next t₁) : State.Keeps r₀ t₁ := by unfold execAadd at ht; grind
theorem execAmin_keeps {r₀ : State} (k) (w) (s : State) (hk : State.Keeps r₀ s) (t₁ : State) (ht : execAmin k w s = .next t₁) : State.Keeps r₀ t₁ := by unfold execAmin at ht; grind
theorem execAmax_keeps {r₀ : State} (k) (w) (s : State) (hk : State.Keeps r₀ s) (t₁ : State) (ht : execAmax k w s = .next t₁) : State.Keeps r₀ t₁ := by unfold execAmax at ht; grind
theorem execAand_keeps {r₀ : State} (k) (w) (s : State) (hk : State.Keeps r₀ s) (t₁ : State) (ht : execAand k w s = .next t₁) : State.Keeps r₀ t₁ := by unfold execAand at ht; grind
theorem execAor_keeps {r₀ : State} (k) (w) (s : State) (hk : State.Keeps r₀ s) (t₁ : State) (ht : execAor k w s = .next t₁) : State.Keeps r₀ t₁ := by unfold execAor at ht; grind
theorem execAxor_keeps {r₀ : State} (k) (w) (s : State) (hk : State.Keeps r₀ s) (t₁ : State) (ht : execAxor k w s = .next t₁) : State.Keeps r₀ t₁ := by unfold execAxor at ht; grind
theorem execAswap_keeps {r₀ : State} (k) (w) (s : State) (hk : State.Keeps r₀ s) (t₁ : State) (ht : execAswap k w s = .next t₁) : State.Keeps r₀ t₁ := by unfold execAswap at ht; grind
theorem execAcas_keeps {r₀ : State} (k) (w) (s : State) (hk : State.Keeps r₀ s) (t₁ : State) (ht : execAcas k w s = .next t₁) : State.Keeps r₀ t₁ := by unfold execAcas at ht; grind
theorem execAcas2_keeps {r₀ : State} (k) (w) (s : State) (hk : State.Keeps r₀ s) (t₁ : State) (ht : execAcas2 k w s = .next t₁) : State.Keeps r₀ t₁ := by unfold execAcas2 at ht; grind
theorem execAfadd_keeps {r₀ : State} (k) (w) (s : State) (hk : State.Keeps r₀ s) (t₁ : State) (ht : execAfadd k w s = .next t₁) : State.Keeps r₀ t₁ := by unfold execAfadd at ht; grind

end Sys2Proof.Machine
end

