-- ==== Sys2Proof/Laws/KeepScalarSys.lean ====
section
/-! SUPPORT. What the operations of Machine/ScalarSys.lean keep. -/
namespace Sys2Proof.Machine

set_option Elab.async false

theorem State.sysReg_keeps {r₀ : State} (s : State) (k) (n) (hk : State.Keeps r₀ s) (t₁ : Word × State) (ht : State.sysReg s k n = some t₁) : State.Keeps r₀ t₁.2 := by
  unfold State.sysReg at ht
  dsimp only at ht
  split at ht <;> first | (cases ht; exact hk) | (cases ht; exact State.free_keeps s hk) | cases ht
grind_pattern State.sysReg_keeps => State.sysReg s k n, State.Keeps r₀ s, some t₁
theorem execMfs_keeps {r₀ : State} (k) (w) (s : State) (hk : State.Keeps r₀ s) (t₁ : State) (ht : execMfs k w s = .next t₁) : State.Keeps r₀ t₁ := by unfold execMfs at ht; grind
theorem execMts_keeps {r₀ : State} (k) (w) (s : State) (hk : State.Keeps r₀ s) (t₁ : State) (ht : execMts k w s = .next t₁) : State.Keeps r₀ t₁ := by unfold execMts at ht; grind
theorem execFenceLocal_keeps {r₀ : State} (k) (w) (s : State) (hk : State.Keeps r₀ s) (t₁ : State) (ht : execFenceLocal k w s = .next t₁) : State.Keeps r₀ t₁ := by unfold execFenceLocal at ht; grind
theorem execFenceIssue_keeps {r₀ : State} (k) (w) (s : State) (hk : State.Keeps r₀ s) (t₁ : State) (ht : execFenceIssue k w s = .next t₁) : State.Keeps r₀ t₁ := by unfold execFenceIssue at ht; grind
theorem execTrap_keeps {r₀ : State} (k) (w) (s : State) (hk : State.Keeps r₀ s) (t₁ : State) (ht : execTrap k w s = .next t₁) : State.Keeps r₀ t₁ := by unfold execTrap at ht; grind
theorem execRte_keeps {r₀ : State} (k) (w) (s : State) (hk : State.Keeps r₀ s) (t₁ : State) (ht : execRte k w s = .next t₁) : State.Keeps r₀ t₁ := by unfold execRte at ht; grind
theorem execNop_keeps {r₀ : State} (k) (w) (s : State) (hk : State.Keeps r₀ s) (t₁ : State) (ht : execNop k w s = .next t₁) : State.Keeps r₀ t₁ := by unfold execNop at ht; grind
theorem execHalt_keeps {r₀ : State} (k) (w) (s : State) (hk : State.Keeps r₀ s) (t₁ : State) (ht : execHalt k w s = .next t₁) : State.Keeps r₀ t₁ := by unfold execHalt at ht; grind
theorem execHaltDone_keeps {r₀ : State} (k) (s : State) (hk : State.Keeps r₀ s) (t₁ : State) (ht : execHaltDone k s = .next t₁) : State.Keeps r₀ t₁ := by unfold execHaltDone at ht; grind
theorem State.waitvRead_keeps {r₀ : State} (s : State) (k) (w) (o) (again) (hagain : ∀ s, State.Keeps r₀ s → State.Keeps r₀ (again s )) (hk : State.Keeps r₀ s) : State.Keeps r₀ (State.waitvRead s k w o again) := by unfold State.waitvRead; grind
grind_pattern State.waitvRead_keeps => State.waitvRead s k w o again, State.Keeps r₀ s
theorem execWaitv_keeps {r₀ : State} (k) (w) (s : State) (hk : State.Keeps r₀ s) (t₁ : State) (ht : execWaitv k w s = .next t₁) : State.Keeps r₀ t₁ := by unfold execWaitv at ht; grind
theorem execWaitvWake_keeps {r₀ : State} (k) (s : State) (hk : State.Keeps r₀ s) (t₁ : State) (ht : execWaitvWake k s = .next t₁) : State.Keeps r₀ t₁ := by unfold execWaitvWake at ht; grind
theorem execWaitvCountExpired_keeps {r₀ : State} (k) (s : State) (hk : State.Keeps r₀ s) (t₁ : State) (ht : execWaitvCountExpired k s = .next t₁) : State.Keeps r₀ t₁ := by unfold execWaitvCountExpired at ht; grind
theorem execBwait_keeps {r₀ : State} (k) (w) (s : State) (hk : State.Keeps r₀ s) (t₁ : State) (ht : execBwait k w s = .next t₁) : State.Keeps r₀ t₁ := by unfold execBwait at ht; grind
theorem State.bwaitCheck_keeps {r₀ : State} (s : State) (k) (hk : State.Keeps r₀ s) : State.Keeps r₀ (State.bwaitCheck s k) := by unfold State.bwaitCheck; grind
grind_pattern State.bwaitCheck_keeps => State.bwaitCheck s k, State.Keeps r₀ s
theorem State.wipeCore_keeps {r₀ : State} (s : State) (k) (x) (hk : State.Keeps r₀ s) : State.Keeps r₀ (State.wipeCore s k x) := by
  unfold State.wipeCore
  exact State.mapCore_keeps _ _ _ (State.keeps_mem s _ (h := hk) (hm := Maps.wf_clear 0 _ _ _ hk.mem) ..)
grind_pattern State.wipeCore_keeps => State.wipeCore s k x, State.Keeps r₀ s
theorem execCoreLaunch_keeps {r₀ : State} (k) (s : State) (hk : State.Keeps r₀ s) (t₁ : State) (ht : execCoreLaunch k s = .next t₁) : State.Keeps r₀ t₁ := by unfold execCoreLaunch at ht; grind

end Sys2Proof.Machine
end

