-- ==== Sys2Proof/Laws/KeepBroad.lean ====
section
/-! SUPPORT. What the operations of Machine/Broad.lean keep. -/
namespace Sys2Proof.Machine

set_option Elab.async false

theorem State.issueBroad_keeps {r₀ : State} (s : State) (k) (b) (op) (hk : State.Keeps r₀ s) : State.Keeps r₀ (State.issueBroad s k b op) := by unfold State.issueBroad; grind
grind_pattern State.issueBroad_keeps => State.issueBroad s k b op, State.Keeps r₀ s
theorem execTload_keeps {r₀ : State} (k) (b) (s : State) (hk : State.Keeps r₀ s) (t₁ : State) (ht : execTload k b s = .next t₁) : State.Keeps r₀ t₁ := by unfold execTload at ht; grind
theorem execTstore_keeps {r₀ : State} (k) (b) (s : State) (hk : State.Keeps r₀ s) (t₁ : State) (ht : execTstore k b s = .next t₁) : State.Keeps r₀ t₁ := by unfold execTstore at ht; grind
theorem execXmov_keeps {r₀ : State} (k) (b) (s : State) (hk : State.Keeps r₀ s) (t₁ : State) (ht : execXmov k b s = .next t₁) : State.Keeps r₀ t₁ := by unfold execXmov at ht; grind
theorem execMma_keeps {r₀ : State} (k) (b) (s : State) (hk : State.Keeps r₀ s) (t₁ : State) (ht : execMma k b s = .next t₁) : State.Keeps r₀ t₁ := by unfold execMma at ht; grind
theorem execConv_keeps {r₀ : State} (k) (b) (s : State) (hk : State.Keeps r₀ s) (t₁ : State) (ht : execConv k b s = .next t₁) : State.Keeps r₀ t₁ := by unfold execConv at ht; grind
theorem execAflush_keeps {r₀ : State} (k) (b) (s : State) (hk : State.Keeps r₀ s) (t₁ : State) (ht : execAflush k b s = .next t₁) : State.Keeps r₀ t₁ := by unfold execAflush at ht; grind
theorem execEwise_keeps {r₀ : State} (k) (b) (s : State) (hk : State.Keeps r₀ s) (t₁ : State) (ht : execEwise k b s = .next t₁) : State.Keeps r₀ t₁ := by unfold execEwise at ht; grind
theorem execSfn_keeps {r₀ : State} (k) (b) (s : State) (hk : State.Keeps r₀ s) (t₁ : State) (ht : execSfn k b s = .next t₁) : State.Keeps r₀ t₁ := by unfold execSfn at ht; grind
theorem execRowstat_keeps {r₀ : State} (k) (b) (s : State) (hk : State.Keeps r₀ s) (t₁ : State) (ht : execRowstat k b s = .next t₁) : State.Keeps r₀ t₁ := by unfold execRowstat at ht; grind
theorem execSmax1_keeps {r₀ : State} (k) (b) (s : State) (hk : State.Keeps r₀ s) (t₁ : State) (ht : execSmax1 k b s = .next t₁) : State.Keeps r₀ t₁ := by unfold execSmax1 at ht; grind
theorem execSmax2_keeps {r₀ : State} (k) (b) (s : State) (hk : State.Keeps r₀ s) (t₁ : State) (ht : execSmax2 k b s = .next t₁) : State.Keeps r₀ t₁ := by unfold execSmax2 at ht; grind
theorem execSmaxc_keeps {r₀ : State} (k) (b) (s : State) (hk : State.Keeps r₀ s) (t₁ : State) (ht : execSmaxc k b s = .next t₁) : State.Keeps r₀ t₁ := by unfold execSmaxc at ht; grind
theorem execNorm_keeps {r₀ : State} (k) (b) (s : State) (hk : State.Keeps r₀ s) (t₁ : State) (ht : execNorm k b s = .next t₁) : State.Keeps r₀ t₁ := by unfold execNorm at ht; grind
theorem execQnt_keeps {r₀ : State} (k) (b) (s : State) (hk : State.Keeps r₀ s) (t₁ : State) (ht : execQnt k b s = .next t₁) : State.Keeps r₀ t₁ := by unfold execQnt at ht; grind
theorem execDqnt_keeps {r₀ : State} (k) (b) (s : State) (hk : State.Keeps r₀ s) (t₁ : State) (ht : execDqnt k b s = .next t₁) : State.Keeps r₀ t₁ := by unfold execDqnt at ht; grind
theorem execCsend_keeps {r₀ : State} (k) (b) (s : State) (hk : State.Keeps r₀ s) (t₁ : State) (ht : execCsend k b s = .next t₁) : State.Keeps r₀ t₁ := by unfold execCsend at ht; grind
theorem execCwait_keeps {r₀ : State} (k) (b) (s : State) (hk : State.Keeps r₀ s) (t₁ : State) (ht : execCwait k b s = .next t₁) : State.Keeps r₀ t₁ := by unfold execCwait at ht; grind
theorem execHeadcount_keeps {r₀ : State} (k) (b) (s : State) (hk : State.Keeps r₀ s) (t₁ : State) (ht : execHeadcount k b s = .next t₁) : State.Keeps r₀ t₁ := by unfold execHeadcount at ht; grind
theorem execSync_keeps {r₀ : State} (k) (b) (s : State) (hk : State.Keeps r₀ s) (t₁ : State) (ht : execSync k b s = .next t₁) : State.Keeps r₀ t₁ := by unfold execSync at ht; grind
theorem execFarinv_keeps {r₀ : State} (k) (b) (s : State) (hk : State.Keeps r₀ s) (t₁ : State) (ht : execFarinv k b s = .next t₁) : State.Keeps r₀ t₁ := by unfold execFarinv at ht; grind
theorem execTblsel_keeps {r₀ : State} (k) (b) (s : State) (hk : State.Keeps r₀ s) (t₁ : State) (ht : execTblsel k b s = .next t₁) : State.Keeps r₀ t₁ := by unfold execTblsel at ht; grind
theorem State.rangePerm_keeps {r₀ : State} (s : State) (x) (kd) (r) (hk : State.Keeps r₀ s) : State.Keeps r₀ (State.rangePerm s x kd r).2 := by unfold State.rangePerm; grind
grind_pattern State.rangePerm_keeps => State.rangePerm s x kd r, State.Keeps r₀ s
theorem State.permAll_keeps {r₀ : State} (s : State) (x) (a) (hk : State.Keeps r₀ s) : State.Keeps r₀ (State.permAll s x a).2 := by
  induction a generalizing s with
  | nil => grind [State.permAll]
  | cons p ps ih => unfold State.permAll; grind
grind_pattern State.permAll_keeps => State.permAll s x a, State.Keeps r₀ s
theorem State.startCheck_keeps {r₀ : State} (s : State) (k) (b) (hk : State.Keeps r₀ s) : State.Keeps r₀ (State.startCheck s k b).2 := by unfold State.startCheck; grind
grind_pattern State.startCheck_keeps => State.startCheck s k b, State.Keeps r₀ s
theorem State.mapBroad_keeps {r₀ : State} (s : State) (k) (id) (f) (hk : State.Keeps r₀ s) : State.Keeps r₀ (State.mapBroad s k id f) := by unfold State.mapBroad; grind
grind_pattern State.mapBroad_keeps => State.mapBroad s k id f, State.Keeps r₀ s
theorem State.finishBroad_keeps {r₀ : State} (s : State) (k) (id) (st) (hk : State.Keeps r₀ s) : State.Keeps r₀ (State.finishBroad s k id st) := by unfold State.finishBroad; grind
grind_pattern State.finishBroad_keeps => State.finishBroad s k id st, State.Keeps r₀ s
theorem State.readRow_keeps {r₀ : State} (s : State) (k) (id) (pos) (r) (hk : State.Keeps r₀ s) : State.Keeps r₀ (State.readRow s k id pos r) := by unfold State.readRow; grind
grind_pattern State.readRow_keeps => State.readRow s k id pos r, State.Keeps r₀ s
theorem State.readRows_keeps {r₀ : State} (s : State) (k) (id) (rows) (hk : State.Keeps r₀ s) : State.Keeps r₀ (State.readRows s k id rows) := by (unfold State.readRows); (try dsimp only); with_reducible (repeat' first | assumption | (intro _ _ _) | apply State.readRow_keeps | apply State.foldl_keeps | apply State.foldl_keeps₂ | split); all_goals grind
grind_pattern State.readRows_keeps => State.readRows s k id rows, State.Keeps r₀ s
theorem State.writeRow_keeps {r₀ : State} (s : State) (k) (id) (a) (bs) (hk : State.Keeps r₀ s) : State.Keeps r₀ (State.writeRow s k id a bs).2 := by unfold State.writeRow; grind
grind_pattern State.writeRow_keeps => State.writeRow s k id a bs, State.Keeps r₀ s
theorem State.writeRows_keeps {r₀ : State} (s : State) (k) (id) (a) (a') (hk : State.Keeps r₀ s) : State.Keeps r₀ (State.writeRows s k id a a').2 := by
  induction a' generalizing s a with
  | nil => grind [State.writeRows]
  | cons p ps ih => cases a <;> (unfold State.writeRows; grind)
grind_pattern State.writeRows_keeps => State.writeRows s k id a a', State.Keeps r₀ s
theorem State.keptSteps_keeps {r₀ : State} (s : State) (b) (n) (bad) (hk : State.Keeps r₀ s) : State.Keeps r₀ (State.keptSteps s b n bad).2 := by (unfold State.keptSteps); (try dsimp only); with_reducible (repeat' first | assumption | (intro _ _ _) | apply State.free_keeps | apply State.foldl_keeps | apply State.foldl_keeps₂ | split); all_goals grind
grind_pattern State.keptSteps_keeps => State.keptSteps s b n bad, State.Keeps r₀ s
theorem State.tloadDone_keeps {r₀ : State} (s : State) (k) (b) (t) (hk : State.Keeps r₀ s) : State.Keeps r₀ (State.tloadDone s k b t) := by unfold State.tloadDone; grind
grind_pattern State.tloadDone_keeps => State.tloadDone s k b t, State.Keeps r₀ s
theorem State.xmovDone_keeps {r₀ : State} (s : State) (k) (b) (hk : State.Keeps r₀ s) : State.Keeps r₀ (State.xmovDone s k b) := by unfold State.xmovDone; grind
grind_pattern State.xmovDone_keeps => State.xmovDone s k b, State.Keeps r₀ s
theorem State.moveDone_keeps {r₀ : State} (s : State) (k) (id) (hk : State.Keeps r₀ s) : State.Keeps r₀ (State.moveDone s k id) := by unfold State.moveDone; grind
grind_pattern State.moveDone_keeps => State.moveDone s k id, State.Keeps r₀ s
theorem State.conv_keeps {r₀ : State} (s : State) (k) (b) (t) (hk : State.Keeps r₀ s) : State.Keeps r₀ (State.conv s k b t) := by
  unfold State.conv
  have hf : ∀ l : List Nat, State.Keeps r₀ (l.foldl (fun (x : List Nat × Option Status × State) u =>
      match x.2.2.touchUnit u with
      | (none, s) => (x.1, x.2.1, s)
      | (some e, s) => (u :: x.1, x.2.1 <|> some e, s)) ([], none, s)).2.2 :=
    fun l => foldl_keep (fun x : List Nat × Option Status × State => State.Keeps r₀ x.2.2) _ (by grind) l _ hk
  dsimp only
  split
  · exact State.finishBroad_keeps _ _ _ _ (State.mapCore_keeps _ _ _ (hf _))
  · exact State.finishBroad_keeps _ _ _ _ (State.mapCore_keeps _ _ _ (State.keeps_with _ (h := hf _) ..))
grind_pattern State.conv_keeps => State.conv s k b t, State.Keeps r₀ s
theorem State.runBroad_keeps {r₀ : State} (s : State) (k) (b) (t) (hk : State.Keeps r₀ s) : State.Keeps r₀ (State.runBroad s k b t) := by unfold State.runBroad; grind
grind_pattern State.runBroad_keeps => State.runBroad s k b t, State.Keeps r₀ s
theorem State.afterRetire_keeps {r₀ : State} (s : State) (k) (hk : State.Keeps r₀ s) : State.Keeps r₀ (State.afterRetire s k) := by unfold State.afterRetire; grind
grind_pattern State.afterRetire_keeps => State.afterRetire s k, State.Keeps r₀ s
theorem State.retireHead_keeps {r₀ : State} (s : State) (k) (b) (hk : State.Keeps r₀ s) : State.Keeps r₀ (State.retireHead s k b) := by unfold State.retireHead; grind
grind_pattern State.retireHead_keeps => State.retireHead s k b, State.Keeps r₀ s

end Sys2Proof.Machine
end

