-- ==== Sys2Proof/Laws/KeepIslands.lean ====
section
/-! SUPPORT. What the operations of Machine/Islands.lean keep. -/
namespace Sys2Proof.Machine

set_option Elab.async false

theorem State.setIsland_keeps {r₀ : State} (s : State) (j) (x) (hk : State.Keeps r₀ s) : State.Keeps r₀ (State.setIsland s j x) := by unfold State.setIsland; grind
grind_pattern State.setIsland_keeps => State.setIsland s j x, State.Keeps r₀ s
theorem State.mapIsland_keeps {r₀ : State} (s : State) (j) (f) (hk : State.Keeps r₀ s) : State.Keeps r₀ (State.mapIsland s j f) := by unfold State.mapIsland; grind
grind_pattern State.mapIsland_keeps => State.mapIsland s j f, State.Keeps r₀ s
theorem State.settle_keeps {r₀ : State} (s : State) (j) (hk : State.Keeps r₀ s) : State.Keeps r₀ (State.settle s j) := by unfold State.settle; grind
grind_pattern State.settle_keeps => State.settle s j, State.Keeps r₀ s
theorem State.settleAll_keeps {r₀ : State} (s : State) (hk : State.Keeps r₀ s) : State.Keeps r₀ (State.settleAll s) := by unfold State.settleAll; grind
grind_pattern State.settleAll_keeps => State.settleAll s, State.Keeps r₀ s

end Sys2Proof.Machine
end

