-- ==== Sys2Proof/Laws/KeepSetup.lean ====
section
/-! SUPPORT. What the operations of Machine/Setup.lean keep. -/
namespace Sys2Proof.Machine

set_option Elab.async false

theorem State.regAccessEvent_keeps {r₀ : State} (s : State) (off) (hk : State.Keeps r₀ s) : State.Keeps r₀ (State.regAccessEvent s off) := by unfold State.regAccessEvent; grind
grind_pattern State.regAccessEvent_keeps => State.regAccessEvent s off, State.Keeps r₀ s
theorem State.setupRead_keeps {r₀ : State} (s : State) (size) (off) (hk : State.Keeps r₀ s) : State.Keeps r₀ (State.setupRead s size off).2 := by unfold State.setupRead; grind
grind_pattern State.setupRead_keeps => State.setupRead s size off, State.Keeps r₀ s
theorem State.writeWord_keeps {r₀ : State} (s : State) (r) (is) (off) (v) (mask) (hk : State.Keeps r₀ s) : State.Keeps r₀ (State.writeWord s r is off v mask) := by unfold State.writeWord; grind
grind_pattern State.writeWord_keeps => State.writeWord s r is off v mask, State.Keeps r₀ s

end Sys2Proof.Machine
end

