-- ==== Sys2Proof/Laws/KeepBanks.lean ====
section
/-! SUPPORT. What the operations of Machine/Banks.lean keep. -/
namespace Sys2Proof.Machine

set_option Elab.async false

theorem State.endSfnLoad_keeps {r₀ : State} (s : State) (n) (i) (hk : State.Keeps r₀ s) : State.Keeps r₀ (State.endSfnLoad s n i) := by unfold State.endSfnLoad; grind
grind_pattern State.endSfnLoad_keeps => State.endSfnLoad s n i, State.Keeps r₀ s
theorem State.endFlippedLoad_keeps {r₀ : State} (s : State) (l) (hk : State.Keeps r₀ s) : State.Keeps r₀ (State.endFlippedLoad s l) := by unfold State.endFlippedLoad; grind
grind_pattern State.endFlippedLoad_keeps => State.endFlippedLoad s l, State.Keeps r₀ s
theorem execBankFlip_keeps {r₀ : State} (k) (s : State) (hk : State.Keeps r₀ s) (t₁ : State) (ht : execBankFlip k s = .next t₁) : State.Keeps r₀ t₁ := by unfold execBankFlip at ht; grind
theorem execStepTableValidated_keeps {r₀ : State} (k) (s : State) (hk : State.Keeps r₀ s) (t₁ : State) (ht : execStepTableValidated k s = .next t₁) : State.Keeps r₀ t₁ := by unfold execStepTableValidated at ht; grind
theorem execSfnTableChecked_keeps {r₀ : State} (k) (slot) (s : State) (hk : State.Keeps r₀ s) (t₁ : State) (ht : execSfnTableChecked k slot s = .next t₁) : State.Keeps r₀ t₁ := by unfold execSfnTableChecked at ht; grind

end Sys2Proof.Machine
end

