-- ==== Sys2Proof/Laws/KeepRings.lean ====
section
/-! SUPPORT. What the operations of Machine/Rings.lean keep. -/
namespace Sys2Proof.Machine

set_option Elab.async false

theorem State.dropFetch_keeps {r₀ : State} (s : State) (n) (hk : State.Keeps r₀ s) : State.Keeps r₀ (State.dropFetch s n) := by unfold State.dropFetch; grind
grind_pattern State.dropFetch_keeps => State.dropFetch s n, State.Keeps r₀ s
theorem State.forgetSlot_keeps {r₀ : State} (s : State) (n) (hk : State.Keeps r₀ s) : State.Keeps r₀ (State.forgetSlot s n) := by unfold State.forgetSlot; grind
grind_pattern State.forgetSlot_keeps => State.forgetSlot s n, State.Keeps r₀ s
theorem State.writeRingCfg_keeps {r₀ : State} (s : State) (n) (v) (mask) (hk : State.Keeps r₀ s) : State.Keeps r₀ (State.writeRingCfg s n v mask) := by unfold State.writeRingCfg; grind
grind_pattern State.writeRingCfg_keeps => State.writeRingCfg s n v mask, State.Keeps r₀ s
theorem execRingEnable_keeps {r₀ : State} (src) (n) (v) (s : State) (hk : State.Keeps r₀ s) (t₁ : State) (ht : execRingEnable src n v s = .next t₁) : State.Keeps r₀ t₁ := by unfold execRingEnable at ht; grind
theorem execRingDisable_keeps {r₀ : State} (src) (n) (v) (s : State) (hk : State.Keeps r₀ s) (t₁ : State) (ht : execRingDisable src n v s = .next t₁) : State.Keeps r₀ t₁ := by unfold execRingDisable at ht; grind
theorem State.writeEvtCfg_keeps {r₀ : State} (s : State) (e) (v) (mask) (hk : State.Keeps r₀ s) : State.Keeps r₀ (State.writeEvtCfg s e v mask) := by unfold State.writeEvtCfg; grind
grind_pattern State.writeEvtCfg_keeps => State.writeEvtCfg s e v mask, State.Keeps r₀ s
theorem execEvtRingEnable_keeps {r₀ : State} (src) (e) (v) (s : State) (hk : State.Keeps r₀ s) (t₁ : State) (ht : execEvtRingEnable src e v s = .next t₁) : State.Keeps r₀ t₁ := by unfold execEvtRingEnable at ht; grind
theorem execDoorbell_keeps {r₀ : State} (src) (n) (off) (size) (v) (s : State) (hk : State.Keeps r₀ s) (t₁ : State) (ht : execDoorbell src n off size v s = .next t₁) : State.Keeps r₀ t₁ := by unfold execDoorbell at ht; grind
theorem execDoorbellRead_keeps {r₀ : State} (n) (off) (size) (s : State) (hk : State.Keeps r₀ s) (t₁ : State) (ht : execDoorbellRead n off size s = .next t₁) : State.Keeps r₀ t₁ := by unfold execDoorbellRead at ht; grind
theorem State.addDesc_keeps {r₀ : State} (s : State) (d) (hk : State.Keeps r₀ s) : State.Keeps r₀ (State.addDesc s d) := by unfold State.addDesc; grind
grind_pattern State.addDesc_keeps => State.addDesc s d, State.Keeps r₀ s
theorem State.fetchFailed_keeps {r₀ : State} (s : State) (n) (i) (st) (hk : State.Keeps r₀ s) : State.Keeps r₀ (State.fetchFailed s n i st) := by unfold State.fetchFailed; grind
grind_pattern State.fetchFailed_keeps => State.fetchFailed s n i st, State.Keeps r₀ s
theorem State.slotRead_keeps {r₀ : State} (s : State) (n) (i) (ws) (hk : State.Keeps r₀ s) : State.Keeps r₀ (State.slotRead s n i ws) := by unfold State.slotRead; grind
grind_pattern State.slotRead_keeps => State.slotRead s n i ws, State.Keeps r₀ s
theorem State.readSlot_keeps {r₀ : State} (s : State) (n) (i) (hk : State.Keeps r₀ s) : State.Keeps r₀ (State.readSlot s n i) := by unfold State.readSlot; grind
grind_pattern State.readSlot_keeps => State.readSlot s n i, State.Keeps r₀ s
theorem execDescriptorStart_keeps {r₀ : State} (n) (s : State) (hk : State.Keeps r₀ s) (t₁ : State) (ht : execDescriptorStart n s = .next t₁) : State.Keeps r₀ t₁ := by unfold execDescriptorStart at ht; grind
theorem execSeqRecheck_keeps {r₀ : State} (n) (s : State) (hk : State.Keeps r₀ s) (t₁ : State) (ht : execSeqRecheck n s = .next t₁) : State.Keeps r₀ t₁ := by unfold execSeqRecheck at ht; grind
theorem execSeqWaitTimeout_keeps {r₀ : State} (n) (s : State) (hk : State.Keeps r₀ s) (t₁ : State) (ht : execSeqWaitTimeout n s = .next t₁) : State.Keeps r₀ t₁ := by unfold execSeqWaitTimeout at ht; grind
theorem State.stragStart_keeps {r₀ : State} (s : State) (x) (step) (hk : State.Keeps r₀ s) : State.Keeps r₀ (State.stragStart s x step) := by unfold State.stragStart; grind
grind_pattern State.stragStart_keeps => State.stragStart s x step, State.Keeps r₀ s
theorem State.stragStep_keeps {r₀ : State} (s : State) (x) (t) (hk : State.Keeps r₀ s) : State.Keeps r₀ (State.stragStep s x t) := by unfold State.stragStep; grind
grind_pattern State.stragStep_keeps => State.stragStep s x t, State.Keeps r₀ s
theorem State.stragFinish_keeps {r₀ : State} (s : State) (d) (hk : State.Keeps r₀ s) : State.Keeps r₀ (State.stragFinish s d) := by unfold State.stragFinish; grind
grind_pattern State.stragFinish_keeps => State.stragFinish s d, State.Keeps r₀ s
theorem State.cplDone_keeps {r₀ : State} (s : State) (n) (hk : State.Keeps r₀ s) : State.Keeps r₀ (State.cplDone s n) := by (unfold State.cplDone); (try dsimp only); with_reducible (repeat' first | assumption | (intro _ _ _) | apply State.setFld_keeps | apply State.stragFinish_keeps | apply State.wrapInc_keeps | apply State.foldl_keeps | apply State.foldl_keeps₂ | split); all_goals grind
grind_pattern State.cplDone_keeps => State.cplDone s n, State.Keeps r₀ s
theorem State.cplFailed_keeps {r₀ : State} (s : State) (n) (st) (hk : State.Keeps r₀ s) : State.Keeps r₀ (State.cplFailed s n st) := by unfold State.cplFailed; grind
grind_pattern State.cplFailed_keeps => State.cplFailed s n st, State.Keeps r₀ s
theorem State.postCpl_keeps {r₀ : State} (s : State) (n) (d) (hk : State.Keeps r₀ s) : State.Keeps r₀ (State.postCpl s n d) := by unfold State.postCpl; grind
grind_pattern State.postCpl_keeps => State.postCpl s n d, State.Keeps r₀ s
theorem execDescriptorFinish_keeps {r₀ : State} (n) (s : State) (hk : State.Keeps r₀ s) (t₁ : State) (ht : execDescriptorFinish n s = .next t₁) : State.Keeps r₀ t₁ := by unfold execDescriptorFinish at ht; grind
theorem State.writeRingFlags_keeps {r₀ : State} (s : State) (n) (v) (mask) (hk : State.Keeps r₀ s) : State.Keeps r₀ (State.writeRingFlags s n v mask) := by unfold State.writeRingFlags; grind
grind_pattern State.writeRingFlags_keeps => State.writeRingFlags s n v mask, State.Keeps r₀ s
theorem execRingFaultedRetry_keeps {r₀ : State} (src) (n) (s : State) (hk : State.Keeps r₀ s) (t₁ : State) (ht : execRingFaultedRetry src n s = .next t₁) : State.Keeps r₀ t₁ := by unfold execRingFaultedRetry at ht; grind
theorem execRingStoppedClear_keeps {r₀ : State} (src) (n) (s : State) (hk : State.Keeps r₀ s) (t₁ : State) (ht : execRingStoppedClear src n s = .next t₁) : State.Keeps r₀ t₁ := by unfold execRingStoppedClear at ht; grind
theorem State.lanternTo_keeps {r₀ : State} (s : State) (t) (e) (hk : State.Keeps r₀ s) : State.Keeps r₀ (State.lanternTo s t e) := by unfold State.lanternTo; grind
grind_pattern State.lanternTo_keeps => State.lanternTo s t e, State.Keeps r₀ s
theorem execLantern_keeps {r₀ : State} (s : State) (hk : State.Keeps r₀ s) (t₁ : State) (ht : execLantern s = .next t₁) : State.Keeps r₀ t₁ := by unfold execLantern at ht; grind
theorem execLanternPeriodWrite_keeps {r₀ : State} (src) (us) (s : State) (hk : State.Keeps r₀ s) (t₁ : State) (ht : execLanternPeriodWrite src us s = .next t₁) : State.Keeps r₀ t₁ := by unfold execLanternPeriodWrite at ht; grind

end Sys2Proof.Machine
end

