-- ==== Sys2Proof/Laws/KeepDescs.lean ====
section
/-! SUPPORT. What the operations of Machine/Descs.lean keep. -/
namespace Sys2Proof.Machine

set_option Elab.async false

theorem State.failPiece_keeps {r₀ : State} (s : State) (n) (i) (pos) (st) (hk : State.Keeps r₀ s) : State.Keeps r₀ (State.failPiece s n i pos st) := by unfold State.failPiece; grind
grind_pattern State.failPiece_keeps => State.failPiece s n i pos st, State.Keeps r₀ s
theorem State.endTransfer_keeps {r₀ : State} (s : State) (n) (i) (total) (hk : State.Keeps r₀ s) : State.Keeps r₀ (State.endTransfer s n i total) := by unfold State.endTransfer; grind
grind_pattern State.endTransfer_keeps => State.endTransfer s n i total, State.Keeps r₀ s
theorem State.putPiece_keeps {r₀ : State} (s : State) (n) (i) (pos) (o) (bs) (hk : State.Keeps r₀ s) : State.Keeps r₀ (State.putPiece s n i pos o bs) := by unfold State.putPiece; grind
grind_pattern State.putPiece_keeps => State.putPiece s n i pos o bs, State.Keeps r₀ s
theorem State.awaiting_keeps {r₀ : State} (s : State) (n) (i) (k) (hk : State.Keeps r₀ s) : State.Keeps r₀ (State.awaiting s n i k) := by unfold State.awaiting; grind
grind_pattern State.awaiting_keeps => State.awaiting s n i k, State.Keeps r₀ s
theorem execNopDesc_keeps {r₀ : State} (n) (i) (s : State) (hk : State.Keeps r₀ s) (t₁ : State) (ht : execNopDesc n i s = .next t₁) : State.Keeps r₀ t₁ := by unfold execNopDesc at ht; grind
theorem State.waitWord_keeps {r₀ : State} (s : State) (n) (i) (w) (hk : State.Keeps r₀ s) : State.Keeps r₀ (State.waitWord s n i w) := by unfold State.waitWord; grind
grind_pattern State.waitWord_keeps => State.waitWord s n i w, State.Keeps r₀ s
theorem State.waitFail_keeps {r₀ : State} (s : State) (n) (i) (st) (hk : State.Keeps r₀ s) : State.Keeps r₀ (State.waitFail s n i st) := by unfold State.waitFail; grind
grind_pattern State.waitFail_keeps => State.waitFail s n i st, State.Keeps r₀ s
theorem State.waitRead_keeps {r₀ : State} (s : State) (n) (i) (d) (hk : State.Keeps r₀ s) : State.Keeps r₀ (State.waitRead s n i d) := by unfold State.waitRead; grind
grind_pattern State.waitRead_keeps => State.waitRead s n i d, State.Keeps r₀ s
theorem execWait_keeps {r₀ : State} (n) (i) (s : State) (hk : State.Keeps r₀ s) (t₁ : State) (ht : execWait n i s = .next t₁) : State.Keeps r₀ t₁ := by unfold execWait at ht; grind
theorem execWaitPoll_keeps {r₀ : State} (n) (i) (s : State) (hk : State.Keeps r₀ s) (t₁ : State) (ht : execWaitPoll n i s = .next t₁) : State.Keeps r₀ t₁ := by unfold execWaitPoll at ht; grind
theorem execWaitTimeout_keeps {r₀ : State} (n) (i) (s : State) (hk : State.Keeps r₀ s) (t₁ : State) (ht : execWaitTimeout n i s = .next t₁) : State.Keeps r₀ t₁ := by unfold execWaitTimeout at ht; grind
theorem execLaunch_keeps {r₀ : State} (n) (i) (s : State) (hk : State.Keeps r₀ s) (t₁ : State) (ht : execLaunch n i s = .next t₁) : State.Keeps r₀ t₁ := by unfold execLaunch at ht; grind
theorem State.readSource_keeps {r₀ : State} (s : State) (n) (i) (a) (len) (hk : State.Keeps r₀ s) : State.Keeps r₀ (State.readSource s n i a len) := by unfold State.readSource; grind
grind_pattern State.readSource_keeps => State.readSource s n i a len, State.Keeps r₀ s
theorem State.programWrite_keeps {r₀ : State} (s : State) (n) (i) (d) (hk : State.Keeps r₀ s) : State.Keeps r₀ (State.programWrite s n i d) := by unfold State.programWrite; grind
grind_pattern State.programWrite_keeps => State.programWrite s n i d, State.Keeps r₀ s
theorem State.stepWrite_keeps {r₀ : State} (s : State) (n) (i) (d) (hk : State.Keeps r₀ s) : State.Keeps r₀ (State.stepWrite s n i d) := by unfold State.stepWrite; grind
grind_pattern State.stepWrite_keeps => State.stepWrite s n i d, State.Keeps r₀ s
theorem State.slotWrite_keeps {r₀ : State} (s : State) (d) (hk : State.Keeps r₀ s) : State.Keeps r₀ (State.slotWrite s d) := by unfold State.slotWrite; grind
grind_pattern State.slotWrite_keeps => State.slotWrite s d, State.Keeps r₀ s
theorem execProgramLoad_keeps {r₀ : State} (n) (i) (s : State) (hk : State.Keeps r₀ s) (t₁ : State) (ht : execProgramLoad n i s = .next t₁) : State.Keeps r₀ t₁ := by unfold execProgramLoad at ht; grind
theorem execStepLoad_keeps {r₀ : State} (n) (i) (s : State) (hk : State.Keeps r₀ s) (t₁ : State) (ht : execStepLoad n i s = .next t₁) : State.Keeps r₀ t₁ := by unfold execStepLoad at ht; grind
theorem execSfnLoad_keeps {r₀ : State} (n) (i) (s : State) (hk : State.Keeps r₀ s) (t₁ : State) (ht : execSfnLoad n i s = .next t₁) : State.Keeps r₀ t₁ := by unfold execSfnLoad at ht; grind
theorem State.copyPiece_keeps {r₀ : State} (s : State) (n) (i) (p) (hk : State.Keeps r₀ s) : State.Keeps r₀ (State.copyPiece s n i p) := by unfold State.copyPiece; grind
grind_pattern State.copyPiece_keeps => State.copyPiece s n i p, State.Keeps r₀ s
theorem State.copyPieces_keeps {r₀ : State} (s : State) (n) (i) (a) (hk : State.Keeps r₀ s) : State.Keeps r₀ (State.copyPieces s n i a) := by
  induction a generalizing s with
  | nil => grind [State.copyPieces]
  | cons p ps ih => unfold State.copyPieces; grind
grind_pattern State.copyPieces_keeps => State.copyPieces s n i a, State.Keeps r₀ s
theorem State.readLocal_keeps {r₀ : State} (s : State) (a) (x) (len) (hk : State.Keeps r₀ s) : State.Keeps r₀ (State.readLocal s a x len).2 := by unfold State.readLocal; grind
grind_pattern State.readLocal_keeps => State.readLocal s a x len, State.Keeps r₀ s
theorem State.gatherParts_keeps {r₀ : State} (s : State) (n) (a) (hk : State.Keeps r₀ s) : State.Keeps r₀ (State.gatherParts s n a).2 := by
  induction a generalizing s with
  | nil => grind [State.gatherParts]
  | cons p ps ih => unfold State.gatherParts; grind
grind_pattern State.gatherParts_keeps => State.gatherParts s n a, State.Keeps r₀ s
theorem State.copyWhole_keeps {r₀ : State} (s : State) (n) (i) (rows) (a) (hk : State.Keeps r₀ s) : State.Keeps r₀ (State.copyWhole s n i rows a) := by
  induction a generalizing s with
  | nil => grind [State.copyWhole]
  | cons p ps ih => unfold State.copyWhole; grind
grind_pattern State.copyWhole_keeps => State.copyWhole s n i rows a, State.Keeps r₀ s
theorem State.copyRows_keeps {r₀ : State} (s : State) (n) (i) (d) (hk : State.Keeps r₀ s) : State.Keeps r₀ (State.copyRows s n i d) := by unfold State.copyRows; grind
grind_pattern State.copyRows_keeps => State.copyRows s n i d, State.Keeps r₀ s
theorem State.putBuffered_keeps {r₀ : State} (s : State) (n) (i) (d) (g) (len) (hk : State.Keeps r₀ s) : State.Keeps r₀ (State.putBuffered s n i d g len) := by unfold State.putBuffered; grind
grind_pattern State.putBuffered_keeps => State.putBuffered s n i d g len, State.Keeps r₀ s
theorem State.copyArrive_keeps {r₀ : State} (s : State) (n) (i) (pos) (bs) (hk : State.Keeps r₀ s) : State.Keeps r₀ (State.copyArrive s n i pos bs) := by unfold State.copyArrive; grind
grind_pattern State.copyArrive_keeps => State.copyArrive s n i pos bs, State.Keeps r₀ s
theorem State.copyFlush_keeps {r₀ : State} (s : State) (n) (i) (hk : State.Keeps r₀ s) : State.Keeps r₀ (State.copyFlush s n i) := by unfold State.copyFlush; grind
grind_pattern State.copyFlush_keeps => State.copyFlush s n i, State.Keeps r₀ s
theorem State.sendPieces_keeps {r₀ : State} (s : State) (n) (i) (c) (read) (a) (hread : ∀ s x1, State.Keeps r₀ s → State.Keeps r₀ (read s x1).2) (hk : State.Keeps r₀ s) : State.Keeps r₀ (State.sendPieces s n i c read a) := by
  induction a generalizing s with
  | nil => grind [State.sendPieces]
  | cons p ps ih => unfold State.sendPieces; grind
grind_pattern State.sendPieces_keeps => State.sendPieces s n i c read a, State.Keeps r₀ s
theorem State.fetchPiece_keeps {r₀ : State} (s : State) (n) (i) (c) (p) (hk : State.Keeps r₀ s) : State.Keeps r₀ (State.fetchPiece s n i c p) := by unfold State.fetchPiece; grind
grind_pattern State.fetchPiece_keeps => State.fetchPiece s n i c p, State.Keeps r₀ s
theorem State.fetchPieces_keeps {r₀ : State} (s : State) (n) (i) (c) (a) (hk : State.Keeps r₀ s) : State.Keeps r₀ (State.fetchPieces s n i c a) := by
  induction a generalizing s with
  | nil => grind [State.fetchPieces]
  | cons p ps ih => unfold State.fetchPieces; grind
grind_pattern State.fetchPieces_keeps => State.fetchPieces s n i c a, State.Keeps r₀ s
theorem State.endIfDone_keeps {r₀ : State} (s : State) (n) (i) (total) (hk : State.Keeps r₀ s) : State.Keeps r₀ (State.endIfDone s n i total) := by unfold State.endIfDone; grind
grind_pattern State.endIfDone_keeps => State.endIfDone s n i total, State.Keeps r₀ s
theorem execCopy_keeps {r₀ : State} (n) (i) (s : State) (hk : State.Keeps r₀ s) (t₁ : State) (ht : execCopy n i s = .next t₁) : State.Keeps r₀ t₁ := by unfold execCopy at ht; grind
theorem State.fillPieces_keeps {r₀ : State} (s : State) (n) (i) (w) (a) (hk : State.Keeps r₀ s) : State.Keeps r₀ (State.fillPieces s n i w a) := by
  induction a generalizing s with
  | nil => grind [State.fillPieces]
  | cons p ps ih => unfold State.fillPieces; grind
grind_pattern State.fillPieces_keeps => State.fillPieces s n i w a, State.Keeps r₀ s
theorem execFill_keeps {r₀ : State} (n) (i) (s : State) (hk : State.Keeps r₀ s) (t₁ : State) (ht : execFill n i s = .next t₁) : State.Keeps r₀ t₁ := by unfold execFill at ht; grind
theorem State.sendNotify_keeps {r₀ : State} (s : State) (n) (i) (d) (hk : State.Keeps r₀ s) : State.Keeps r₀ (State.sendNotify s n i d) := by unfold State.sendNotify; grind
grind_pattern State.sendNotify_keeps => State.sendNotify s n i d, State.Keeps r₀ s
theorem State.putBytesDone_keeps {r₀ : State} (s : State) (n) (i) (hk : State.Keeps r₀ s) : State.Keeps r₀ (State.putBytesDone s n i) := by unfold State.putBytesDone; grind
grind_pattern State.putBytesDone_keeps => State.putBytesDone s n i, State.Keeps r₀ s
theorem State.putPieces_keeps {r₀ : State} (s : State) (n) (i) (c) (src) (a) (hk : State.Keeps r₀ s) : State.Keeps r₀ (State.putPieces s n i c src a) := by
  induction a generalizing s with
  | nil => grind [State.putPieces]
  | cons p ps ih => unfold State.putPieces; grind
grind_pattern State.putPieces_keeps => State.putPieces s n i c src a, State.Keeps r₀ s
theorem execPut_keeps {r₀ : State} (n) (i) (s : State) (hk : State.Keeps r₀ s) (t₁ : State) (ht : execPut n i s = .next t₁) : State.Keeps r₀ t₁ := by unfold execPut at ht; grind
theorem execGet_keeps {r₀ : State} (n) (i) (s : State) (hk : State.Keeps r₀ s) (t₁ : State) (ht : execGet n i s = .next t₁) : State.Keeps r₀ t₁ := by (unfold execGet at ht; cases ht); (try dsimp only); with_reducible (repeat' first | assumption | (intro _ _ _) | apply State.awaiting_keeps | apply State.endDesc_keeps | apply State.mapDesc_keeps | apply State.request_keeps | apply State.foldl_keeps | apply State.foldl_keeps₂ | split); all_goals grind
theorem State.oneLess_keeps {r₀ : State} (s : State) (n) (i) (hk : State.Keeps r₀ s) : State.Keeps r₀ (State.oneLess s n i) := by unfold State.oneLess; grind
grind_pattern State.oneLess_keeps => State.oneLess s n i, State.Keeps r₀ s
theorem State.transferStep_keeps {r₀ : State} (s : State) (n) (i) (d) (hk : State.Keeps r₀ s) : State.Keeps r₀ (State.transferStep s n i d) := by unfold State.transferStep; grind
grind_pattern State.transferStep_keeps => State.transferStep s n i d, State.Keeps r₀ s
theorem State.descData_keeps {r₀ : State} (s : State) (n) (i) (pos) (bs) (hk : State.Keeps r₀ s) : State.Keeps r₀ (State.descData s n i pos bs) := by unfold State.descData; grind
grind_pattern State.descData_keeps => State.descData s n i pos bs, State.Keeps r₀ s
theorem State.openGood_keeps {r₀ : State} (s : State) (o) (len) (st) (hk : State.Keeps r₀ s) : State.Keeps r₀ (State.openGood s o len st).2 := by unfold State.openGood; grind
grind_pattern State.openGood_keeps => State.openGood s o len st, State.Keeps r₀ s
theorem State.descFail_keeps {r₀ : State} (s : State) (n) (i) (pos) (o) (len) (st) (hk : State.Keeps r₀ s) : State.Keeps r₀ (State.descFail s n i pos o len st) := by unfold State.descFail; grind
grind_pattern State.descFail_keeps => State.descFail s n i pos o len st, State.Keeps r₀ s
theorem State.descAck_keeps {r₀ : State} (s : State) (n) (i) (hk : State.Keeps r₀ s) : State.Keeps r₀ (State.descAck s n i) := by unfold State.descAck; grind
grind_pattern State.descAck_keeps => State.descAck s n i, State.Keeps r₀ s

end Sys2Proof.Machine
end

