-- ==== Sys2Proof/Laws/KeepErrors.lean ====
section
/-! SUPPORT. What the operations of Machine/Errors.lean keep. -/
namespace Sys2Proof.Machine

set_option Elab.async false

theorem State.requestDump_keeps {r₀ : State} (s : State) (r) (hk : State.Keeps r₀ s) : State.Keeps r₀ (State.requestDump s r) := by unfold State.requestDump; grind
grind_pattern State.requestDump_keeps => State.requestDump s r, State.Keeps r₀ s
theorem State.deviceFault_keeps {r₀ : State} (s : State) (code) (detail) (hk : State.Keeps r₀ s) : State.Keeps r₀ (State.deviceFault s code detail) := by unfold State.deviceFault; grind
grind_pattern State.deviceFault_keeps => State.deviceFault s code detail, State.Keeps r₀ s
theorem State.failSafe_keeps {r₀ : State} (s : State) (c) (hk : State.Keeps r₀ s) : State.Keeps r₀ (State.failSafe s c) := by unfold State.failSafe; grind
grind_pattern State.failSafe_keeps => State.failSafe s c, State.Keeps r₀ s
theorem execFailsafeEnter_keeps {r₀ : State} (c) (s : State) (hk : State.Keeps r₀ s) (t₁ : State) (ht : execFailsafeEnter c s = .next t₁) : State.Keeps r₀ t₁ := by unfold execFailsafeEnter at ht; grind
theorem execRangerWatchdog_keeps {r₀ : State} (s : State) (hk : State.Keeps r₀ s) (t₁ : State) (ht : execRangerWatchdog s = .next t₁) : State.Keeps r₀ t₁ := by unfold execRangerWatchdog at ht; grind
theorem execLockstepPair_keeps {r₀ : State} (pair) (s : State) (hk : State.Keeps r₀ s) (t₁ : State) (ht : execLockstepPair pair s = .next t₁) : State.Keeps r₀ t₁ := by unfold execLockstepPair at ht; grind
theorem State.deviceReset_keeps {r₀ : State} (s : State) (cause) (hk : State.Keeps r₀ s) : State.Keeps r₀ (State.deviceReset s cause) := by
  have h0 : State.Keeps r₀ { State.reset with
      pending := s.pending, out := s.out ++ s.laserPins, freeCtr := s.freeCtr, nor := s.nor, trail := s.trail, trailNext := s.trailNext
      trailSeq := s.trailSeq, fuses := s.fuses, hamper := s.hamper, snap := { Snap.reset with store := s.snap.store }
      boot := { Boot.reset with source := s.boot.source, loopOpen := s.boot.loopOpen, permit := s.boot.permit }
      resetCause := cause } := ⟨hk.1, hk.2, by rfl, ⟨rfl, by simp [State.reset]⟩⟩
  unfold State.deviceReset
  dsimp only
  split
  · exact State.setFld_keeps _ _ _ _ h0
  · exact State.setFld_keeps _ _ _ _ (State.setFld_keeps _ _ _ _ (State.setFld_keeps _ _ _ _ h0))
grind_pattern State.deviceReset_keeps => State.deviceReset s cause, State.Keeps r₀ s
theorem State.orphanDesc_keeps {r₀ : State} (s : State) (n) (i) (hk : State.Keeps r₀ s) : State.Keeps r₀ (State.orphanDesc s n i) := by unfold State.orphanDesc; grind
grind_pattern State.orphanDesc_keeps => State.orphanDesc s n i, State.Keeps r₀ s
theorem State.fenceDesc_keeps {r₀ : State} (s : State) (hang) (d) (hk : State.Keeps r₀ s) : State.Keeps r₀ (State.fenceDesc s hang d) := by unfold State.fenceDesc; grind
grind_pattern State.fenceDesc_keeps => State.fenceDesc s hang d, State.Keeps r₀ s
theorem State.fenceCore_keeps {r₀ : State} (s : State) (hang) (k) (hk : State.Keeps r₀ s) : State.Keeps r₀ (State.fenceCore s hang k) := by unfold State.fenceCore; grind
grind_pattern State.fenceCore_keeps => State.fenceCore s hang k, State.Keeps r₀ s
theorem State.fenceDomain_keeps {r₀ : State} (s : State) (kind) (index) (hang) (hk : State.Keeps r₀ s) : State.Keeps r₀ (State.fenceDomain s kind index hang) := by unfold State.fenceDomain; grind
grind_pattern State.fenceDomain_keeps => State.fenceDomain s kind index hang, State.Keeps r₀ s
theorem State.syncPhase_keeps {r₀ : State} (s : State) (hk : State.Keeps r₀ s) : State.Keeps r₀ (State.syncPhase s) := by unfold State.syncPhase; grind
grind_pattern State.syncPhase_keeps => State.syncPhase s, State.Keeps r₀ s
theorem State.requestReset_keeps {r₀ : State} (s : State) (kind) (index) (dump) (hang) (cause) (hk : State.Keeps r₀ s) : State.Keeps r₀ (State.requestReset s kind index dump hang cause) := by unfold State.requestReset; grind
grind_pattern State.requestReset_keeps => State.requestReset s kind index dump hang cause, State.Keeps r₀ s
theorem execResetCore_keeps {r₀ : State} (src) (k) (s : State) (hk : State.Keeps r₀ s) (t₁ : State) (ht : execResetCore src k s = .next t₁) : State.Keeps r₀ t₁ := by unfold execResetCore at ht; grind
theorem execResetCluster_keeps {r₀ : State} (src) (c) (s : State) (hk : State.Keeps r₀ s) (t₁ : State) (ht : execResetCluster src c s = .next t₁) : State.Keeps r₀ t₁ := by unfold execResetCluster at ht; grind
theorem State.advanceReset_keeps {r₀ : State} (s : State) (phase) (f) (hk : State.Keeps r₀ s) : State.Keeps r₀ (State.advanceReset s phase f) := by unfold State.advanceReset; grind
grind_pattern State.advanceReset_keeps => State.advanceReset s phase f, State.Keeps r₀ s
theorem execFenceDrained_keeps {r₀ : State} (s : State) (hk : State.Keeps r₀ s) (t₁ : State) (ht : execFenceDrained s = .next t₁) : State.Keeps r₀ t₁ := by unfold execFenceDrained at ht; grind
theorem State.clearTray_keeps {r₀ : State} (s : State) (k) (hk : State.Keeps r₀ s) : State.Keeps r₀ (State.clearTray s k) := State.keeps_mem s _ (h := hk) (hm := Maps.wf_clear 0 _ _ _ hk.mem) ..
grind_pattern State.clearTray_keeps => State.clearTray s k, State.Keeps r₀ s
theorem State.resetCore_keeps {r₀ : State} (s : State) (k) (hk : State.Keeps r₀ s) : State.Keeps r₀ (State.resetCore s k) := by unfold State.resetCore; grind
grind_pattern State.resetCore_keeps => State.resetCore s k, State.Keeps r₀ s
theorem State.resetDomain_keeps {r₀ : State} (s : State) (kind) (index) (hk : State.Keeps r₀ s) : State.Keeps r₀ (State.resetDomain s kind index) := by unfold State.resetDomain; grind
grind_pattern State.resetDomain_keeps => State.resetDomain s kind index, State.Keeps r₀ s
theorem State.releaseHeld_keeps {r₀ : State} (s : State) (x) (st) (hk : State.Keeps r₀ s) : State.Keeps r₀ (State.releaseHeld s x st) := by unfold State.releaseHeld; grind
grind_pattern State.releaseHeld_keeps => State.releaseHeld s x st, State.Keeps r₀ s
theorem State.restartHeld_keeps {r₀ : State} (s : State) (x) (hk : State.Keeps r₀ s) : State.Keeps r₀ (State.restartHeld s x) := by unfold State.restartHeld; grind
grind_pattern State.restartHeld_keeps => State.restartHeld s x, State.Keeps r₀ s
theorem State.endReset_keeps {r₀ : State} (s : State) (r) (hk : State.Keeps r₀ s) : State.Keeps r₀ (State.endReset s r) := by unfold State.endReset; grind
grind_pattern State.endReset_keeps => State.endReset s r, State.Keeps r₀ s
theorem State.settleReset_keeps {r₀ : State} (s : State) (hk : State.Keeps r₀ s) : State.Keeps r₀ (State.settleReset s) := by unfold State.settleReset; grind
grind_pattern State.settleReset_keeps => State.settleReset s, State.Keeps r₀ s
theorem State.blame_keeps {r₀ : State} (s : State) (x) (kind) (index) (hk : State.Keeps r₀ s) : State.Keeps r₀ (State.blame s x kind index) := by unfold State.blame; grind
grind_pattern State.blame_keeps => State.blame s x kind index, State.Keeps r₀ s
theorem execDomainResetDone_keeps {r₀ : State} (s : State) (hk : State.Keeps r₀ s) (t₁ : State) (ht : execDomainResetDone s = .next t₁) : State.Keeps r₀ t₁ := by
  unfold execDomainResetDone at ht
  cases ht
  split
  · exact hk
  · apply State.settleReset_keeps
    apply State.advanceReset_keeps
    split <;> grind
theorem execSuspectReplay_keeps {r₀ : State} (x) (hung) (s : State) (hk : State.Keeps r₀ s) (t₁ : State) (ht : execSuspectReplay x hung s = .next t₁) : State.Keeps r₀ t₁ := by unfold execSuspectReplay at ht; grind
theorem execHangDetect_keeps {r₀ : State} (e) (s : State) (hk : State.Keeps r₀ s) (t₁ : State) (ht : execHangDetect e s = .next t₁) : State.Keeps r₀ t₁ := by unfold execHangDetect at ht; grind
theorem State.writeErrAbort_keeps {r₀ : State} (s : State) (v) (mask) (hk : State.Keeps r₀ s) : State.Keeps r₀ (State.writeErrAbort s v mask) := by unfold State.writeErrAbort; grind
grind_pattern State.writeErrAbort_keeps => State.writeErrAbort s v mask, State.Keeps r₀ s
theorem execErrAbort_keeps {r₀ : State} (src) (v) (s : State) (hk : State.Keeps r₀ s) (t₁ : State) (ht : execErrAbort src v s = .next t₁) : State.Keeps r₀ t₁ := by unfold execErrAbort at ht; grind
theorem State.writeErrCtx_keeps {r₀ : State} (s : State) (x) (v) (mask) (hk : State.Keeps r₀ s) : State.Keeps r₀ (State.writeErrCtx s x v mask) := by unfold State.writeErrCtx; grind
grind_pattern State.writeErrCtx_keeps => State.writeErrCtx s x v mask, State.Keeps r₀ s
theorem execAbortClear_keeps {r₀ : State} (src) (x) (s : State) (hk : State.Keeps r₀ s) (t₁ : State) (ht : execAbortClear src x s = .next t₁) : State.Keeps r₀ t₁ := by unfold execAbortClear at ht; grind
theorem execAbort_keeps {r₀ : State} (p) (s : State) (hk : State.Keeps r₀ s) (t₁ : State) (ht : execAbort p s = .next t₁) : State.Keeps r₀ t₁ := by unfold execAbort at ht; grind

end Sys2Proof.Machine
end

