-- ==== Sys2Proof/Laws/KeepColl.lean ====
section
/-! SUPPORT. What the operations of Machine/Coll.lean keep. -/
namespace Sys2Proof.Machine

set_option Elab.async false

theorem State.colSend_keeps {r₀ : State} (s : State) (h) (n) (dst) (op) (seq) (w3) (pl) (hk : State.Keeps r₀ s) : State.Keeps r₀ (State.colSend s h n dst op seq w3 pl) := by unfold State.colSend; grind
grind_pattern State.colSend_keeps => State.colSend s h n dst op seq w3 pl, State.Keeps r₀ s
theorem State.mapColl_keeps {r₀ : State} (s : State) (h) (f) (hk : State.Keeps r₀ s) : State.Keeps r₀ (State.mapColl s h f) := by unfold State.mapColl; grind
grind_pattern State.mapColl_keeps => State.mapColl s h f, State.Keeps r₀ s
theorem State.colTell_keeps {r₀ : State} (s : State) (h) (n) (seq) (pl) (but) (hk : State.Keeps r₀ s) : State.Keeps r₀ (State.colTell s h n seq pl but) := by unfold State.colTell; grind
grind_pattern State.colTell_keeps => State.colTell s h n seq pl but, State.Keeps r₀ s
theorem State.finishColl_keeps {r₀ : State} (s : State) (h) (st) (cw) (hk : State.Keeps r₀ s) : State.Keeps r₀ (State.finishColl s h st cw) := by (unfold State.finishColl); (try dsimp only); with_reducible (repeat' first | assumption | (intro _ _ _) | apply State.bump_keeps | apply State.collOrder_keeps | apply State.endDesc_keeps | apply State.poisonResult_keeps | apply State.post_keeps | apply State.sendVerdict_keeps | apply State.setGroup_keeps | apply State.settleGroup_keeps | apply State.foldl_keeps | apply State.foldl_keeps₂ | split); all_goals grind
grind_pattern State.finishColl_keeps => State.finishColl s h st cw, State.Keeps r₀ s
theorem State.becomeLost_keeps {r₀ : State} (s : State) (h) (hk : State.Keeps r₀ s) : State.Keeps r₀ (State.becomeLost s h) := by (unfold State.becomeLost); (try dsimp only); with_reducible (repeat' first | assumption | (intro _ _ _) | apply State.bump_keeps | apply State.finishColl_keeps | apply State.setGroup_keeps | apply State.foldl_keeps | apply State.foldl_keeps₂ | split); all_goals grind
grind_pattern State.becomeLost_keeps => State.becomeLost s h, State.Keeps r₀ s
theorem State.loseMember_keeps {r₀ : State} (s : State) (h) (r) (hk : State.Keeps r₀ s) : State.Keeps r₀ (State.loseMember s h r) := by unfold State.loseMember; grind
grind_pattern State.loseMember_keeps => State.loseMember s h r, State.Keeps r₀ s
theorem State.losePeer_keeps {r₀ : State} (s : State) (d) (hk : State.Keeps r₀ s) : State.Keeps r₀ (State.losePeer s d) := by unfold State.losePeer; grind
grind_pattern State.losePeer_keeps => State.losePeer s d, State.Keeps r₀ s
theorem State.collOrder_keeps {r₀ : State} (s : State) (h) (seq) (hk : State.Keeps r₀ s) : State.Keeps r₀ (State.collOrder s h seq) := by unfold State.collOrder; grind
grind_pattern State.collOrder_keeps => State.collOrder s h seq, State.Keeps r₀ s
theorem State.collGrants_keeps {r₀ : State} (s : State) (h) (hk : State.Keeps r₀ s) : State.Keeps r₀ (State.collGrants s h) := by unfold State.collGrants; grind
grind_pattern State.collGrants_keeps => State.collGrants s h, State.Keeps r₀ s
theorem State.sendFlow_keeps {r₀ : State} (s : State) (h) (e) (a) (hk : State.Keeps r₀ s) : State.Keeps r₀ (State.sendFlow s h e a) := by
  induction a generalizing s with
  | zero => grind [State.sendFlow]
  | succ p ih => unfold State.sendFlow; grind (splits := 20)
grind_pattern State.sendFlow_keeps => State.sendFlow s h e a, State.Keeps r₀ s
theorem State.sendFlows_keeps {r₀ : State} (s : State) (h) (hk : State.Keeps r₀ s) : State.Keeps r₀ (State.sendFlows s h) := by unfold State.sendFlows; grind
grind_pattern State.sendFlows_keeps => State.sendFlows s h, State.Keeps r₀ s
theorem State.putResult_keeps {r₀ : State} (s : State) (a) (at_) (bs) (hk : State.Keeps r₀ s) : State.Keeps r₀ (State.putResult s a at_ bs).2 := by unfold State.putResult; grind
grind_pattern State.putResult_keeps => State.putResult s a at_ bs, State.Keeps r₀ s
theorem State.storeResult_keeps {r₀ : State} (s : State) (h) (hk : State.Keeps r₀ s) : State.Keeps r₀ (State.storeResult s h) := by unfold State.storeResult; grind
grind_pattern State.storeResult_keeps => State.storeResult s h, State.Keeps r₀ s
theorem State.tellPeers_keeps {r₀ : State} (s : State) (h) (hk : State.Keeps r₀ s) : State.Keeps r₀ (State.tellPeers s h) := by (unfold State.tellPeers); (try dsimp only); with_reducible (repeat' first | assumption | (intro _ _ _) | apply State.colSend_keeps | apply State.mapColl_keeps | apply State.foldl_keeps | apply State.foldl_keeps₂ | split); all_goals grind
grind_pattern State.tellPeers_keeps => State.tellPeers s h, State.Keeps r₀ s
theorem State.passDown_keeps {r₀ : State} (s : State) (h) (bad) (hk : State.Keeps r₀ s) : State.Keeps r₀ (State.passDown s h bad) := by unfold State.passDown; grind
grind_pattern State.passDown_keeps => State.passDown s h bad, State.Keeps r₀ s
theorem State.vote_keeps {r₀ : State} (s : State) (h) (hk : State.Keeps r₀ s) : State.Keeps r₀ (State.vote s h) := by unfold State.vote; grind
grind_pattern State.vote_keeps => State.vote s h, State.Keeps r₀ s
theorem State.compareContribution_keeps {r₀ : State} (s : State) (x) (v) (own) (hk : State.Keeps r₀ s) : State.Keeps r₀ (State.compareContribution s x v own) := by unfold State.compareContribution; grind
grind_pattern State.compareContribution_keeps => State.compareContribution s x v own, State.Keeps r₀ s
theorem State.shadowStep_keeps {r₀ : State} (s : State) (h) (hk : State.Keeps r₀ s) : State.Keeps r₀ (State.shadowStep s h) := by (unfold State.shadowStep); (try dsimp only); with_reducible (repeat' first | assumption | (intro _ _ _) | apply State.compareContribution_keeps | apply State.finishColl_keeps | apply State.foldl_keeps | apply State.foldl_keeps₂ | split); all_goals grind
grind_pattern State.shadowStep_keeps => State.shadowStep s h, State.Keeps r₀ s
theorem State.collStep_keeps {r₀ : State} (s : State) (h) (hk : State.Keeps r₀ s) : State.Keeps r₀ (State.collStep s h) := by unfold State.collStep; grind
grind_pattern State.collStep_keeps => State.collStep s h, State.Keeps r₀ s
theorem State.takeReport_keeps {r₀ : State} (s : State) (v) (hk : State.Keeps r₀ s) : State.Keeps r₀ (State.takeReport s v) := by unfold State.takeReport; grind
grind_pattern State.takeReport_keeps => State.takeReport s v, State.Keeps r₀ s
theorem State.takeGrant_keeps {r₀ : State} (s : State) (h) (r) (c) (p) (hk : State.Keeps r₀ s) : State.Keeps r₀ (State.takeGrant s h r c p) := by unfold State.takeGrant; grind
grind_pattern State.takeGrant_keeps => State.takeGrant s h r c p, State.Keeps r₀ s
theorem State.takeDigest_keeps {r₀ : State} (s : State) (h) (r) (p) (hk : State.Keeps r₀ s) : State.Keeps r₀ (State.takeDigest s h r p) := by unfold State.takeDigest; grind
grind_pattern State.takeDigest_keeps => State.takeDigest s h r p, State.Keeps r₀ s
theorem State.takeVerdict_keeps {r₀ : State} (s : State) (h) (r) (p) (hk : State.Keeps r₀ s) : State.Keeps r₀ (State.takeVerdict s h r p) := by unfold State.takeVerdict; grind
grind_pattern State.takeVerdict_keeps => State.takeVerdict s h r p, State.Keeps r₀ s
theorem State.takeFail_keeps {r₀ : State} (s : State) (h) (p) (hk : State.Keeps r₀ s) : State.Keeps r₀ (State.takeFail s h p) := by unfold State.takeFail; grind
grind_pattern State.takeFail_keeps => State.takeFail s h p, State.Keeps r₀ s
theorem State.takeEarly_keeps {r₀ : State} (s : State) (h) (p) (hk : State.Keeps r₀ s) : State.Keeps r₀ (State.takeEarly s h p) := by unfold State.takeEarly; grind
grind_pattern State.takeEarly_keeps => State.takeEarly s h p, State.Keeps r₀ s
theorem State.readOwn_keeps {r₀ : State} (s : State) (a) (at_) (n) (hk : State.Keeps r₀ s) : State.Keeps r₀ (State.readOwn s a at_ n).2 := by unfold State.readOwn; grind
grind_pattern State.readOwn_keeps => State.readOwn s a at_ n, State.Keeps r₀ s
theorem State.quantize_keeps {r₀ : State} (s : State) (g) (c) (xs) (hk : State.Keeps r₀ s) : State.Keeps r₀ (State.quantize s g c xs).2 := by unfold State.quantize; grind
grind_pattern State.quantize_keeps => State.quantize s g c xs, State.Keeps r₀ s
theorem State.failStart_keeps {r₀ : State} (s : State) (h) (n) (seq) (st) (cw) (hk : State.Keeps r₀ s) : State.Keeps r₀ (State.failStart s h n seq st cw) := by unfold State.failStart; grind
grind_pattern State.failStart_keeps => State.failStart s h n seq st cw, State.Keeps r₀ s
theorem State.startColl_keeps {r₀ : State} (s : State) (h) (c) (hk : State.Keeps r₀ s) : State.Keeps r₀ (State.startColl s h c) := by (unfold State.startColl); (try dsimp only); with_reducible (repeat' first | assumption | (intro _ _ _) | apply State.collStep_keeps | apply State.failStart_keeps | apply State.finishColl_keeps | apply State.mapColl_keeps | apply State.quantize_keeps | apply State.readOwn_keeps | apply State.setGroup_keeps | apply State.takeEarly_keeps | apply State.foldl_keeps | apply State.foldl_keeps₂ | split); all_goals grind
grind_pattern State.startColl_keeps => State.startColl s h c, State.Keeps r₀ s
theorem State.collCheck_keeps {r₀ : State} (s : State) (g) (c) (d) (hk : State.Keeps r₀ s) : State.Keeps r₀ (State.collCheck s g c d).2 := by unfold State.collCheck; grind (splits := 30)
grind_pattern State.collCheck_keeps => State.collCheck s g c d, State.Keeps r₀ s
theorem execCollective_keeps {r₀ : State} (n) (i) (s : State) (hk : State.Keeps r₀ s) (t₁ : State) (ht : execCollective n i s = .next t₁) : State.Keeps r₀ t₁ := by (unfold execCollective at ht; cases ht); (try dsimp only); with_reducible (repeat' first | assumption | (intro _ _ _) | apply State.bump_keeps | apply State.collCheck_keeps | apply State.collOrder_keeps | apply State.endDesc_keeps | apply State.finishColl_keeps | apply State.mapDesc_keeps | apply State.setGroup_keeps | apply State.startColl_keeps | apply State.foldl_keeps | apply State.foldl_keeps₂ | split); all_goals grind
theorem execCollectiveCurrent_keeps {r₀ : State} (h) (s : State) (hk : State.Keeps r₀ s) (t₁ : State) (ht : execCollectiveCurrent h s = .next t₁) : State.Keeps r₀ t₁ := by unfold execCollectiveCurrent at ht; grind
theorem State.colTake_keeps {r₀ : State} (s : State) (p) (mine) (run) (hrun : ∀ s x1 x2, State.Keeps r₀ s → State.Keeps r₀ (run s x1 x2)) (hk : State.Keeps r₀ s) : State.Keeps r₀ (State.colTake s p mine run) := by unfold State.colTake; grind
grind_pattern State.colTake_keeps => State.colTake s p mine run, State.Keeps r₀ s
theorem State.holdEarly_keeps {r₀ : State} (s : State) (g) (p) (hk : State.Keeps r₀ s) : State.Keeps r₀ (State.holdEarly s g p) := by unfold State.holdEarly; grind
grind_pattern State.holdEarly_keeps => State.holdEarly s g p, State.Keeps r₀ s
theorem execGrant_keeps {r₀ : State} (p) (s : State) (hk : State.Keeps r₀ s) (t₁ : State) (ht : execGrant p s = .next t₁) : State.Keeps r₀ t₁ := by unfold execGrant at ht; grind
theorem State.ackFlow_keeps {r₀ : State} (s : State) (g) (c) (f) (have_) (hk : State.Keeps r₀ s) : State.Keeps r₀ (State.ackFlow s g c f have_) := by unfold State.ackFlow; grind
grind_pattern State.ackFlow_keeps => State.ackFlow s g c f have_, State.Keeps r₀ s
theorem execCdata_keeps {r₀ : State} (p) (s : State) (hk : State.Keeps r₀ s) (t₁ : State) (ht : execCdata p s = .next t₁) : State.Keeps r₀ t₁ := by unfold execCdata at ht; grind
theorem execCollAck_keeps {r₀ : State} (p) (s : State) (hk : State.Keeps r₀ s) (t₁ : State) (ht : execCollAck p s = .next t₁) : State.Keeps r₀ t₁ := by unfold execCollAck at ht; grind
theorem State.resend_keeps {r₀ : State} (s : State) (h) (x) (hk : State.Keeps r₀ s) : State.Keeps r₀ (State.resend s h x) := by unfold State.resend; grind
grind_pattern State.resend_keeps => State.resend s h x, State.Keeps r₀ s
theorem execChunkResend_keeps {r₀ : State} (h) (j) (s : State) (hk : State.Keeps r₀ s) (t₁ : State) (ht : execChunkResend h j s = .next t₁) : State.Keeps r₀ t₁ := by unfold execChunkResend at ht; grind
theorem State.colRefused_keeps {r₀ : State} (s : State) (d) (st) (hk : State.Keeps r₀ s) : State.Keeps r₀ (State.colRefused s d st) := by unfold State.colRefused; grind
grind_pattern State.colRefused_keeps => State.colRefused s d st, State.Keeps r₀ s
theorem execLost_keeps {r₀ : State} (p) (s : State) (hk : State.Keeps r₀ s) (t₁ : State) (ht : execLost p s = .next t₁) : State.Keeps r₀ t₁ := by unfold execLost at ht; grind
theorem execFail_keeps {r₀ : State} (p) (s : State) (hk : State.Keeps r₀ s) (t₁ : State) (ht : execFail p s = .next t₁) : State.Keeps r₀ t₁ := by unfold execFail at ht; grind
theorem execTallyDigest_keeps {r₀ : State} (p) (s : State) (hk : State.Keeps r₀ s) (t₁ : State) (ht : execTallyDigest p s = .next t₁) : State.Keeps r₀ t₁ := by unfold execTallyDigest at ht; grind
theorem execTallyVerdict_keeps {r₀ : State} (p) (s : State) (hk : State.Keeps r₀ s) (t₁ : State) (ht : execTallyVerdict p s = .next t₁) : State.Keeps r₀ t₁ := by unfold execTallyVerdict at ht; grind
theorem execCollTimeout_keeps {r₀ : State} (h) (s : State) (hk : State.Keeps r₀ s) (t₁ : State) (ht : execCollTimeout h s = .next t₁) : State.Keeps r₀ t₁ := by unfold execCollTimeout at ht; grind
theorem State.rollcallFail_keeps {r₀ : State} (s : State) (g) (st) (hk : State.Keeps r₀ s) : State.Keeps r₀ (State.rollcallFail s g st) := by unfold State.rollcallFail; grind
grind_pattern State.rollcallFail_keeps => State.rollcallFail s g st, State.Keeps r₀ s
theorem State.rollcallReady_keeps {r₀ : State} (s : State) (g) (alg) (small) (hk : State.Keeps r₀ s) : State.Keeps r₀ (State.rollcallReady s g alg small) := by unfold State.rollcallReady; grind
grind_pattern State.rollcallReady_keeps => State.rollcallReady s g alg small, State.Keeps r₀ s
theorem State.rollcallCheck_keeps {r₀ : State} (s : State) (h) (hk : State.Keeps r₀ s) : State.Keeps r₀ (State.rollcallCheck s h) := by unfold State.rollcallCheck; grind
grind_pattern State.rollcallCheck_keeps => State.rollcallCheck s h, State.Keeps r₀ s
theorem State.rollcallJoin_keeps {r₀ : State} (s : State) (n) (i) (g) (hk : State.Keeps r₀ s) : State.Keeps r₀ (State.rollcallJoin s n i g) := by unfold State.rollcallJoin; grind
grind_pattern State.rollcallJoin_keeps => State.rollcallJoin s n i g, State.Keeps r₀ s
theorem execRollcall_keeps {r₀ : State} (n) (i) (s : State) (hk : State.Keeps r₀ s) (t₁ : State) (ht : execRollcall n i s = .next t₁) : State.Keeps r₀ t₁ := by (unfold execRollcall at ht; cases ht); (try dsimp only); with_reducible (repeat' first | assumption | (intro _ _ _) | apply State.endDesc_keeps | apply State.readFor_keeps | apply State.rollcallJoin_keeps | apply State.foldl_keeps | apply State.foldl_keeps₂ | split); all_goals grind
theorem execJoin_keeps {r₀ : State} (p) (s : State) (hk : State.Keeps r₀ s) (t₁ : State) (ht : execJoin p s = .next t₁) : State.Keeps r₀ t₁ := by unfold execJoin at ht; grind
theorem State.fromRank0_keeps {r₀ : State} (s : State) (p) (op) (run) (hrun : ∀ s x1, State.Keeps r₀ s → State.Keeps r₀ (run s x1)) (hk : State.Keeps r₀ s) : State.Keeps r₀ (State.fromRank0 s p op run) := by unfold State.fromRank0; grind
grind_pattern State.fromRank0_keeps => State.fromRank0 s p op run, State.Keeps r₀ s
theorem execReady_keeps {r₀ : State} (p) (s : State) (hk : State.Keeps r₀ s) (t₁ : State) (ht : execReady p s = .next t₁) : State.Keeps r₀ t₁ := by unfold execReady at ht; grind
theorem execRollcallMismatch_keeps {r₀ : State} (p) (s : State) (hk : State.Keeps r₀ s) (t₁ : State) (ht : execRollcallMismatch p s = .next t₁) : State.Keeps r₀ t₁ := by unfold execRollcallMismatch at ht; grind
theorem execRollcallTimeout_keeps {r₀ : State} (n) (i) (s : State) (hk : State.Keeps r₀ s) (t₁ : State) (ht : execRollcallTimeout n i s = .next t₁) : State.Keeps r₀ t₁ := by unfold execRollcallTimeout at ht; grind
theorem execDisband_keeps {r₀ : State} (n) (i) (s : State) (hk : State.Keeps r₀ s) (t₁ : State) (ht : execDisband n i s = .next t₁) : State.Keeps r₀ t₁ := by unfold execDisband at ht; grind
theorem State.csend_keeps {r₀ : State} (s : State) (k) (h) (seq) (fmt) (off) (len) (bs) (hk : State.Keeps r₀ s) : State.Keeps r₀ (State.csend s k h seq fmt off len bs).2 := by unfold State.csend; grind
grind_pattern State.csend_keeps => State.csend s k h seq fmt off len bs, State.Keeps r₀ s

end Sys2Proof.Machine
end

