-- ==== Sys2Proof/Laws/KeepBroadRun.lean ====
section
/-! SUPPORT. What the operations of Machine/BroadRun.lean keep. -/
namespace Sys2Proof.Machine

set_option Elab.async false

theorem State.pollCsend_keeps {r₀ : State} (s : State) (k) (b) (hk : State.Keeps r₀ s) : State.Keeps r₀ (State.pollCsend s k b) := by unfold State.pollCsend; grind
grind_pattern State.pollCsend_keeps => State.pollCsend s k b, State.Keeps r₀ s
theorem State.pollCwait_keeps {r₀ : State} (s : State) (k) (b) (hk : State.Keeps r₀ s) : State.Keeps r₀ (State.pollCwait s k b) := by unfold State.pollCwait; grind
grind_pattern State.pollCwait_keeps => State.pollCwait s k b, State.Keeps r₀ s
theorem State.pollHeadcount_keeps {r₀ : State} (s : State) (k) (b) (hk : State.Keeps r₀ s) : State.Keeps r₀ (State.pollHeadcount s k b) := by unfold State.pollHeadcount; grind
grind_pattern State.pollHeadcount_keeps => State.pollHeadcount s k b, State.Keeps r₀ s
theorem State.releaseBarrier_keeps {r₀ : State} (s : State) (r) (hk : State.Keeps r₀ s) : State.Keeps r₀ (State.releaseBarrier s r) := by unfold State.releaseBarrier; grind
grind_pattern State.releaseBarrier_keeps => State.releaseBarrier s r, State.Keeps r₀ s
theorem State.pollSync_keeps {r₀ : State} (s : State) (k) (b) (hk : State.Keeps r₀ s) : State.Keeps r₀ (State.pollSync s k b) := by unfold State.pollSync; grind
grind_pattern State.pollSync_keeps => State.pollSync s k b, State.Keeps r₀ s
theorem State.withdraw_keeps {r₀ : State} (s : State) (k) (hk : State.Keeps r₀ s) : State.Keeps r₀ (State.withdraw s k) := by unfold State.withdraw; grind
grind_pattern State.withdraw_keeps => State.withdraw s k, State.Keeps r₀ s
theorem execSyncTimeout_keeps {r₀ : State} (k) (s : State) (hk : State.Keeps r₀ s) (t₁ : State) (ht : execSyncTimeout k s = .next t₁) : State.Keeps r₀ t₁ := by unfold execSyncTimeout at ht; grind
theorem State.farinv_keeps {r₀ : State} (s : State) (k) (all) (a) (n) (hk : State.Keeps r₀ s) : State.Keeps r₀ (State.farinv s k all a n) := by unfold State.farinv; grind
grind_pattern State.farinv_keeps => State.farinv s k all a n, State.Keeps r₀ s
theorem State.poll_keeps {r₀ : State} (s : State) (k) (b) (hk : State.Keeps r₀ s) : State.Keeps r₀ (State.poll s k b) := by unfold State.poll; grind
grind_pattern State.poll_keeps => State.poll s k b, State.Keeps r₀ s
theorem State.pollAll_keeps {r₀ : State} (s : State) (k) (hk : State.Keeps r₀ s) : State.Keeps r₀ (State.pollAll s k) := by unfold State.pollAll; grind
grind_pattern State.pollAll_keeps => State.pollAll s k, State.Keeps r₀ s
theorem State.beginBroad_keeps {r₀ : State} (s : State) (k) (b) (t) (hk : State.Keeps r₀ s) : State.Keeps r₀ (State.beginBroad s k b t) := by unfold State.beginBroad; grind
grind_pattern State.beginBroad_keeps => State.beginBroad s k b t, State.Keeps r₀ s
theorem State.runDue_keeps {r₀ : State} (s : State) (k) (hk : State.Keeps r₀ s) : State.Keeps r₀ (State.runDue s k) := by unfold State.runDue; grind
grind_pattern State.runDue_keeps => State.runDue s k, State.Keeps r₀ s
theorem State.startBroad_keeps {r₀ : State} (s : State) (k) (b) (hk : State.Keeps r₀ s) : State.Keeps r₀ (State.startBroad s k b) := by unfold State.startBroad; grind
grind_pattern State.startBroad_keeps => State.startBroad s k b, State.Keeps r₀ s
theorem execBroadStart_keeps {r₀ : State} (k) (s : State) (hk : State.Keeps r₀ s) (t₁ : State) (ht : execBroadStart k s = .next t₁) : State.Keeps r₀ t₁ := by unfold execBroadStart at ht; grind
theorem State.countPauses_keeps {r₀ : State} (s : State) (k) (b) (hk : State.Keeps r₀ s) : State.Keeps r₀ (State.countPauses s k b) := by unfold State.countPauses; grind
grind_pattern State.countPauses_keeps => State.countPauses s k b, State.Keeps r₀ s
theorem execBroadRetire_keeps {r₀ : State} (k) (s : State) (hk : State.Keeps r₀ s) (t₁ : State) (ht : execBroadRetire k s = .next t₁) : State.Keeps r₀ t₁ := by unfold execBroadRetire at ht; grind
theorem execCwaitTimeout_keeps {r₀ : State} (k) (s : State) (hk : State.Keeps r₀ s) (t₁ : State) (ht : execCwaitTimeout k s = .next t₁) : State.Keeps r₀ t₁ := by unfold execCwaitTimeout at ht; grind

end Sys2Proof.Machine
end

