-- ==== Sys2Proof/Laws/KeepLight.lean ====
section
/-! SUPPORT. What the operations of Machine/Light.lean keep. -/
namespace Sys2Proof.Machine

set_option Elab.async false

theorem State.setChState_keeps {r₀ : State} (s : State) (c) (st) (hk : State.Keeps r₀ s) : State.Keeps r₀ (State.setChState s c st) := by unfold State.setChState; grind
grind_pattern State.setChState_keeps => State.setChState s c st, State.Keeps r₀ s
theorem State.setFib_keeps {r₀ : State} (s : State) (F) (st) (hk : State.Keeps r₀ s) : State.Keeps r₀ (State.setFib s F st) := by unfold State.setFib; grind
grind_pattern State.setFib_keeps => State.setFib s F st, State.Keeps r₀ s
theorem State.setChMap_keeps {r₀ : State} (s : State) (F) (rx) (m) (hk : State.Keeps r₀ s) : State.Keeps r₀ (State.setChMap s F rx m) := by unfold State.setChMap; grind
grind_pattern State.setChMap_keeps => State.setChMap s F rx m, State.Keeps r₀ s
theorem State.sendIdle_keeps {r₀ : State} (s : State) (c) (chg) (hk : State.Keeps r₀ s) : State.Keeps r₀ (State.sendIdle s c chg) := by unfold State.sendIdle; grind
grind_pattern State.sendIdle_keeps => State.sendIdle s c chg, State.Keeps r₀ s
theorem State.announce_keeps {r₀ : State} (s : State) (F) (hk : State.Keeps r₀ s) : State.Keeps r₀ (State.announce s F) := by unfold State.announce; grind
grind_pattern State.announce_keeps => State.announce s F, State.Keeps r₀ s
theorem State.askMap_keeps {r₀ : State} (s : State) (F) (m) (hk : State.Keeps r₀ s) : State.Keeps r₀ (State.askMap s F m) := by unfold State.askMap; grind
grind_pattern State.askMap_keeps => State.askMap s F m, State.Keeps r₀ s
theorem State.putControl_keeps {r₀ : State} (s : State) (F) (payload) (hk : State.Keeps r₀ s) : State.Keeps r₀ (State.putControl s F payload) := by unfold State.putControl; grind
grind_pattern State.putControl_keeps => State.putControl s F payload, State.Keeps r₀ s
theorem State.sendControl_keeps {r₀ : State} (s : State) (F) (op) (payload) (hk : State.Keeps r₀ s) : State.Keeps r₀ (State.sendControl s F op payload) := by unfold State.sendControl; grind
grind_pattern State.sendControl_keeps => State.sendControl s F op payload, State.Keeps r₀ s
theorem State.sendAnswer_keeps {r₀ : State} (s : State) (F) (payload) (hk : State.Keeps r₀ s) : State.Keeps r₀ (State.sendAnswer s F payload) := by unfold State.sendAnswer; grind
grind_pattern State.sendAnswer_keeps => State.sendAnswer s F payload, State.Keeps r₀ s
theorem State.quality_keeps {r₀ : State} (s : State) (hk : State.Keeps r₀ s) : State.Keeps r₀ (State.quality s).2 := by unfold State.quality; grind
grind_pattern State.quality_keeps => State.quality s, State.Keeps r₀ s
theorem State.sendTraining_keeps {r₀ : State} (s : State) (c) (hk : State.Keeps r₀ s) : State.Keeps r₀ (State.sendTraining s c) := by unfold State.sendTraining; grind
grind_pattern State.sendTraining_keeps => State.sendTraining s c, State.Keeps r₀ s
theorem State.outCh_keeps {r₀ : State} (s : State) (c) (st) (hk : State.Keeps r₀ s) : State.Keeps r₀ (State.outCh s c st) := by unfold State.outCh; grind
grind_pattern State.outCh_keeps => State.outCh s c st, State.Keeps r₀ s
theorem State.setPass_keeps {r₀ : State} (s : State) (e) (p) (hk : State.Keeps r₀ s) : State.Keeps r₀ (State.setPass s e p) := by unfold State.setPass; grind
grind_pattern State.setPass_keeps => State.setPass s e p, State.Keeps r₀ s
theorem State.startCal_keeps {r₀ : State} (s : State) (e) (c) (hk : State.Keeps r₀ s) : State.Keeps r₀ (State.startCal s e c) := by unfold State.startCal; grind
grind_pattern State.startCal_keeps => State.startCal s e c, State.Keeps r₀ s
theorem State.nextCal_keeps {r₀ : State} (s : State) (e) (a) (hk : State.Keeps r₀ s) : State.Keeps r₀ (State.nextCal s e a) := by
  induction a generalizing s with
  | zero => grind [State.nextCal]
  | succ p ih => unfold State.nextCal; grind (splits := 20)
grind_pattern State.nextCal_keeps => State.nextCal s e a, State.Keeps r₀ s
theorem State.goCal_keeps {r₀ : State} (s : State) (e) (hk : State.Keeps r₀ s) : State.Keeps r₀ (State.goCal s e) := by unfold State.goCal; grind
grind_pattern State.goCal_keeps => State.goCal s e, State.Keeps r₀ s
theorem State.endCal_keeps {r₀ : State} (s : State) (c) (hk : State.Keeps r₀ s) : State.Keeps r₀ (State.endCal s c) := by unfold State.endCal; grind
grind_pattern State.endCal_keeps => State.endCal s c, State.Keeps r₀ s
theorem State.startSweep_keeps {r₀ : State} (s : State) (F) (rx) (hk : State.Keeps r₀ s) : State.Keeps r₀ (State.startSweep s F rx) := by unfold State.startSweep; grind
grind_pattern State.startSweep_keeps => State.startSweep s F rx, State.Keeps r₀ s
theorem State.relock_keeps {r₀ : State} (s : State) (c) (hk : State.Keeps r₀ s) : State.Keeps r₀ (State.relock s c) := by unfold State.relock; grind
grind_pattern State.relock_keeps => State.relock s c, State.Keeps r₀ s
theorem State.backIn_keeps {r₀ : State} (s : State) (c) (hk : State.Keeps r₀ s) : State.Keeps r₀ (State.backIn s c) := by unfold State.backIn; grind
grind_pattern State.backIn_keeps => State.backIn s c, State.Keeps r₀ s
theorem State.fiberOut_keeps {r₀ : State} (s : State) (F) (st) (ch) (hk : State.Keeps r₀ s) : State.Keeps r₀ (State.fiberOut s F st ch) := by unfold State.fiberOut; grind
grind_pattern State.fiberOut_keeps => State.fiberOut s F st ch, State.Keeps r₀ s
theorem State.driveLaser_keeps {r₀ : State} (s : State) (m) (hk : State.Keeps r₀ s) : State.Keeps r₀ (State.driveLaser s m) := by unfold State.driveLaser; grind
grind_pattern State.driveLaser_keeps => State.driveLaser s m, State.Keeps r₀ s
theorem State.writeCtrl_keeps {r₀ : State} (s : State) (m) (v) (hk : State.Keeps r₀ s) : State.Keeps r₀ (State.writeCtrl s m v) := by unfold State.writeCtrl; grind
grind_pattern State.writeCtrl_keeps => State.writeCtrl s m v, State.Keeps r₀ s
theorem State.dimPairs_keeps {r₀ : State} (s : State) (m) (hk : State.Keeps r₀ s) : State.Keeps r₀ (State.dimPairs s m) := by unfold State.dimPairs; grind
grind_pattern State.dimPairs_keeps => State.dimPairs s m, State.Keeps r₀ s
theorem State.darken_keeps {r₀ : State} (s : State) (m) (hk : State.Keeps r₀ s) : State.Keeps r₀ (State.darken s m) := by unfold State.darken; grind
grind_pattern State.darken_keeps => State.darken s m, State.Keeps r₀ s
theorem State.sweepLit_keeps {r₀ : State} (s : State) (m) (hk : State.Keeps r₀ s) : State.Keeps r₀ (State.sweepLit s m) := by unfold State.sweepLit; grind
grind_pattern State.sweepLit_keeps => State.sweepLit s m, State.Keeps r₀ s

end Sys2Proof.Machine
end

