-- ==== Sys2Proof/Laws/KeepOptics.lean ====
section
/-! SUPPORT. What the operations of Machine/Optics.lean keep. -/
namespace Sys2Proof.Machine

set_option Elab.async false

theorem execLaserShutdown_keeps {r₀ : State} (s : State) (hk : State.Keeps r₀ s) (t₁ : State) (ht : execLaserShutdown s = .next t₁) : State.Keeps r₀ t₁ := by unfold execLaserShutdown at ht; grind
theorem State.sidebandLost_keeps {r₀ : State} (s : State) (m) (hk : State.Keeps r₀ s) : State.Keeps r₀ (State.sidebandLost s m) := by unfold State.sidebandLost; grind
grind_pattern State.sidebandLost_keeps => State.sidebandLost s m, State.Keeps r₀ s
theorem State.lineLost_keeps {r₀ : State} (s : State) (m) (line) (hk : State.Keeps r₀ s) : State.Keeps r₀ (State.lineLost s m line) := by unfold State.lineLost; grind
grind_pattern State.lineLost_keeps => State.lineLost s m line, State.Keeps r₀ s
theorem State.freezeLine_keeps {r₀ : State} (s : State) (m) (w) (hk : State.Keeps r₀ s) : State.Keeps r₀ (State.freezeLine s m w) := by unfold State.freezeLine; grind
grind_pattern State.freezeLine_keeps => State.freezeLine s m w, State.Keeps r₀ s
theorem State.laserFault_keeps {r₀ : State} (s : State) (m) (w) (hk : State.Keeps r₀ s) : State.Keeps r₀ (State.laserFault s m w) := by unfold State.laserFault; grind
grind_pattern State.laserFault_keeps => State.laserFault s m w, State.Keeps r₀ s
theorem State.settleFaults_keeps {r₀ : State} (s : State) (m) (hk : State.Keeps r₀ s) : State.Keeps r₀ (State.settleFaults s m) := by unfold State.settleFaults; grind
grind_pattern State.settleFaults_keeps => State.settleFaults s m, State.Keeps r₀ s
theorem State.lightModule_keeps {r₀ : State} (s : State) (m) (hk : State.Keeps r₀ s) : State.Keeps r₀ (State.lightModule s m) := by unfold State.lightModule; grind
grind_pattern State.lightModule_keeps => State.lightModule s m, State.Keeps r₀ s
theorem execLsmAlert_keeps {r₀ : State} (m) (status) (s : State) (hk : State.Keeps r₀ s) (t₁ : State) (ht : execLsmAlert m status s = .next t₁) : State.Keeps r₀ t₁ := by (unfold execLsmAlert at ht; cases ht); (try dsimp only); with_reducible (repeat' first | assumption | (intro _ _ _) | apply State.setFld_keeps | apply State.settleFaults_keeps | apply State.sidebandLost_keeps | apply State.foldl_keeps | apply State.foldl_keeps₂ | split); all_goals grind
theorem execLsmPresenceChange_keeps {r₀ : State} (m) (present) (s : State) (hk : State.Keeps r₀ s) (t₁ : State) (ht : execLsmPresenceChange m present s = .next t₁) : State.Keeps r₀ t₁ := by unfold execLsmPresenceChange at ht; grind
theorem State.lsmEnable_keeps {r₀ : State} (s : State) (m) (enable) (id) (powersOk) (hk : State.Keeps r₀ s) : State.Keeps r₀ (State.lsmEnable s m enable id powersOk) := by unfold State.lsmEnable; grind
grind_pattern State.lsmEnable_keeps => State.lsmEnable s m enable id powersOk, State.Keeps r₀ s
theorem execOpticLsmEnable_keeps {r₀ : State} (src) (m) (enable) (id) (powersOk) (s : State) (hk : State.Keeps r₀ s) (t₁ : State) (ht : execOpticLsmEnable src m enable id powersOk s = .next t₁) : State.Keeps r₀ t₁ := by unfold execOpticLsmEnable at ht; grind
theorem execIdleFlitTimer_keeps {r₀ : State} (c) (s : State) (hk : State.Keeps r₀ s) (t₁ : State) (ht : execIdleFlitTimer c s = .next t₁) : State.Keeps r₀ t₁ := by unfold execIdleFlitTimer at ht; grind
theorem execLightLost_keeps {r₀ : State} (f) (s : State) (hk : State.Keeps r₀ s) (t₁ : State) (ht : execLightLost f s = .next t₁) : State.Keeps r₀ t₁ := by unfold execLightLost at ht; grind
theorem execLockLoopUpdate_keeps {r₀ : State} (c) (heater) (s : State) (hk : State.Keeps r₀ s) (t₁ : State) (ht : execLockLoopUpdate c heater s = .next t₁) : State.Keeps r₀ t₁ := by unfold execLockLoopUpdate at ht; grind
theorem execLineMonitor_keeps {r₀ : State} (f) (tones) (s : State) (hk : State.Keeps r₀ s) (t₁ : State) (ht : execLineMonitor f tones s = .next t₁) : State.Keeps r₀ t₁ := by unfold execLineMonitor at ht; grind
theorem State.startPass_keeps {r₀ : State} (s : State) (e) (hk : State.Keeps r₀ s) : State.Keeps r₀ (State.startPass s e) := by unfold State.startPass; grind
grind_pattern State.startPass_keeps => State.startPass s e, State.Keeps r₀ s
theorem execCalPassStart_keeps {r₀ : State} (e) (s : State) (hk : State.Keeps r₀ s) (t₁ : State) (ht : execCalPassStart e s = .next t₁) : State.Keeps r₀ t₁ := by unfold execCalPassStart at ht; grind
theorem State.calNow_keeps {r₀ : State} (s : State) (e) (hk : State.Keeps r₀ s) : State.Keeps r₀ (State.calNow s e) := by unfold State.calNow; grind
grind_pattern State.calNow_keeps => State.calNow s e, State.Keeps r₀ s
theorem execCalNow_keeps {r₀ : State} (src) (e) (s : State) (hk : State.Keeps r₀ s) (t₁ : State) (ht : execCalNow src e s = .next t₁) : State.Keeps r₀ t₁ := by unfold execCalNow at ht; grind
theorem execCalScanDone_keeps {r₀ : State} (c) (setpoint) (s : State) (hk : State.Keeps r₀ s) (t₁ : State) (ht : execCalScanDone c setpoint s = .next t₁) : State.Keeps r₀ t₁ := by unfold execCalScanDone at ht; grind
theorem execSerWindow_keeps {r₀ : State} (c) (corrected) (s : State) (hk : State.Keeps r₀ s) (t₁ : State) (ht : execSerWindow c corrected s = .next t₁) : State.Keeps r₀ t₁ := by unfold execSerWindow at ht; grind
theorem State.rxLight_keeps {r₀ : State} (s : State) (F) (lit) (hk : State.Keeps r₀ s) : State.Keeps r₀ (State.rxLight s F lit) := by unfold State.rxLight; grind
grind_pattern State.rxLight_keeps => State.rxLight s F lit, State.Keeps r₀ s
theorem execSweepStep_keeps {r₀ : State} (c) (ev) (s : State) (hk : State.Keeps r₀ s) (t₁ : State) (ht : execSweepStep c ev s = .next t₁) : State.Keeps r₀ t₁ := by (unfold execSweepStep at ht; cases ht); (try dsimp only); with_reducible (repeat' first | assumption | (intro _ _ _) | apply State.outCh_keeps | apply State.post_keeps | apply State.rxLight_keeps | apply State.setChState_keeps | apply State.setFld_keeps | apply State.startSweep_keeps | apply State.foldl_keeps | apply State.foldl_keeps₂ | split); all_goals grind
theorem execLinePowerLow_keeps {r₀ : State} (m) (line) (s : State) (hk : State.Keeps r₀ s) (t₁ : State) (ht : execLinePowerLow m line s = .next t₁) : State.Keeps r₀ t₁ := by unfold execLinePowerLow at ht; grind
theorem execSpareSettled_keeps {r₀ : State} (m) (settled) (s : State) (hk : State.Keeps r₀ s) (t₁ : State) (ht : execSpareSettled m settled s = .next t₁) : State.Keeps r₀ t₁ := by unfold execSpareSettled at ht; grind
theorem execRingsReacquired_keeps {r₀ : State} (m) (fibers) (s : State) (hk : State.Keeps r₀ s) (t₁ : State) (ht : execRingsReacquired m fibers s = .next t₁) : State.Keeps r₀ t₁ := by unfold execRingsReacquired at ht; grind
theorem execSubstPolicy_keeps {r₀ : State} (f) (s : State) (hk : State.Keeps r₀ s) (t₁ : State) (ht : execSubstPolicy f s = .next t₁) : State.Keeps r₀ t₁ := by unfold execSubstPolicy at ht; grind
theorem State.substitute_keeps {r₀ : State} (s : State) (x) (hk : State.Keeps r₀ s) : State.Keeps r₀ (State.substitute s x) := by unfold State.substitute; grind
grind_pattern State.substitute_keeps => State.substitute s x, State.Keeps r₀ s
theorem State.clearSpare_keeps {r₀ : State} (s : State) (x) (hk : State.Keeps r₀ s) : State.Keeps r₀ (State.clearSpare s x) := by unfold State.clearSpare; grind
grind_pattern State.clearSpare_keeps => State.clearSpare s x, State.Keeps r₀ s
theorem State.moveBack_keeps {r₀ : State} (s : State) (F) (hk : State.Keeps r₀ s) : State.Keeps r₀ (State.moveBack s F) := by unfold State.moveBack; grind
grind_pattern State.moveBack_keeps => State.moveBack s F, State.Keeps r₀ s
theorem State.endSubst_keeps {r₀ : State} (s : State) (x) (hk : State.Keeps r₀ s) : State.Keeps r₀ (State.endSubst s x) := by unfold State.endSubst; grind
grind_pattern State.endSubst_keeps => State.endSubst s x, State.Keeps r₀ s
theorem execSubstReleased_keeps {r₀ : State} (x) (s : State) (hk : State.Keeps r₀ s) (t₁ : State) (ht : execSubstReleased x s = .next t₁) : State.Keeps r₀ t₁ := by unfold execSubstReleased at ht; grind
theorem State.quiesce_keeps {r₀ : State} (s : State) (e) (hk : State.Keeps r₀ s) : State.Keeps r₀ (State.quiesce s e) := by (unfold State.quiesce); (try dsimp only); with_reducible (repeat' first | assumption | (intro _ _ _) | apply State.endSubst_keeps | apply State.fiberOut_keeps | apply State.sendControl_keeps | apply State.setFld_keeps | apply State.setPass_keeps | apply State.foldl_keeps | apply State.foldl_keeps₂ | split); all_goals grind
grind_pattern State.quiesce_keeps => State.quiesce s e, State.Keeps r₀ s
theorem execQuiesce_keeps {r₀ : State} (src) (e) (force) (s : State) (hk : State.Keeps r₀ s) (t₁ : State) (ht : execQuiesce src e force s = .next t₁) : State.Keeps r₀ t₁ := by unfold execQuiesce at ht; grind
theorem execQuiesceDone_keeps {r₀ : State} (e) (s : State) (hk : State.Keeps r₀ s) (t₁ : State) (ht : execQuiesceDone e s = .next t₁) : State.Keeps r₀ t₁ := by unfold execQuiesceDone at ht; grind
theorem State.sweepAll_keeps {r₀ : State} (s : State) (e) (hk : State.Keeps r₀ s) : State.Keeps r₀ (State.sweepAll s e) := by unfold State.sweepAll; grind
grind_pattern State.sweepAll_keeps => State.sweepAll s e, State.Keeps r₀ s
theorem State.powerSocket_keeps {r₀ : State} (s : State) (e) (part) (hk : State.Keeps r₀ s) : State.Keeps r₀ (State.powerSocket s e part) := by (unfold State.powerSocket); (try dsimp only); with_reducible (repeat' first | assumption | (intro _ _ _) | apply State.emit_keeps | apply State.fiberOut_keeps | apply State.freezeLine_keeps | apply State.lightModule_keeps | apply State.post_keeps | apply State.setFld_keeps | apply State.sweepAll_keeps | apply State.foldl_keeps | apply State.foldl_keeps₂ | split); all_goals grind
grind_pattern State.powerSocket_keeps => State.powerSocket s e part, State.Keeps r₀ s
theorem execEngineBringUp_keeps {r₀ : State} (src) (e) (part) (s : State) (hk : State.Keeps r₀ s) (t₁ : State) (ht : execEngineBringUp src e part s = .next t₁) : State.Keeps r₀ t₁ := by unfold execEngineBringUp at ht; grind
theorem State.endSweeps_keeps {r₀ : State} (s : State) (e) (hk : State.Keeps r₀ s) : State.Keeps r₀ (State.endSweeps s e) := by unfold State.endSweeps; grind
grind_pattern State.endSweeps_keeps => State.endSweeps s e, State.Keeps r₀ s
theorem State.engineUp_keeps {r₀ : State} (s : State) (e) (fibers) (hk : State.Keeps r₀ s) : State.Keeps r₀ (State.engineUp s e fibers) := by unfold State.engineUp; grind
grind_pattern State.engineUp_keeps => State.engineUp s e fibers, State.Keeps r₀ s
theorem execEngineUp_keeps {r₀ : State} (e) (fibers) (s : State) (hk : State.Keeps r₀ s) (t₁ : State) (ht : execEngineUp e fibers s = .next t₁) : State.Keeps r₀ t₁ := by unfold execEngineUp at ht; grind

end Sys2Proof.Machine
end

