-- ==== Sys2Proof/Laws/KeepLink.lean ====
section
/-! SUPPORT. What the operations of Machine/Link.lean keep. -/
namespace Sys2Proof.Machine

set_option Elab.async false

theorem State.answerDrop_keeps {r₀ : State} (s : State) (p) (st) (hk : State.Keeps r₀ s) : State.Keeps r₀ (State.answerDrop s p st) := by unfold State.answerDrop; grind
grind_pattern State.answerDrop_keeps => State.answerDrop s p st, State.Keeps r₀ s
theorem State.ackTo_keeps {r₀ : State} (s : State) (nb) (a) (hk : State.Keeps r₀ s) : State.Keeps r₀ (State.ackTo s nb a) := by unfold State.ackTo; grind
grind_pattern State.ackTo_keeps => State.ackTo s nb a, State.Keeps r₀ s
theorem State.replayAll_keeps {r₀ : State} (s : State) (nb) (hk : State.Keeps r₀ s) : State.Keeps r₀ (State.replayAll s nb) := by unfold State.replayAll; grind
grind_pattern State.replayAll_keeps => State.replayAll s nb, State.Keeps r₀ s
theorem State.linkReset_keeps {r₀ : State} (s : State) (nb) (hk : State.Keeps r₀ s) : State.Keeps r₀ (State.linkReset s nb) := by unfold State.linkReset; grind
grind_pattern State.linkReset_keeps => State.linkReset s nb, State.Keeps r₀ s
theorem State.nakIn_keeps {r₀ : State} (s : State) (nb) (F) (hk : State.Keeps r₀ s) : State.Keeps r₀ (State.nakIn s nb F) := by unfold State.nakIn; grind
grind_pattern State.nakIn_keeps => State.nakIn s nb F, State.Keeps r₀ s
theorem State.creditIn_keeps {r₀ : State} (s : State) (nb) (c) (hk : State.Keeps r₀ s) : State.Keeps r₀ (State.creditIn s nb c) := by unfold State.creditIn; grind
grind_pattern State.creditIn_keeps => State.creditIn s nb c, State.Keeps r₀ s
theorem State.sendHeld_keeps {r₀ : State} (s : State) (nb) (hk : State.Keeps r₀ s) : State.Keeps r₀ (State.sendHeld s nb) := by unfold State.sendHeld; grind
grind_pattern State.sendHeld_keeps => State.sendHeld s nb, State.Keeps r₀ s
theorem State.pumpHeld_keeps {r₀ : State} (s : State) (nb) (a) (hk : State.Keeps r₀ s) : State.Keeps r₀ (State.pumpHeld s nb a) := by
  induction a generalizing s with
  | zero => grind [State.pumpHeld]
  | succ p ih => unfold State.pumpHeld; grind (splits := 20)
grind_pattern State.pumpHeld_keeps => State.pumpHeld s nb a, State.Keeps r₀ s
theorem State.pump_keeps {r₀ : State} (s : State) (nb) (hk : State.Keeps r₀ s) : State.Keeps r₀ (State.pump s nb) := by unfold State.pump; grind
grind_pattern State.pump_keeps => State.pump s nb, State.Keeps r₀ s
theorem execCreditSend_keeps {r₀ : State} (nb) (s : State) (hk : State.Keeps r₀ s) (t₁ : State) (ht : execCreditSend nb s = .next t₁) : State.Keeps r₀ t₁ := by unfold execCreditSend at ht; grind
theorem execLinkHoldTimeout_keeps {r₀ : State} (nb) (s : State) (hk : State.Keeps r₀ s) (t₁ : State) (ht : execLinkHoldTimeout nb s = .next t₁) : State.Keeps r₀ t₁ := by unfold execLinkHoldTimeout at ht; grind
theorem State.badFlit_keeps {r₀ : State} (s : State) (c) (hk : State.Keeps r₀ s) : State.Keeps r₀ (State.badFlit s c) := by unfold State.badFlit; grind
grind_pattern State.badFlit_keeps => State.badFlit s c, State.Keeps r₀ s
theorem State.crossed_keeps {r₀ : State} (s : State) (F) (fidx) (hk : State.Keeps r₀ s) : State.Keeps r₀ (State.crossed s F fidx) := by unfold State.crossed; grind
grind_pattern State.crossed_keeps => State.crossed s F fidx, State.Keeps r₀ s
theorem State.mismatch_keeps {r₀ : State} (s : State) (c) (v) (hk : State.Keeps r₀ s) : State.Keeps r₀ (State.mismatch s c v) := by unfold State.mismatch; grind
grind_pattern State.mismatch_keeps => State.mismatch s c v, State.Keeps r₀ s
theorem State.confirmed_keeps {r₀ : State} (s : State) (c) (hk : State.Keeps r₀ s) : State.Keeps r₀ (State.confirmed s c) := by unfold State.confirmed; grind
grind_pattern State.confirmed_keeps => State.confirmed s c, State.Keeps r₀ s
theorem State.note_keeps {r₀ : State} (s : State) (c) (f) (hk : State.Keeps r₀ s) : State.Keeps r₀ (State.note s c f) := by unfold State.note; grind
grind_pattern State.note_keeps => State.note s c f, State.Keeps r₀ s
theorem State.flitIn_keeps {r₀ : State} (s : State) (c) (f) (symErrs) (hk : State.Keeps r₀ s) : State.Keeps r₀ (State.flitIn s c f symErrs).2 := by unfold State.flitIn; grind
grind_pattern State.flitIn_keeps => State.flitIn s c f symErrs, State.Keeps r₀ s
theorem State.controlIn_keeps {r₀ : State} (s : State) (c) (f) (hk : State.Keeps r₀ s) : State.Keeps r₀ (State.controlIn s c f) := by unfold State.controlIn; grind
grind_pattern State.controlIn_keeps => State.controlIn s c f, State.Keeps r₀ s
theorem State.takeData_keeps {r₀ : State} (s : State) (nb) (f) (hk : State.Keeps r₀ s) : State.Keeps r₀ (State.takeData s nb f) := by unfold State.takeData; grind
grind_pattern State.takeData_keeps => State.takeData s nb f, State.Keeps r₀ s
theorem State.takeAhead_keeps {r₀ : State} (s : State) (nb) (a) (hk : State.Keeps r₀ s) : State.Keeps r₀ (State.takeAhead s nb a) := by
  induction a generalizing s with
  | zero => exact hk
  | succ n ih =>
    unfold State.takeAhead
    dsimp only
    split
    · exact hk
    · exact ih _ (State.takeData_keeps _ _ _ (State.setLink_keeps _ _ hk))
grind_pattern State.takeAhead_keeps => State.takeAhead s nb a, State.Keeps r₀ s
theorem State.answerGap_keeps {r₀ : State} (s : State) (nb) (F) (hk : State.Keeps r₀ s) : State.Keeps r₀ (State.answerGap s nb F) := by unfold State.answerGap; grind
grind_pattern State.answerGap_keeps => State.answerGap s nb F, State.Keeps r₀ s
theorem State.holdData_keeps {r₀ : State} (s : State) (nb) (c) (f) (hk : State.Keeps r₀ s) : State.Keeps r₀ (State.holdData s nb c f) := by unfold State.holdData; grind
grind_pattern State.holdData_keeps => State.holdData s nb c f, State.Keeps r₀ s
theorem execDataFlit_keeps {r₀ : State} (c) (f) (symErrs) (s : State) (hk : State.Keeps r₀ s) (t₁ : State) (ht : execDataFlit c f symErrs s = .next t₁) : State.Keeps r₀ t₁ := by unfold execDataFlit at ht; grind
theorem State.farMap_keeps {r₀ : State} (s : State) (F) (m) (hk : State.Keeps r₀ s) : State.Keeps r₀ (State.farMap s F m) := by unfold State.farMap; grind
grind_pattern State.farMap_keeps => State.farMap s F m, State.Keeps r₀ s
theorem State.wantMap_keeps {r₀ : State} (s : State) (F) (m) (hk : State.Keeps r₀ s) : State.Keeps r₀ (State.wantMap s F m) := by unfold State.wantMap; grind
grind_pattern State.wantMap_keeps => State.wantMap s F m, State.Keeps r₀ s
theorem execIdleFlit_keeps {r₀ : State} (c) (f) (s : State) (hk : State.Keeps r₀ s) (t₁ : State) (ht : execIdleFlit c f s = .next t₁) : State.Keeps r₀ t₁ := by (unfold execIdleFlit at ht; cases ht); (try dsimp only); with_reducible (repeat' first | assumption | (intro _ _ _) | apply State.answerGap_keeps | apply State.controlIn_keeps | apply State.farMap_keeps | apply State.flitIn_keeps | apply State.pump_keeps | apply State.setFld_keeps | apply State.wantMap_keeps | apply State.foldl_keeps | apply State.foldl_keeps₂ | split); all_goals grind
theorem State.farFence_keeps {r₀ : State} (s : State) (F) (hk : State.Keeps r₀ s) : State.Keeps r₀ (State.farFence s F) := by unfold State.farFence; grind
grind_pattern State.farFence_keeps => State.farFence s F, State.Keeps r₀ s
theorem execFencedIdle_keeps {r₀ : State} (c) (f) (s : State) (hk : State.Keeps r₀ s) (t₁ : State) (ht : execFencedIdle c f s = .next t₁) : State.Keeps r₀ t₁ := by unfold execFencedIdle at ht; grind
theorem State.resumeSeq_keeps {r₀ : State} (s : State) (nb) (f) (hk : State.Keeps r₀ s) : State.Keeps r₀ (State.resumeSeq s nb f) := by (unfold State.resumeSeq); (try dsimp only); with_reducible (repeat' first | assumption | (intro _ _ _) | apply State.ackTo_keeps | apply State.answerDrop_keeps | apply State.setLink_keeps | apply State.foldl_keeps | apply State.foldl_keeps₂ | split); all_goals grind
grind_pattern State.resumeSeq_keeps => State.resumeSeq s nb f, State.Keeps r₀ s
theorem State.lineUp_keeps {r₀ : State} (s : State) (F) (w) (f) (hk : State.Keeps r₀ s) : State.Keeps r₀ (State.lineUp s F w f) := by unfold State.lineUp; grind
grind_pattern State.lineUp_keeps => State.lineUp s F w f, State.Keeps r₀ s
theorem execTrainingFlit_keeps {r₀ : State} (c) (f) (s : State) (hk : State.Keeps r₀ s) (t₁ : State) (ht : execTrainingFlit c f s = .next t₁) : State.Keeps r₀ t₁ := by unfold execTrainingFlit at ht; grind
theorem execAlignmentBlock_keeps {r₀ : State} (c) (blk) (s : State) (hk : State.Keeps r₀ s) (t₁ : State) (ht : execAlignmentBlock c blk s = .next t₁) : State.Keeps r₀ t₁ := by unfold execAlignmentBlock at ht; grind
theorem State.controlFlit_keeps {r₀ : State} (s : State) (c) (f) (symErrs) (op) (hk : State.Keeps r₀ s) : State.Keeps r₀ (State.controlFlit s c f symErrs op).2 := by unfold State.controlFlit; grind
grind_pattern State.controlFlit_keeps => State.controlFlit s c f symErrs op, State.Keeps r₀ s
theorem State.stopControl_keeps {r₀ : State} (s : State) (F) (p) (hk : State.Keeps r₀ s) : State.Keeps r₀ (State.stopControl s F p) := by unfold State.stopControl; grind
grind_pattern State.stopControl_keeps => State.stopControl s F p, State.Keeps r₀ s
theorem State.answerControl_keeps {r₀ : State} (s : State) (F) (op) (hk : State.Keeps r₀ s) : State.Keeps r₀ (State.answerControl s F op) := by unfold State.answerControl; grind
grind_pattern State.answerControl_keeps => State.answerControl s F op, State.Keeps r₀ s
theorem execMismatch_keeps {r₀ : State} (c) (f) (s : State) (hk : State.Keeps r₀ s) (t₁ : State) (ht : execMismatch c f s = .next t₁) : State.Keeps r₀ t₁ := by unfold execMismatch at ht; grind
theorem execTxOk_keeps {r₀ : State} (c) (f) (s : State) (hk : State.Keeps r₀ s) (t₁ : State) (ht : execTxOk c f s = .next t₁) : State.Keeps r₀ t₁ := by unfold execTxOk at ht; grind
theorem execQuiesceNotice_keeps {r₀ : State} (c) (f) (s : State) (hk : State.Keeps r₀ s) (t₁ : State) (ht : execQuiesceNotice c f s = .next t₁) : State.Keeps r₀ t₁ := by unfold execQuiesceNotice at ht; grind
theorem execCalQuality_keeps {r₀ : State} (c) (f) (s : State) (hk : State.Keeps r₀ s) (t₁ : State) (ht : execCalQuality c f s = .next t₁) : State.Keeps r₀ t₁ := by unfold execCalQuality at ht; grind
theorem execAnswer_keeps {r₀ : State} (c) (f) (s : State) (hk : State.Keeps r₀ s) (t₁ : State) (ht : execAnswer c f s = .next t₁) : State.Keeps r₀ t₁ := by unfold execAnswer at ht; grind
theorem execControlResend_keeps {r₀ : State} (f) (ctrl) (s : State) (hk : State.Keeps r₀ s) (t₁ : State) (ht : execControlResend f ctrl s = .next t₁) : State.Keeps r₀ t₁ := by unfold execControlResend at ht; grind
theorem execLinkAckTimeout_keeps {r₀ : State} (nb) (s : State) (hk : State.Keeps r₀ s) (t₁ : State) (ht : execLinkAckTimeout nb s = .next t₁) : State.Keeps r₀ t₁ := by unfold execLinkAckTimeout at ht; grind
theorem execLinkResume_keeps {r₀ : State} (nb) (s : State) (hk : State.Keeps r₀ s) (t₁ : State) (ht : execLinkResume nb s = .next t₁) : State.Keeps r₀ t₁ := by unfold execLinkResume at ht; grind
theorem execLinkFail_keeps {r₀ : State} (nb) (s : State) (hk : State.Keeps r₀ s) (t₁ : State) (ht : execLinkFail nb s = .next t₁) : State.Keeps r₀ t₁ := by unfold execLinkFail at ht; grind
theorem State.forward_keeps {r₀ : State} (s : State) (from_) (p) (nb) (q) (hk : State.Keeps r₀ s) : State.Keeps r₀ (State.forward s from_ p nb q) := by unfold State.forward; grind
grind_pattern State.forward_keeps => State.forward s from_ p nb q, State.Keeps r₀ s
theorem State.drop_keeps {r₀ : State} (s : State) (from_) (p) (st) (hk : State.Keeps r₀ s) : State.Keeps r₀ (State.drop s from_ p st) := by unfold State.drop; grind
grind_pattern State.drop_keeps => State.drop s from_ p st, State.Keeps r₀ s
theorem execPacketForward_keeps {r₀ : State} (nb) (p) (s : State) (hk : State.Keeps r₀ s) (t₁ : State) (ht : execPacketForward nb p s = .next t₁) : State.Keeps r₀ t₁ := by unfold execPacketForward at ht; grind

end Sys2Proof.Machine
end

