-- ==== Sys2Proof/Laws/KeepFabric.lean ====
section
/-! SUPPORT. What the operations of Machine/Fabric.lean keep. -/
namespace Sys2Proof.Machine

set_option Elab.async false

theorem State.placed_keeps {r₀ : State} (s : State) (p) (st) (hk : State.Keeps r₀ s) : State.Keeps r₀ (State.placed s p st) := by unfold State.placed; grind
grind_pattern State.placed_keeps => State.placed s p st, State.Keeps r₀ s
theorem State.serve_keeps {r₀ : State} (s : State) (p) (cls) (op) (run) (again) (hrun : ∀ s, State.Keeps r₀ s → State.Keeps r₀ (run s).s) (hagain : ∀ st s, State.Keeps r₀ s → State.Keeps r₀ (again st s).s) (hk : State.Keeps r₀ s) : State.Keeps r₀ (State.serve s p cls op run again) := by (unfold State.serve); (try dsimp only); with_reducible (repeat' first | assumption | (intro _ _ _) | apply State.placed_keeps | apply State.reply_keeps | apply State.foldl_keeps | apply State.foldl_keeps₂ | split); all_goals grind
grind_pattern State.serve_keeps => State.serve s p cls op run again, State.Keeps r₀ s
theorem answerOf_keeps {r₀ : State} (r : MemOut × State) (hk : State.Keeps r₀ r.2) : State.Keeps r₀ (answerOf r).s := by unfold answerOf; grind
grind_pattern answerOf_keeps => answerOf r, State.Keeps r₀ r.2
theorem sayAgain_keeps {r₀ : State} (st) (s : State) (hk : State.Keeps r₀ s) : State.Keeps r₀ (sayAgain st s).s := hk
grind_pattern sayAgain_keeps => sayAgain st s, State.Keeps r₀ s
theorem State.readSnap_keeps {r₀ : State} (s : State) (p) (hk : State.Keeps r₀ s) : State.Keeps r₀ (State.readSnap s p).s := by unfold State.readSnap; grind
grind_pattern State.readSnap_keeps => State.readSnap s p, State.Keeps r₀ s
theorem State.writeSnap_keeps {r₀ : State} (s : State) (p) (bs) (hk : State.Keeps r₀ s) : State.Keeps r₀ (State.writeSnap s p bs).s := by unfold State.writeSnap; grind
grind_pattern State.writeSnap_keeps => State.writeSnap s p bs, State.Keeps r₀ s
theorem State.readMirror_keeps {r₀ : State} (s : State) (p) (hk : State.Keeps r₀ s) : State.Keeps r₀ (State.readMirror s p).s := by unfold State.readMirror; grind
grind_pattern State.readMirror_keeps => State.readMirror s p, State.Keeps r₀ s
theorem State.writeMirror_keeps {r₀ : State} (s : State) (p) (bs) (hk : State.Keeps r₀ s) : State.Keeps r₀ (State.writeMirror s p bs).s := by unfold State.writeMirror; grind
grind_pattern State.writeMirror_keeps => State.writeMirror s p bs, State.Keeps r₀ s
theorem State.readRemote_keeps {r₀ : State} (s : State) (p) (hk : State.Keeps r₀ s) : State.Keeps r₀ (State.readRemote s p).s := by unfold State.readRemote; grind
grind_pattern State.readRemote_keeps => State.readRemote s p, State.Keeps r₀ s
theorem State.writeRemote_keeps {r₀ : State} (s : State) (p) (bs) (hk : State.Keeps r₀ s) : State.Keeps r₀ (State.writeRemote s p bs).s := by unfold State.writeRemote; grind
grind_pattern State.writeRemote_keeps => State.writeRemote s p bs, State.Keeps r₀ s
theorem execReqLoad_keeps {r₀ : State} (p) (s : State) (hk : State.Keeps r₀ s) (t₁ : State) (ht : execReqLoad p s = .next t₁) : State.Keeps r₀ t₁ := by
  unfold execReqLoad at ht; cases ht
  refine State.serve_keeps _ _ _ _ _ _ ?_ (by intro st s hs; (try dsimp only); split; (split; exact hs; exact State.readRemote_keeps _ _ hs); exact hs) hk
  intro s hs; (try dsimp only); split; exact hs; exact State.readRemote_keeps _ _ hs
theorem execReqStore_keeps {r₀ : State} (p) (s : State) (hk : State.Keeps r₀ s) (t₁ : State) (ht : execReqStore p s = .next t₁) : State.Keeps r₀ t₁ := by
  unfold execReqStore at ht; cases ht
  refine State.serve_keeps _ _ _ _ _ _ ?_ (fun st s hs => hs) hk
  intro s hs; (try dsimp only); split; exact hs; exact State.writeRemote_keeps _ _ _ hs
theorem execMsgPut_keeps {r₀ : State} (p) (s : State) (hk : State.Keeps r₀ s) (t₁ : State) (ht : execMsgPut p s = .next t₁) : State.Keeps r₀ t₁ := by
  unfold execMsgPut at ht; cases ht
  (try dsimp only)
  split
  · split
    · exact hk
    · rename_i heq
      exact State.reply_keeps _ _ _ _ (State.bump_keeps _ _ _ (State.takeArrived_keeps _ _ hk _ heq))
  · refine State.serve_keeps _ _ _ _ _ _ ?_ (fun st s hs => hs) hk
    intro s hs; (try dsimp only); split; exact hs; exact State.writeRemote_keeps _ _ _ hs
theorem execMsgGet_keeps {r₀ : State} (p) (s : State) (hk : State.Keeps r₀ s) (t₁ : State) (ht : execMsgGet p s = .next t₁) : State.Keeps r₀ t₁ := by
  unfold execMsgGet at ht; cases ht
  refine State.serve_keeps _ _ _ _ _ _ ?_ (by intro st s hs; (try dsimp only); split; (split; exact hs; exact State.readRemote_keeps _ _ hs); exact hs) hk
  intro s hs; (try dsimp only); split; exact hs; exact State.readRemote_keeps _ _ hs
theorem execNotify_keeps {r₀ : State} (p) (s : State) (hk : State.Keeps r₀ s) (t₁ : State) (ht : execNotify p s = .next t₁) : State.Keeps r₀ t₁ := by
  unfold execNotify at ht; cases ht
  refine State.serve_keeps _ _ _ _ _ _ ?_ (fun st s hs => hs) hk
  intro s hs; (try dsimp only); split; exact hs; exact State.writeRemote_keeps _ _ _ hs
theorem State.poisonLost_keeps {r₀ : State} (s : State) (src) (l) (hk : State.Keeps r₀ s) : State.Keeps r₀ (State.poisonLost s src l) := by unfold State.poisonLost; grind
grind_pattern State.poisonLost_keeps => State.poisonLost s src l, State.Keeps r₀ s
theorem execDrain_keeps {r₀ : State} (p) (s : State) (hk : State.Keeps r₀ s) (t₁ : State) (ht : execDrain p s = .next t₁) : State.Keeps r₀ t₁ := by
  unfold execDrain at ht; cases ht
  dsimp only
  split
  · exact hk
  · split
    · exact State.serve_keeps _ _ _ _ _ _ (fun s hs => hs) (fun st s hs => hs) hk
    · split
      · exact State.serve_keeps _ _ _ _ _ _ (fun s hs => hs) (fun st s hs => hs) hk
      · split
        · exact hk
        · rename_i heq
          have h1 := State.takeArrived_keeps _ _ hk _ heq
          split
          · exact State.reply_keeps _ _ _ _ h1
          · have h2 := State.foldl_keeps (fun (s : State) l => s.poisonLost p.src l) ((List.range (leAt p.payload 2 1)).map (lostAt p.payload)) _
              (fun s l hs => State.poisonLost_keeps s _ _ hs) h1
            exact State.reply_keeps _ _ _ _ (State.bump_keeps _ _ _ (State.keeps_with _ (h := h2) ..))
theorem State.countSources_keeps {r₀ : State} (s : State) (hk : State.Keeps r₀ s) : State.Keeps r₀ (State.countSources s) := by unfold State.countSources; grind
grind_pattern State.countSources_keeps => State.countSources s, State.Keeps r₀ s
theorem State.remember_keeps {r₀ : State} (s : State) (d) (hk : State.Keeps r₀ s) : State.Keeps r₀ (State.remember s d) := by unfold State.remember; grind
grind_pattern State.remember_keeps => State.remember s d, State.Keeps r₀ s
theorem State.atomicRequest_keeps {r₀ : State} (s : State) (p) (op) (hk : State.Keeps r₀ s) : State.Keeps r₀ (State.atomicRequest s p op) := by
  unfold State.atomicRequest
  refine State.serve_keeps _ _ _ _ _ _ ?_ ?_ hk
  · intro s hs
    refine State.remember_keeps _ _ ?_
    (try dsimp only)
    split
    · exact hs
    · have h1 := fun o c => answerOf_keeps _ (State.atomicHere_keeps s (whoOf p) op p.addr o c true hs)
      have h2 := fun o c a b d => State.mirror_keeps _ a b d (h1 o c)
      (try dsimp only)
      (repeat' split) <;> first | exact h1 _ _ | exact h2 _ _ _ _ _
  · intro st s hs
    (try dsimp only)
    split
    · split
      · exact State.bump_keeps _ _ _ hs
      · exact hs
    · exact State.bump_keeps _ _ _ hs
grind_pattern State.atomicRequest_keeps => State.atomicRequest s p op, State.Keeps r₀ s
theorem execReqAadd_keeps {r₀ : State} (p) (s : State) (hk : State.Keeps r₀ s) (t₁ : State) (ht : execReqAadd p s = .next t₁) : State.Keeps r₀ t₁ := by unfold execReqAadd at ht; grind
theorem execReqAmin_keeps {r₀ : State} (p) (s : State) (hk : State.Keeps r₀ s) (t₁ : State) (ht : execReqAmin p s = .next t₁) : State.Keeps r₀ t₁ := by unfold execReqAmin at ht; grind
theorem execReqAmax_keeps {r₀ : State} (p) (s : State) (hk : State.Keeps r₀ s) (t₁ : State) (ht : execReqAmax p s = .next t₁) : State.Keeps r₀ t₁ := by unfold execReqAmax at ht; grind
theorem execReqAand_keeps {r₀ : State} (p) (s : State) (hk : State.Keeps r₀ s) (t₁ : State) (ht : execReqAand p s = .next t₁) : State.Keeps r₀ t₁ := by unfold execReqAand at ht; grind
theorem execReqAor_keeps {r₀ : State} (p) (s : State) (hk : State.Keeps r₀ s) (t₁ : State) (ht : execReqAor p s = .next t₁) : State.Keeps r₀ t₁ := by unfold execReqAor at ht; grind
theorem execReqAxor_keeps {r₀ : State} (p) (s : State) (hk : State.Keeps r₀ s) (t₁ : State) (ht : execReqAxor p s = .next t₁) : State.Keeps r₀ t₁ := by unfold execReqAxor at ht; grind
theorem execReqAswap_keeps {r₀ : State} (p) (s : State) (hk : State.Keeps r₀ s) (t₁ : State) (ht : execReqAswap p s = .next t₁) : State.Keeps r₀ t₁ := by unfold execReqAswap at ht; grind
theorem execReqAcas_keeps {r₀ : State} (p) (s : State) (hk : State.Keeps r₀ s) (t₁ : State) (ht : execReqAcas p s = .next t₁) : State.Keeps r₀ t₁ := by unfold execReqAcas at ht; grind
theorem execReqAcas2_keeps {r₀ : State} (p) (s : State) (hk : State.Keeps r₀ s) (t₁ : State) (ht : execReqAcas2 p s = .next t₁) : State.Keeps r₀ t₁ := by unfold execReqAcas2 at ht; grind
theorem execReqAfadd_keeps {r₀ : State} (p) (s : State) (hk : State.Keeps r₀ s) (t₁ : State) (ht : execReqAfadd p s = .next t₁) : State.Keeps r₀ t₁ := by unfold execReqAfadd at ht; grind
theorem execDedupExpire_keeps {r₀ : State} (src) (tag) (s : State) (hk : State.Keeps r₀ s) (t₁ : State) (ht : execDedupExpire src tag s = .next t₁) : State.Keeps r₀ t₁ := by unfold execDedupExpire at ht; grind
theorem execRepublishData_keeps {r₀ : State} (p) (s : State) (hk : State.Keeps r₀ s) (t₁ : State) (ht : execRepublishData p s = .next t₁) : State.Keeps r₀ t₁ := by
  unfold execRepublishData at ht; cases ht
  split
  · exact hk
  · refine State.serve_keeps _ _ _ _ _ _ ?_ (fun st s hs => hs) hk
    intro s hs
    dsimp only
    split
    · exact hs
    · split
      · exact hs
      · dsimp only
        have h1 := answerOf_keeps _ (State.writeFor_keeps s (whoOf p) true (rpOffset p) (p.payload.drop 32) true hs)
        split
        · exact State.mirror_keeps _ _ _ _ h1
        · exact h1
theorem State.applyNotice_keeps {r₀ : State} (s : State) (r) (o) (n) (hk : State.Keeps r₀ s) : State.Keeps r₀ (State.applyNotice s r o n) := by unfold State.applyNotice; grind
grind_pattern State.applyNotice_keeps => State.applyNotice s r o n, State.Keeps r₀ s
theorem execRepublishNotice_keeps {r₀ : State} (p) (s : State) (hk : State.Keeps r₀ s) (t₁ : State) (ht : execRepublishNotice p s = .next t₁) : State.Keeps r₀ t₁ := by unfold execRepublishNotice at ht; grind
theorem State.tblFlag_keeps {r₀ : State} (s : State) (f) (v) (hk : State.Keeps r₀ s) : State.Keeps r₀ (State.tblFlag s f v) := by unfold State.tblFlag; grind
grind_pattern State.tblFlag_keeps => State.tblFlag s f v, State.Keeps r₀ s
theorem State.tblLoad_keeps {r₀ : State} (s : State) (hk : State.Keeps r₀ s) : State.Keeps r₀ (State.tblLoad s) := by unfold State.tblLoad; grind
grind_pattern State.tblLoad_keeps => State.tblLoad s, State.Keeps r₀ s
theorem execRouteTblLoad_keeps {r₀ : State} (src) (s : State) (hk : State.Keeps r₀ s) (t₁ : State) (ht : execRouteTblLoad src s = .next t₁) : State.Keeps r₀ t₁ := by unfold execRouteTblLoad at ht; grind
theorem execRouteTblChecked_keeps {r₀ : State} (s : State) (hk : State.Keeps r₀ s) (t₁ : State) (ht : execRouteTblChecked s = .next t₁) : State.Keeps r₀ t₁ := by unfold execRouteTblChecked at ht; grind
theorem State.setPair_keeps {r₀ : State} (s : State) (cls) (d) (p) (hk : State.Keeps r₀ s) : State.Keeps r₀ (State.setPair s cls d p) := by unfold State.setPair; grind
grind_pattern State.setPair_keeps => State.setPair s cls d p, State.Keeps r₀ s
theorem State.sendReq_keeps {r₀ : State} (s : State) (r) (epoch) (hk : State.Keeps r₀ s) : State.Keeps r₀ (State.sendReq s r epoch) := by unfold State.sendReq; grind
grind_pattern State.sendReq_keeps => State.sendReq s r epoch, State.Keeps r₀ s
theorem State.resendReq_keeps {r₀ : State} (s : State) (r) (hk : State.Keeps r₀ s) : State.Keeps r₀ (State.resendReq s r) := by unfold State.resendReq; grind
grind_pattern State.resendReq_keeps => State.resendReq s r, State.Keeps r₀ s
theorem State.sendMark_keeps {r₀ : State} (s : State) (r) (hk : State.Keeps r₀ s) : State.Keeps r₀ (State.sendMark s r) := by unfold State.sendMark; grind
grind_pattern State.sendMark_keeps => State.sendMark s r, State.Keeps r₀ s
theorem State.sendHole_keeps {r₀ : State} (s : State) (cls) (d) (x) (ls) (hk : State.Keeps r₀ s) : State.Keeps r₀ (State.sendHole s cls d x ls) := by unfold State.sendHole; grind
grind_pattern State.sendHole_keeps => State.sendHole s cls d x ls, State.Keeps r₀ s
theorem State.drainPair_keeps {r₀ : State} (s : State) (old) (q) (hk : State.Keeps r₀ s) : State.Keeps r₀ (State.drainPair s old q) := by unfold State.drainPair; grind
grind_pattern State.drainPair_keeps => State.drainPair s old q, State.Keeps r₀ s
theorem State.retryBroken_keeps {r₀ : State} (s : State) (e) (hk : State.Keeps r₀ s) : State.Keeps r₀ (State.retryBroken s e) := by unfold State.retryBroken; grind
grind_pattern State.retryBroken_keeps => State.retryBroken s e, State.Keeps r₀ s
theorem State.flipTable_keeps {r₀ : State} (s : State) (hk : State.Keeps r₀ s) : State.Keeps r₀ (State.flipTable s) := by
  unfold State.flipTable
  dsimp only
  split
  · exact State.post_keeps _ _ _ hk
  · refine State.foldl_keeps _ _ _ (fun s e hs => State.retryBroken_keeps s e hs) ?_
    refine State.foldl_keeps _ _ _ (fun s e hs => State.drainPair_keeps s _ e hs) ?_
    refine State.keeps_with _ (h := ?_) ..
    exact State.tblFlag_keeps _ _ _ (State.tblFlag_keeps _ _ _ (State.tblFlag_keeps _ _ _ (State.tblFlag_keeps _ _ _
      (State.tblFlag_keeps _ _ _ (State.tblFlag_keeps _ _ _ hk)))))
grind_pattern State.flipTable_keeps => State.flipTable s, State.Keeps r₀ s
theorem execFlip_keeps {r₀ : State} (src) (s : State) (hk : State.Keeps r₀ s) (t₁ : State) (ht : execFlip src s = .next t₁) : State.Keeps r₀ t₁ := by unfold execFlip at ht; grind
theorem execEpochRetire_keeps {r₀ : State} (s : State) (hk : State.Keeps r₀ s) (t₁ : State) (ht : execEpochRetire s = .next t₁) : State.Keeps r₀ t₁ := by unfold execEpochRetire at ht; grind
theorem State.tableBytes_keeps {r₀ : State} (s : State) (x) (hk : State.Keeps r₀ s) : State.Keeps r₀ (State.tableBytes s x).2 := State.readFor_keeps _ _ _ _ _ hk
grind_pattern State.tableBytes_keeps => State.tableBytes s x, State.Keeps r₀ s
theorem regionsIn_keeps {r₀ : State} (r : MemOut × State) (hk : State.Keeps r₀ r.2) : State.Keeps r₀ (regionsIn r).2 := by unfold regionsIn; grind
theorem State.readTable_keeps {r₀ : State} (s : State) (x) (hk : State.Keeps r₀ s) : State.Keeps r₀ (State.readTable s x).2 := regionsIn_keeps _ (State.tableBytes_keeps s x hk)
grind_pattern State.readTable_keeps => State.readTable s x, State.Keeps r₀ s
theorem State.writeRtCtrl_keeps {r₀ : State} (s : State) (v) (mask) (hk : State.Keeps r₀ s) : State.Keeps r₀ (State.writeRtCtrl s v mask) := by
  have h1 := State.writeWord_keeps s .FAB_RT_CTRL [] Reg.FAB_RT_CTRL (setBit v 8 false) mask hk
  unfold State.writeRtCtrl
  generalize s.writeWord .FAB_RT_CTRL [] Reg.FAB_RT_CTRL (setBit v 8 false) mask = s1 at h1 ⊢
  extract_lets s2 xs r s3
  have h2 : State.Keeps r₀ s2 := h1
  split
  · exact h2
  · have h3 : State.Keeps r₀ r.2 := by
      refine foldl_keep (fun x : List (Nat × Option (List Region)) × State => State.Keeps r₀ x.2) _ (fun x a hx => ?_) _ _ h2
      have h4 := State.readTable_keeps x.2 a hx
      generalize x.2.readTable a = t at h4 ⊢
      obtain ⟨t, s4⟩ := t
      have h5 : State.Keeps r₀ s4 := h4
      exact h5
    exact State.keeps_with _ (h := State.setFld_keeps _ _ _ _ h3) ..
grind_pattern State.writeRtCtrl_keeps => State.writeRtCtrl s v mask, State.Keeps r₀ s
theorem execFabRtLoad_keeps {r₀ : State} (src) (v) (s : State) (hk : State.Keeps r₀ s) (t₁ : State) (ht : execFabRtLoad src v s = .next t₁) : State.Keeps r₀ t₁ := by unfold execFabRtLoad at ht; grind
theorem execFabRtLoadDone_keeps {r₀ : State} (s : State) (hk : State.Keeps r₀ s) (t₁ : State) (ht : execFabRtLoadDone s = .next t₁) : State.Keeps r₀ t₁ := by unfold execFabRtLoadDone at ht; grind
theorem State.writeRepl_keeps {r₀ : State} (s : State) (r) (v) (mask) (hk : State.Keeps r₀ s) : State.Keeps r₀ (State.writeRepl s r v mask) := by unfold State.writeRepl; grind
grind_pattern State.writeRepl_keeps => State.writeRepl s r v mask, State.Keeps r₀ s
theorem execReplDeclare_keeps {r₀ : State} (src) (set) (v) (s : State) (hk : State.Keeps r₀ s) (t₁ : State) (ht : execReplDeclare src set v s = .next t₁) : State.Keeps r₀ t₁ := by unfold execReplDeclare at ht; grind
theorem State.sendNotices_keeps {r₀ : State} (s : State) (n) (i) (d) (r) (o) (len) (hk : State.Keeps r₀ s) : State.Keeps r₀ (State.sendNotices s n i d r o len) := by unfold State.sendNotices; grind
grind_pattern State.sendNotices_keeps => State.sendNotices s n i d r o len, State.Keeps r₀ s
theorem State.endRepublish_keeps {r₀ : State} (s : State) (n) (i) (d) (hk : State.Keeps r₀ s) : State.Keeps r₀ (State.endRepublish s n i d) := by unfold State.endRepublish; grind
grind_pattern State.endRepublish_keeps => State.endRepublish s n i d, State.Keeps r₀ s
theorem State.republishStep_keeps {r₀ : State} (s : State) (n) (i) (hk : State.Keeps r₀ s) : State.Keeps r₀ (State.republishStep s n i) := by unfold State.republishStep; grind
grind_pattern State.republishStep_keeps => State.republishStep s n i, State.Keeps r₀ s
theorem State.republishPiece_keeps {r₀ : State} (s : State) (n) (i) (r) (src) (c) (hk : State.Keeps r₀ s) : State.Keeps r₀ (State.republishPiece s n i r src c) := by unfold State.republishPiece; grind
grind_pattern State.republishPiece_keeps => State.republishPiece s n i r src c, State.Keeps r₀ s
theorem execRepublishStart_keeps {r₀ : State} (n) (i) (s : State) (hk : State.Keeps r₀ s) (t₁ : State) (ht : execRepublishStart n i s = .next t₁) : State.Keeps r₀ t₁ := by unfold execRepublishStart at ht; grind

end Sys2Proof.Machine
end

