-- ==== Sys2Proof/Laws/KeepFrontNet.lean ====
section
/-! SUPPORT. What the operations of Machine/FrontNet.lean keep. -/
namespace Sys2Proof.Machine

set_option Elab.async false

theorem State.countDiscard_keeps {r₀ : State} (s : State) (p) (hk : State.Keeps r₀ s) : State.Keeps r₀ (State.countDiscard s p) := by unfold State.countDiscard; grind
grind_pattern State.countDiscard_keeps => State.countDiscard s p, State.Keeps r₀ s
theorem State.sendFrame_keeps {r₀ : State} (s : State) (p) (dst) (typ) (body) (hk : State.Keeps r₀ s) : State.Keeps r₀ (State.sendFrame s p dst typ body) := by unfold State.sendFrame; grind
grind_pattern State.sendFrame_keeps => State.sendFrame s p dst typ body, State.Keeps r₀ s
theorem State.sendIp_keeps {r₀ : State} (s : State) (p) (mac) (src) (dst) (proto) (body) (hk : State.Keeps r₀ s) : State.Keeps r₀ (State.sendIp s p mac src dst proto body) := by unfold State.sendIp; grind
grind_pattern State.sendIp_keeps => State.sendIp s p mac src dst proto body, State.Keeps r₀ s
theorem State.sendUdp_keeps {r₀ : State} (s : State) (p) (mac) (dst) (sport) (dport) (data) (hk : State.Keeps r₀ s) : State.Keeps r₀ (State.sendUdp s p mac dst sport dport data) := by unfold State.sendUdp; grind
grind_pattern State.sendUdp_keeps => State.sendUdp s p mac dst sport dport data, State.Keeps r₀ s
theorem execFrameRx_keeps {r₀ : State} (port) (frame) (s : State) (hk : State.Keeps r₀ s) (t₁ : State) (ht : execFrameRx port frame s = .next t₁) : State.Keeps r₀ t₁ := by unfold execFrameRx at ht; grind
theorem State.takeRx_keeps {r₀ : State} (s : State) (p) (m) (hk : State.Keeps r₀ s) (t₁ : State) (ht : State.takeRx s p m = some t₁) : State.Keeps r₀ t₁ := by unfold State.takeRx at ht; grind
grind_pattern State.takeRx_keeps => State.takeRx s p m, State.Keeps r₀ s, some t₁
theorem State.resolveReply_keeps {r₀ : State} (s : State) (p) (f) (hk : State.Keeps r₀ s) : State.Keeps r₀ (State.resolveReply s p f) := by unfold State.resolveReply; grind
grind_pattern State.resolveReply_keeps => State.resolveReply s p f, State.Keeps r₀ s
theorem execArpRequest_keeps {r₀ : State} (port) (frame) (s : State) (hk : State.Keeps r₀ s) (t₁ : State) (ht : execArpRequest port frame s = .next t₁) : State.Keeps r₀ t₁ := by (unfold execArpRequest at ht; cases ht); (try dsimp only); with_reducible (repeat' first | assumption | (intro _ _ _) | apply State.resolveReply_keeps | apply State.foldl_keeps | apply State.foldl_keeps₂ | split); all_goals grind
theorem State.echoReply_keeps {r₀ : State} (s : State) (p) (f) (hk : State.Keeps r₀ s) : State.Keeps r₀ (State.echoReply s p f) := by unfold State.echoReply; grind
grind_pattern State.echoReply_keeps => State.echoReply s p f, State.Keeps r₀ s
theorem execIcmpEcho_keeps {r₀ : State} (port) (frame) (s : State) (hk : State.Keeps r₀ s) (t₁ : State) (ht : execIcmpEcho port frame s = .next t₁) : State.Keeps r₀ t₁ := by (unfold execIcmpEcho at ht; cases ht); (try dsimp only); with_reducible (repeat' first | assumption | (intro _ _ _) | apply State.countDiscard_keeps | apply State.echoReply_keeps | apply State.foldl_keeps | apply State.foldl_keeps₂ | split); all_goals grind
theorem State.sendReport_keeps {r₀ : State} (s : State) (p) (v6) (n) (records) (hk : State.Keeps r₀ s) : State.Keeps r₀ (State.sendReport s p v6 n records) := by unfold State.sendReport; grind
grind_pattern State.sendReport_keeps => State.sendReport s p v6 n records, State.Keeps r₀ s
theorem execIgmpQuery_keeps {r₀ : State} (port) (frame) (s : State) (hk : State.Keeps r₀ s) (t₁ : State) (ht : execIgmpQuery port frame s = .next t₁) : State.Keeps r₀ t₁ := by (unfold execIgmpQuery at ht; cases ht); (try dsimp only); with_reducible (repeat' first | assumption | (intro _ _ _) | apply State.drop_keeps | apply State.sendReport_keeps | apply State.foldl_keeps | apply State.foldl_keeps₂ | split); all_goals grind
theorem execNvmeTcpSegment_keeps {r₀ : State} (port) (conn) (data) (s : State) (hk : State.Keeps r₀ s) (t₁ : State) (ht : execNvmeTcpSegment port conn data s = .next t₁) : State.Keeps r₀ t₁ := by (unfold execNvmeTcpSegment at ht; cases ht); (try dsimp only); with_reducible (repeat' first | assumption | (intro _ _ _) | apply State.foldl_keeps | apply State.foldl_keeps₂ | split); all_goals grind
theorem State.openConn_keeps {r₀ : State} (s : State) (t) (hk : State.Keeps r₀ s) : State.Keeps r₀ (State.openConn s t) := by unfold State.openConn; grind
grind_pattern State.openConn_keeps => State.openConn s t, State.Keeps r₀ s
theorem execPortLinkChange_keeps {r₀ : State} (port) (up) (s : State) (hk : State.Keeps r₀ s) (t₁ : State) (ht : execPortLinkChange port up s = .next t₁) : State.Keeps r₀ t₁ := by unfold execPortLinkChange at ht; grind

end Sys2Proof.Machine
end

