-- ==== Sys2Proof/Laws/KeepFrontTime.lean ====
section
/-! SUPPORT. What the operations of Machine/FrontTime.lean keep. -/
namespace Sys2Proof.Machine

set_option Elab.async false

theorem State.correct_keeps {r₀ : State} (s : State) (c) (hk : State.Keeps r₀ s) : State.Keeps r₀ (State.correct s c) := by unfold State.correct; grind
grind_pattern State.correct_keeps => State.correct s c, State.Keeps r₀ s
theorem State.lockTime_keeps {r₀ : State} (s : State) (c) (depth) (hk : State.Keeps r₀ s) : State.Keeps r₀ (State.lockTime s c depth) := by (unfold State.lockTime); (try dsimp only); with_reducible (repeat' first | assumption | (intro _ _ _) | apply State.clearActive_keeps | apply State.correct_keeps | apply State.post_keeps | apply State.setFld_keeps | apply State.foldl_keeps | apply State.foldl_keeps₂ | split); all_goals grind
grind_pattern State.lockTime_keeps => State.lockTime s c depth, State.Keeps r₀ s
theorem State.holdover_keeps {r₀ : State} (s : State) (hk : State.Keeps r₀ s) : State.Keeps r₀ (State.holdover s) := by unfold State.holdover; grind
grind_pattern State.holdover_keeps => State.holdover s, State.Keeps r₀ s
theorem State.takePtp_keeps {r₀ : State} (s : State) (p) (m) (hk : State.Keeps r₀ s) (t₁ : State) (ht : State.takePtp s p m = some t₁) : State.Keeps r₀ t₁ := by unfold State.takePtp at ht; grind
grind_pattern State.takePtp_keeps => State.takePtp s p m, State.Keeps r₀ s, some t₁
theorem State.chooseMaster_keeps {r₀ : State} (s : State) (hk : State.Keeps r₀ s) : State.Keeps r₀ (State.chooseMaster s) := by unfold State.chooseMaster; grind
grind_pattern State.chooseMaster_keeps => State.chooseMaster s, State.Keeps r₀ s
theorem execPtpAnnounce_keeps {r₀ : State} (port) (msg) (s : State) (hk : State.Keeps r₀ s) (t₁ : State) (ht : execPtpAnnounce port msg s = .next t₁) : State.Keeps r₀ t₁ := by (unfold execPtpAnnounce at ht; cases ht); (try dsimp only); with_reducible (repeat' first | assumption | (intro _ _ _) | apply State.chooseMaster_keeps | apply State.drop_keeps | apply State.foldl_keeps | apply State.foldl_keeps₂ | split); all_goals grind
theorem State.sendDelayReq_keeps {r₀ : State} (s : State) (p) (y) (t1) (hk : State.Keeps r₀ s) : State.Keeps r₀ (State.sendDelayReq s p y t1) := by unfold State.sendDelayReq; grind
grind_pattern State.sendDelayReq_keeps => State.sendDelayReq s p y t1, State.Keeps r₀ s
theorem execPtpSync_keeps {r₀ : State} (port) (msg) (t2) (s : State) (hk : State.Keeps r₀ s) (t₁ : State) (ht : execPtpSync port msg t2 s = .next t₁) : State.Keeps r₀ t₁ := by (unfold execPtpSync at ht; cases ht); (try dsimp only); with_reducible (repeat' first | assumption | (intro _ _ _) | apply State.sendDelayReq_keeps | apply State.foldl_keeps | apply State.foldl_keeps₂ | split); all_goals grind
theorem execPtpDelayResp_keeps {r₀ : State} (port) (msg) (s : State) (hk : State.Keeps r₀ s) (t₁ : State) (ht : execPtpDelayResp port msg s = .next t₁) : State.Keeps r₀ t₁ := by (unfold execPtpDelayResp at ht; cases ht); (try dsimp only); with_reducible (repeat' first | assumption | (intro _ _ _) | apply State.drop_keeps | apply State.lockTime_keeps | apply State.foldl_keeps | apply State.foldl_keeps₂ | split); all_goals grind
theorem execAnnounceTimeout_keeps {r₀ : State} (s : State) (hk : State.Keeps r₀ s) (t₁ : State) (ht : execAnnounceTimeout s = .next t₁) : State.Keeps r₀ t₁ := by unfold execAnnounceTimeout at ht; grind
theorem State.stopPtp_keeps {r₀ : State} (s : State) (p) (hk : State.Keeps r₀ s) : State.Keeps r₀ (State.stopPtp s p) := by unfold State.stopPtp; grind
grind_pattern State.stopPtp_keeps => State.stopPtp s p, State.Keeps r₀ s
theorem execFabricTimeTick_keeps {r₀ : State} (t1) (s : State) (hk : State.Keeps r₀ s) (t₁ : State) (ht : execFabricTimeTick t1 s = .next t₁) : State.Keeps r₀ t₁ := by unfold execFabricTimeTick at ht; grind
theorem State.timeReply_keeps {r₀ : State} (s : State) (t1) (t4) (pl) (hk : State.Keeps r₀ s) : State.Keeps r₀ (State.timeReply s t1 t4 pl) := by unfold State.timeReply; grind
grind_pattern State.timeReply_keeps => State.timeReply s t1 t4 pl, State.Keeps r₀ s
theorem execTimeRequest_keeps {r₀ : State} (p) (t2) (t3) (s : State) (hk : State.Keeps r₀ s) (t₁ : State) (ht : execTimeRequest p t2 t3 s = .next t₁) : State.Keeps r₀ t₁ := by unfold execTimeRequest at ht; grind
theorem State.writeTimeCfg_keeps {r₀ : State} (s : State) (v) (mask) (hk : State.Keeps r₀ s) : State.Keeps r₀ (State.writeTimeCfg s v mask) := by unfold State.writeTimeCfg; grind
grind_pattern State.writeTimeCfg_keeps => State.writeTimeCfg s v mask, State.Keeps r₀ s

end Sys2Proof.Machine
end

