-- ==== Sys2Proof/Laws/KeepFrontVideo.lean ====
section
/-! SUPPORT. What the operations of Machine/FrontVideo.lean keep. -/
namespace Sys2Proof.Machine

set_option Elab.async false

theorem State.flowRange_keeps {r₀ : State} (s : State) (f) (a) (n) (hk : State.Keeps r₀ s) : State.Keeps r₀ (State.flowRange s f a n).2 := by unfold State.flowRange; grind
grind_pattern State.flowRange_keeps => State.flowRange s f a n, State.Keeps r₀ s
theorem State.setFlow_keeps {r₀ : State} (s : State) (f) (hk : State.Keeps r₀ s) : State.Keeps r₀ (State.setFlow s f) := by unfold State.setFlow; grind
grind_pattern State.setFlow_keeps => State.setFlow s f, State.Keeps r₀ s
theorem State.tellGroup_keeps {r₀ : State} (s : State) (f) (join) (hk : State.Keeps r₀ s) : State.Keeps r₀ (State.tellGroup s f join) := by unfold State.tellGroup; grind
grind_pattern State.tellGroup_keeps => State.tellGroup s f join, State.Keeps r₀ s
theorem State.flowWrite_keeps {r₀ : State} (s : State) (f) (o) (bs) (hk : State.Keeps r₀ s) : State.Keeps r₀ (State.flowWrite s f o bs).2 := by unfold State.flowWrite; grind
grind_pattern State.flowWrite_keeps => State.flowWrite s f o bs, State.Keeps r₀ s
theorem State.postFrames_keeps {r₀ : State} (s : State) (n) (a) (hk : State.Keeps r₀ s) : State.Keeps r₀ (State.postFrames s n a).2 := by
  induction a generalizing s with
  | zero => grind [State.postFrames]
  | succ p ih => unfold State.postFrames; grind (splits := 20)
grind_pattern State.postFrames_keeps => State.postFrames s n a, State.Keeps r₀ s
theorem firstOf_keeps {r₀ : State} (a) (b : Option Status × State) (hk : State.Keeps r₀ b.2) : State.Keeps r₀ (firstOf a b).2 := hk
theorem State.shutFrame_keeps {r₀ : State} (s : State) (n) (ts) (f) (fr) (hk : State.Keeps r₀ s) : State.Keeps r₀ (State.shutFrame s n ts f fr).2 := firstOf_keeps _ _ (State.postFrames_keeps _ _ _ (State.setFlow_keeps _ _ (State.flowWrite_keeps _ _ _ _ hk)))
grind_pattern State.shutFrame_keeps => State.shutFrame s n ts f fr, State.Keeps r₀ s
theorem State.closeFrame_keeps {r₀ : State} (s : State) (n) (ts) (hk : State.Keeps r₀ s) : State.Keeps r₀ (State.closeFrame s n ts).2 := by unfold State.closeFrame; grind (splits := 30)
grind_pattern State.closeFrame_keeps => State.closeFrame s n ts, State.Keeps r₀ s
theorem State.closeAll_keeps {r₀ : State} (s : State) (n) (hk : State.Keeps r₀ s) : State.Keeps r₀ (State.closeAll s n).2 := by (unfold State.closeAll); (try dsimp only); with_reducible (repeat' first | assumption | (intro _ _ _) | apply State.closeFrame_keeps | apply State.foldl_keeps | apply State.foldl_keeps₂ | split); all_goals grind
grind_pattern State.closeAll_keeps => State.closeAll s n, State.Keeps r₀ s
theorem State.endFlow_keeps {r₀ : State} (s : State) (n) (hk : State.Keeps r₀ s) : State.Keeps r₀ (State.endFlow s n) := by unfold State.endFlow; grind
grind_pattern State.endFlow_keeps => State.endFlow s n, State.Keeps r₀ s
theorem State.afterWrite_keeps {r₀ : State} (x : Option Status × State) (n) (hk : State.Keeps r₀ x.2) : State.Keeps r₀ (State.afterWrite x n) := by
  obtain ⟨a, s⟩ := x
  unfold State.afterWrite
  split
  · rename_i heq; cases heq; exact hk
  · rename_i heq; cases heq
    split
    · exact hk
    · exact State.post_keeps _ _ _ (State.endFlow_keeps _ _ hk)
grind_pattern State.afterWrite_keeps => State.afterWrite x n, State.Keeps r₀ x.2
theorem State.putSrd_keeps {r₀ : State} (s : State) (f) (slot) (d) (hk : State.Keeps r₀ s) : State.Keeps r₀ (State.putSrd s f slot d).2 := by unfold State.putSrd; grind
grind_pattern State.putSrd_keeps => State.putSrd s f slot d, State.Keeps r₀ s
theorem State.countBad_keeps {r₀ : State} (s : State) (n) (hk : State.Keeps r₀ s) : State.Keeps r₀ (State.countBad s n) := by unfold State.countBad; grind
grind_pattern State.countBad_keeps => State.countBad s n, State.Keeps r₀ s
theorem State.countLate_keeps {r₀ : State} (s : State) (n) (hk : State.Keeps r₀ s) : State.Keeps r₀ (State.countLate s n) := by unfold State.countLate; grind
grind_pattern State.countLate_keeps => State.countLate s n, State.Keeps r₀ s
theorem State.takeVideo_keeps {r₀ : State} (s : State) (n) (f) (fr) (v) (rxNs) (hk : State.Keeps r₀ s) : State.Keeps r₀ (State.takeVideo s n f fr v rxNs) := by (unfold State.takeVideo); (try dsimp only); with_reducible (repeat' first | assumption | (intro _ _ _) | apply State.afterWrite_keeps | apply State.closeFrame_keeps | apply State.countBad_keeps | apply State.putSrd_keeps | apply State.setFlow_keeps | apply State.foldl_keeps | apply State.foldl_keeps₂ | split); all_goals grind
grind_pattern State.takeVideo_keeps => State.takeVideo s n f fr v rxNs, State.Keeps r₀ s
theorem State.openFrame_keeps {r₀ : State} (s : State) (n) (f) (v) (rxNs) (hk : State.Keeps r₀ s) : State.Keeps r₀ (State.openFrame s n f v rxNs) := by unfold State.openFrame; grind
grind_pattern State.openFrame_keeps => State.openFrame s n f v rxNs, State.Keeps r₀ s
theorem State.placeVideo_keeps {r₀ : State} (s : State) (n) (v) (rxNs) (hk : State.Keeps r₀ s) : State.Keeps r₀ (State.placeVideo s n v rxNs) := by grind [State.placeVideo]
grind_pattern State.placeVideo_keeps => State.placeVideo s n v rxNs, State.Keeps r₀ s
theorem State.videoTo_keeps {r₀ : State} (s : State) (n) (data) (rxNs) (hk : State.Keeps r₀ s) : State.Keeps r₀ (State.videoTo s n data rxNs) := by grind [State.videoTo]
grind_pattern State.videoTo_keeps => State.videoTo s n data rxNs, State.Keeps r₀ s
theorem execVideoPacket_keeps {r₀ : State} (port) (pkt) (rxNs) (s : State) (hk : State.Keeps r₀ s) (t₁ : State) (ht : execVideoPacket port pkt rxNs s = .next t₁) : State.Keeps r₀ t₁ := by (unfold execVideoPacket at ht; cases ht); (try dsimp only); with_reducible (repeat' first | assumption | (intro _ _ _) | apply State.videoTo_keeps | apply State.foldl_keeps | apply State.foldl_keeps₂ | split); all_goals grind
theorem execFrameTimeout_keeps {r₀ : State} (flow) (s : State) (hk : State.Keeps r₀ s) (t₁ : State) (ht : execFrameTimeout flow s = .next t₁) : State.Keeps r₀ t₁ := by unfold execFrameTimeout at ht; grind
theorem bothRanges_keeps {r₀ : State} (a) (b : Option Status × State) (hk : State.Keeps r₀ b.2) : State.Keeps r₀ (bothRanges a b).2 := hk
theorem openedFlow_keeps {r₀ : State} (n) (i) (f) (r : Option Status × State) (hk : State.Keeps r₀ r.2) : State.Keeps r₀ (openedFlow n i f r) := by
  unfold openedFlow
  split
  · exact State.endDesc_keeps _ _ _ _ _ _ hk
  · exact State.endDesc_keeps _ _ _ _ _ _ (State.tellGroup_keeps _ _ _ (State.setFld_keeps _ _ _ _ (State.keeps_with _ (h := hk) ..)))
theorem State.flowRanges_keeps {r₀ : State} (s : State) (f) (hk : State.Keeps r₀ s) : State.Keeps r₀ (State.flowRanges s f).2 := bothRanges_keeps _ _ (State.flowRange_keeps _ _ _ _ (State.flowRange_keeps _ _ _ _ hk))
grind_pattern State.flowRanges_keeps => State.flowRanges s f, State.Keeps r₀ s
theorem State.admitFlow_keeps {r₀ : State} (s : State) (n) (i) (f) (hk : State.Keeps r₀ s) : State.Keeps r₀ (State.admitFlow s n i f) := by
  unfold State.admitFlow
  split
  · exact State.endDesc_keeps _ _ _ _ _ _ hk
  · exact openedFlow_keeps _ _ _ _ (State.flowRanges_keeps _ _ hk)
grind_pattern State.admitFlow_keeps => State.admitFlow s n i f, State.Keeps r₀ s
theorem State.flowRead_keeps {r₀ : State} (n) (i) (num) (r : MemOut × State) (hk : State.Keeps r₀ r.2) : State.Keeps r₀ (State.flowRead n i num r) := by
  unfold State.flowRead
  split
  · exact State.endDesc_keeps _ _ _ _ _ _ hk
  · exact hk
  · exact State.admitFlow_keeps _ _ _ _ hk
grind_pattern State.flowRead_keeps => State.flowRead n i num r, State.Keeps r₀ r.2
theorem execFlowOpen_keeps {r₀ : State} (n) (i) (s : State) (hk : State.Keeps r₀ s) (t₁ : State) (ht : execFlowOpen n i s = .next t₁) : State.Keeps r₀ t₁ := by unfold execFlowOpen at ht; grind (splits := 30)
theorem execFlowClose_keeps {r₀ : State} (n) (i) (s : State) (hk : State.Keeps r₀ s) (t₁ : State) (ht : execFlowClose n i s = .next t₁) : State.Keeps r₀ t₁ := by unfold execFlowClose at ht; grind

end Sys2Proof.Machine
end

