-- ==== Sys2Proof/Laws/KeepFrontExr.lean ====
section
/-! SUPPORT. What the operations of Machine/FrontExr.lean keep. -/
namespace Sys2Proof.Machine

set_option Elab.async false

theorem State.readHere_keeps {r₀ : State} (s : State) (a) (n) (hk : State.Keeps r₀ s) : State.Keeps r₀ (State.readHere s a n).2 := by unfold State.readHere; grind
grind_pattern State.readHere_keeps => State.readHere s a n, State.Keeps r₀ s
theorem State.loadEndpoints_keeps {r₀ : State} (s : State) (a) (hk : State.Keeps r₀ s) : State.Keeps r₀ (State.loadEndpoints s a).2 := by
  induction a generalizing s with
  | nil => exact hk
  | cons p l ih =>
    obtain ⟨i, e⟩ := p
    unfold State.loadEndpoints
    split
    · exact hk
    · have h1 := State.readHere_keeps s e.templateAt 64 hk
      generalize s.readHere e.templateAt 64 = q at h1 ⊢
      obtain ⟨m, s1⟩ := q
      have h2 : State.Keeps r₀ s1 := h1
      clear h1
      cases m
      · exact h2
      · dsimp only
        split
        · exact h2
        · exact ih _ h2
grind_pattern State.loadEndpoints_keeps => State.loadEndpoints s a, State.Keeps r₀ s
theorem State.exrTable_keeps {r₀ : State} (s : State) (hk : State.Keeps r₀ s) : State.Keeps r₀ (State.exrTable s).2 := by unfold State.exrTable; grind
grind_pattern State.exrTable_keeps => State.exrTable s, State.Keeps r₀ s
theorem State.settleExr_keeps {r₀ : State} (s : State) (hk : State.Keeps r₀ s) : State.Keeps r₀ (State.settleExr s) := by unfold State.settleExr; grind
grind_pattern State.settleExr_keeps => State.settleExr s, State.Keeps r₀ s
theorem State.writeExrCfg_keeps {r₀ : State} (s : State) (v) (mask) (hk : State.Keeps r₀ s) : State.Keeps r₀ (State.writeExrCfg s v mask) := by unfold State.writeExrCfg; grind
grind_pattern State.writeExrCfg_keeps => State.writeExrCfg s v mask, State.Keeps r₀ s
theorem State.writeExrTable_keeps {r₀ : State} (s : State) (v) (mask) (hk : State.Keeps r₀ s) : State.Keeps r₀ (State.writeExrTable s v mask) := by unfold State.writeExrTable; grind
grind_pattern State.writeExrTable_keeps => State.writeExrTable s v mask, State.Keeps r₀ s
theorem execExrEnable_keeps {r₀ : State} (src) (v) (s : State) (hk : State.Keeps r₀ s) (t₁ : State) (ht : execExrEnable src v s = .next t₁) : State.Keeps r₀ t₁ := by unfold execExrEnable at ht; grind
theorem execExrDisable_keeps {r₀ : State} (src) (v) (s : State) (hk : State.Keeps r₀ s) (t₁ : State) (ht : execExrDisable src v s = .next t₁) : State.Keeps r₀ t₁ := by unfold execExrDisable at ht; grind
theorem State.exrSend_keeps {r₀ : State} (s : State) (p) (mac) (dst) (dport) (data) (hk : State.Keeps r₀ s) : State.Keeps r₀ (State.exrSend s p mac dst dport data) := by unfold State.exrSend; grind
grind_pattern State.exrSend_keeps => State.exrSend s p mac dst dport data, State.Keeps r₀ s
theorem State.countReject_keeps {r₀ : State} (s : State) (hk : State.Keeps r₀ s) : State.Keeps r₀ (State.countReject s) := by unfold State.countReject; grind
grind_pattern State.countReject_keeps => State.countReject s, State.Keeps r₀ s
theorem State.exrReject_keeps {r₀ : State} (s : State) (p) (mac) (src) (sport) (data) (st) (hk : State.Keeps r₀ s) : State.Keeps r₀ (State.exrReject s p mac src sport data st) := by unfold State.exrReject; grind
grind_pattern State.exrReject_keeps => State.exrReject s p mac src sport data st, State.Keeps r₀ s
theorem State.exrPayload_keeps {r₀ : State} (s : State) (e) (slot) (hk : State.Keeps r₀ s) : State.Keeps r₀ (State.exrPayload s e slot).2 := by unfold State.exrPayload; grind
grind_pattern State.exrPayload_keeps => State.exrPayload s e slot, State.Keeps r₀ s
theorem State.exrAgain_keeps {r₀ : State} (s : State) (r) (st) (r0) (r1) (hk : State.Keeps r₀ s) : State.Keeps r₀ (State.exrAgain s r st r0 r1) := by unfold State.exrAgain; grind
grind_pattern State.exrAgain_keeps => State.exrAgain s r st r0 r1, State.Keeps r₀ s
theorem State.exrWrite_keeps {r₀ : State} (s : State) (n) (i) (a) (bs) (hk : State.Keeps r₀ s) : State.Keeps r₀ (State.exrWrite s n i a bs).2 := by unfold State.exrWrite; grind
grind_pattern State.exrWrite_keeps => State.exrWrite s n i a bs, State.Keeps r₀ s
theorem State.exrPost_keeps {r₀ : State} (s : State) (ep) (e) (slot) (data) (hk : State.Keeps r₀ s) : State.Keeps r₀ (State.exrPost s ep e slot data).2 := by unfold State.exrPost; grind
grind_pattern State.exrPost_keeps => State.exrPost s ep e slot data, State.Keeps r₀ s
theorem State.exrRefuse_keeps {r₀ : State} (s : State) (r) (st) (hk : State.Keeps r₀ s) : State.Keeps r₀ (State.exrRefuse s r st) := by unfold State.exrRefuse; grind
grind_pattern State.exrRefuse_keeps => State.exrRefuse s r st, State.Keeps r₀ s
theorem State.exrPosted_keeps {r₀ : State} (s : State) (r) (hk : State.Keeps r₀ s) : State.Keeps r₀ (State.exrPosted s r) := by unfold State.exrPosted; grind
grind_pattern State.exrPosted_keeps => State.exrPosted s r, State.Keeps r₀ s
theorem State.exrAck_keeps {r₀ : State} (s : State) (n) (i) (st) (hk : State.Keeps r₀ s) : State.Keeps r₀ (State.exrAck s n i st) := by unfold State.exrAck; grind
grind_pattern State.exrAck_keeps => State.exrAck s n i st, State.Keeps r₀ s
theorem State.exrTake_keeps {r₀ : State} (s : State) (p) (mac) (src) (sport) (data) (hk : State.Keeps r₀ s) : State.Keeps r₀ (State.exrTake s p mac src sport data) := by (unfold State.exrTake); (try dsimp only); with_reducible (repeat' first | assumption | (intro _ _ _) | apply State.countDiscard_keeps | apply State.exrAgain_keeps | apply State.exrPost_keeps | apply State.exrPosted_keeps | apply State.exrReject_keeps | apply State.reply_keeps | apply State.foldl_keeps | apply State.foldl_keeps₂ | split); all_goals grind
grind_pattern State.exrTake_keeps => State.exrTake s p mac src sport data, State.Keeps r₀ s
theorem execExrDatagram_keeps {r₀ : State} (port) (src) (srcPort) (data) (s : State) (hk : State.Keeps r₀ s) (t₁ : State) (ht : execExrDatagram port src srcPort data s = .next t₁) : State.Keeps r₀ t₁ := by unfold execExrDatagram at ht; grind
theorem execExrReply_keeps {r₀ : State} (n) (i) (s : State) (hk : State.Keeps r₀ s) (t₁ : State) (ht : execExrReply n i s = .next t₁) : State.Keeps r₀ t₁ := by (unfold execExrReply at ht; cases ht); (try dsimp only); with_reducible (repeat' first | assumption | (intro _ _ _) | apply State.countReject_keeps | apply State.exrPayload_keeps | apply State.exrSend_keeps | apply State.reply_keeps | apply State.settleExr_keeps | apply State.foldl_keeps | apply State.foldl_keeps₂ | split); all_goals grind
theorem execExrKeyExpire_keeps {r₀ : State} (key) (s : State) (hk : State.Keeps r₀ s) (t₁ : State) (ht : execExrKeyExpire key s = .next t₁) : State.Keeps r₀ t₁ := by unfold execExrKeyExpire at ht; grind
theorem State.quiescePort_keeps {r₀ : State} (s : State) (p) (on) (hk : State.Keeps r₀ s) : State.Keeps r₀ (State.quiescePort s p on) := by unfold State.quiescePort; grind
grind_pattern State.quiescePort_keeps => State.quiescePort s p on, State.Keeps r₀ s
theorem State.writeFrontCtrl_keeps {r₀ : State} (s : State) (v) (mask) (hk : State.Keeps r₀ s) : State.Keeps r₀ (State.writeFrontCtrl s v mask) := by unfold State.writeFrontCtrl; grind
grind_pattern State.writeFrontCtrl_keeps => State.writeFrontCtrl s v mask, State.Keeps r₀ s
theorem execPortQuiesce_keeps {r₀ : State} (src) (v) (s : State) (hk : State.Keeps r₀ s) (t₁ : State) (ht : execPortQuiesce src v s = .next t₁) : State.Keeps r₀ t₁ := by unfold execPortQuiesce at ht; grind
theorem execPortQuiesceDone_keeps {r₀ : State} (port) (s : State) (hk : State.Keeps r₀ s) (t₁ : State) (ht : execPortQuiesceDone port s = .next t₁) : State.Keeps r₀ t₁ := by unfold execPortQuiesceDone at ht; grind

end Sys2Proof.Machine
end

