-- ==== Sys2Proof/Laws/KeepTrail.lean ====
section
/-! SUPPORT. What the operations of Machine/Trail.lean keep. -/
namespace Sys2Proof.Machine

set_option Elab.async false

theorem State.norWrite_keeps {r₀ : State} (s : State) (o) (bs) (hk : State.Keeps r₀ s) : State.Keeps r₀ (State.norWrite s o bs) := by unfold State.norWrite; grind
grind_pattern State.norWrite_keeps => State.norWrite s o bs, State.Keeps r₀ s
theorem State.norErase_keeps {r₀ : State} (s : State) (o) (n) (hk : State.Keeps r₀ s) : State.Keeps r₀ (State.norErase s o n) := by unfold State.norErase; grind
grind_pattern State.norErase_keeps => State.norErase s o n, State.Keeps r₀ s
theorem State.trailPut_keeps {r₀ : State} (s : State) (bs) (hk : State.Keeps r₀ s) : State.Keeps r₀ (State.trailPut s bs) := by unfold State.trailPut; grind
grind_pattern State.trailPut_keeps => State.trailPut s bs, State.Keeps r₀ s
theorem State.appendTrail_keeps {r₀ : State} (s : State) (typ) (body) (hk : State.Keeps r₀ s) : State.Keeps r₀ (State.appendTrail s typ body) := by unfold State.appendTrail; grind
grind_pattern State.appendTrail_keeps => State.appendTrail s typ body, State.Keeps r₀ s
theorem State.recordSparing_keeps {r₀ : State} (s : State) (hk : State.Keeps r₀ s) : State.Keeps r₀ (State.recordSparing s) := by unfold State.recordSparing; grind
grind_pattern State.recordSparing_keeps => State.recordSparing s, State.Keeps r₀ s

end Sys2Proof.Machine
end

