-- ==== Sys2Proof/Laws/KeepMemRows.lean ====
section
/-! SUPPORT. What the operations of Machine/MemRows.lean keep. -/
namespace Sys2Proof.Machine

set_option Elab.async false

theorem execPatrolScrub_keeps {r₀ : State} (unit) (found) (s : State) (hk : State.Keeps r₀ s) (t₁ : State) (ht : execPatrolScrub unit found s = .next t₁) : State.Keeps r₀ t₁ := by unfold execPatrolScrub at ht; grind
theorem execRegulatorRetest_keeps {r₀ : State} (x) (die) (dt) (s : State) (hk : State.Keeps r₀ s) (t₁ : State) (ht : execRegulatorRetest x die dt s = .next t₁) : State.Keeps r₀ t₁ := by unfold execRegulatorRetest at ht; grind
theorem State.setMemChState_keeps {r₀ : State} (s : State) (pc) (st) (hk : State.Keeps r₀ s) : State.Keeps r₀ (State.setMemChState s pc st) := by unfold State.setMemChState; grind
grind_pattern State.setMemChState_keeps => State.setMemChState s pc st, State.Keeps r₀ s
theorem State.channelFail_keeps {r₀ : State} (s : State) (pc) (hk : State.Keeps r₀ s) : State.Keeps r₀ (State.channelFail s pc) := by unfold State.channelFail; grind
grind_pattern State.channelFail_keeps => State.channelFail s pc, State.Keeps r₀ s
theorem execChannelFailed_keeps {r₀ : State} (pc) (s : State) (hk : State.Keeps r₀ s) (t₁ : State) (ht : execChannelFailed pc s = .next t₁) : State.Keeps r₀ t₁ := by unfold execChannelFailed at ht; grind
theorem execResetChannel_keeps {r₀ : State} (src) (pc) (s : State) (hk : State.Keeps r₀ s) (t₁ : State) (ht : execResetChannel src pc s = .next t₁) : State.Keeps r₀ t₁ := by unfold execResetChannel at ht; grind
theorem execSpareRecalibrated_keeps {r₀ : State} (pc) (s : State) (hk : State.Keeps r₀ s) (t₁ : State) (ht : execSpareRecalibrated pc s = .next t₁) : State.Keeps r₀ t₁ := by unfold execSpareRecalibrated at ht; grind
theorem State.fillPoison_keeps {r₀ : State} (s : State) (l) (hk : State.Keeps r₀ s) : State.Keeps r₀ (State.fillPoison s l) := by
  unfold State.fillPoison
  exact State.foldl_keeps _ _ _ (fun s g hs => State.markDirty_keeps _ _ (State.foldl_keeps _ _ _ (fun s j hs => State.setPoison_keeps s _ hs) hs))
    (State.keeps_mem s _ (h := hk) (hm := Maps.wf_filter 0 _ _ hk.mem) ..)
grind_pattern State.fillPoison_keeps => State.fillPoison s l, State.Keeps r₀ s
theorem execSpareFillDone_keeps {r₀ : State} (pc) (s : State) (hk : State.Keeps r₀ s) (t₁ : State) (ht : execSpareFillDone pc s = .next t₁) : State.Keeps r₀ t₁ := by unfold execSpareFillDone at ht; grind
theorem State.writeLoopback_keeps {r₀ : State} (s : State) (pc) (v) (mask) (hk : State.Keeps r₀ s) : State.Keeps r₀ (State.writeLoopback s pc v mask) := by unfold State.writeLoopback; grind
grind_pattern State.writeLoopback_keeps => State.writeLoopback s pc v mask, State.Keeps r₀ s
theorem execLoopbackMode_keeps {r₀ : State} (src) (pc) (mode) (s : State) (hk : State.Keeps r₀ s) (t₁ : State) (ht : execLoopbackMode src pc mode s = .next t₁) : State.Keeps r₀ t₁ := by unfold execLoopbackMode at ht; grind
theorem State.setPkgLevel_keeps {r₀ : State} (s : State) (p) (hk : State.Keeps r₀ s) : State.Keeps r₀ (State.setPkgLevel s p) := by unfold State.setPkgLevel; grind
grind_pattern State.setPkgLevel_keeps => State.setPkgLevel s p, State.Keeps r₀ s
theorem execPkgTempRead_keeps {r₀ : State} (p) (t) (s : State) (hk : State.Keeps r₀ s) (t₁ : State) (ht : execPkgTempRead p t s = .next t₁) : State.Keeps r₀ t₁ := by (unfold execPkgTempRead at ht; cases ht); (try dsimp only); with_reducible (repeat' first | assumption | (intro _ _ _) | apply State.setFld_keeps | apply State.setPkgLevel_keeps | apply State.foldl_keeps | apply State.foldl_keeps₂ | split); all_goals grind
theorem State.swap_keeps {r₀ : State} (s : State) (hk : State.Keeps r₀ s) : State.Keeps r₀ (State.swap s) := by unfold State.swap; grind
grind_pattern State.swap_keeps => State.swap s, State.Keeps r₀ s
theorem State.writeDirtyCtrl_keeps {r₀ : State} (s : State) (v) (mask) (hk : State.Keeps r₀ s) : State.Keeps r₀ (State.writeDirtyCtrl s v mask) := by unfold State.writeDirtyCtrl; grind
grind_pattern State.writeDirtyCtrl_keeps => State.writeDirtyCtrl s v mask, State.Keeps r₀ s
theorem execMemDirtyEnable_keeps {r₀ : State} (src) (s : State) (hk : State.Keeps r₀ s) (t₁ : State) (ht : execMemDirtyEnable src s = .next t₁) : State.Keeps r₀ t₁ := by unfold execMemDirtyEnable at ht; grind
theorem execSwap_keeps {r₀ : State} (src) (s : State) (hk : State.Keeps r₀ s) (t₁ : State) (ht : execSwap src s = .next t₁) : State.Keeps r₀ t₁ := by unfold execSwap at ht; grind
theorem State.putBitmap_keeps {r₀ : State} (s : State) (bs) (hk : State.Keeps r₀ s) : State.Keeps r₀ (State.putBitmap s bs) := by unfold State.putBitmap; grind
grind_pattern State.putBitmap_keeps => State.putBitmap s bs, State.Keeps r₀ s
theorem execDirtyBitmapWritten_keeps {r₀ : State} (s : State) (hk : State.Keeps r₀ s) (t₁ : State) (ht : execDirtyBitmapWritten s = .next t₁) : State.Keeps r₀ t₁ := by
  unfold execDirtyBitmapWritten at ht
  injection ht with ht
  subst ht
  split
  · exact hk
  · exact State.putBitmap_keeps _ _ hk

end Sys2Proof.Machine
end

