-- ==== Sys2Proof/Laws/KeepSnap.lean ====
section
/-! SUPPORT. What the operations of Machine/Snap.lean keep. -/
namespace Sys2Proof.Machine

set_option Elab.async false

theorem State.readRing_keeps {r₀ : State} (s : State) (n) (a) (len) (hk : State.Keeps r₀ s) : State.Keeps r₀ (State.readRing s n a len).2 := by unfold State.readRing; grind
grind_pattern State.readRing_keeps => State.readRing s n a len, State.Keeps r₀ s
theorem State.readPlan_keeps {r₀ : State} (s : State) (n) (a) (whole) (hk : State.Keeps r₀ s) : State.Keeps r₀ (State.readPlan s n a whole).2 := by unfold State.readPlan; grind
grind_pattern State.readPlan_keeps => State.readPlan s n a whole, State.Keeps r₀ s
theorem State.hamperWrite_keeps {r₀ : State} (s : State) (o) (bs) (hk : State.Keeps r₀ s) : State.Keeps r₀ (State.hamperWrite s o bs) := by unfold State.hamperWrite; grind
grind_pattern State.hamperWrite_keeps => State.hamperWrite s o bs, State.Keeps r₀ s
theorem State.imageWrite_keeps {r₀ : State} (s : State) (p) (m) (off) (bs) (hk : State.Keeps r₀ s) : State.Keeps r₀ (State.imageWrite s p m off bs) := by unfold State.imageWrite; grind
grind_pattern State.imageWrite_keeps => State.imageWrite s p m off bs, State.Keeps r₀ s
theorem State.mapSnap_keeps {r₀ : State} (s : State) (x) (f) (hk : State.Keeps r₀ s) : State.Keeps r₀ (State.mapSnap s x f) := by unfold State.mapSnap; grind
grind_pattern State.mapSnap_keeps => State.mapSnap s x f, State.Keeps r₀ s
theorem State.orPend_keeps {r₀ : State} (r : Option Status × State) (a) (b) (hk : State.Keeps r₀ r.2) : State.Keeps r₀ (State.orPend r a b).2 := by
  obtain ⟨o, s⟩ := r
  unfold State.orPend
  grind
grind_pattern State.orPend_keeps => State.orPend r a b, State.Keeps r₀ r.2
theorem State.putFrozen_keeps {r₀ : State} (s : State) (bs) (hk : State.Keeps r₀ s) : State.Keeps r₀ (State.putFrozen s bs).2 := by unfold State.putFrozen; grind
grind_pattern State.putFrozen_keeps => State.putFrozen s bs, State.Keeps r₀ s
theorem State.orAreas_keeps {r₀ : State} (r : Option Status × State) (areas) (frozen) (hk : State.Keeps r₀ r.2) : State.Keeps r₀ (State.orAreas r areas frozen).2 :=
  State.foldl_keeps₂ _ _ _ (fun _ _ h => State.foldl_keeps₂ _ _ _ (fun _ _ h => State.orPend_keeps _ _ _ h) h) hk
grind_pattern State.orAreas_keeps => State.orAreas r areas frozen, State.Keeps r₀ r.2
theorem State.harvest_keeps {r₀ : State} (s : State) (hk : State.Keeps r₀ s) : State.Keeps r₀ (State.harvest s).2 := by
  unfold State.harvest
  extract_lets frozen s1 pends
  split
  · exact State.setFld_keeps _ _ _ _ hk
  · have h1 : State.Keeps r₀ s1 := State.wrapInc_keeps _ _ _ (State.keeps_with _ (h := hk) ..)
    have h2 := fun areas => State.orAreas_keeps _ areas frozen (State.putFrozen_keeps _ (bitmapBytes frozen) h1)
    clear_value s1 frozen
    split <;> (rename_i heq; have h3 := h2 (List.map (fun j => s1.workBase + 0x23000 * (1 + j)) (List.range 384)); rw [heq] at h3)
    · exact State.keeps_with _ (h := h3) ..
    · exact State.setFld_keeps _ _ _ _ (State.keeps_with _ (h := h3) ..)
grind_pattern State.harvest_keeps => State.harvest s, State.Keeps r₀ s
theorem State.putPending_keeps {r₀ : State} (s : State) (x) (m) (bs) (hk : State.Keeps r₀ s) : State.Keeps r₀ (State.putPending s x m bs) := by unfold State.putPending; grind
grind_pattern State.putPending_keeps => State.putPending s x m bs, State.Keeps r₀ s
theorem State.clearPending_keeps {r₀ : State} (s : State) (x) (m) (hk : State.Keeps r₀ s) : State.Keeps r₀ (State.clearPending s x m) := State.putPending_keeps _ _ _ _ hk
grind_pattern State.clearPending_keeps => State.clearPending s x m, State.Keeps r₀ s
theorem State.writeSnapCfg_keeps {r₀ : State} (s : State) (v) (mask) (hk : State.Keeps r₀ s) : State.Keeps r₀ (State.writeSnapCfg s v mask) := by unfold State.writeSnapCfg; grind
grind_pattern State.writeSnapCfg_keeps => State.writeSnapCfg s v mask, State.Keeps r₀ s
theorem execSnapEnable_keeps {r₀ : State} (src) (v) (s : State) (hk : State.Keeps r₀ s) (t₁ : State) (ht : execSnapEnable src v s = .next t₁) : State.Keeps r₀ t₁ := by unfold execSnapEnable at ht; grind
theorem State.showPolicy_keeps {r₀ : State} (s : State) (x) (hk : State.Keeps r₀ s) : State.Keeps r₀ (State.showPolicy s x) := by unfold State.showPolicy; grind
grind_pattern State.showPolicy_keeps => State.showPolicy s x, State.Keeps r₀ s
theorem State.captured_keeps {r₀ : State} (s : State) (x) (t0) (hk : State.Keeps r₀ s) : State.Keeps r₀ (State.captured s x t0) := by unfold State.captured; grind
grind_pattern State.captured_keeps => State.captured s x t0, State.Keeps r₀ s
theorem execSnapshotDue_keeps {r₀ : State} (x) (s : State) (hk : State.Keeps r₀ s) (t₁ : State) (ht : execSnapshotDue x s = .next t₁) : State.Keeps r₀ t₁ := by unfold execSnapshotDue at ht; grind
theorem execRunSecond_keeps {r₀ : State} (x) (s : State) (hk : State.Keeps r₀ s) (t₁ : State) (ht : execRunSecond x s = .next t₁) : State.Keeps r₀ t₁ := by unfold execRunSecond at ht; grind
theorem State.notePart_keeps {r₀ : State} (s : State) (n) (i) (k) (bs) (hk : State.Keeps r₀ s) : State.Keeps r₀ (State.notePart s n i k bs) := by unfold State.notePart; grind
grind_pattern State.notePart_keeps => State.notePart s n i k bs, State.Keeps r₀ s
theorem State.snapAsk_keeps {r₀ : State} (s : State) (n) (i) (c) (o) (len) (pos) (hk : State.Keeps r₀ s) : State.Keeps r₀ (State.snapAsk s n i c o len pos) := by unfold State.snapAsk; grind
grind_pattern State.snapAsk_keeps => State.snapAsk s n i c o len pos, State.Keeps r₀ s
theorem State.salvageAsk_keeps {r₀ : State} (s : State) (n) (i) (c) (x) (image) (off) (len) (pos) (hk : State.Keeps r₀ s) : State.Keeps r₀ (State.salvageAsk s n i c x image off len pos) := by unfold State.salvageAsk; grind
grind_pattern State.salvageAsk_keeps => State.salvageAsk s n i c x image off len pos, State.Keeps r₀ s
theorem State.snapPut_keeps {r₀ : State} (s : State) (n) (i) (c) (o) (bs) (hk : State.Keeps r₀ s) : State.Keeps r₀ (State.snapPut s n i c o bs) := by unfold State.snapPut; grind
grind_pattern State.snapPut_keeps => State.snapPut s n i c o bs, State.Keeps r₀ s
theorem State.copyGranules_keeps {r₀ : State} (s : State) (n) (i) (p) (m) (gs) (a) (hk : State.Keeps r₀ s) : State.Keeps r₀ (State.copyGranules s n i p m gs a) := by
  induction a generalizing s with
  | nil => exact hk
  | cons j js ih =>
    unfold State.copyGranules
    generalize granuleSize = g
    have h1 := State.readFor_keeps s (s.me (s.ringAuth n)) (gs.getD j 0) g true hk
    generalize s.readFor (s.me (s.ringAuth n)) (gs.getD j 0) g true = q at h1 ⊢
    obtain ⟨m, s1⟩ := q
    have h2 : State.Keeps r₀ s1 := h1
    clear h1
    cases m
    · exact ih _ (State.snapPut_keeps _ _ _ _ _ _ (State.notePart_keeps _ _ _ _ _ h2))
    · exact State.endDesc_keeps _ _ _ _ _ _ h2
    · exact h2
grind_pattern State.copyGranules_keeps => State.copyGranules s n i p m gs a, State.Keeps r₀ s
theorem State.openImage_keeps {r₀ : State} (s : State) (x) (m) (d) (hk : State.Keeps r₀ s) : State.Keeps r₀ (State.openImage s x m d) := by unfold State.openImage; grind
grind_pattern State.openImage_keeps => State.openImage s x m d, State.Keeps r₀ s
theorem State.noteCopy_keeps {r₀ : State} (s : State) (n) (i) (full) (todo) (hdr) (hk : State.Keeps r₀ s) : State.Keeps r₀ (State.noteCopy s n i full todo hdr) := by unfold State.noteCopy; grind
grind_pattern State.noteCopy_keeps => State.noteCopy s n i full todo hdr, State.Keeps r₀ s
theorem State.askTable_keeps {r₀ : State} (s : State) (n) (i) (d) (m) (full) (hk : State.Keeps r₀ s) : State.Keeps r₀ (State.askTable s n i d m full) := by unfold State.askTable; grind
grind_pattern State.askTable_keeps => State.askTable s n i d m full, State.Keeps r₀ s
theorem State.copyFrom_keeps {r₀ : State} (s : State) (n) (i) (d) (m) (hk : State.Keeps r₀ s) : State.Keeps r₀ (State.copyFrom s n i d m) := State.copyGranules_keeps _ _ _ _ _ _ _ (State.askTable_keeps _ _ _ _ _ _ (State.snapPut_keeps _ _ _ _ _ _ (State.noteCopy_keeps _ _ _ _ _ _ (State.openImage_keeps _ _ _ _ hk))))
grind_pattern State.copyFrom_keeps => State.copyFrom s n i d m, State.Keeps r₀ s
theorem State.captureCopy_keeps {r₀ : State} (s : State) (n) (i) (d) (hk : State.Keeps r₀ s) : State.Keeps r₀ (State.captureCopy s n i d) := by
  unfold State.captureCopy
  split
  · exact State.endDesc_keeps _ _ _ _ _ _ hk
  · have hh := State.harvest_keeps s hk
    split <;> (rename_i heq; rw [heq] at hh)
    · exact State.endDesc_keeps _ _ _ _ _ _ hh
    · exact State.copyFrom_keeps _ _ _ _ _ hh
grind_pattern State.captureCopy_keeps => State.captureCopy s n i d, State.Keeps r₀ s
theorem State.captureTable_keeps {r₀ : State} (s : State) (n) (i) (d) (hk : State.Keeps r₀ s) : State.Keeps r₀ (State.captureTable s n i d) := by unfold State.captureTable; grind
grind_pattern State.captureTable_keeps => State.captureTable s n i d, State.Keeps r₀ s
theorem State.captureCommit_keeps {r₀ : State} (s : State) (n) (i) (d) (hk : State.Keeps r₀ s) : State.Keeps r₀ (State.captureCommit s n i d) := by unfold State.captureCommit; grind
grind_pattern State.captureCommit_keeps => State.captureCommit s n i d, State.Keeps r₀ s
theorem State.captureEnd_keeps {r₀ : State} (s : State) (n) (i) (d) (hk : State.Keeps r₀ s) : State.Keeps r₀ (State.captureEnd s n i d) := by unfold State.captureEnd; grind
grind_pattern State.captureEnd_keeps => State.captureEnd s n i d, State.Keeps r₀ s
theorem execSnapCapture_keeps {r₀ : State} (n) (i) (s : State) (hk : State.Keeps r₀ s) (t₁ : State) (ht : execSnapCapture n i s = .next t₁) : State.Keeps r₀ t₁ := by (unfold execSnapCapture at ht; cases ht); (try dsimp only); with_reducible (repeat' first | assumption | (intro _ _ _) | apply State.drop_keeps | apply State.endDesc_keeps | apply State.mapDesc_keeps | apply State.notePart_keeps | apply State.readPlan_keeps | apply State.snapAsk_keeps | apply State.foldl_keeps | apply State.foldl_keeps₂ | split); all_goals grind
theorem State.askImage_keeps {r₀ : State} (s : State) (n) (i) (d) (m) (off) (len) (pos) (hk : State.Keeps r₀ s) : State.Keeps r₀ (State.askImage s n i d m off len pos) := by unfold State.askImage; grind
grind_pattern State.askImage_keeps => State.askImage s n i d m off len pos, State.Keeps r₀ s
theorem State.askHeaders_keeps {r₀ : State} (s : State) (n) (i) (d) (hk : State.Keeps r₀ s) : State.Keeps r₀ (State.askHeaders s n i d) := by unfold State.askHeaders; grind
grind_pattern State.askHeaders_keeps => State.askHeaders s n i d, State.Keeps r₀ s
theorem State.askGranule_keeps {r₀ : State} (s : State) (n) (i) (d) (j) (hk : State.Keeps r₀ s) : State.Keeps r₀ (State.askGranule s n i d j) := by unfold State.askGranule; grind
grind_pattern State.askGranule_keeps => State.askGranule s n i d j, State.Keeps r₀ s
theorem State.restoreChoose_keeps {r₀ : State} (s : State) (n) (i) (d) (hk : State.Keeps r₀ s) : State.Keeps r₀ (State.restoreChoose s n i d) := by unfold State.restoreChoose; grind
grind_pattern State.restoreChoose_keeps => State.restoreChoose s n i d, State.Keeps r₀ s
theorem State.restoreGranule_keeps {r₀ : State} (s : State) (n) (i) (d) (j) (hk : State.Keeps r₀ s) : State.Keeps r₀ (State.restoreGranule s n i d j) := by unfold State.restoreGranule; grind
grind_pattern State.restoreGranule_keeps => State.restoreGranule s n i d j, State.Keeps r₀ s
theorem State.restoreEnd_keeps {r₀ : State} (s : State) (n) (i) (d) (hk : State.Keeps r₀ s) : State.Keeps r₀ (State.restoreEnd s n i d) := by unfold State.restoreEnd; grind
grind_pattern State.restoreEnd_keeps => State.restoreEnd s n i d, State.Keeps r₀ s
theorem State.digestGranules_keeps {r₀ : State} (s : State) (n) (a) (hk : State.Keeps r₀ s) : State.Keeps r₀ (State.digestGranules s n a).2 := by
  induction a generalizing s with
  | nil => exact hk
  | cons o os ih =>
    unfold State.digestGranules
    generalize granuleSize = g
    have h1 := State.readFor_keeps s (s.me (s.ringAuth n)) o g true hk
    generalize s.readFor (s.me (s.ringAuth n)) o g true = q at h1 ⊢
    obtain ⟨m, s1⟩ := q
    have h2 : State.Keeps r₀ s1 := h1
    clear h1
    cases m
    · have h3 := ih _ h2
      dsimp only
      generalize s1.digestGranules n os = q at h3 ⊢
      obtain ⟨x, s2⟩ := q
      cases x <;> exact h3
    · exact h2
    · exact h2
grind_pattern State.digestGranules_keeps => State.digestGranules s n a, State.Keeps r₀ s
theorem State.digestCompare_keeps {r₀ : State} (s : State) (n) (i) (d) (w) (hk : State.Keeps r₀ s) : State.Keeps r₀ (State.digestCompare s n i d w) := by unfold State.digestCompare; grind
grind_pattern State.digestCompare_keeps => State.digestCompare s n i d w, State.Keeps r₀ s
theorem State.digestNext_keeps {r₀ : State} (s : State) (n) (i) (d) (hk : State.Keeps r₀ s) : State.Keeps r₀ (State.digestNext s n i d) := by unfold State.digestNext; grind
grind_pattern State.digestNext_keeps => State.digestNext s n i d, State.Keeps r₀ s
theorem execSnapDigest_keeps {r₀ : State} (n) (i) (s : State) (hk : State.Keeps r₀ s) (t₁ : State) (ht : execSnapDigest n i s = .next t₁) : State.Keeps r₀ t₁ := by (unfold execSnapDigest at ht; cases ht); (try dsimp only); with_reducible (repeat' first | assumption | (intro _ _ _) | apply State.awaiting_keeps | apply State.digestGranules_keeps | apply State.digestNext_keeps | apply State.endDesc_keeps | apply State.mapDesc_keeps | apply State.notePart_keeps | apply State.readPlan_keeps | apply State.requestStores_keeps | apply State.writeFor_keeps | apply State.foldl_keeps | apply State.foldl_keeps₂ | split); all_goals grind
theorem State.setMirror_keeps {r₀ : State} (s : State) (x) (peer) (role) (hk : State.Keeps r₀ s) : State.Keeps r₀ (State.setMirror s x peer role) := by unfold State.setMirror; grind
grind_pattern State.setMirror_keeps => State.setMirror s x peer role, State.Keeps r₀ s
theorem execSnapShadow_keeps {r₀ : State} (n) (i) (s : State) (hk : State.Keeps r₀ s) (t₁ : State) (ht : execSnapShadow n i s = .next t₁) : State.Keeps r₀ t₁ := by unfold execSnapShadow at ht; grind
theorem State.shadowGroups_keeps {r₀ : State} (s : State) (n) (i) (d) (hk : State.Keeps r₀ s) : State.Keeps r₀ (State.shadowGroups s n i d) := by unfold State.shadowGroups; grind
grind_pattern State.shadowGroups_keeps => State.shadowGroups s n i d, State.Keeps r₀ s
theorem execSnapSalvageQuery_keeps {r₀ : State} (n) (i) (s : State) (hk : State.Keeps r₀ s) (t₁ : State) (ht : execSnapSalvageQuery n i s = .next t₁) : State.Keeps r₀ t₁ := by unfold execSnapSalvageQuery at ht; grind
theorem State.queryEnd_keeps {r₀ : State} (s : State) (n) (i) (d) (hk : State.Keeps r₀ s) : State.Keeps r₀ (State.queryEnd s n i d) := by (unfold State.queryEnd); (try dsimp only); with_reducible (repeat' first | assumption | (intro _ _ _) | apply State.endDesc_keeps | apply State.writeFor_keeps | apply State.foldl_keeps | apply State.foldl_keeps₂ | split); all_goals grind
grind_pattern State.queryEnd_keeps => State.queryEnd s n i d, State.Keeps r₀ s
theorem State.snapGo_keeps {r₀ : State} (s : State) (n) (i) (a) (hk : State.Keeps r₀ s) : State.Keeps r₀ (State.snapGo s n i a) := by
  induction a generalizing s with
  | zero => exact hk
  | succ k ih =>
    have st : ∀ (p : Prop) [Decidable p] (a b : State), State.Keeps r₀ a → State.Keeps r₀ b → State.Keeps r₀ (if p then a else b) := by
      intro p _ a b ha hb; split <;> assumption
    unfold State.snapGo
    split
    · exact hk
    · rename_i d _
      extract_lets ph j s1
      have h1 : State.Keeps r₀ s1 := State.restoreGranule_keeps _ _ _ _ _ hk
      refine st _ _ _ hk (st _ _ _ (st _ _ _ (ih _ (State.captureCopy_keeps _ _ _ _ hk)) (st _ _ _ (State.captureTable_keeps _ _ _ _ hk)
        (st _ _ _ (State.captureCommit_keeps _ _ _ _ hk) (State.captureEnd_keeps _ _ _ _ hk)))) (st _ _ _ (st _ _ _
        (ih _ (State.restoreChoose_keeps _ _ _ _ hk)) (st _ _ _ (ih _ (State.askGranule_keeps _ _ _ _ _ hk)) ?_)) (st _ _ _
        (st _ _ _ (State.digestNext_keeps _ _ _ _ hk) (State.digestCompare_keeps _ _ _ _ _ hk)) (st _ _ _ (State.shadowGroups_keeps _ _ _ _ hk)
        (State.queryEnd_keeps _ _ _ _ hk)))))
      split
      · exact h1
      · exact st _ _ _ h1 (st _ _ _ (ih _ (State.askGranule_keeps _ _ _ _ _ h1)) (State.restoreEnd_keeps _ _ _ _ h1))
grind_pattern State.snapGo_keeps => State.snapGo s n i a, State.Keeps r₀ s
theorem State.resumeCaptures_keeps {r₀ : State} (s : State) (hk : State.Keeps r₀ s) : State.Keeps r₀ (State.resumeCaptures s) := by unfold State.resumeCaptures; exact State.foldl_keeps _ _ _ (fun _ _ h => State.snapGo_keeps _ _ _ _ h) hk
grind_pattern State.resumeCaptures_keeps => State.resumeCaptures s, State.Keeps r₀ s
theorem execSnapRestore_keeps {r₀ : State} (n) (i) (s : State) (hk : State.Keeps r₀ s) (t₁ : State) (ht : execSnapRestore n i s = .next t₁) : State.Keeps r₀ t₁ := by (unfold execSnapRestore at ht; cases ht); (try dsimp only); with_reducible (repeat' first | assumption | (intro _ _ _) | apply State.askHeaders_keeps | apply State.endDesc_keeps | apply State.mapDesc_keeps | apply State.notePart_keeps | apply State.openConn_keeps | apply State.readPlan_keeps | apply State.snapGo_keeps | apply State.foldl_keeps | apply State.foldl_keeps₂ | split); all_goals grind
theorem State.snapData_keeps {r₀ : State} (s : State) (n) (i) (pos) (bs) (hk : State.Keeps r₀ s) : State.Keeps r₀ (State.snapData s n i pos bs) := by unfold State.snapData; grind
grind_pattern State.snapData_keeps => State.snapData s n i pos bs, State.Keeps r₀ s
theorem State.snapAck_keeps {r₀ : State} (s : State) (n) (i) (hk : State.Keeps r₀ s) : State.Keeps r₀ (State.snapAck s n i) := by unfold State.snapAck; grind
grind_pattern State.snapAck_keeps => State.snapAck s n i, State.Keeps r₀ s
theorem State.snapFail_keeps {r₀ : State} (s : State) (n) (i) (st) (hk : State.Keeps r₀ s) : State.Keeps r₀ (State.snapFail s n i st) := by unfold State.snapFail; grind
grind_pattern State.snapFail_keeps => State.snapFail s n i st, State.Keeps r₀ s
theorem State.cascadeOpen_keeps {r₀ : State} (s : State) (x) (src) (dst) (hk : State.Keeps r₀ s) : State.Keeps r₀ (State.cascadeOpen s x src dst).2 := by unfold State.cascadeOpen; grind
grind_pattern State.cascadeOpen_keeps => State.cascadeOpen s x src dst, State.Keeps r₀ s
theorem execLayer2Cascade_keeps {r₀ : State} (x) (s : State) (hk : State.Keeps r₀ s) (t₁ : State) (ht : execLayer2Cascade x s = .next t₁) : State.Keeps r₀ t₁ := by unfold execLayer2Cascade at ht; grind
theorem State.cascadeData_keeps {r₀ : State} (s : State) (x) (off) (bs) (hk : State.Keeps r₀ s) : State.Keeps r₀ (State.cascadeData s x off bs) := by unfold State.cascadeData; grind
grind_pattern State.cascadeData_keeps => State.cascadeData s x off bs, State.Keeps r₀ s
theorem State.cascadeFail_keeps {r₀ : State} (s : State) (x) (st) (hk : State.Keeps r₀ s) : State.Keeps r₀ (State.cascadeFail s x st) := by unfold State.cascadeFail; grind
grind_pattern State.cascadeFail_keeps => State.cascadeFail s x st, State.Keeps r₀ s
theorem execLayer3Cascade_keeps {r₀ : State} (x) (s : State) (hk : State.Keeps r₀ s) (t₁ : State) (ht : execLayer3Cascade x s = .next t₁) : State.Keeps r₀ t₁ := by unfold execLayer3Cascade at ht; grind
theorem State.cascadeEnd_keeps {r₀ : State} (s : State) (x) (k) (hk : State.Keeps r₀ s) : State.Keeps r₀ (State.cascadeEnd s x k) := by unfold State.cascadeEnd; grind
grind_pattern State.cascadeEnd_keeps => State.cascadeEnd s x k, State.Keeps r₀ s
theorem State.cascadeCopy_keeps {r₀ : State} (s : State) (x) (k) (hk : State.Keeps r₀ s) : State.Keeps r₀ (State.cascadeCopy s x k) := by unfold State.cascadeCopy; grind
grind_pattern State.cascadeCopy_keeps => State.cascadeCopy s x k, State.Keeps r₀ s
theorem execCascadeDone_keeps {r₀ : State} (x) (layer) (ok) (s : State) (hk : State.Keeps r₀ s) (t₁ : State) (ht : execCascadeDone x layer ok s = .next t₁) : State.Keeps r₀ t₁ := by unfold execCascadeDone at ht; grind
theorem execSalvageEnter_keeps {r₀ : State} (s : State) (hk : State.Keeps r₀ s) (t₁ : State) (ht : execSalvageEnter s = .next t₁) : State.Keeps r₀ t₁ := by unfold execSalvageEnter at ht; grind
theorem execSalvage_keeps {r₀ : State} (p) (s : State) (hk : State.Keeps r₀ s) (t₁ : State) (ht : execSalvage p s = .next t₁) : State.Keeps r₀ t₁ := by unfold execSalvage at ht; grind

end Sys2Proof.Machine
end

