-- ==== Sys2Proof/Laws/KeepReplies.lean ====
section
/-! SUPPORT. What the operations of Machine/Replies.lean keep. -/
namespace Sys2Proof.Machine

set_option Elab.async false

theorem State.farData_keeps {r₀ : State} (s : State) (k) (rd) (addr) (size) (sext) (install) (bs) (hk : State.Keeps r₀ s) : State.Keeps r₀ (State.farData s k rd addr size sext install bs) := by unfold State.farData; grind
grind_pattern State.farData_keeps => State.farData s k rd addr size sext install bs, State.Keeps r₀ s
theorem State.broadRead_keeps {r₀ : State} (s : State) (k) (id) (pos) (st) (bs) (hk : State.Keeps r₀ s) : State.Keeps r₀ (State.broadRead s k id pos st bs) := by unfold State.broadRead; grind
grind_pattern State.broadRead_keeps => State.broadRead s k id pos st bs, State.Keeps r₀ s
theorem State.evtWordHere_keeps {r₀ : State} (s : State) (e) (w) (hk : State.Keeps r₀ s) : State.Keeps r₀ (State.evtWordHere s e w) := by unfold State.evtWordHere; grind
grind_pattern State.evtWordHere_keeps => State.evtWordHere s e w, State.Keeps r₀ s
theorem State.topoData_keeps {r₀ : State} (s : State) (pos) (st) (bs) (hk : State.Keeps r₀ s) : State.Keeps r₀ (State.topoData s pos st bs) := by unfold State.topoData; grind
grind_pattern State.topoData_keeps => State.topoData s pos st bs, State.Keeps r₀ s
theorem State.descAnswer_keeps {r₀ : State} (s : State) (r) (d) (pos) (st) (bs) (hk : State.Keeps r₀ s) : State.Keeps r₀ (State.descAnswer s r d pos st bs) := by unfold State.descAnswer; grind
grind_pattern State.descAnswer_keeps => State.descAnswer s r d pos st bs, State.Keeps r₀ s
theorem State.republishAnswer_keeps {r₀ : State} (s : State) (n) (i) (pos) (st) (hk : State.Keeps r₀ s) : State.Keeps r₀ (State.republishAnswer s n i pos st) := by unfold State.republishAnswer; grind
grind_pattern State.republishAnswer_keeps => State.republishAnswer s n i pos st, State.Keeps r₀ s
theorem State.answer_keeps {r₀ : State} (s : State) (r) (st) (bs) (t4) (hk : State.Keeps r₀ s) : State.Keeps r₀ (State.answer s r st bs t4) := by unfold State.answer; grind
grind_pattern State.answer_keeps => State.answer s r st bs t4, State.Keeps r₀ s
theorem State.injectNext_keeps {r₀ : State} (s : State) (cls) (d) (hk : State.Keeps r₀ s) : State.Keeps r₀ (State.injectNext s cls d) := by unfold State.injectNext; grind
grind_pattern State.injectNext_keeps => State.injectNext s cls d, State.Keeps r₀ s
theorem execPacketInject_keeps {r₀ : State} (cls) (d) (s : State) (hk : State.Keeps r₀ s) (t₁ : State) (ht : execPacketInject cls d s = .next t₁) : State.Keeps r₀ t₁ := by unfold execPacketInject at ht; grind
theorem State.dropOutst_keeps {r₀ : State} (s : State) (rs) (hk : State.Keeps r₀ s) : State.Keeps r₀ (State.dropOutst s rs) := by unfold State.dropOutst; grind
grind_pattern State.dropOutst_keeps => State.dropOutst s rs, State.Keeps r₀ s
theorem State.failForGood_keeps {r₀ : State} (s : State) (r) (st) (hk : State.Keeps r₀ s) : State.Keeps r₀ (State.failForGood s r st) := by unfold State.failForGood; grind
grind_pattern State.failForGood_keeps => State.failForGood s r st, State.Keeps r₀ s
theorem State.retryReq_keeps {r₀ : State} (s : State) (r) (last) (hk : State.Keeps r₀ s) : State.Keeps r₀ (State.retryReq s r last) := by unfold State.retryReq; grind
grind_pattern State.retryReq_keeps => State.retryReq s r last, State.Keeps r₀ s
theorem execReqTimeout_keeps {r₀ : State} (cls) (d) (s : State) (hk : State.Keeps r₀ s) (t₁ : State) (ht : execReqTimeout cls d s = .next t₁) : State.Keeps r₀ t₁ := by unfold execReqTimeout at ht; grind
theorem State.throttle_keeps {r₀ : State} (s : State) (d) (q) (hk : State.Keeps r₀ s) : State.Keeps r₀ (State.throttle s d q) := by unfold State.throttle; grind
grind_pattern State.throttle_keeps => State.throttle s d q, State.Keeps r₀ s
theorem State.pairAnswered_keeps {r₀ : State} (s : State) (r) (st) (hk : State.Keeps r₀ s) : State.Keeps r₀ (State.pairAnswered s r st) := by unfold State.pairAnswered; grind
grind_pattern State.pairAnswered_keeps => State.pairAnswered s r st, State.Keeps r₀ s
theorem State.takeReply_keeps {r₀ : State} (s : State) (p) (op) (t4) (hk : State.Keeps r₀ s) : State.Keeps r₀ (State.takeReply s p op t4) := by unfold State.takeReply; grind
grind_pattern State.takeReply_keeps => State.takeReply s p op t4, State.Keeps r₀ s
theorem execRdata_keeps {r₀ : State} (p) (t4) (s : State) (hk : State.Keeps r₀ s) (t₁ : State) (ht : execRdata p t4 s = .next t₁) : State.Keeps r₀ t₁ := by unfold execRdata at ht; grind
theorem execRspAck_keeps {r₀ : State} (p) (s : State) (hk : State.Keeps r₀ s) (t₁ : State) (ht : execRspAck p s = .next t₁) : State.Keeps r₀ t₁ := by unfold execRspAck at ht; grind

end Sys2Proof.Machine
end

