-- ==== Sys2Proof/Laws/KeepDump.lean ====
section
/-! SUPPORT. What the operations of Machine/Dump.lean keep. -/
namespace Sys2Proof.Machine

set_option Elab.async false

theorem execShadowRead_keeps {r₀ : State} (deaf) (s : State) (hk : State.Keeps r₀ s) (t₁ : State) (ht : execShadowRead deaf s = .next t₁) : State.Keeps r₀ t₁ := by unfold execShadowRead at ht; grind
theorem State.dumpStore_keeps {r₀ : State} (s : State) (o) (bs) (hk : State.Keeps r₀ s) : State.Keeps r₀ (State.dumpStore s o bs).2 := by (unfold State.dumpStore); (try dsimp only); with_reducible (repeat' first | assumption | (intro _ _ _) | apply State.drop_keeps | apply State.writeFor_keeps | apply State.foldl_keeps | apply State.foldl_keeps₂ | split); all_goals grind
grind_pattern State.dumpStore_keeps => State.dumpStore s o bs, State.Keeps r₀ s
theorem execDump_keeps {r₀ : State} (deaf) (s : State) (hk : State.Keeps r₀ s) (t₁ : State) (ht : execDump deaf s = .next t₁) : State.Keeps r₀ t₁ := by (unfold execDump at ht; cases ht); (try dsimp only); with_reducible (repeat' first | assumption | (intro _ _ _) | apply State.dumpStore_keeps | apply State.hamperWrite_keeps | apply State.setFld_keeps | apply State.wrapInc_keeps | apply State.foldl_keeps | apply State.foldl_keeps₂ | split); all_goals grind
theorem execDumpDone_keeps {r₀ : State} (s : State) (hk : State.Keeps r₀ s) (t₁ : State) (ht : execDumpDone s = .next t₁) : State.Keeps r₀ t₁ := by unfold execDumpDone at ht; grind
theorem State.requestDeviceReset_keeps {r₀ : State} (s : State) (hk : State.Keeps r₀ s) : State.Keeps r₀ (State.requestDeviceReset s) := by unfold State.requestDeviceReset; grind
grind_pattern State.requestDeviceReset_keeps => State.requestDeviceReset s, State.Keeps r₀ s
theorem execResetDevice_keeps {r₀ : State} (src) (s : State) (hk : State.Keeps r₀ s) (t₁ : State) (ht : execResetDevice src s = .next t₁) : State.Keeps r₀ t₁ := by unfold execResetDevice at ht; grind
theorem execResetNAssert_keeps {r₀ : State} (s : State) (hk : State.Keeps r₀ s) (t₁ : State) (ht : execResetNAssert s = .next t₁) : State.Keeps r₀ t₁ := by unfold execResetNAssert at ht; grind
theorem State.resetOptic_keeps {r₀ : State} (s : State) (e) (hk : State.Keeps r₀ s) : State.Keeps r₀ (State.resetOptic s e) := by unfold State.resetOptic; grind
grind_pattern State.resetOptic_keeps => State.resetOptic s e, State.Keeps r₀ s
theorem execResetOptic_keeps {r₀ : State} (src) (e) (s : State) (hk : State.Keeps r₀ s) (t₁ : State) (ht : execResetOptic src e s = .next t₁) : State.Keeps r₀ t₁ := by unfold execResetOptic at ht; grind

end Sys2Proof.Machine
end

