-- ==== Sys2Proof/Laws/KeepPower.lean ====
section
/-! SUPPORT. What the operations of Machine/Power.lean keep. -/
namespace Sys2Proof.Machine

set_option Elab.async false

theorem execDividerMove_keeps {r₀ : State} (j) (s : State) (hk : State.Keeps r₀ s) (t₁ : State) (ht : execDividerMove j s = .next t₁) : State.Keeps r₀ t₁ := by unfold execDividerMove at ht; grind
theorem execPllStep_keeps {r₀ : State} (j) (s : State) (hk : State.Keeps r₀ s) (t₁ : State) (ht : execPllStep j s = .next t₁) : State.Keeps r₀ t₁ := by unfold execPllStep at ht; grind
theorem State.estimate_keeps {r₀ : State} (s : State) (j) (mw) (hk : State.Keeps r₀ s) : State.Keeps r₀ (State.estimate s j mw) := by unfold State.estimate; grind
grind_pattern State.estimate_keeps => State.estimate s j mw, State.Keeps r₀ s
theorem State.thresholds_keeps {r₀ : State} (s : State) (j) (hk : State.Keeps r₀ s) : State.Keeps r₀ (State.thresholds s j) := by unfold State.thresholds; grind
grind_pattern State.thresholds_keeps => State.thresholds s j, State.Keeps r₀ s
theorem State.limitRise_keeps {r₀ : State} (s : State) (c) (hk : State.Keeps r₀ s) : State.Keeps r₀ (State.limitRise s c) := by unfold State.limitRise; grind
grind_pattern State.limitRise_keeps => State.limitRise s c, State.Keeps r₀ s
theorem execThermosUpdate_keeps {r₀ : State} (p) (s : State) (hk : State.Keeps r₀ s) (t₁ : State) (ht : execThermosUpdate p s = .next t₁) : State.Keeps r₀ t₁ := by (unfold execThermosUpdate at ht; cases ht); (try dsimp only); with_reducible (repeat' first | assumption | (intro _ _ _) | apply State.estimate_keeps | apply State.failSafe_keeps | apply State.limitRise_keeps | apply State.settleAll_keeps | apply State.thresholds_keeps | apply State.foldl_keeps | apply State.foldl_keeps₂ | split); all_goals grind
theorem execDiodeSample_keeps {r₀ : State} (t) (s : State) (hk : State.Keeps r₀ s) (t₁ : State) (ht : execDiodeSample t s = .next t₁) : State.Keeps r₀ t₁ := by unfold execDiodeSample at ht; grind
theorem execThermistorRead_keeps {r₀ : State} (r) (s : State) (hk : State.Keeps r₀ s) (t₁ : State) (ht : execThermistorRead r s = .next t₁) : State.Keeps r₀ t₁ := by unfold execThermistorRead at ht; grind
theorem execThrottleDecay_keeps {r₀ : State} (j) (s : State) (hk : State.Keeps r₀ s) (t₁ : State) (ht : execThrottleDecay j s = .next t₁) : State.Keeps r₀ t₁ := by unfold execThrottleDecay at ht; grind
theorem execWarningCeilingTick_keeps {r₀ : State} (s : State) (hk : State.Keeps r₀ s) (t₁ : State) (ht : execWarningCeilingTick s = .next t₁) : State.Keeps r₀ t₁ := by unfold execWarningCeilingTick at ht; grind
theorem execPowerSample_keeps {r₀ : State} (watts) (mv) (s : State) (hk : State.Keeps r₀ s) (t₁ : State) (ht : execPowerSample watts mv s = .next t₁) : State.Keeps r₀ t₁ := by unfold execPowerSample at ht; grind
theorem execPowerPolicy_keeps {r₀ : State} (s : State) (hk : State.Keeps r₀ s) (t₁ : State) (ht : execPowerPolicy s = .next t₁) : State.Keeps r₀ t₁ := by unfold execPowerPolicy at ht; grind
theorem State.shedLines_keeps {r₀ : State} (s : State) (hk : State.Keeps r₀ s) : State.Keeps r₀ (State.shedLines s) := by unfold State.shedLines; grind
grind_pattern State.shedLines_keeps => State.shedLines s, State.Keeps r₀ s
theorem State.returnLines_keeps {r₀ : State} (s : State) (hk : State.Keeps r₀ s) : State.Keeps r₀ (State.returnLines s) := by unfold State.returnLines; grind
grind_pattern State.returnLines_keeps => State.returnLines s, State.Keeps r₀ s
theorem State.sendBrownout_keeps {r₀ : State} (s : State) (stage) (hk : State.Keeps r₀ s) : State.Keeps r₀ (State.sendBrownout s stage) := by unfold State.sendBrownout; grind
grind_pattern State.sendBrownout_keeps => State.sendBrownout s stage, State.Keeps r₀ s
theorem State.setStage_keeps {r₀ : State} (s : State) (hk : State.Keeps r₀ s) : State.Keeps r₀ (State.setStage s) := by (unfold State.setStage); (try dsimp only); with_reducible (repeat' first | assumption | (intro _ _ _) | apply State.settleAll_keeps | apply State.resumeCaptures_keeps | apply State.sendBrownout_keeps | apply State.shedLines_keeps | apply State.returnLines_keeps | apply State.clearActive_keeps | apply State.post_keeps | apply State.bump_keeps | apply State.setFld_keeps | split); all_goals grind
grind_pattern State.setStage_keeps => State.setStage s, State.Keeps r₀ s
theorem execSupplyStageEnter_keeps {r₀ : State} (stage) (mv) (rail) (s : State) (hk : State.Keeps r₀ s) (t₁ : State) (ht : execSupplyStageEnter stage mv rail s = .next t₁) : State.Keeps r₀ t₁ := by unfold execSupplyStageEnter at ht; grind
theorem execSupplyStageLeave_keeps {r₀ : State} (mv) (s : State) (hk : State.Keeps r₀ s) (t₁ : State) (ht : execSupplyStageLeave mv s = .next t₁) : State.Keeps r₀ t₁ := by unfold execSupplyStageLeave at ht; grind
theorem execSelfRefreshExit_keeps {r₀ : State} (s : State) (hk : State.Keeps r₀ s) (t₁ : State) (ht : execSelfRefreshExit s = .next t₁) : State.Keeps r₀ t₁ := by unfold execSelfRefreshExit at ht; grind
theorem execBrownout_keeps {r₀ : State} (p) (s : State) (hk : State.Keeps r₀ s) (t₁ : State) (ht : execBrownout p s = .next t₁) : State.Keeps r₀ t₁ := by unfold execBrownout at ht; grind
theorem execDroopDip_keeps {r₀ : State} (k) (s : State) (hk : State.Keeps r₀ s) (t₁ : State) (ht : execDroopDip k s = .next t₁) : State.Keeps r₀ t₁ := by unfold execDroopDip at ht; grind
theorem execDroopRestore_keeps {r₀ : State} (k) (s : State) (hk : State.Keeps r₀ s) (t₁ : State) (ht : execDroopRestore k s = .next t₁) : State.Keeps r₀ t₁ := by unfold execDroopRestore at ht; grind

end Sys2Proof.Machine
end

