-- ==== Sys2Proof/Laws/KeepTrust.lean ====
section
/-! SUPPORT. What the operations of Machine/Trust.lean keep. -/
namespace Sys2Proof.Machine

set_option Elab.async false

theorem State.setImg_keeps {r₀ : State} (s : State) (b) (st) (hk : State.Keeps r₀ s) : State.Keeps r₀ (State.setImg s b st) := by unfold State.setImg; grind
grind_pattern State.setImg_keeps => State.setImg s b st, State.Keeps r₀ s
theorem State.setUpdPhase_keeps {r₀ : State} (s : State) (p) (hk : State.Keeps r₀ s) : State.Keeps r₀ (State.setUpdPhase s p) := by unfold State.setUpdPhase; grind
grind_pattern State.setUpdPhase_keeps => State.setUpdPhase s p, State.Keeps r₀ s
theorem State.recordUpdate_keeps {r₀ : State} (s : State) (kind) (target) (version) (st) (data) (hk : State.Keeps r₀ s) : State.Keeps r₀ (State.recordUpdate s kind target version st data) := by unfold State.recordUpdate; grind
grind_pattern State.recordUpdate_keeps => State.recordUpdate s kind target version st data, State.Keeps r₀ s
theorem State.endUpdate_keeps {r₀ : State} (s : State) (st) (mgmt) (hk : State.Keeps r₀ s) : State.Keeps r₀ (State.endUpdate s st mgmt) := by unfold State.endUpdate; grind
grind_pattern State.endUpdate_keeps => State.endUpdate s st mgmt, State.Keeps r₀ s
theorem State.refuseUpdate_keeps {r₀ : State} (s : State) (kind) (target) (version) (st) (mgmt) (hk : State.Keeps r₀ s) : State.Keeps r₀ (State.refuseUpdate s kind target version st mgmt) := by unfold State.refuseUpdate; grind
grind_pattern State.refuseUpdate_keeps => State.refuseUpdate s kind target version st mgmt, State.Keeps r₀ s
theorem State.beginUpdate_keeps {r₀ : State} (s : State) (kind) (b) (mgmt) (hk : State.Keeps r₀ s) : State.Keeps r₀ (State.beginUpdate s kind b mgmt) := by unfold State.beginUpdate; grind
grind_pattern State.beginUpdate_keeps => State.beginUpdate s kind b mgmt, State.Keeps r₀ s
theorem State.updateGo_keeps {r₀ : State} (s : State) (hk : State.Keeps r₀ s) : State.Keeps r₀ (State.updateGo s) := by unfold State.updateGo; grind
grind_pattern State.updateGo_keeps => State.updateGo s, State.Keeps r₀ s
theorem State.switchGo_keeps {r₀ : State} (s : State) (hk : State.Keeps r₀ s) : State.Keeps r₀ (State.switchGo s) := by unfold State.switchGo; grind
grind_pattern State.switchGo_keeps => State.switchGo s, State.Keeps r₀ s
theorem State.writeUpdCtrl_keeps {r₀ : State} (s : State) (v) (mask) (hk : State.Keeps r₀ s) : State.Keeps r₀ (State.writeUpdCtrl s v mask) := by unfold State.writeUpdCtrl; grind
grind_pattern State.writeUpdCtrl_keeps => State.writeUpdCtrl s v mask, State.Keeps r₀ s
theorem execUpdateFirmware_keeps {r₀ : State} (src) (len) (s : State) (hk : State.Keeps r₀ s) (t₁ : State) (ht : execUpdateFirmware src len s = .next t₁) : State.Keeps r₀ t₁ := by unfold execUpdateFirmware at ht; grind
theorem execUpdateConfig_keeps {r₀ : State} (src) (len) (s : State) (hk : State.Keeps r₀ s) (t₁ : State) (ht : execUpdateConfig src len s = .next t₁) : State.Keeps r₀ t₁ := by unfold execUpdateConfig at ht; grind
theorem execUpdateCalibration_keeps {r₀ : State} (src) (len) (s : State) (hk : State.Keeps r₀ s) (t₁ : State) (ht : execUpdateCalibration src len s = .next t₁) : State.Keeps r₀ t₁ := by unfold execUpdateCalibration at ht; grind
theorem execSwitch_keeps {r₀ : State} (src) (s : State) (hk : State.Keeps r₀ s) (t₁ : State) (ht : execSwitch src s = .next t₁) : State.Keeps r₀ t₁ := by unfold execSwitch at ht; grind
theorem execUpdateDone_keeps {r₀ : State} (ok) (s : State) (hk : State.Keeps r₀ s) (t₁ : State) (ht : execUpdateDone ok s = .next t₁) : State.Keeps r₀ t₁ := by unfold execUpdateDone at ht; grind
theorem State.keepPref_keeps {r₀ : State} (s : State) (b) (hk : State.Keeps r₀ s) : State.Keeps r₀ (State.keepPref s b) := by unfold State.keepPref; grind
grind_pattern State.keepPref_keeps => State.keepPref s b, State.Keeps r₀ s
theorem execSwitchDone_keeps {r₀ : State} (s : State) (hk : State.Keeps r₀ s) (t₁ : State) (ht : execSwitchDone s = .next t₁) : State.Keeps r₀ t₁ := by unfold execSwitchDone at ht; grind
theorem execSwitchTimeout_keeps {r₀ : State} (s : State) (hk : State.Keeps r₀ s) (t₁ : State) (ht : execSwitchTimeout s = .next t₁) : State.Keeps r₀ t₁ := by unfold execSwitchTimeout at ht; grind
theorem State.writeBootCfg_keeps {r₀ : State} (s : State) (v) (mask) (hk : State.Keeps r₀ s) : State.Keeps r₀ (State.writeBootCfg s v mask) := by unfold State.writeBootCfg; grind
grind_pattern State.writeBootCfg_keeps => State.writeBootCfg s v mask, State.Keeps r₀ s
theorem State.notePresence_keeps {r₀ : State} (s : State) (src) (code) (a) (st) (hk : State.Keeps r₀ s) : State.Keeps r₀ (State.notePresence s src code a st) := by unfold State.notePresence; grind
grind_pattern State.notePresence_keeps => State.notePresence s src code a st, State.Keeps r₀ s
theorem Fuses.Kept.trans {a b c : Fuses} (h : a.Kept b) (k : b.Kept c) : a.Kept c :=
  ⟨fun e he => k.1 e (h.1 e he), fun e he => k.2 e (h.2 e he), Nat.le_trans h.3 k.3, by
    have h1 := h.4; have h2 := k.4
    rw [← h1, BitVec.and_assoc, h2]⟩
theorem State.setFuses_keeps {r₀ : State} (s : State) (f) (hk : State.Keeps r₀ s) (hf : s.fuses.Kept f) : State.Keeps r₀ (State.setFuses s f) :=
  ⟨hk.1, hk.2.trans hf, hk.3, hk.4⟩
theorem State.presenceEffect_keeps {r₀ : State} (s : State) (code) (a) (hk : State.Keeps r₀ s) : State.Keeps r₀ (State.presenceEffect s code a).2 := by
  unfold State.presenceEffect
  extract_lets slot
  split
  · split
    · exact hk
    · exact State.setFuses_keeps _ _ hk ⟨fun e he => List.mem_append_left _ he, fun n hn => hn, Nat.le_refl _, BitVec.and_self⟩
  · split
    · exact hk
    · refine State.setFuses_keeps _ _ hk ⟨fun e he => he, fun n hn => ?_, Nat.le_refl _, BitVec.and_self⟩
      dsimp only
      split
      · exact hn
      · exact List.mem_append_left _ hn
  · exact State.keeps_with s (h := hk) ..
  · exact hk
  · refine State.setFuses_keeps _ _ hk ⟨fun e he => he, fun n hn => hn, Nat.le_refl _, ?_⟩
    ext i
    simp only [BitVec.getElem_and, BitVec.getElem_or]
    cases s.fuses.owner[i] <;> simp
  · split
    · exact hk
    · exact State.appendTrail_keeps _ _ _ (State.setFld_keeps _ _ _ _ hk)
grind_pattern State.presenceEffect_keeps => State.presenceEffect s code a, State.Keeps r₀ s
theorem State.factoryReset_keeps {r₀ : State} (s : State) (hk : State.Keeps r₀ s) : State.Keeps r₀ (State.factoryReset s) := by unfold State.factoryReset; grind
grind_pattern State.factoryReset_keeps => State.factoryReset s, State.Keeps r₀ s
theorem State.runPresence_keeps {r₀ : State} (s : State) (src) (code) (a) (hk : State.Keeps r₀ s) : State.Keeps r₀ (State.runPresence s src code a) := by unfold State.runPresence; grind
grind_pattern State.runPresence_keeps => State.runPresence s src code a, State.Keeps r₀ s
theorem State.closeWindow_keeps {r₀ : State} (s : State) (hk : State.Keeps r₀ s) : State.Keeps r₀ (State.closeWindow s) := by (unfold State.closeWindow); (try dsimp only); with_reducible (repeat' first | assumption | (intro _ _ _) | apply State.notePresence_keeps | apply State.setFld_keeps | apply State.foldl_keeps | apply State.foldl_keeps₂ | split); all_goals grind
grind_pattern State.closeWindow_keeps => State.closeWindow s, State.Keeps r₀ s
theorem State.askPresence_keeps {r₀ : State} (s : State) (src) (code) (a) (hk : State.Keeps r₀ s) : State.Keeps r₀ (State.askPresence s src code a) := by unfold State.askPresence; grind
grind_pattern State.askPresence_keeps => State.askPresence s src code a, State.Keeps r₀ s
theorem State.presenceRow_keeps {r₀ : State} (s : State) (src) (permit) (code) (a) (hk : State.Keeps r₀ s) : State.Keeps r₀ (State.presenceRow s src permit code a) := by unfold State.presenceRow; grind
grind_pattern State.presenceRow_keeps => State.presenceRow s src permit code a, State.Keeps r₀ s
theorem execKeyInstall_keeps {r₀ : State} (src) (permit) (arg) (s : State) (hk : State.Keeps r₀ s) (t₁ : State) (ht : execKeyInstall src permit arg s = .next t₁) : State.Keeps r₀ t₁ := by unfold execKeyInstall at ht; grind
theorem execKeyRevoke_keeps {r₀ : State} (src) (permit) (arg) (s : State) (hk : State.Keeps r₀ s) (t₁ : State) (ht : execKeyRevoke src permit arg s = .next t₁) : State.Keeps r₀ t₁ := by unfold execKeyRevoke at ht; grind
theorem execDebugUnlock_keeps {r₀ : State} (src) (permit) (arg) (s : State) (hk : State.Keeps r₀ s) (t₁ : State) (ht : execDebugUnlock src permit arg s = .next t₁) : State.Keeps r₀ t₁ := by unfold execDebugUnlock at ht; grind
theorem execDowngrade_keeps {r₀ : State} (src) (permit) (arg) (s : State) (hk : State.Keeps r₀ s) (t₁ : State) (ht : execDowngrade src permit arg s = .next t₁) : State.Keeps r₀ t₁ := by unfold execDowngrade at ht; grind
theorem execFuseProgram_keeps {r₀ : State} (src) (permit) (arg) (s : State) (hk : State.Keeps r₀ s) (t₁ : State) (ht : execFuseProgram src permit arg s = .next t₁) : State.Keeps r₀ t₁ := by unfold execFuseProgram at ht; grind
theorem execFactoryReset_keeps {r₀ : State} (src) (permit) (arg) (s : State) (hk : State.Keeps r₀ s) (t₁ : State) (ht : execFactoryReset src permit arg s = .next t₁) : State.Keeps r₀ t₁ := by unfold execFactoryReset at ht; grind
theorem execSealClear_keeps {r₀ : State} (src) (permit) (arg) (s : State) (hk : State.Keeps r₀ s) (t₁ : State) (ht : execSealClear src permit arg s = .next t₁) : State.Keeps r₀ t₁ := by unfold execSealClear at ht; grind
theorem State.writePresReq_keeps {r₀ : State} (s : State) (src) (v) (mask) (hk : State.Keeps r₀ s) : State.Keeps r₀ (State.writePresReq s src v mask) := by unfold State.writePresReq; grind
grind_pattern State.writePresReq_keeps => State.writePresReq s src v mask, State.Keeps r₀ s
theorem execPresencePress_keeps {r₀ : State} (s : State) (hk : State.Keeps r₀ s) (t₁ : State) (ht : execPresencePress s = .next t₁) : State.Keeps r₀ t₁ := by unfold execPresencePress at ht; grind
theorem execPresenceWindowExpire_keeps {r₀ : State} (s : State) (hk : State.Keeps r₀ s) (t₁ : State) (ht : execPresenceWindowExpire s = .next t₁) : State.Keeps r₀ t₁ := by unfold execPresenceWindowExpire at ht; grind
theorem execSealSample_keeps {r₀ : State} (isOpen) (s : State) (hk : State.Keeps r₀ s) (t₁ : State) (ht : execSealSample isOpen s = .next t₁) : State.Keeps r₀ t₁ := by unfold execSealSample at ht; grind
theorem execUpdCheck_keeps {r₀ : State} (img) (s : State) (hk : State.Keeps r₀ s) (t₁ : State) (ht : execUpdCheck img s = .next t₁) : State.Keeps r₀ t₁ := by unfold execUpdCheck at ht; grind
theorem execUpdCheckExpire_keeps {r₀ : State} (s : State) (hk : State.Keeps r₀ s) (t₁ : State) (ht : execUpdCheckExpire s = .next t₁) : State.Keeps r₀ t₁ := by unfold execUpdCheckExpire at ht; grind
theorem State.updWrite_keeps {r₀ : State} (s : State) (kind) (data) (hk : State.Keeps r₀ s) : State.Keeps r₀ (State.updWrite s kind data) := by unfold State.updWrite; grind
grind_pattern State.updWrite_keeps => State.updWrite s kind data, State.Keeps r₀ s
theorem execUpdWrite_keeps {r₀ : State} (kind) (data) (s : State) (hk : State.Keeps r₀ s) (t₁ : State) (ht : execUpdWrite kind data s = .next t₁) : State.Keeps r₀ t₁ := by unfold execUpdWrite at ht; grind
theorem execMgmtPresence_keeps {r₀ : State} (code) (permit) (arg) (s : State) (hk : State.Keeps r₀ s) (t₁ : State) (ht : execMgmtPresence code permit arg s = .next t₁) : State.Keeps r₀ t₁ := by unfold execMgmtPresence at ht; grind
theorem execMgmtTrail_keeps {r₀ : State} (pos) (s : State) (hk : State.Keeps r₀ s) (t₁ : State) (ht : execMgmtTrail pos s = .next t₁) : State.Keeps r₀ t₁ := by unfold execMgmtTrail at ht; grind

end Sys2Proof.Machine
end

