-- ==== Sys2Proof/Laws/KeepSetupAll.lean ====
section
/-! SUPPORT. What the operations of Machine/SetupAll.lean keep. -/
namespace Sys2Proof.Machine

set_option Elab.async false

theorem State.writeResetCtrl_keeps {r₀ : State} (s : State) (v) (mask) (hk : State.Keeps r₀ s) : State.Keeps r₀ (State.writeResetCtrl s v mask) := by unfold State.writeResetCtrl; grind
grind_pattern State.writeResetCtrl_keeps => State.writeResetCtrl s v mask, State.Keeps r₀ s
theorem State.writeEngCtrl_keeps {r₀ : State} (s : State) (e) (v) (mask) (hk : State.Keeps r₀ s) : State.Keeps r₀ (State.writeEngCtrl s e v mask) := by unfold State.writeEngCtrl; grind
grind_pattern State.writeEngCtrl_keeps => State.writeEngCtrl s e v mask, State.Keeps r₀ s
theorem State.writeLsmCtrl_keeps {r₀ : State} (s : State) (m) (v) (mask) (hk : State.Keeps r₀ s) : State.Keeps r₀ (State.writeLsmCtrl s m v mask) := by unfold State.writeLsmCtrl; grind
grind_pattern State.writeLsmCtrl_keeps => State.writeLsmCtrl s m v mask, State.Keeps r₀ s
theorem State.writeTblCtrl_keeps {r₀ : State} (s : State) (v) (mask) (hk : State.Keeps r₀ s) : State.Keeps r₀ (State.writeTblCtrl s v mask) := by unfold State.writeTblCtrl; grind
grind_pattern State.writeTblCtrl_keeps => State.writeTblCtrl s v mask, State.Keeps r₀ s
theorem State.writeReg_keeps {r₀ : State} (s : State) (src) (r) (is) (off) (v) (mask) (hk : State.Keeps r₀ s) : State.Keeps r₀ (State.writeReg s src r is off v mask) := by unfold State.writeReg; grind
grind_pattern State.writeReg_keeps => State.writeReg s src r is off v mask, State.Keeps r₀ s
theorem State.setupWrite_keeps {r₀ : State} (s : State) (src) (size) (off) (v) (hk : State.Keeps r₀ s) : State.Keeps r₀ (State.setupWrite s src size off v) := by unfold State.setupWrite; grind
grind_pattern State.setupWrite_keeps => State.setupWrite s src size off v, State.Keeps r₀ s
theorem State.windowWrite_keeps {r₀ : State} (s : State) (src) (size) (off) (v) (hk : State.Keeps r₀ s) : State.Keeps r₀ (State.windowWrite s src size off v) := by unfold State.windowWrite; grind
grind_pattern State.windowWrite_keeps => State.windowWrite s src size off v, State.Keeps r₀ s
theorem execSetupWrite_keeps {r₀ : State} (src) (size) (off) (v) (s : State) (hk : State.Keeps r₀ s) (t₁ : State) (ht : execSetupWrite src size off v s = .next t₁) : State.Keeps r₀ t₁ := by unfold execSetupWrite at ht; grind
theorem execSetupLock_keeps {r₀ : State} (src) (s : State) (hk : State.Keeps r₀ s) (t₁ : State) (ht : execSetupLock src s = .next t₁) : State.Keeps r₀ t₁ := by unfold execSetupLock at ht; grind
theorem execWrite_keeps {r₀ : State} (n) (i) (s : State) (hk : State.Keeps r₀ s) (t₁ : State) (ht : execWrite n i s = .next t₁) : State.Keeps r₀ t₁ := by unfold execWrite at ht; grind
theorem execMread_keeps {r₀ : State} (p) (s : State) (hk : State.Keeps r₀ s) (t₁ : State) (ht : execMread p s = .next t₁) : State.Keeps r₀ t₁ := by unfold execMread at ht; grind
theorem execMwrite_keeps {r₀ : State} (p) (s : State) (hk : State.Keeps r₀ s) (t₁ : State) (ht : execMwrite p s = .next t₁) : State.Keeps r₀ t₁ := by unfold execMwrite at ht; grind
theorem execMgmtRead_keeps {r₀ : State} (off) (s : State) (hk : State.Keeps r₀ s) (t₁ : State) (ht : execMgmtRead off s = .next t₁) : State.Keeps r₀ t₁ := by unfold execMgmtRead at ht; grind
theorem execMgmtWrite_keeps {r₀ : State} (off) (v) (s : State) (hk : State.Keeps r₀ s) (t₁ : State) (ht : execMgmtWrite off v s = .next t₁) : State.Keeps r₀ t₁ := by unfold execMgmtWrite at ht; grind

end Sys2Proof.Machine
end

