-- ==== Sys2Proof/Laws/KeepBoot.lean ====
section
/-! SUPPORT. What the operations of Machine/Boot.lean keep. -/
namespace Sys2Proof.Machine

set_option Elab.async false

theorem State.stepRec_keeps {r₀ : State} (s : State) (step) (result) (action) (st) (detail) (hk : State.Keeps r₀ s) : State.Keeps r₀ (State.stepRec s step result action st detail) := by unfold State.stepRec; grind
grind_pattern State.stepRec_keeps => State.stepRec s step result action st detail, State.Keeps r₀ s
theorem State.unitSkip_keeps {r₀ : State} (s : State) (kind) (index) (st) (hk : State.Keeps r₀ s) : State.Keeps r₀ (State.unitSkip s kind index st) := by unfold State.unitSkip; grind
grind_pattern State.unitSkip_keeps => State.unitSkip s kind index st, State.Keeps r₀ s
theorem State.mapBoot_keeps {r₀ : State} (s : State) (f) (hk : State.Keeps r₀ s) : State.Keeps r₀ (State.mapBoot s f) := by unfold State.mapBoot; grind
grind_pattern State.mapBoot_keeps => State.mapBoot s f, State.Keeps r₀ s
theorem State.showStep_keeps {r₀ : State} (s : State) (hk : State.Keeps r₀ s) : State.Keeps r₀ (State.showStep s) := by unfold State.showStep; grind
grind_pattern State.showStep_keeps => State.showStep s, State.Keeps r₀ s
theorem State.setAlt_keeps {r₀ : State} (s : State) (step) (hk : State.Keeps r₀ s) : State.Keeps r₀ (State.setAlt s step) := by unfold State.setAlt; grind
grind_pattern State.setAlt_keeps => State.setAlt s step, State.Keeps r₀ s
theorem State.engineOut_keeps {r₀ : State} (s : State) (e) (hk : State.Keeps r₀ s) : State.Keeps r₀ (State.engineOut s e) := by unfold State.engineOut; grind
grind_pattern State.engineOut_keeps => State.engineOut s e, State.Keeps r₀ s
theorem State.beginStep_keeps {r₀ : State} (s : State) (step) (hk : State.Keeps r₀ s) : State.Keeps r₀ (State.beginStep s step) := by unfold State.beginStep; grind
grind_pattern State.beginStep_keeps => State.beginStep s step, State.Keeps r₀ s
theorem State.closeStep_keeps {r₀ : State} (s : State) (step) (result) (st) (detail) (hk : State.Keeps r₀ s) : State.Keeps r₀ (State.closeStep s step result st detail) := by unfold State.closeStep; grind
grind_pattern State.closeStep_keeps => State.closeStep s step result st detail, State.Keeps r₀ s
theorem State.closeUnits_keeps {r₀ : State} (s : State) (step) (failed) (alt) (ok) (hk : State.Keeps r₀ s) : State.Keeps r₀ (State.closeUnits s step failed alt ok) := by unfold State.closeUnits; grind
grind_pattern State.closeUnits_keeps => State.closeUnits s step failed alt ok, State.Keeps r₀ s
theorem State.keepManifest_keeps {r₀ : State} (s : State) (d) (b) (hk : State.Keeps r₀ s) : State.Keeps r₀ (State.keepManifest s d b) := by unfold State.keepManifest; grind
grind_pattern State.keepManifest_keeps => State.keepManifest s d b, State.Keeps r₀ s
theorem State.dieUp_keeps {r₀ : State} (s : State) (d) (partner) (b) (noc) (caps) (hk : State.Keeps r₀ s) : State.Keeps r₀ (State.dieUp s d partner b noc caps) := by unfold State.dieUp; grind
grind_pattern State.dieUp_keeps => State.dieUp s d partner b noc caps, State.Keeps r₀ s
theorem State.showDies_keeps {r₀ : State} (s : State) (hk : State.Keeps r₀ s) : State.Keeps r₀ (State.showDies s) := by unfold State.showDies; grind
grind_pattern State.showDies_keeps => State.showDies s, State.Keeps r₀ s
theorem execAdjacencyUp_keeps {r₀ : State} (a) (trained) (manA) (manB) (s : State) (hk : State.Keeps r₀ s) (t₁ : State) (ht : execAdjacencyUp a trained manA manB s = .next t₁) : State.Keeps r₀ t₁ := by unfold execAdjacencyUp at ht; grind
theorem State.fenceCluster_keeps {r₀ : State} (s : State) (c) (hk : State.Keeps r₀ s) : State.Keeps r₀ (State.fenceCluster s c) := by unfold State.fenceCluster; grind
grind_pattern State.fenceCluster_keeps => State.fenceCluster s c, State.Keeps r₀ s
theorem State.fenceIsland_keeps {r₀ : State} (s : State) (j) (hk : State.Keeps r₀ s) : State.Keeps r₀ (State.fenceIsland s j) := by unfold State.fenceIsland; grind
grind_pattern State.fenceIsland_keeps => State.fenceIsland s j, State.Keeps r₀ s
theorem State.bootScan_keeps {r₀ : State} (s : State) (ok) (hk : State.Keeps r₀ s) : State.Keeps r₀ (State.bootScan s ok) := by (unfold State.bootScan); (try dsimp only); with_reducible (repeat' first | assumption | (intro _ _ _) | apply State.appendTrail_keeps | apply State.closeStep_keeps | apply State.mapBoot_keeps | apply State.setFld_keeps | apply State.foldl_keeps | apply State.foldl_keeps₂ | split); all_goals grind
grind_pattern State.bootScan_keeps => State.bootScan s ok, State.Keeps r₀ s
theorem State.checkSlot_keeps {r₀ : State} (s : State) (b) (hk : State.Keeps r₀ s) : State.Keeps r₀ (State.checkSlot s b).2 := by unfold State.checkSlot; grind
grind_pattern State.checkSlot_keeps => State.checkSlot s b, State.Keeps r₀ s
theorem State.toRom_keeps {r₀ : State} (s : State) (hk : State.Keeps r₀ s) : State.Keeps r₀ (State.toRom s) := by unfold State.toRom; grind
grind_pattern State.toRom_keeps => State.toRom s, State.Keeps r₀ s
theorem State.bootImage_keeps {r₀ : State} (s : State) (ok) (a) (hk : State.Keeps r₀ s) : State.Keeps r₀ (State.bootImage s ok a) := by
  induction a generalizing s ok with
  | nil => exact State.toRom_keeps _ hk
  | cons b rest ih =>
    unfold State.bootImage
    have h1 := State.checkSlot_keeps s b hk
    generalize s.checkSlot b = q at h1 ⊢
    obtain ⟨st, s1⟩ := q
    have h2 : State.Keeps r₀ s1 := h1
    clear h1
    dsimp only
    split
    · exact State.closeStep_keeps _ _ _ _ _ (State.mapBoot_keeps _ _ (State.setFld_keeps _ _ _ _ h2))
    · have h3 : ∀ r d, State.Keeps r₀ ((s1.closeStep 3 4 r d).mapBoot fun x => { x with slots := rest }) :=
        fun r d => State.mapBoot_keeps _ _ (State.closeStep_keeps _ _ _ _ _ h2)
      split
      · exact State.toRom_keeps _ (h3 _ _)
      · exact ih _ _ (State.beginStep_keeps _ _ (h3 _ _))
grind_pattern State.bootImage_keeps => State.bootImage s ok a, State.Keeps r₀ s
theorem State.bootImageFailed_keeps {r₀ : State} (s : State) (hk : State.Keeps r₀ s) : State.Keeps r₀ (State.bootImageFailed s) := by unfold State.bootImageFailed; grind
grind_pattern State.bootImageFailed_keeps => State.bootImageFailed s, State.Keeps r₀ s
theorem State.bootIslands_keeps {r₀ : State} (s : State) (ok) (failed) (hk : State.Keeps r₀ s) : State.Keeps r₀ (State.bootIslands s ok failed) := by unfold State.bootIslands; grind
grind_pattern State.bootIslands_keeps => State.bootIslands s ok failed, State.Keeps r₀ s
theorem State.applyEntry_keeps {r₀ : State} (s : State) (b) (i) (hk : State.Keeps r₀ s) : State.Keeps r₀ (State.applyEntry s b i) := by unfold State.applyEntry; grind
grind_pattern State.applyEntry_keeps => State.applyEntry s b i, State.Keeps r₀ s
theorem State.bootConfig_keeps {r₀ : State} (s : State) (ok) (failed) (hk : State.Keeps r₀ s) : State.Keeps r₀ (State.bootConfig s ok failed) := by unfold State.bootConfig; grind
grind_pattern State.bootConfig_keeps => State.bootConfig s ok failed, State.Keeps r₀ s
theorem State.bootColumns_keeps {r₀ : State} (s : State) (ok) (failed) (cols) (hk : State.Keeps r₀ s) : State.Keeps r₀ (State.bootColumns s ok failed cols) := by unfold State.bootColumns; grind
grind_pattern State.bootColumns_keeps => State.bootColumns s ok failed cols, State.Keeps r₀ s
theorem State.zeroFill_keeps {r₀ : State} (s : State) (lo) (hi) (hk : State.Keeps r₀ s) : State.Keeps r₀ (State.zeroFill s lo hi) := State.keeps_mem s _ (h := hk) (hm := Maps.wf_clear 0 _ _ _ hk.mem) ..
grind_pattern State.zeroFill_keeps => State.zeroFill s lo hi, State.Keeps r₀ s
theorem State.bootSram_keeps {r₀ : State} (s : State) (ok) (failed) (hk : State.Keeps r₀ s) : State.Keeps r₀ (State.bootSram s ok failed) := by unfold State.bootSram; grind
grind_pattern State.bootSram_keeps => State.bootSram s ok failed, State.Keeps r₀ s
theorem State.bootLpddr_keeps {r₀ : State} (s : State) (ok) (failed) (hk : State.Keeps r₀ s) : State.Keeps r₀ (State.bootLpddr s ok failed) := by
  unfold State.bootLpddr
  extract_lets anew rec_ old lost new m0 spares used s1 s2 free s3 s4 s5 s6
  have h1 : State.Keeps r₀ s1 := State.foldl_keeps _ _ _ (fun s x hs => State.setFld_keeps _ _ _ _ hs) hk
  have h2 : State.Keeps r₀ s2 := State.foldl_keeps _ _ _ (fun s x hs => State.setMemChState_keeps _ _ _ hs) h1
  have h3 : State.Keeps r₀ s3 := State.setFld_keeps _ _ _ _ (State.setFld_keeps _ _ _ _ h2)
  have h4 : State.Keeps r₀ s4 := State.setFld_keeps _ _ _ _ (State.zeroFill_keeps _ _ _ h3)
  have h5 : State.Keeps r₀ s5 := by
    unfold s5; split
    · exact State.recordSparing_keeps _ h4
    · exact h4
  have h6 : State.Keeps r₀ s6 := by
    unfold s6; split
    · exact State.setFld_keeps _ _ _ _ h5
    · exact State.deviceFault_keeps _ _ _ h5
  exact State.closeStep_keeps _ _ _ _ _ h6
grind_pattern State.bootLpddr_keeps => State.bootLpddr s ok failed, State.Keeps r₀ s
theorem State.bootHamper_keeps {r₀ : State} (s : State) (ok) (failed) (hk : State.Keeps r₀ s) : State.Keeps r₀ (State.bootHamper s ok failed) := by unfold State.bootHamper; grind
grind_pattern State.bootHamper_keeps => State.bootHamper s ok failed, State.Keeps r₀ s
theorem State.bootEngines_keeps {r₀ : State} (s : State) (ok) (failed) (hk : State.Keeps r₀ s) : State.Keeps r₀ (State.bootEngines s ok failed) := by unfold State.bootEngines; grind
grind_pattern State.bootEngines_keeps => State.bootEngines s ok failed, State.Keeps r₀ s
theorem State.bootTables_keeps {r₀ : State} (s : State) (ok) (failed) (hk : State.Keeps r₀ s) : State.Keeps r₀ (State.bootTables s ok failed) := by unfold State.bootTables; grind
grind_pattern State.bootTables_keeps => State.bootTables s ok failed, State.Keeps r₀ s
theorem State.bootPorts_keeps {r₀ : State} (s : State) (ok) (failed) (hk : State.Keeps r₀ s) : State.Keeps r₀ (State.bootPorts s ok failed) := by unfold State.bootPorts; grind
grind_pattern State.bootPorts_keeps => State.bootPorts s ok failed, State.Keeps r₀ s
theorem State.bootTopology_keeps {r₀ : State} (s : State) (ok) (hk : State.Keeps r₀ s) : State.Keeps r₀ (State.bootTopology s ok) := by unfold State.bootTopology; grind
grind_pattern State.bootTopology_keeps => State.bootTopology s ok, State.Keeps r₀ s
theorem State.bootEnd_keeps {r₀ : State} (s : State) (hk : State.Keeps r₀ s) : State.Keeps r₀ (State.bootEnd s) := by
  unfold State.bootEnd
  extract_lets s1 alts s2 third s3 b src s4 s5
  have h1 : State.Keeps r₀ s1 := State.setFld_keeps _ _ _ _ hk
  have h2 : State.Keeps r₀ s2 := State.foldl_keeps _ _ _ (fun s i hs => State.post_keeps _ _ _ hs) h1
  have h3 : State.Keeps r₀ s3 := State.setFld_keeps _ _ _ _ (State.closeStep_keeps _ _ _ _ _ h2)
  have h4 : State.Keeps r₀ s4 := by
    unfold s4
    split
    · exact State.setFuses_keeps _ _ h3 ⟨fun e he => he, fun n hn => hn, Nat.le_max_left _ _, BitVec.and_self⟩
    · exact h3
  exact State.setFld_keeps _ _ _ _ (State.foldl_keeps _ _ _ (fun s x hs => State.setFld_keeps _ _ _ _ hs) h4)
grind_pattern State.bootEnd_keeps => State.bootEnd s, State.Keeps r₀ s
theorem State.afterStep_keeps {r₀ : State} (s : State) (step) (hk : State.Keeps r₀ s) : State.Keeps r₀ (State.afterStep s step) := by unfold State.afterStep; grind
grind_pattern State.afterStep_keeps => State.afterStep s step, State.Keeps r₀ s
theorem State.bootSelfTest_keeps {r₀ : State} (s : State) (ok) (failed) (hk : State.Keeps r₀ s) : State.Keeps r₀ (State.bootSelfTest s ok failed) := by unfold State.bootSelfTest; grind
grind_pattern State.bootSelfTest_keeps => State.bootSelfTest s ok failed, State.Keeps r₀ s
theorem execBootStepDone_keeps {r₀ : State} (r) (s : State) (hk : State.Keeps r₀ s) (t₁ : State) (ht : execBootStepDone r s = .next t₁) : State.Keeps r₀ t₁ := by grind [execBootStepDone]
theorem execStandbyRelease_keeps {r₀ : State} (s : State) (hk : State.Keeps r₀ s) (t₁ : State) (ht : execStandbyRelease s = .next t₁) : State.Keeps r₀ t₁ := by unfold execStandbyRelease at ht; grind
theorem execBulkRelease_keeps {r₀ : State} (s : State) (hk : State.Keeps r₀ s) (t₁ : State) (ht : execBulkRelease s = .next t₁) : State.Keeps r₀ t₁ := by unfold execBulkRelease at ht; grind
theorem execStandbySourceChange_keeps {r₀ : State} (vbulk) (vstby) (s : State) (hk : State.Keeps r₀ s) (t₁ : State) (ht : execStandbySourceChange vbulk vstby s = .next t₁) : State.Keeps r₀ t₁ := by unfold execStandbySourceChange at ht; grind

end Sys2Proof.Machine
end

