-- ==== Sys2Proof/Laws/KeepScalarFp.lean ====
section
/-! SUPPORT. What the operations of Machine/ScalarFp.lean keep. -/
namespace Sys2Proof.Machine

set_option Elab.async false

theorem State.fpR_keeps {r₀ : State} (s : State) (k) (w) (op) (f) (hk : State.Keeps r₀ s) : State.Keeps r₀ (State.fpR s k w op f) := by unfold State.fpR; grind
grind_pattern State.fpR_keeps => State.fpR s k w op f, State.Keeps r₀ s
theorem State.fpU_keeps {r₀ : State} (s : State) (k) (w) (op) (f) (hk : State.Keeps r₀ s) : State.Keeps r₀ (State.fpU s k w op f) := by unfold State.fpU; grind
grind_pattern State.fpU_keeps => State.fpU s k w op f, State.Keeps r₀ s
theorem State.cvt_keeps {r₀ : State} (s : State) (k) (w) (op) (f) (hk : State.Keeps r₀ s) : State.Keeps r₀ (State.cvt s k w op f) := by unfold State.cvt; grind
grind_pattern State.cvt_keeps => State.cvt s k w op f, State.Keeps r₀ s
theorem State.fcmp_keeps {r₀ : State} (s : State) (k) (w) (op) (f) (hk : State.Keeps r₀ s) : State.Keeps r₀ (State.fcmp s k w op f) := by unfold State.fcmp; grind
grind_pattern State.fcmp_keeps => State.fcmp s k w op f, State.Keeps r₀ s
theorem execFcmpeq_keeps {r₀ : State} (k) (w) (s : State) (hk : State.Keeps r₀ s) (t₁ : State) (ht : execFcmpeq k w s = .next t₁) : State.Keeps r₀ t₁ := by unfold execFcmpeq at ht; grind
theorem execFcmplt_keeps {r₀ : State} (k) (w) (s : State) (hk : State.Keeps r₀ s) (t₁ : State) (ht : execFcmplt k w s = .next t₁) : State.Keeps r₀ t₁ := by unfold execFcmplt at ht; grind
theorem execFcmple_keeps {r₀ : State} (k) (w) (s : State) (hk : State.Keeps r₀ s) (t₁ : State) (ht : execFcmple k w s = .next t₁) : State.Keeps r₀ t₁ := by unfold execFcmple at ht; grind
theorem execFcmpun_keeps {r₀ : State} (k) (w) (s : State) (hk : State.Keeps r₀ s) (t₁ : State) (ht : execFcmpun k w s = .next t₁) : State.Keeps r₀ t₁ := by unfold execFcmpun at ht; grind
theorem execFadd_keeps {r₀ : State} (k) (w) (s : State) (hk : State.Keeps r₀ s) (t₁ : State) (ht : execFadd k w s = .next t₁) : State.Keeps r₀ t₁ := by unfold execFadd at ht; grind
theorem execFsub_keeps {r₀ : State} (k) (w) (s : State) (hk : State.Keeps r₀ s) (t₁ : State) (ht : execFsub k w s = .next t₁) : State.Keeps r₀ t₁ := by unfold execFsub at ht; grind
theorem execFmul_keeps {r₀ : State} (k) (w) (s : State) (hk : State.Keeps r₀ s) (t₁ : State) (ht : execFmul k w s = .next t₁) : State.Keeps r₀ t₁ := by unfold execFmul at ht; grind
theorem execFdiv_keeps {r₀ : State} (k) (w) (s : State) (hk : State.Keeps r₀ s) (t₁ : State) (ht : execFdiv k w s = .next t₁) : State.Keeps r₀ t₁ := by unfold execFdiv at ht; grind
theorem execFmin_keeps {r₀ : State} (k) (w) (s : State) (hk : State.Keeps r₀ s) (t₁ : State) (ht : execFmin k w s = .next t₁) : State.Keeps r₀ t₁ := by unfold execFmin at ht; grind
theorem execFmax_keeps {r₀ : State} (k) (w) (s : State) (hk : State.Keeps r₀ s) (t₁ : State) (ht : execFmax k w s = .next t₁) : State.Keeps r₀ t₁ := by unfold execFmax at ht; grind
theorem execFsqrt_keeps {r₀ : State} (k) (w) (s : State) (hk : State.Keeps r₀ s) (t₁ : State) (ht : execFsqrt k w s = .next t₁) : State.Keeps r₀ t₁ := by unfold execFsqrt at ht; grind
theorem execFabs_keeps {r₀ : State} (k) (w) (s : State) (hk : State.Keeps r₀ s) (t₁ : State) (ht : execFabs k w s = .next t₁) : State.Keeps r₀ t₁ := by unfold execFabs at ht; grind
theorem execFneg_keeps {r₀ : State} (k) (w) (s : State) (hk : State.Keeps r₀ s) (t₁ : State) (ht : execFneg k w s = .next t₁) : State.Keeps r₀ t₁ := by unfold execFneg at ht; grind
theorem execFfma_keeps {r₀ : State} (k) (w) (s : State) (hk : State.Keeps r₀ s) (t₁ : State) (ht : execFfma k w s = .next t₁) : State.Keeps r₀ t₁ := by unfold execFfma at ht; grind
theorem execCvtF2i_keeps {r₀ : State} (k) (w) (s : State) (hk : State.Keeps r₀ s) (t₁ : State) (ht : execCvtF2i k w s = .next t₁) : State.Keeps r₀ t₁ := by unfold execCvtF2i at ht; grind
theorem execCvtF2in_keeps {r₀ : State} (k) (w) (s : State) (hk : State.Keeps r₀ s) (t₁ : State) (ht : execCvtF2in k w s = .next t₁) : State.Keeps r₀ t₁ := by unfold execCvtF2in at ht; grind
theorem execCvtI2f_keeps {r₀ : State} (k) (w) (s : State) (hk : State.Keeps r₀ s) (t₁ : State) (ht : execCvtI2f k w s = .next t₁) : State.Keeps r₀ t₁ := by unfold execCvtI2f at ht; grind
theorem execCvtF2bf_keeps {r₀ : State} (k) (w) (s : State) (hk : State.Keeps r₀ s) (t₁ : State) (ht : execCvtF2bf k w s = .next t₁) : State.Keeps r₀ t₁ := by unfold execCvtF2bf at ht; grind
theorem execCvtF2h_keeps {r₀ : State} (k) (w) (s : State) (hk : State.Keeps r₀ s) (t₁ : State) (ht : execCvtF2h k w s = .next t₁) : State.Keeps r₀ t₁ := by unfold execCvtF2h at ht; grind
theorem execCvtBf2f_keeps {r₀ : State} (k) (w) (s : State) (hk : State.Keeps r₀ s) (t₁ : State) (ht : execCvtBf2f k w s = .next t₁) : State.Keeps r₀ t₁ := by unfold execCvtBf2f at ht; grind
theorem execCvtH2f_keeps {r₀ : State} (k) (w) (s : State) (hk : State.Keeps r₀ s) (t₁ : State) (ht : execCvtH2f k w s = .next t₁) : State.Keeps r₀ t₁ := by unfold execCvtH2f at ht; grind

end Sys2Proof.Machine
end

