-- ==== Sys2Proof/Laws/KeepScalarInt.lean ====
section
/-! SUPPORT. What the operations of Machine/ScalarInt.lean keep. -/
namespace Sys2Proof.Machine

set_option Elab.async false

theorem State.aluR_keeps {r₀ : State} (s : State) (k) (w) (op) (f) (hk : State.Keeps r₀ s) : State.Keeps r₀ (State.aluR s k w op f) := by unfold State.aluR; grind
grind_pattern State.aluR_keeps => State.aluR s k w op f, State.Keeps r₀ s
theorem State.aluI_keeps {r₀ : State} (s : State) (k) (w) (op) (f) (hk : State.Keeps r₀ s) : State.Keeps r₀ (State.aluI s k w op f) := by unfold State.aluI; grind
grind_pattern State.aluI_keeps => State.aluI s k w op f, State.Keeps r₀ s
theorem State.cmpI_keeps {r₀ : State} (s : State) (k) (w) (op) (f) (hk : State.Keeps r₀ s) : State.Keeps r₀ (State.cmpI s k w op f) := by unfold State.cmpI; grind
grind_pattern State.cmpI_keeps => State.cmpI s k w op f, State.Keeps r₀ s
theorem State.cmpR_keeps {r₀ : State} (s : State) (k) (w) (op) (f) (hk : State.Keeps r₀ s) : State.Keeps r₀ (State.cmpR s k w op f) := by unfold State.cmpR; grind
grind_pattern State.cmpR_keeps => State.cmpR s k w op f, State.Keeps r₀ s
theorem State.predOp_keeps {r₀ : State} (s : State) (k) (w) (op) (f) (hk : State.Keeps r₀ s) : State.Keeps r₀ (State.predOp s k w op f) := by unfold State.predOp; grind
grind_pattern State.predOp_keeps => State.predOp s k w op f, State.Keeps r₀ s
theorem State.jump_keeps {r₀ : State} (s : State) (k) (w) (target) (hk : State.Keeps r₀ s) : State.Keeps r₀ (State.jump s k w target) := by unfold State.jump; grind
grind_pattern State.jump_keeps => State.jump s k w target, State.Keeps r₀ s
theorem execAdd_keeps {r₀ : State} (k) (w) (s : State) (hk : State.Keeps r₀ s) (t₁ : State) (ht : execAdd k w s = .next t₁) : State.Keeps r₀ t₁ := by unfold execAdd at ht; grind
theorem execSub_keeps {r₀ : State} (k) (w) (s : State) (hk : State.Keeps r₀ s) (t₁ : State) (ht : execSub k w s = .next t₁) : State.Keeps r₀ t₁ := by unfold execSub at ht; grind
theorem execAnd_keeps {r₀ : State} (k) (w) (s : State) (hk : State.Keeps r₀ s) (t₁ : State) (ht : execAnd k w s = .next t₁) : State.Keeps r₀ t₁ := by unfold execAnd at ht; grind
theorem execOr_keeps {r₀ : State} (k) (w) (s : State) (hk : State.Keeps r₀ s) (t₁ : State) (ht : execOr k w s = .next t₁) : State.Keeps r₀ t₁ := by unfold execOr at ht; grind
theorem execXor_keeps {r₀ : State} (k) (w) (s : State) (hk : State.Keeps r₀ s) (t₁ : State) (ht : execXor k w s = .next t₁) : State.Keeps r₀ t₁ := by unfold execXor at ht; grind
theorem execSll_keeps {r₀ : State} (k) (w) (s : State) (hk : State.Keeps r₀ s) (t₁ : State) (ht : execSll k w s = .next t₁) : State.Keeps r₀ t₁ := by unfold execSll at ht; grind
theorem execSrl_keeps {r₀ : State} (k) (w) (s : State) (hk : State.Keeps r₀ s) (t₁ : State) (ht : execSrl k w s = .next t₁) : State.Keeps r₀ t₁ := by unfold execSrl at ht; grind
theorem execSra_keeps {r₀ : State} (k) (w) (s : State) (hk : State.Keeps r₀ s) (t₁ : State) (ht : execSra k w s = .next t₁) : State.Keeps r₀ t₁ := by unfold execSra at ht; grind
theorem execMul_keeps {r₀ : State} (k) (w) (s : State) (hk : State.Keeps r₀ s) (t₁ : State) (ht : execMul k w s = .next t₁) : State.Keeps r₀ t₁ := by unfold execMul at ht; grind
theorem execMulhs_keeps {r₀ : State} (k) (w) (s : State) (hk : State.Keeps r₀ s) (t₁ : State) (ht : execMulhs k w s = .next t₁) : State.Keeps r₀ t₁ := by unfold execMulhs at ht; grind
theorem execMulhu_keeps {r₀ : State} (k) (w) (s : State) (hk : State.Keeps r₀ s) (t₁ : State) (ht : execMulhu k w s = .next t₁) : State.Keeps r₀ t₁ := by unfold execMulhu at ht; grind
theorem execDivs_keeps {r₀ : State} (k) (w) (s : State) (hk : State.Keeps r₀ s) (t₁ : State) (ht : execDivs k w s = .next t₁) : State.Keeps r₀ t₁ := by unfold execDivs at ht; grind
theorem execDivu_keeps {r₀ : State} (k) (w) (s : State) (hk : State.Keeps r₀ s) (t₁ : State) (ht : execDivu k w s = .next t₁) : State.Keeps r₀ t₁ := by unfold execDivu at ht; grind
theorem execRems_keeps {r₀ : State} (k) (w) (s : State) (hk : State.Keeps r₀ s) (t₁ : State) (ht : execRems k w s = .next t₁) : State.Keeps r₀ t₁ := by unfold execRems at ht; grind
theorem execRemu_keeps {r₀ : State} (k) (w) (s : State) (hk : State.Keeps r₀ s) (t₁ : State) (ht : execRemu k w s = .next t₁) : State.Keeps r₀ t₁ := by unfold execRemu at ht; grind
theorem execMin_keeps {r₀ : State} (k) (w) (s : State) (hk : State.Keeps r₀ s) (t₁ : State) (ht : execMin k w s = .next t₁) : State.Keeps r₀ t₁ := by unfold execMin at ht; grind
theorem execMax_keeps {r₀ : State} (k) (w) (s : State) (hk : State.Keeps r₀ s) (t₁ : State) (ht : execMax k w s = .next t₁) : State.Keeps r₀ t₁ := by unfold execMax at ht; grind
theorem execMinu_keeps {r₀ : State} (k) (w) (s : State) (hk : State.Keeps r₀ s) (t₁ : State) (ht : execMinu k w s = .next t₁) : State.Keeps r₀ t₁ := by unfold execMinu at ht; grind
theorem execMaxu_keeps {r₀ : State} (k) (w) (s : State) (hk : State.Keeps r₀ s) (t₁ : State) (ht : execMaxu k w s = .next t₁) : State.Keeps r₀ t₁ := by unfold execMaxu at ht; grind
theorem execAddi_keeps {r₀ : State} (k) (w) (s : State) (hk : State.Keeps r₀ s) (t₁ : State) (ht : execAddi k w s = .next t₁) : State.Keeps r₀ t₁ := by unfold execAddi at ht; grind
theorem execSubi_keeps {r₀ : State} (k) (w) (s : State) (hk : State.Keeps r₀ s) (t₁ : State) (ht : execSubi k w s = .next t₁) : State.Keeps r₀ t₁ := by unfold execSubi at ht; grind
theorem execAndi_keeps {r₀ : State} (k) (w) (s : State) (hk : State.Keeps r₀ s) (t₁ : State) (ht : execAndi k w s = .next t₁) : State.Keeps r₀ t₁ := by unfold execAndi at ht; grind
theorem execOri_keeps {r₀ : State} (k) (w) (s : State) (hk : State.Keeps r₀ s) (t₁ : State) (ht : execOri k w s = .next t₁) : State.Keeps r₀ t₁ := by unfold execOri at ht; grind
theorem execXori_keeps {r₀ : State} (k) (w) (s : State) (hk : State.Keeps r₀ s) (t₁ : State) (ht : execXori k w s = .next t₁) : State.Keeps r₀ t₁ := by unfold execXori at ht; grind
theorem execSlli_keeps {r₀ : State} (k) (w) (s : State) (hk : State.Keeps r₀ s) (t₁ : State) (ht : execSlli k w s = .next t₁) : State.Keeps r₀ t₁ := by unfold execSlli at ht; grind
theorem execSrli_keeps {r₀ : State} (k) (w) (s : State) (hk : State.Keeps r₀ s) (t₁ : State) (ht : execSrli k w s = .next t₁) : State.Keeps r₀ t₁ := by unfold execSrli at ht; grind
theorem execSrai_keeps {r₀ : State} (k) (w) (s : State) (hk : State.Keeps r₀ s) (t₁ : State) (ht : execSrai k w s = .next t₁) : State.Keeps r₀ t₁ := by unfold execSrai at ht; grind
theorem execMuli_keeps {r₀ : State} (k) (w) (s : State) (hk : State.Keeps r₀ s) (t₁ : State) (ht : execMuli k w s = .next t₁) : State.Keeps r₀ t₁ := by unfold execMuli at ht; grind
theorem execMulhsi_keeps {r₀ : State} (k) (w) (s : State) (hk : State.Keeps r₀ s) (t₁ : State) (ht : execMulhsi k w s = .next t₁) : State.Keeps r₀ t₁ := by unfold execMulhsi at ht; grind
theorem execMulhui_keeps {r₀ : State} (k) (w) (s : State) (hk : State.Keeps r₀ s) (t₁ : State) (ht : execMulhui k w s = .next t₁) : State.Keeps r₀ t₁ := by unfold execMulhui at ht; grind
theorem execDivsi_keeps {r₀ : State} (k) (w) (s : State) (hk : State.Keeps r₀ s) (t₁ : State) (ht : execDivsi k w s = .next t₁) : State.Keeps r₀ t₁ := by unfold execDivsi at ht; grind
theorem execDivui_keeps {r₀ : State} (k) (w) (s : State) (hk : State.Keeps r₀ s) (t₁ : State) (ht : execDivui k w s = .next t₁) : State.Keeps r₀ t₁ := by unfold execDivui at ht; grind
theorem execRemsi_keeps {r₀ : State} (k) (w) (s : State) (hk : State.Keeps r₀ s) (t₁ : State) (ht : execRemsi k w s = .next t₁) : State.Keeps r₀ t₁ := by unfold execRemsi at ht; grind
theorem execRemui_keeps {r₀ : State} (k) (w) (s : State) (hk : State.Keeps r₀ s) (t₁ : State) (ht : execRemui k w s = .next t₁) : State.Keeps r₀ t₁ := by unfold execRemui at ht; grind
theorem execMini_keeps {r₀ : State} (k) (w) (s : State) (hk : State.Keeps r₀ s) (t₁ : State) (ht : execMini k w s = .next t₁) : State.Keeps r₀ t₁ := by unfold execMini at ht; grind
theorem execMaxi_keeps {r₀ : State} (k) (w) (s : State) (hk : State.Keeps r₀ s) (t₁ : State) (ht : execMaxi k w s = .next t₁) : State.Keeps r₀ t₁ := by unfold execMaxi at ht; grind
theorem execMinui_keeps {r₀ : State} (k) (w) (s : State) (hk : State.Keeps r₀ s) (t₁ : State) (ht : execMinui k w s = .next t₁) : State.Keeps r₀ t₁ := by unfold execMinui at ht; grind
theorem execMaxui_keeps {r₀ : State} (k) (w) (s : State) (hk : State.Keeps r₀ s) (t₁ : State) (ht : execMaxui k w s = .next t₁) : State.Keeps r₀ t₁ := by unfold execMaxui at ht; grind
theorem execInsh_keeps {r₀ : State} (k) (w) (s : State) (hk : State.Keeps r₀ s) (t₁ : State) (ht : execInsh k w s = .next t₁) : State.Keeps r₀ t₁ := by unfold execInsh at ht; grind
theorem execCmpeqi_keeps {r₀ : State} (k) (w) (s : State) (hk : State.Keeps r₀ s) (t₁ : State) (ht : execCmpeqi k w s = .next t₁) : State.Keeps r₀ t₁ := by unfold execCmpeqi at ht; grind
theorem execCmpnei_keeps {r₀ : State} (k) (w) (s : State) (hk : State.Keeps r₀ s) (t₁ : State) (ht : execCmpnei k w s = .next t₁) : State.Keeps r₀ t₁ := by unfold execCmpnei at ht; grind
theorem execCmplti_keeps {r₀ : State} (k) (w) (s : State) (hk : State.Keeps r₀ s) (t₁ : State) (ht : execCmplti k w s = .next t₁) : State.Keeps r₀ t₁ := by unfold execCmplti at ht; grind
theorem execCmpltui_keeps {r₀ : State} (k) (w) (s : State) (hk : State.Keeps r₀ s) (t₁ : State) (ht : execCmpltui k w s = .next t₁) : State.Keeps r₀ t₁ := by unfold execCmpltui at ht; grind
theorem execCmpgei_keeps {r₀ : State} (k) (w) (s : State) (hk : State.Keeps r₀ s) (t₁ : State) (ht : execCmpgei k w s = .next t₁) : State.Keeps r₀ t₁ := by unfold execCmpgei at ht; grind
theorem execCmpgeui_keeps {r₀ : State} (k) (w) (s : State) (hk : State.Keeps r₀ s) (t₁ : State) (ht : execCmpgeui k w s = .next t₁) : State.Keeps r₀ t₁ := by unfold execCmpgeui at ht; grind
theorem execCmpeq_keeps {r₀ : State} (k) (w) (s : State) (hk : State.Keeps r₀ s) (t₁ : State) (ht : execCmpeq k w s = .next t₁) : State.Keeps r₀ t₁ := by unfold execCmpeq at ht; grind
theorem execCmpne_keeps {r₀ : State} (k) (w) (s : State) (hk : State.Keeps r₀ s) (t₁ : State) (ht : execCmpne k w s = .next t₁) : State.Keeps r₀ t₁ := by unfold execCmpne at ht; grind
theorem execCmplt_keeps {r₀ : State} (k) (w) (s : State) (hk : State.Keeps r₀ s) (t₁ : State) (ht : execCmplt k w s = .next t₁) : State.Keeps r₀ t₁ := by unfold execCmplt at ht; grind
theorem execCmpltu_keeps {r₀ : State} (k) (w) (s : State) (hk : State.Keeps r₀ s) (t₁ : State) (ht : execCmpltu k w s = .next t₁) : State.Keeps r₀ t₁ := by unfold execCmpltu at ht; grind
theorem execCmpge_keeps {r₀ : State} (k) (w) (s : State) (hk : State.Keeps r₀ s) (t₁ : State) (ht : execCmpge k w s = .next t₁) : State.Keeps r₀ t₁ := by unfold execCmpge at ht; grind
theorem execCmpgeu_keeps {r₀ : State} (k) (w) (s : State) (hk : State.Keeps r₀ s) (t₁ : State) (ht : execCmpgeu k w s = .next t₁) : State.Keeps r₀ t₁ := by unfold execCmpgeu at ht; grind
theorem execPand_keeps {r₀ : State} (k) (w) (s : State) (hk : State.Keeps r₀ s) (t₁ : State) (ht : execPand k w s = .next t₁) : State.Keeps r₀ t₁ := by unfold execPand at ht; grind
theorem execPor_keeps {r₀ : State} (k) (w) (s : State) (hk : State.Keeps r₀ s) (t₁ : State) (ht : execPor k w s = .next t₁) : State.Keeps r₀ t₁ := by unfold execPor at ht; grind
theorem execPxor_keeps {r₀ : State} (k) (w) (s : State) (hk : State.Keeps r₀ s) (t₁ : State) (ht : execPxor k w s = .next t₁) : State.Keeps r₀ t₁ := by unfold execPxor at ht; grind
theorem execPandn_keeps {r₀ : State} (k) (w) (s : State) (hk : State.Keeps r₀ s) (t₁ : State) (ht : execPandn k w s = .next t₁) : State.Keeps r₀ t₁ := by unfold execPandn at ht; grind
theorem execPmovg_keeps {r₀ : State} (k) (w) (s : State) (hk : State.Keeps r₀ s) (t₁ : State) (ht : execPmovg k w s = .next t₁) : State.Keeps r₀ t₁ := by unfold execPmovg at ht; grind
theorem execBra_keeps {r₀ : State} (k) (w) (s : State) (hk : State.Keeps r₀ s) (t₁ : State) (ht : execBra k w s = .next t₁) : State.Keeps r₀ t₁ := by unfold execBra at ht; grind
theorem execJmpr_keeps {r₀ : State} (k) (w) (s : State) (hk : State.Keeps r₀ s) (t₁ : State) (ht : execJmpr k w s = .next t₁) : State.Keeps r₀ t₁ := by unfold execJmpr at ht; grind

end Sys2Proof.Machine
end

