-- ==== Sys2Proof/Laws/KeepTick.lean ====
section
/-! SUPPORT. What the operations of Machine/Tick.lean keep. -/
namespace Sys2Proof.Machine

set_option Elab.async false

theorem State.tickTime_keeps {r₀ : State} (s : State) (hk : State.Keeps r₀ s) : State.Keeps r₀ (State.tickTime s) := by unfold State.tickTime; grind
grind_pattern State.tickTime_keeps => State.tickTime s, State.Keeps r₀ s
theorem State.cellFault_keeps {r₀ : State} (s : State) (o) (uncorrectable) (hk : State.Keeps r₀ s) : State.Keeps r₀ (State.cellFault s o uncorrectable) := by unfold State.cellFault; grind
grind_pattern State.cellFault_keeps => State.cellFault s o uncorrectable, State.Keeps r₀ s
theorem State.columnFault_keeps {r₀ : State} (s : State) (k) (hk : State.Keeps r₀ s) : State.Keeps r₀ (State.columnFault s k) := by unfold State.columnFault; grind
grind_pattern State.columnFault_keeps => State.columnFault s k, State.Keeps r₀ s
theorem State.loopbackError_keeps {r₀ : State} (s : State) (p) (hk : State.Keeps r₀ s) : State.Keeps r₀ (State.loopbackError s p) := by unfold State.loopbackError; grind
grind_pattern State.loopbackError_keeps => State.loopbackError s p, State.Keeps r₀ s
theorem State.mishap_keeps {r₀ : State} (s : State) (hk : State.Keeps r₀ s) : State.Keeps r₀ (State.mishap s) := by unfold State.mishap; grind
grind_pattern State.mishap_keeps => State.mishap s, State.Keeps r₀ s
theorem State.idle_keeps {r₀ : State} (s : State) (hk : State.Keeps r₀ s) : State.Keeps r₀ (State.idle s) := by unfold State.idle; grind
grind_pattern State.idle_keeps => State.idle s, State.Keeps r₀ s

end Sys2Proof.Machine
end

