-- ==== Sys2Proof/Laws/Scalar.lean ====
section
/-! SUPPORT. What the issue of a scalar instruction and the operations every scalar meaning ends in do. -/
namespace Sys2Proof.Machine

set_option Elab.async false

theorem State.Issues.canIssue {s : State} {k : CoreId} {w : Word} {op : Nat} {legal : Bool} {regs : List (BitVec 5)}
    (h : s.Issues k w op legal regs) : s.canIssue k w = true := by
  simp [State.canIssue, h.running, h.word, h.flips, h.atomics, h.supply]

/-- An instruction that issues has its effect. -/
theorem State.issue_runs {s : State} {k : CoreId} {w : Word} {op : Nat} {legal : Bool} {regs : List (BitVec 5)} {step : Nat}
    {body : State → State} (h : s.Issues k w op legal regs) : s.issue k w op legal regs step body = body s := by
  simp [State.issue, h.canIssue, h.code, h.form, h.guard, h.ready]

/-- A word that fails its legality takes ILLEGAL, whatever its guard. -/
theorem State.issue_illegal {s : State} {k : CoreId} {w : Word} {op : Nat} {regs : List (BitVec 5)} {step : Nat}
    {body : State → State} (h : s.canIssue k w = true) (hc : insCode w = op) :
    s.issue k w op false regs step body = s.illegal k w := by
  simp [State.issue, h, hc]

/-- A legal word whose guard reads 0 has no effect but to go on. -/
theorem State.issue_guarded {s : State} {k : CoreId} {w : Word} {op : Nat} {regs : List (BitVec 5)} {step : Nat}
    {body : State → State} (h : s.canIssue k w = true) (hc : insCode w = op) (hg : (s.core k).guard w = false) :
    s.issue k w op true regs step body = s.goto k ((s.core k).pc.toNat + step) := by
  simp [State.issue, h, hc, hg]

/-- A core with no pending fault goes on at a fetchable address. -/
theorem State.goto_runs (s : State) (k : CoreId) (a : Nat) (h8 : a % 8 = 0) (hlt : a < 0x40000)
    (hp : (s.core k).pendingTraps = []) : s.goto k a = s.setCore k ((s.core k).at_ a) := by
  simp [State.goto, h8, hlt, State.deliver, hp, State.mapCore, Core.at_]

theorem State.advance_runs (s : State) (k : CoreId) (h : (s.core k).Fetchable 8) (hp : (s.core k).pendingTraps = []) :
    s.advance k = s.setCore k ((s.core k).past 8) := State.goto_runs s k _ h.1 h.2 hp

@[simp] theorem Core.setG_pc (c : Core) (r : BitVec 5) (v : Word) : (c.setG r v).pc = c.pc := by unfold Core.setG; split <;> rfl
@[simp] theorem Core.setG_pendingTraps (c : Core) (r : BitVec 5) (v : Word) : (c.setG r v).pendingTraps = c.pendingTraps := by
  unfold Core.setG; split <;> rfl
@[simp] theorem Core.setP_pc (c : Core) (r : BitVec 3) (v : Bool) : (c.setP r v).pc = c.pc := by unfold Core.setP; split <;> rfl
@[simp] theorem Core.setP_pendingTraps (c : Core) (r : BitVec 3) (v : Bool) : (c.setP r v).pendingTraps = c.pendingTraps := by
  unfold Core.setP; split <;> rfl

theorem State.writeG_runs (s : State) (k : CoreId) (r : BitVec 5) (v : Word) (h : (s.core k).Fetchable 8)
    (hp : (s.core k).pendingTraps = []) : s.writeG k r v = s.setCore k (((s.core k).setG r v).past 8) := by
  unfold State.writeG
  rw [State.advance_runs _ _ (by simpa [Core.Fetchable] using h) (by simpa using hp)]
  simp [State.mapCore]

theorem State.writeP_runs (s : State) (k : CoreId) (r : BitVec 3) (v : Bool) (h : (s.core k).Fetchable 8)
    (hp : (s.core k).pendingTraps = []) : s.writeP k r v = s.setCore k (((s.core k).setP r v).past 8) := by
  unfold State.writeP
  rw [State.advance_runs _ _ (by simpa [Core.Fetchable] using h) (by simpa using hp)]
  simp [State.mapCore]

/-- A trap that finds its handler enabled and no trap active enters it (R79). -/
theorem State.trap_enters (s : State) (k : CoreId) (t : Trap) (resume : BitVec 18) (ha : (s.core k).trapActive = false)
    (he : (s.core k).tvec.getLsbD 0 = true) :
    s.trap k t resume = s.setCore k ((s.core k).inHandler t.cause t.status t.tinst resume t.bad) := by
  have he' : (s.core k).tvec[0] = true := he
  simp [State.trap, ha, he', Core.inHandler, State.mapCore]

end Sys2Proof.Machine
end

