-- ==== Sys2Proof/WellFormed.lean ====
section
/-! DEFINITION. Which commands are well formed: a command that carries an instruction word carries one of its own row. A word of an
operation that R103 does not assign may stand in any scalar or broad row: the core that fetched it takes ILLEGAL (R67). -/
namespace Sys2Proof

open Machine

/-- The word belongs to the operation, or to none at all. -/
def wordOf (code : Nat) (w : Word) : Bool := insCode w = code || !assigned (insCode w)

/-- The command is well formed. -/
def Instr.wf : Instr → Bool
  | .setupWrite _ size _ _ => size = 1 || size = 2 || size = 4 || size = 8
  | .setupLock _ => true
  | .coreLaunch _ => true
  | .add _ w => wordOf 0x000 w
  | .sub _ w => wordOf 0x001 w
  | .and _ w => wordOf 0x002 w
  | .or _ w => wordOf 0x003 w
  | .xor _ w => wordOf 0x004 w
  | .sll _ w => wordOf 0x005 w
  | .srl _ w => wordOf 0x006 w
  | .sra _ w => wordOf 0x007 w
  | .mul _ w => wordOf 0x008 w
  | .mulhs _ w => wordOf 0x009 w
  | .mulhu _ w => wordOf 0x00A w
  | .divs _ w => wordOf 0x00B w
  | .divu _ w => wordOf 0x00C w
  | .rems _ w => wordOf 0x00D w
  | .remu _ w => wordOf 0x00E w
  | .min _ w => wordOf 0x00F w
  | .max _ w => wordOf 0x010 w
  | .minu _ w => wordOf 0x011 w
  | .maxu _ w => wordOf 0x012 w
  | .addi _ w => wordOf 0x100 w
  | .subi _ w => wordOf 0x101 w
  | .andi _ w => wordOf 0x102 w
  | .ori _ w => wordOf 0x103 w
  | .xori _ w => wordOf 0x104 w
  | .slli _ w => wordOf 0x105 w
  | .srli _ w => wordOf 0x106 w
  | .srai _ w => wordOf 0x107 w
  | .muli _ w => wordOf 0x108 w
  | .mulhsi _ w => wordOf 0x109 w
  | .mulhui _ w => wordOf 0x10A w
  | .divsi _ w => wordOf 0x10B w
  | .divui _ w => wordOf 0x10C w
  | .remsi _ w => wordOf 0x10D w
  | .remui _ w => wordOf 0x10E w
  | .mini _ w => wordOf 0x10F w
  | .maxi _ w => wordOf 0x110 w
  | .minui _ w => wordOf 0x111 w
  | .maxui _ w => wordOf 0x112 w
  | .insh _ w => wordOf 0x120 w
  | .cmpeqi _ w => wordOf 0x130 w
  | .cmpnei _ w => wordOf 0x131 w
  | .cmplti _ w => wordOf 0x132 w
  | .cmpltui _ w => wordOf 0x133 w
  | .cmpgei _ w => wordOf 0x134 w
  | .cmpgeui _ w => wordOf 0x135 w
  | .ld _ w => wordOf 0x200 w
  | .st _ w => wordOf 0x300 w
  | .aadd _ w => wordOf 0x400 w
  | .amin _ w => wordOf 0x401 w
  | .amax _ w => wordOf 0x402 w
  | .aand _ w => wordOf 0x403 w
  | .aor _ w => wordOf 0x404 w
  | .axor _ w => wordOf 0x405 w
  | .aswap _ w => wordOf 0x406 w
  | .acas _ w => wordOf 0x407 w
  | .acas2 _ w => wordOf 0x408 w
  | .afadd _ w => wordOf 0x409 w
  | .bra _ w => wordOf 0x500 w
  | .jmpr _ w => wordOf 0x501 w
  | .cmpeq _ w => wordOf 0x600 w
  | .cmpne _ w => wordOf 0x601 w
  | .cmplt _ w => wordOf 0x602 w
  | .cmpltu _ w => wordOf 0x603 w
  | .cmpge _ w => wordOf 0x604 w
  | .cmpgeu _ w => wordOf 0x605 w
  | .fcmpeq _ w => wordOf 0x608 w
  | .fcmplt _ w => wordOf 0x609 w
  | .fcmple _ w => wordOf 0x60A w
  | .fcmpun _ w => wordOf 0x60B w
  | .pand _ w => wordOf 0x610 w
  | .por _ w => wordOf 0x611 w
  | .pxor _ w => wordOf 0x612 w
  | .pandn _ w => wordOf 0x613 w
  | .pmovg _ w => wordOf 0x614 w
  | .fadd _ w => wordOf 0x700 w
  | .fsub _ w => wordOf 0x701 w
  | .fmul _ w => wordOf 0x702 w
  | .fdiv _ w => wordOf 0x703 w
  | .fsqrt _ w => wordOf 0x704 w
  | .ffma _ w => wordOf 0x705 w
  | .fmin _ w => wordOf 0x706 w
  | .fmax _ w => wordOf 0x707 w
  | .fabs _ w => wordOf 0x708 w
  | .fneg _ w => wordOf 0x709 w
  | .cvtF2i _ w => wordOf 0x800 w
  | .cvtF2in _ w => wordOf 0x801 w
  | .cvtI2f _ w => wordOf 0x802 w
  | .cvtF2bf _ w => wordOf 0x803 w
  | .cvtF2h _ w => wordOf 0x804 w
  | .cvtBf2f _ w => wordOf 0x805 w
  | .cvtH2f _ w => wordOf 0x806 w
  | .mfs _ w => wordOf 0x900 w
  | .mts _ w => wordOf 0x901 w
  | .fenceLocal _ w => wordOf 0x902 w
  | .fenceIssue _ w => wordOf 0x902 w
  | .trap _ w => wordOf 0x903 w
  | .rte _ w => wordOf 0x904 w
  | .halt _ w => wordOf 0x905 w
  | .haltDone _ => true
  | .waitv _ w => wordOf 0x906 w
  | .waitvWake _ => true
  | .waitvCountExpired _ => true
  | .bwait _ w => wordOf 0x907 w
  | .nop _ w => wordOf 0x908 w
  | .tload _ b => wordOf 0xF00 b.w0
  | .tstore _ b => wordOf 0xF01 b.w0
  | .xmov _ b => wordOf 0xF02 b.w0
  | .mma _ b => wordOf 0xF10 b.w0
  | .conv _ b => wordOf 0xF11 b.w0
  | .aflush _ b => wordOf 0xF12 b.w0
  | .ewise _ b => wordOf 0xF20 b.w0
  | .sfn _ b => wordOf 0xF21 b.w0
  | .rowstat _ b => wordOf 0xF22 b.w0
  | .smax1 _ b => wordOf 0xF23 b.w0
  | .smax2 _ b => wordOf 0xF24 b.w0
  | .smaxc _ b => wordOf 0xF25 b.w0
  | .norm _ b => wordOf 0xF26 b.w0
  | .qnt _ b => wordOf 0xF27 b.w0
  | .dqnt _ b => wordOf 0xF28 b.w0
  | .csend _ b => wordOf 0xF30 b.w0
  | .cwait _ b => wordOf 0xF31 b.w0
  | .cwaitTimeout _ => true
  | .headcount _ b => wordOf 0xF32 b.w0
  | .sync _ b => wordOf 0xF33 b.w0
  | .syncTimeout _ => true
  | .farinv _ b => wordOf 0xF34 b.w0
  | .tblsel _ b => wordOf 0xF35 b.w0
  | .broadStart _ => true
  | .broadRetire _ => true
  | .bankFlip _ => true
  | .patrolScrub _ _ => true
  | .regulatorRetest _ _ _ => true
  | .channelFailed _ => true
  | .spareRecalibrated _ => true
  | .spareFillDone _ => true
  | .pkgTempRead _ _ => true
  | .memDirtyEnable _ => true
  | .swap _ => true
  | .dirtyBitmapWritten => true
  | .loopbackMode _ _ _ => true
  | .ringEnable _ _ _ => true
  | .ringDisable _ _ _ => true
  | .doorbell _ _ _ size _ => size = 1 || size = 2 || size = 4 || size = 8
  | .doorbellRead _ _ size => size = 1 || size = 2 || size = 4 || size = 8
  | .descriptorStart _ => true
  | .seqRecheck _ => true
  | .seqWaitTimeout _ => true
  | .descriptorFinish _ => true
  | .ringFaultedRetry _ _ => true
  | .ringStoppedClear _ _ => true
  | .evtRingEnable _ _ _ => true
  | .lantern => true
  | .lanternPeriodWrite _ _ => true
  | .nopDesc _ _ => true
  | .wait _ _ => true
  | .waitPoll _ _ => true
  | .waitTimeout _ _ => true
  | .write _ _ => true
  | .launch _ _ => true
  | .programLoad _ _ => true
  | .stepLoad _ _ => true
  | .stepTableValidated _ => true
  | .sfnLoad _ _ => true
  | .sfnTableChecked _ _ => true
  | .copy _ _ => true
  | .fill _ _ => true
  | .put _ _ => true
  | .get _ _ => true
  | .laserShutdown => true
  | .lsmAlert _ _ => true
  | .lsmPresenceChange _ _ => true
  | .opticLsmEnable _ _ _ _ _ => true
  | .idleFlitTimer _ => true
  | .lightLost _ => true
  | .lockLoopUpdate _ _ => true
  | .lineMonitor _ _ => true
  | .calPassStart _ => true
  | .calNow _ _ => true
  | .calScanDone _ _ => true
  | .serWindow _ _ => true
  | .sweepStep _ _ => true
  | .linePowerLow _ _ => true
  | .spareSettled _ _ => true
  | .ringsReacquired _ _ => true
  | .substPolicy _ => true
  | .substReleased _ => true
  | .quiesce _ _ _ => true
  | .quiesceDone _ => true
  | .engineBringUp _ _ _ => true
  | .engineUp _ _ => true
  | .dataFlit _ f _ => f.payload.length = 320
  | .idleFlit _ r => r.flit.payload.length = 320
  | .fencedIdle _ r => r.flit.payload.length = 320
  | .trainingFlit _ r => r.flit.payload.length = 320
  | .alignmentBlock _ _ => true
  | .mismatch _ r => r.flit.payload.length = 320
  | .txOk _ r => r.flit.payload.length = 320
  | .quiesceNotice _ r => r.flit.payload.length = 320
  | .calQuality _ r => r.flit.payload.length = 320
  | .answer _ r => r.flit.payload.length = 320
  | .controlResend _ _ => true
  | .linkAckTimeout _ => true
  | .linkResume _ => true
  | .linkFail _ => true
  | .packetForward _ p => p.payload.length ≤ 8192
  | .creditSend _ => true
  | .linkHoldTimeout _ => true
  | .packetInject _ _ => true
  | .reqLoad p => p.payload.length ≤ 8192
  | .reqStore p => p.payload.length ≤ 8192
  | .reqAadd p => p.payload.length ≤ 8192
  | .reqAmin p => p.payload.length ≤ 8192
  | .reqAmax p => p.payload.length ≤ 8192
  | .reqAand p => p.payload.length ≤ 8192
  | .reqAor p => p.payload.length ≤ 8192
  | .reqAxor p => p.payload.length ≤ 8192
  | .reqAswap p => p.payload.length ≤ 8192
  | .reqAcas p => p.payload.length ≤ 8192
  | .reqAcas2 p => p.payload.length ≤ 8192
  | .reqAfadd p => p.payload.length ≤ 8192
  | .drain p => p.payload.length ≤ 8192
  | .republishData p => p.payload.length ≤ 8192
  | .republishNotice p => p.payload.length ≤ 8192
  | .msgPut p => p.payload.length ≤ 8192
  | .msgGet p => p.payload.length ≤ 8192
  | .notify p => p.payload.length ≤ 8192
  | .mread p => p.payload.length ≤ 8192
  | .mwrite p => p.payload.length ≤ 8192
  | .timeRequest p _ _ => p.payload.length ≤ 8192
  | .rdata p _ => p.payload.length ≤ 8192
  | .rspAck p => p.payload.length ≤ 8192
  | .reqTimeout _ _ => true
  | .dedupExpire _ _ => true
  | .routeTblLoad _ => true
  | .routeTblChecked => true
  | .flip _ => true
  | .epochRetire => true
  | .fabRtLoad _ _ => true
  | .fabRtLoadDone => true
  | .replDeclare _ _ _ => true
  | .republishStart _ _ => true
  | .rollcall _ _ => true
  | .join p => p.payload.length ≤ 8192
  | .ready p => p.payload.length ≤ 8192
  | .rollcallMismatch p => p.payload.length ≤ 8192
  | .rollcallTimeout _ _ => true
  | .collective _ _ => true
  | .collectiveCurrent _ => true
  | .grant p => p.payload.length ≤ 8192
  | .cdata p => p.payload.length ≤ 8192
  | .collAck p => p.payload.length ≤ 8192
  | .chunkResend _ _ => true
  | .lost p => p.payload.length ≤ 8192
  | .fail p => p.payload.length ≤ 8192
  | .tallyDigest p => p.payload.length ≤ 8192
  | .tallyVerdict p => p.payload.length ≤ 8192
  | .collTimeout _ => true
  | .disband _ _ => true
  | .frameRx _ _ => true
  | .arpRequest _ _ => true
  | .icmpEcho _ _ => true
  | .igmpQuery _ _ => true
  | .ptpSync _ _ _ => true
  | .ptpDelayResp _ _ => true
  | .ptpAnnounce _ _ => true
  | .announceTimeout => true
  | .fabricTimeTick _ => true
  | .videoPacket _ _ _ => true
  | .frameTimeout _ => true
  | .flowOpen _ _ => true
  | .flowClose _ _ => true
  | .exrDatagram _ _ _ _ => true
  | .exrReply _ _ => true
  | .exrKeyExpire _ => true
  | .exrEnable _ _ => true
  | .exrDisable _ _ => true
  | .nvmeTcpSegment _ _ _ => true
  | .portLinkChange _ _ => true
  | .portQuiesce _ _ => true
  | .portQuiesceDone _ => true
  | .snapCapture _ _ => true
  | .snapRestore _ _ => true
  | .snapDigest _ _ => true
  | .snapShadow _ _ => true
  | .snapSalvageQuery _ _ => true
  | .snapEnable _ _ => true
  | .layer2Cascade _ => true
  | .layer3Cascade _ => true
  | .cascadeDone _ _ _ => true
  | .snapshotDue _ => true
  | .runSecond _ => true
  | .salvageEnter => true
  | .salvage p => p.payload.length ≤ 8192
  | .abort p => p.payload.length ≤ 8192
  | .errAbort _ _ => true
  | .abortClear _ _ => true
  | .resetCore _ _ => true
  | .resetCluster _ _ => true
  | .resetDevice _ => true
  | .resetOptic _ _ => true
  | .resetChannel _ _ => true
  | .fenceDrained => true
  | .dump _ => true
  | .dumpDone => true
  | .domainResetDone => true
  | .suspectReplay _ _ => true
  | .hangDetect _ => true
  | .shadowRead _ => true
  | .failsafeEnter _ => true
  | .rangerWatchdog => true
  | .lockstepPair _ => true
  | .thermosUpdate _ => true
  | .diodeSample _ => true
  | .thermistorRead _ => true
  | .throttleDecay _ => true
  | .warningCeilingTick => true
  | .powerSample _ _ => true
  | .powerPolicy => true
  | .dividerMove _ => true
  | .pllStep _ => true
  | .supplyStageEnter _ _ _ => true
  | .supplyStageLeave _ => true
  | .selfRefreshExit => true
  | .brownout p => p.payload.length ≤ 8192
  | .droopDip _ => true
  | .droopRestore _ => true
  | .standbyRelease => true
  | .bulkRelease => true
  | .bootStepDone _ => true
  | .adjacencyUp _ _ _ _ => true
  | .resetNAssert => true
  | .updateFirmware _ _ => true
  | .updateConfig _ _ => true
  | .updateCalibration _ _ => true
  | .switch _ => true
  | .switchTimeout => true
  | .keyInstall _ _ _ => true
  | .keyRevoke _ _ _ => true
  | .debugUnlock _ _ _ => true
  | .downgrade _ _ _ => true
  | .fuseProgram _ _ _ => true
  | .factoryReset _ _ _ => true
  | .sealClear _ _ _ => true
  | .presencePress => true
  | .presenceWindowExpire => true
  | .sealSample _ => true
  | .mgmtRead _ => true
  | .mgmtWrite _ _ => true
  | .mgmtTrail _ => true
  | .updCheck _ => true
  | .updWrite _ _ => true
  | .mgmtPresence _ _ _ => true
  | .updCheckExpire => true
  | .updateDone _ => true
  | .switchDone => true
  | .standbySourceChange _ _ => true

end Sys2Proof
end

