-- ==== Sys2Proof/Tests/Slice0.lean ====
section
/-! SUPPORT. Tests of this model's own: ill-formed commands that the check refuses, one step of many commands on small states with results
worked out by hand from the spec's rules, and for every statement about a hypothesis a state that meets it. -/
namespace Sys2Proof.Tests

open Machine Claims

set_option Elab.async false
set_option maxRecDepth 20000
set_option exponentiation.threshold 3000

/-- The next state, where there is one. -/
def nx : Result → State
  | .next s => s
  | _ => .reset

/-- A word of format R, A or M by its fields (R65, R66): CLASS, OP, rd, rs1, rs2 and what stands below. -/
def enc (cls op rd rs1 rs2 low : Nat) : Word :=
  BitVec.ofNat 64 (cls * 2 ^ 60 + op * 2 ^ 48 + rd * 2 ^ 43 + rs1 * 2 ^ 38 + rs2 * 2 ^ 33 + low)

/-- A core that runs the word `w` from address 0 with these general registers, its handler at 0x1000. -/
def running (w : Word) (g : List Word) : Core :=
  { Core.reset with run := .running, imem := [(0, w)], tvec := 0x1001, g := Vector.ofFn fun i => g.getD i.val 0 }

/-- The device after reset, with core 0 running `w`. -/
def at0 (w : Word) (g : List Word) : State := State.reset.setCore 0 (running w g)

/-- Context 0 may do everything in the first MiB of cluster 0's SRAM. -/
def granted (s : State) : State :=
  { s with fab := { s.fab with regions := [(0, [⟨false, 0, true, true, true, 0xF00000000000, 0xF00000100000⟩])] } }.setReg Reg.FAB_RT_VALID 1

/-- An address in cluster 0's SRAM. -/
def sram : Word := 0x0000F00000000000

/-- Bits of a register's field. -/
def fieldOf (s : State) (off hi lo : Nat) : Nat := bits (s.reg off) hi lo

/-- The instruction `n` bytes on can be fetched. -/
theorem fetch (c : Core) (n : Nat) (h : (c.pc.toNat + n) % 8 = 0 ∧ c.pc.toNat + n < 0x40000) : c.Fetchable n := h

/-! ### Ill-formed commands -/

/-- An ADD row with the word of SUB. -/
theorem test_wf_refuses_other_scalar_word : (Instr.add 0 (enc 0 1 1 2 3 0)).wf = false := by decide
/-- A TLOAD row with the first word of a TSTORE. -/
theorem test_wf_refuses_other_broad_word : (Instr.tload 0 ⟨enc 0xF 1 0 0 0 0, 0, 0, 0⟩).wf = false := by decide
/-- A setup access of three bytes. -/
theorem test_wf_refuses_access_size : (Instr.setupWrite .mgmt 3 0 0).wf = false := by decide
/-- A word of no assigned operation is well formed in a scalar row: the core takes ILLEGAL. -/
theorem test_wf_takes_unassigned_word : (Instr.add 0 (enc 0xA 0 0 0 0 0)).wf = true := by decide

/-! ### Scalar code -/

/-- R69: addition wraps. -/
theorem test_add_wraps : ((nx (exec (.add 0 (enc 0 0 3 1 2 0)) (at0 (enc 0 0 3 1 2 0) [0, -1, 2]))).core 0).greg 3 = 1 := by decide
/-- R69: a source that is the destination too. -/
theorem test_sub_into_source : ((nx (exec (.sub 0 (enc 0 1 1 1 2 0)) (at0 (enc 0 1 1 1 2 0) [0, 5, 7]))).core 0).greg 1 = -2 := by decide
/-- R69: −2^63 / −1 is −2^63. -/
theorem test_divs_overflows : ((nx (exec (.divs 0 (enc 0 11 3 1 2 0)) (at0 (enc 0 11 3 1 2 0) [0, 2 ^ 63, -1]))).core 0).greg 3 = 2 ^ 63 := by decide
/-- R69: the remainder has the sign of the dividend. -/
theorem test_rems_sign : ((nx (exec (.rems 0 (enc 0 13 3 1 2 0)) (at0 (enc 0 13 3 1 2 0) [0, -7, 2]))).core 0).greg 3 = -1 := by decide
/-- R69: a zero divisor gives all ones. -/
theorem test_divu_by_zero : ((nx (exec (.divu 0 (enc 0 12 3 1 2 0)) (at0 (enc 0 12 3 1 2 0) [0, 9, 0]))).core 0).greg 3 = -1 := by decide
/-- R69: a shift uses 6 bits of its amount. -/
theorem test_sll_six_bits : ((nx (exec (.sll 0 (enc 0 5 3 1 2 0)) (at0 (enc 0 5 3 1 2 0) [0, 1, 65]))).core 0).greg 3 = 2 := by decide
/-- R69: the high half of a signed product. -/
theorem test_mulhs : ((nx (exec (.mulhs 0 (enc 0 9 3 1 2 0)) (at0 (enc 0 9 3 1 2 0) [0, -1, 5]))).core 0).greg 3 = -1 := by decide
/-- R66: imm32 is sign-extended. -/
theorem test_addi_sign : ((nx (exec (.addi 0 (enc 1 0 3 1 0 0xFFFFFFFF)) (at0 (enc 1 0 3 1 0 0xFFFFFFFF) [0, 5]))).core 0).greg 3 = 4 := by decide
/-- R104: INSH puts imm32 above the low half. -/
theorem test_insh : ((nx (exec (.insh 0 (enc 1 0x20 3 1 0 0x12345678)) (at0 (enc 1 0x20 3 1 0 0x12345678) [0, 0xAAAAAAAA9ABCDEF0]))).core 0).greg 3
    = 0x123456789ABCDEF0 := by decide
/-- R62: g0 discards writes. -/
theorem test_g0_discards : ((nx (exec (.add 0 (enc 0 0 0 1 1 0)) (at0 (enc 0 0 0 1 1 0) [0, 3]))).core 0).greg 0 = 0 := by decide
/-- A signed compare is not the unsigned one. -/
theorem test_cmplt_signed : ((nx (exec (.cmplt 0 (enc 6 2 0 1 2 (5 * 2 ^ 30))) (at0 (enc 6 2 0 1 2 (5 * 2 ^ 30)) [0, -1, 1]))).core 0).preg 5 = true := by
  decide
theorem test_cmpltu_unsigned :
    ((nx (exec (.cmpltu 0 (enc 6 3 0 1 2 (5 * 2 ^ 30))) (at0 (enc 6 3 0 1 2 (5 * 2 ^ 30)) [0, -1, 1]))).core 0).preg 5 = false := by decide
/-- 1.5 + 0.25 = 1.75. -/
theorem test_fadd : ((nx (exec (.fadd 0 (enc 7 0 3 1 2 0)) (at0 (enc 7 0 3 1 2 0) [0, 0x3FC00000, 0x3E800000]))).core 0).greg 3 = 0x3FE00000 := by decide
/-- R71: 1 / 0 sets DZ and gives infinity. -/
theorem test_fdiv_by_zero : ((nx (exec (.fdiv 0 (enc 7 3 3 1 2 0)) (at0 (enc 7 3 3 1 2 0) [0, 0x3F800000, 0]))).core 0).greg 3 = 0x7F800000 := by decide
/-- R70: −1.5 to an integer rounds toward zero; to nearest even it gives −2. -/
theorem test_cvt_f2i : ((nx (exec (.cvtF2i 0 (enc 8 0 3 1 0 0)) (at0 (enc 8 0 3 1 0 0) [0, 0xBFC00000]))).core 0).greg 3 = -1 := by decide
theorem test_cvt_f2in : ((nx (exec (.cvtF2in 0 (enc 8 1 3 1 0 0)) (at0 (enc 8 1 3 1 0 0) [0, 0xBFC00000]))).core 0).greg 3 = -2 := by decide
/-- R67: a reserved bit takes ILLEGAL: cause 1, the word as SYS_BADADDR, the handler's address. -/
theorem test_illegal : (((nx (exec (.add 0 (enc 0 0 3 1 2 1)) (at0 (enc 0 0 3 1 2 1) []))).core 0).cause = 1 ∧
    ((nx (exec (.add 0 (enc 0 0 3 1 2 1)) (at0 (enc 0 0 3 1 2 1) []))).core 0).pc = 0x1000) := by decide
/-- R64: a branch writes its own address plus 8 and goes on at its target. -/
theorem test_bra : ((nx (exec (.bra 0 (enc 5 0 1 0 0 0x40)) (at0 (enc 5 0 1 0 0 0x40) []))).core 0).pc = 0x40 ∧
    ((nx (exec (.bra 0 (enc 5 0 1 0 0 0x40)) (at0 (enc 5 0 1 0 0 0x40) []))).core 0).greg 1 = 8 := by decide
/-- R72: a signed byte load. -/
theorem test_ld_sext : ((nx (exec (.ld 0 (enc 2 0 3 1 0 (2 ^ 32))) { granted (at0 (enc 2 0 3 1 0 (2 ^ 32)) [0, sram]) with
    mem := [(0xF00000000000, 0x80)] })).core 0).greg 3 = 0xFFFFFFFFFFFFFF80 := by decide
/-- R72: a 4-byte store is little-endian. -/
theorem test_st_bytes : ((nx (exec (.st 0 (enc 3 0 2 1 16 0)) (granted (at0 (enc 3 0 2 1 16 0) [0, sram, 0x11223344])))).bytes 0xF00000000000 4)
    = [0x44, 0x33, 0x22, 0x11] := by decide
/-- R72: a misaligned load takes MISALIGNED, cause 3. -/
theorem test_ld_misaligned : ((nx (exec (.ld 0 (enc 2 0 3 1 16 0)) (granted (at0 (enc 2 0 3 1 16 0) [0, sram + 2])))).core 0).cause = 3 := by decide
/-- R294: AADD stores the sum; rd has the old value. -/
theorem test_aadd : ((nx (exec (.aadd 0 (enc 4 0 3 1 2 (2 ^ 25))) { granted (at0 (enc 4 0 3 1 2 (2 ^ 25)) [0, sram, 5]) with
    mem := [(0xF00000000000, 3)] })).core 0).greg 3 = 3 ∧
    (nx (exec (.aadd 0 (enc 4 0 3 1 2 (2 ^ 25))) { granted (at0 (enc 4 0 3 1 2 (2 ^ 25)) [0, sram, 5]) with
      mem := [(0xF00000000000, 3)] })).byte 0xF00000000000 = 8 := by decide
/-- R79: TRAP resumes at the next instruction. -/
theorem test_trap_epc : ((nx (exec (.trap 0 (enc 9 3 0 0 0 7)) (at0 (enc 9 3 0 0 0 7) []))).core 0).epc = 8 := by decide
/-- R91: SYS_FPFLAGS clears where ones are written. -/
theorem test_mts_fpflags : ((nx (exec (.mts 0 (enc 9 1 0 1 0 0x40)) ((at0 (enc 9 1 0 1 0 0x40) [0, 5]).mapCore 0 fun c =>
    { c with fpflags := 7 }))).core 0).fpflags = 2 := by decide

/-! ### Witnesses: scalar code -/

theorem witness_integer_register : ∃ e ∈ intRows.zip intOps, ∃ (s : State) (w : Word), s.Issues 0 w e.2.1 (legalR3 w) [insRd w, insRs1 w, insRs2 w] ∧ (s.core 0).Fetchable 8 :=
  ⟨(.add, 0, _), .head _, at0 (enc 0 0 31 31 31 0) [], enc 0 0 31 31 31 0, by constructor <;> decide, fetch _ _ (by decide)⟩
theorem witness_integer_immediate : (∃ e ∈ immRows.zip intOps, ∃ (s : State) (w : Word), s.Issues 0 w (0x100 + e.2.1) (legalI w) [insRd w, insRs1 w] ∧ (s.core 0).Fetchable 8) ∧
    ∃ (s : State) (w : Word), s.Issues 0 w 0x120 (legalI w) [insRd w, insRs1 w] ∧ (s.core 0).Fetchable 8 :=
  ⟨⟨(.addi, 0, _), .head _, at0 (enc 1 0 31 31 0 0xFFFFFFFF) [], enc 1 0 31 31 0 0xFFFFFFFF, by constructor <;> decide, fetch _ _ (by decide)⟩,
    at0 (enc 1 0x20 31 31 0 0) [], enc 1 0x20 31 31 0 0, by constructor <;> decide, fetch _ _ (by decide)⟩
theorem witness_compare : ∃ e ∈ cmpRows, ∃ (s : State) (w : Word) (s' : State) (w' : Word), s.Issues 0 w (0x600 + e.2.2.1) (legalCmp w) [insRs1 w, insRs2 w] ∧ (s.core 0).Fetchable 8 ∧
    s'.Issues 0 w' (0x130 + e.2.2.1) (legalCmpI w') [insRs1 w'] ∧ (s'.core 0).Fetchable 8 :=
  ⟨(.cmpeq, .cmpeqi, 0, _), .head _, at0 (enc 6 0 0 31 31 (7 * 2 ^ 30)) [], enc 6 0 0 31 31 (7 * 2 ^ 30), at0 (enc 1 0x30 0 31 28 9) [], enc 1 0x30 0 31 28 9,
    by constructor <;> decide, fetch _ _ (by decide), by constructor <;> decide, fetch _ _ (by decide)⟩
theorem witness_predicates : (∃ e ∈ predRows, ∃ (s : State) (w : Word), s.Issues 0 w e.2.1 (legalPred w) [] ∧ (s.core 0).Fetchable 8) ∧
    ∃ (s : State) (w : Word), s.Issues 0 w 0x614 (legalPmovg w) [insRs1 w] ∧ (s.core 0).Fetchable 8 :=
  ⟨⟨(.pand, 0x610, _), .head _, at0 (enc 6 0x10 0 7 7 (7 * 2 ^ 30)) [], enc 6 0x10 0 7 7 (7 * 2 ^ 30), by constructor <;> decide, fetch _ _ (by decide)⟩,
    at0 (enc 6 0x14 0 31 0 (7 * 2 ^ 30)) [], enc 6 0x14 0 31 0 (7 * 2 ^ 30), by constructor <;> decide, fetch _ _ (by decide)⟩
theorem witness_float : (∃ e ∈ fpRows, ∃ (s : State) (w : Word), s.Issues 0 w e.2.1 (legalR3 w) [insRd w, insRs1 w, insRs2 w] ∧ (s.core 0).Fetchable 8) ∧
    (∃ e ∈ fpUnaryRows, ∃ (s : State) (w : Word), s.Issues 0 w e.2.1 (legalR2 w) [insRd w, insRs1 w] ∧ (s.core 0).Fetchable 8) ∧
    (∃ (s : State) (w : Word), s.Issues 0 w 0x705 (legalR3 w) [insRd w, insRs1 w, insRs2 w] ∧ (s.core 0).Fetchable 8) ∧
    (∃ e ∈ fcmpRows, ∃ (s : State) (w : Word), s.Issues 0 w e.2.1 (legalCmp w) [insRs1 w, insRs2 w] ∧ (s.core 0).Fetchable 8) ∧
    (∃ e ∈ cvtRows, ∃ (s : State) (w : Word), s.Issues 0 w e.2.1 (legalR2 w) [insRd w, insRs1 w] ∧ (s.core 0).Fetchable 8) ∧
    (∃ a b : F32, ((f32 a).isNan || (f32 b).isNan) = true) ∧ (∃ a b : F32, ((f32 a).isNan || (f32 b).isNan) = false) ∧
    ∃ a b : F32, (f32 a).isZero = true ∧ (f32 b).isInf = true :=
  ⟨⟨(.fadd, 0x700, _), .head _, at0 (enc 7 0 31 31 31 0) [], enc 7 0 31 31 31 0, by constructor <;> decide, fetch _ _ (by decide)⟩,
   ⟨(.fsqrt, 0x704, _), .head _, at0 (enc 7 4 31 31 0 0) [], enc 7 4 31 31 0 0, by constructor <;> decide, fetch _ _ (by decide)⟩,
   ⟨at0 (enc 7 5 31 31 31 0) [], enc 7 5 31 31 31 0, by constructor <;> decide, fetch _ _ (by decide)⟩,
   ⟨(.fcmpeq, 0x608, _), .head _, at0 (enc 6 8 0 31 31 0) [], enc 6 8 0 31 31 0, by constructor <;> decide, fetch _ _ (by decide)⟩,
   ⟨(.cvtF2i, 0x800, _), .head _, at0 (enc 8 0 31 31 0 0) [], enc 8 0 31 31 0 0, by constructor <;> decide, fetch _ _ (by decide)⟩,
   ⟨0x7FC00000, 0, by decide⟩, ⟨0, 0, by decide⟩, ⟨0x80000000, 0x7F800000, by decide⟩⟩
theorem witness_illegal : ∃ e ∈ scalarRows, ∃ (s : State) (w : Word), s.canIssue 0 w = true ∧ insCode w = e.2.1 ∧ e.2.2 w = false ∧ (s.core 0).trapActive = false ∧
    (s.core 0).tvec.getLsbD 0 = true :=
  ⟨(.add, 0, legalR3), .head _, at0 (enc 0 0 0 0 0 1) [], enc 0 0 0 0 0 1, by decide, by decide, by decide, by decide, by decide⟩
theorem witness_guarded_off : ∃ e ∈ scalarRows, ∃ (s : State) (w : Word), s.canIssue 0 w = true ∧ insCode w = e.2.1 ∧ e.2.2 w = true ∧
    (s.core 0).preg (insPguard w) = insPneg w ∧ (s.core 0).Fetchable 8 ∧ (s.core 0).pendingTraps = [] :=
  ⟨(.add, 0, legalR3), .head _, at0 (enc 0 0x800 0 0 0 0) [], enc 0 0x800 0 0 0 0, by decide, by decide, by decide, by decide, fetch _ _ (by decide), by decide⟩
theorem witness_nop : ∃ (s : State) (w : Word), s.Issues 0 w 0x908 (legalNone w) [] ∧ (s.core 0).Fetchable 8 :=
  ⟨at0 (enc 9 8 0 0 0 0) [], enc 9 8 0 0 0 0, by constructor <;> decide, fetch _ _ (by decide)⟩
theorem witness_fences : ∃ (s : State) (w : Word), s.Issues 0 w 0x902 (onlyBits w [(0, 0)]) [] ∧ (s.core 0).Fetchable 8 :=
  ⟨at0 (enc 9 2 0 0 0 1) [], enc 9 2 0 0 0 1, by constructor <;> decide, fetch _ _ (by decide)⟩
theorem witness_traps : (∃ (s : State) (w : Word), s.Issues 0 w 0x903 (legalImm12 w) [] ∧ (s.core 0).trapActive = false ∧ (s.core 0).tvec.getLsbD 0 = true) ∧
    (∃ (s : State) (w : Word), s.Issues 0 w 0x904 (legalNone w) [] ∧ (s.core 0).epc.toNat % 8 = 0) ∧ (∃ s : State, (s.core 0).trapActive = true ∨ (s.core 0).tvec.getLsbD 0 = false) ∧
    ∃ (s : State) (t : Trap), (s.core 0).pendingTraps = t :: [] ∧ (s.core 0).run = .running ∧ (s.core 0).trapActive = false :=
  ⟨⟨at0 (enc 9 3 0 0 0 0xFFF) [], enc 9 3 0 0 0 0xFFF, by constructor <;> decide, by decide, by decide⟩,
   ⟨at0 (enc 9 4 0 0 0 0) [], enc 9 4 0 0 0 0, by constructor <;> decide, by decide⟩, ⟨State.reset, .inr (by decide)⟩,
   ⟨(at0 0 []).mapCore 0 fun c => { c with pendingTraps := [⟨6, .poison, 0, 0⟩] }, ⟨6, .poison, 0, 0⟩, by decide, by decide, by decide⟩⟩
theorem witness_branches : (∃ (s : State) (w target : Word), s.Issues 0 w 0x500 (legalBra w) [insRd w] ∧ target = (s.core 0).pc.setWidth 64 + insImm w ∧
      target.toNat % 8 = 0 ∧ target.toNat < 0x40000) ∧
    ∃ (s : State) (w target : Word), s.Issues 0 w 0x501 (legalJmpr w) [insRd w, insRs1 w] ∧ target = (s.core 0).greg (insRs1 w) + insImm w ∧
      ¬(target.toNat % 8 = 0 ∧ target.toNat < 0x40000) ∧ (s.core 0).trapActive = false ∧ (s.core 0).tvec.getLsbD 0 = true :=
  ⟨⟨at0 (enc 5 0 31 0 0 0x3FFF8) [], enc 5 0 31 0 0 0x3FFF8, 0x3FFF8, by constructor <;> decide, by decide, by decide, by decide⟩,
   ⟨at0 (enc 5 1 31 31 0 0x40000) [], enc 5 1 31 31 0 0x40000, 0x40000, by constructor <;> decide, by decide, by decide, by decide, by decide⟩⟩
theorem witness_system_registers :
    (∃ (s : State) (w : Word), s.Issues 0 w 0x900 (onlyBits w [(47, 43), (11, 0)] && sysListed (insImm12 w)) [insRd w] ∧ (s.core 0).Fetchable 8 ∧ insImm12 w = 0x026) ∧
    (∃ (s : State) (w : Word), s.Issues 0 w 0x900 (onlyBits w [(47, 43), (11, 0)] && sysListed (insImm12 w)) [insRd w] ∧ (s.core 0).Fetchable 8 ∧ insImm12 w = 0x010) ∧
    (∃ (s : State) (w : Word), s.Issues 0 w 0x900 (onlyBits w [(47, 43), (11, 0)] && sysListed (insImm12 w)) [insRd w] ∧ (s.core 0).Fetchable 8 ∧ insImm12 w = 0x040) ∧
    (∃ (s : State) (w : Word), s.Issues 0 w 0x901 (onlyBits w [(42, 38), (11, 0)] && sysListed (insImm12 w)) [insRs1 w] ∧ (s.core 0).Fetchable 8 ∧ insImm12 w = 0x020) ∧
    (∃ (s : State) (w : Word), s.Issues 0 w 0x901 (onlyBits w [(42, 38), (11, 0)] && sysListed (insImm12 w)) [insRs1 w] ∧ (s.core 0).Fetchable 8 ∧ insImm12 w = 0x021) ∧
    ∃ (s : State) (w : Word), s.Issues 0 w 0x901 (onlyBits w [(42, 38), (11, 0)] && sysListed (insImm12 w)) [insRs1 w] ∧ (s.core 0).Fetchable 8 ∧ insImm12 w = 0x000 :=
  ⟨⟨at0 (enc 9 0 1 0 0 0x26) [], enc 9 0 1 0 0 0x26, by constructor <;> decide, fetch _ _ (by decide), by decide⟩,
   ⟨at0 (enc 9 0 1 0 0 0x10) [], enc 9 0 1 0 0 0x10, by constructor <;> decide, fetch _ _ (by decide), by decide⟩,
   ⟨at0 (enc 9 0 1 0 0 0x40) [], enc 9 0 1 0 0 0x40, by constructor <;> decide, fetch _ _ (by decide), by decide⟩,
   ⟨at0 (enc 9 1 0 1 0 0x20) [], enc 9 1 0 1 0 0x20, by constructor <;> decide, fetch _ _ (by decide), by decide⟩,
   ⟨at0 (enc 9 1 0 1 0 0x21) [], enc 9 1 0 1 0 0x21, by constructor <;> decide, fetch _ _ (by decide), by decide⟩,
   ⟨at0 (enc 9 1 0 1 0 0) [], enc 9 1 0 1 0 0, by constructor <;> decide, fetch _ _ (by decide), by decide⟩⟩

/-- Memory of cluster 0 that context 0 may use answers. -/
theorem permits_sram (s : State) (a : Auth) (k : Kind) (o n : Nat) (hp : placeOfRange o n = .sram 0)
    (h : ∀ x, a = .ctx x → (s.reg Reg.FAB_RT_VALID).getLsbD x = true ∧ s.fab.regionLoad.contains x.val = false ∧
      (piecesOf o n).all (pieceOk (Maps.get [] s.fab.regions x) s.self (s.me a).src k false) = true) : s.Permits (s.me a) k false o n :=
  ⟨.inr (.inl ⟨0, hp⟩), h⟩

/-- A load, a store and atomics of the first bytes of cluster 0's SRAM; a load from a doorbell page. -/
theorem witness_local_memory :
    (∃ (s : State) (w : Word) (o : Nat), s.Issues 0 w 0x200 (legalLd w) [insRd w, insRs1 w] ∧ (s.core 0).Fetchable 8 ∧ (memAt s 0 w).toNat % insSize w = 0 ∧ (s.core 0).queue = [] ∧
      s.decode (memAt s 0 w) = .here o ∧ s.Permits (s.coreWho 0) .rd false o (insSize w) ∧ s.Clean (.ctx (s.core 0).ctx) o (insSize w)) ∧
    (∃ (s : State) (w : Word) (o : Nat), s.Issues 0 w 0x200 (legalLd w) [insRd w, insRs1 w] ∧ (s.core 0).Fetchable 8 ∧ (memAt s 0 w).toNat % insSize w = 0 ∧ (s.core 0).queue = [] ∧
      s.decode (memAt s 0 w) = .here o ∧ placeOfRange o (insSize w) = .door 1023 8 ∧ insSize w = 8) ∧
    (∃ (s : State) (w : Word) (o : Nat), s.Issues 0 w 0x300 (legalSt w) [insRd w, insRs1 w] ∧ (s.core 0).Fetchable 8 ∧ (memAt s 0 w).toNat % insSize w = 0 ∧ (s.core 0).queue = [] ∧
      s.decode (memAt s 0 w) = .here o ∧ s.Permits (s.coreWho 0) .wr false o (insSize w) ∧ s.Clean (.ctx (s.core 0).ctx) o (insSize w)) ∧
    (∃ (s : State) (w : Word) (o : Nat), s.Issues 0 w 0x400 (legalAtomic w) ([insRs1 w] ++ [insRd w, insRs2 w] ++ []) ∧ (s.core 0).Fetchable 8 ∧ (s.core 0).queue = [] ∧
      s.decode ((s.core 0).greg (insRs1 w)) = .here o ∧ o % 8 = 0 ∧ s.Permits (s.coreWho 0) .at_ false o 8 ∧ s.Clean (.ctx (s.core 0).ctx) o 8) ∧
    (∃ (s : State) (w : Word) (o : Nat), s.Issues 0 w 0x409 (legalAtomic w) [insRs1 w, insRd w, insRs2 w] ∧ (s.core 0).Fetchable 8 ∧ (s.core 0).queue = [] ∧
      s.decode ((s.core 0).greg (insRs1 w)) = .here o ∧ o % 4 = 0 ∧ s.Permits (s.coreWho 0) .at_ false o 4 ∧ s.Clean (.ctx (s.core 0).ctx) o 4) ∧
    ∃ (s : State) (w : Word) (o : Nat), s.Issues 0 w 0x408 (legalCas2 w) [insRs1 w, insRd w, insRd w + 1, insRs2 w, insRs2 w + 1, insRs3 w, insRs3 w + 1] ∧ (s.core 0).Fetchable 8 ∧
      (s.core 0).queue = [] ∧ s.decode ((s.core 0).greg (insRs1 w)) = .here o ∧ o % 16 = 0 ∧ s.Permits (s.coreWho 0) .at_ false o 16 ∧
      s.Clean (.ctx (s.core 0).ctx) o 16 := by
  refine ⟨⟨granted (at0 (enc 2 0 3 1 24 0) [0, sram]), enc 2 0 3 1 24 0, 0xF00000000000, by constructor <;> decide, fetch _ _ (by decide), by decide, by decide, by decide,
      permits_sram _ _ _ _ _ (by decide) ?_, ?_⟩,
    ⟨at0 (enc 2 0 3 1 24 8) [0, 0xFF00003FF000], enc 2 0 3 1 24 8, 0xFF00003FF008, by constructor <;> decide, fetch _ _ (by decide), by decide, by decide, by decide, by decide, by decide⟩,
    ⟨granted (at0 (enc 3 0 3 1 24 0) [0, sram]), enc 3 0 3 1 24 0, 0xF00000000000, by constructor <;> decide, fetch _ _ (by decide), by decide, by decide, by decide,
      permits_sram _ _ _ _ _ (by decide) ?_, ?_⟩,
    ⟨granted (at0 (enc 4 0 3 1 2 0) [0, sram]), enc 4 0 3 1 2 0, 0xF00000000000, by constructor <;> decide, fetch _ _ (by decide), by decide, by decide, by decide,
      permits_sram _ _ _ _ _ (by decide) ?_, ?_⟩,
    ⟨granted (at0 (enc 4 9 3 1 2 0) [0, sram]), enc 4 9 3 1 2 0, 0xF00000000000, by constructor <;> decide, fetch _ _ (by decide), by decide, by decide, by decide,
      permits_sram _ _ _ _ _ (by decide) ?_, ?_⟩,
    ⟨granted (at0 (enc 4 8 2 1 4 (6 * 2 ^ 28)) [0, sram]), enc 4 8 2 1 4 (6 * 2 ^ 28), 0xF00000000000, by constructor <;> decide, fetch _ _ (by decide), by decide, by decide,
      by decide, permits_sram _ _ _ _ _ (by decide) ?_, ?_⟩⟩
  all_goals first
    | (intro x hx; cases hx; exact ⟨by decide, by decide, by decide⟩)
    | exact ⟨by decide, by decide, by intro x hx; cases hx; decide, by decide⟩

/-! ### Witnesses: remote accesses, traps of accesses, waits, launches -/

/-- Devices 0 and 1 are present. -/
def meshed (s : State) : State := { s with fab := { s.fab with topo0 := ⟨[(16, 3)], true, false⟩ } }

/-- Address 0 of the memory of device 1, in space 0b01. -/
def far1 : Word := 0x4001000000000000

theorem witness_remote :
    (∃ (s : State) (w : Word) (d : Coord) (o : Nat), (s.core 0).queue = [] ∧ s.inReach d = true ∧ s.headFull 0 d = false ∧ (memAt s 0 w).toNat % insSize w = 0 ∧
      s.decode (memAt s 0 w) = .there d o ∧ placeOfRange o (insSize w) = .lpddr ∧ (s.core 0).Fetchable 8 ∧ s.Issues 0 w 0x200 (legalLd w) [insRd w, insRs1 w] ∧
      insFar w = false ∧ s.redirect (.ctx (s.core 0).ctx) d o (insSize w) = d ∧ d ≠ s.self) ∧
    (∃ (s : State) (w : Word) (d : Coord) (o : Nat) (l : Line), (s.core 0).queue = [] ∧ s.inReach d = true ∧ s.headFull 0 d = false ∧
      (memAt s 0 w).toNat % insSize w = 0 ∧ s.decode (memAt s 0 w) = .there d o ∧ (s.core 0).Fetchable 8 ∧ s.Issues 0 w 0x200 (legalLd w) [insRd w, insRs1 w] ∧
      insFar w = true ∧ (s.core 0).lookup d o = some l ∧ l.data.length = 64) ∧
    (∃ (s : State) (w : Word) (d : Coord) (o : Nat), (s.core 0).queue = [] ∧ s.inReach d = true ∧ s.headFull 0 d = false ∧
      (memAt s 0 w).toNat % insSize w = 0 ∧ s.decode (memAt s 0 w) = .there d o ∧ (s.core 0).Fetchable 8 ∧ s.Issues 0 w 0x200 (legalLd w) [insRd w, insRs1 w] ∧
      insFar w = true ∧ (s.core 0).lookup d o = none ∧ s.redirect (.ctx (s.core 0).ctx) d (o / 64 * 64) 64 = d ∧ d ≠ s.self) ∧
    (∃ (s : State) (w : Word) (d : Coord) (o : Nat), (s.core 0).queue = [] ∧ s.inReach d = true ∧ s.headFull 0 d = false ∧
      (memAt s 0 w).toNat % insSize w = 0 ∧ s.decode (memAt s 0 w) = .there d o ∧ (s.core 0).Fetchable 8 ∧ s.Issues 0 w 0x300 (legalSt w) [insRd w, insRs1 w]) ∧
    ∃ (s : State) (w : Word) (d : Coord) (o : Nat), (s.core 0).queue = [] ∧ s.inReach d = true ∧ s.headFull 0 d = false ∧
      s.Issues 0 w 0x407 (legalCas w) ([insRs1 w] ++ [insRd w, insRs2 w] ++ [insRs3 w]) ∧ s.decode ((s.core 0).greg (insRs1 w)) = .there d o ∧ placeOfRange o 8 ≠ .hole :=
  ⟨⟨meshed (at0 (enc 2 0 3 1 24 0) [0, far1]), enc 2 0 3 1 24 0, 1, 0, by decide, by decide, by decide, by decide, by decide, by decide, fetch _ _ (by decide),
      by constructor <;> decide, by decide, by decide, by decide⟩,
   ⟨(meshed (at0 (enc 2 0 3 1 26 0) [0, far1])).mapCore 0 fun c => { c with cache := [⟨1, 0, List.replicate 64 7⟩] }, enc 2 0 3 1 26 0, 1, 0, ⟨1, 0, List.replicate 64 7⟩,
      by decide, by decide, by decide, by decide, by decide, fetch _ _ (by decide), by constructor <;> decide, by decide, by decide, by decide⟩,
   ⟨meshed (at0 (enc 2 0 3 1 26 0) [0, far1]), enc 2 0 3 1 26 0, 1, 0, by decide, by decide, by decide, by decide, by decide, fetch _ _ (by decide),
      by constructor <;> decide, by decide, by decide, by decide, by decide⟩,
   ⟨meshed (at0 (enc 3 0 3 1 24 0) [0, far1]), enc 3 0 3 1 24 0, 1, 0, by decide, by decide, by decide, by decide, by decide, fetch _ _ (by decide),
      by constructor <;> decide⟩,
   ⟨meshed (at0 (enc 4 7 3 1 2 (4 * 2 ^ 28)) [0, far1]), enc 4 7 3 1 2 (4 * 2 ^ 28), 1, 0, by decide, by decide, by decide, by constructor <;> decide, by decide, by decide⟩⟩

/-- An 8-byte load from `a`. -/
def loading0 (a : Word) : State := meshed (at0 (enc 2 0 3 1 24 0) [0, a])

/-- A load of each kind that traps, each at the edge of its clause. -/
theorem witness_bad_accesses : (∃ (s : State) (w : Word), s.Issues 0 w 0x200 (legalLd w) [insRd w, insRs1 w] ∧ (s.core 0).trapActive = false ∧
      (s.core 0).tvec.getLsbD 0 = true ∧ (memAt s 0 w).toNat % insSize w ≠ 0) ∧
    (∃ (s : State) (w : Word), s.Issues 0 w 0x200 (legalLd w) [insRd w, insRs1 w] ∧ (memAt s 0 w).toNat % insSize w = 0 ∧ (s.core 0).queue = [] ∧
      s.decode (memAt s 0 w) = .format) ∧
    (∃ (s : State) (w : Word), s.Issues 0 w 0x200 (legalLd w) [insRd w, insRs1 w] ∧ (memAt s 0 w).toNat % insSize w = 0 ∧ (s.core 0).queue = [] ∧
      s.decode (memAt s 0 w) = .bound) ∧
    (∃ (s : State) (w : Word) (o : Nat), s.Issues 0 w 0x200 (legalLd w) [insRd w, insRs1 w] ∧ (memAt s 0 w).toNat % insSize w = 0 ∧ (s.core 0).queue = [] ∧
      s.decode (memAt s 0 w) = .here o ∧ placeOfRange o (insSize w) = .hole) ∧
    (∃ (s : State) (w : Word) (o : Nat), s.Issues 0 w 0x200 (legalLd w) [insRd w, insRs1 w] ∧ (memAt s 0 w).toNat % insSize w = 0 ∧ (s.core 0).queue = [] ∧
      s.decode (memAt s 0 w) = .here o ∧ placeOfRange o (insSize w) = .setup 0) ∧
    ∃ (s : State) (w : Word) (d : Coord) (o : Nat), s.Issues 0 w 0x200 (legalLd w) [insRd w, insRs1 w] ∧ (memAt s 0 w).toNat % insSize w = 0 ∧
      (s.core 0).queue = [] ∧ s.decode (memAt s 0 w) = .there d o ∧ s.inReach d = false :=
  ⟨⟨loading0 7, enc 2 0 3 1 24 0, by constructor <;> decide, by decide, by decide, by decide⟩,
   ⟨loading0 0xC000000000000000, enc 2 0 3 1 24 0, by constructor <;> decide, by decide, by decide, by decide⟩,
   ⟨loading0 0x4002000000000000, enc 2 0 3 1 24 0, by constructor <;> decide, by decide, by decide, by decide⟩,
   ⟨loading0 0x022E00000000, enc 2 0 3 1 24 0, 0x022E00000000, by constructor <;> decide, by decide, by decide, by decide, by decide⟩,
   ⟨loading0 0xFE0000000000, enc 2 0 3 1 24 0, 0xFE0000000000, by constructor <;> decide, by decide, by decide, by decide, by decide⟩,
   ⟨{ loading0 0x4100000000000000 with fab := { Fabric.reset with topo0 := ⟨[(24, 1)], true, false⟩ } }, enc 2 0 3 1 24 0, 0x100, 0, by constructor <;> decide, by decide,
    by decide, by decide, by decide⟩⟩

/-- Core 0 waits in HALT for its launch of descriptor 0 of ring 0. -/
def halting0 : State :=
  { State.reset.mapCore 0 fun c => { c with run := .waiting, wait := .halt, tvec := 0x1001, launch := some ⟨0, 0, 0⟩ } with
    descs := [⟨0, 0, [0x11, 0, 0, 0, 1, 2, 3, 4], 0x11, .started, .ok, 0, 0, 0, none, [], [], false, false, 0⟩] }

theorem witness_halt : (∃ (s : State) (w : Word), s.Issues 0 w 0x905 (legalNone w) []) ∧
    (∃ (s : State) (l : Launch), (s.core 0).run = .waiting ∧ (s.core 0).wait = .halt ∧ (s.core 0).queue = [] ∧ s.accessesOut 0 = false ∧
      (s.core 0).launch = some l ∧ (s.core 0).pendingTraps = [] ∧ (s.core 0).bwFail = []) ∧
    ∃ (s : State) (f : Trap), (s.core 0).run = .waiting ∧ (s.core 0).wait = .halt ∧ (s.core 0).queue = [] ∧ s.accessesOut 0 = false ∧
      (s.core 0).pendingTraps = [f] ∧ (s.core 0).trapActive = false ∧ (s.core 0).tvec.getLsbD 0 = true :=
  ⟨⟨at0 (enc 9 5 0 0 0 0) [], enc 9 5 0 0 0 0, by constructor <;> decide⟩,
   ⟨halting0, ⟨0, 0, 0⟩, by decide, by decide, by decide, by decide, by decide, by decide, by decide⟩,
   ⟨halting0.mapCore 0 fun c => { c with pendingTraps := [⟨6, .poison, 0, 0⟩] }, ⟨6, .poison, 0, 0⟩, by decide, by decide, by decide, by decide, by decide, by decide, by decide⟩⟩

/-- R82: the halted core and its completed descriptor. -/
theorem test_halt_done : ((nx (exec (.haltDone 0) halting0)).core 0).run = .halted ∧ (nx (exec (.haltDone 0) halting0)).descs.map (·.status) = [.ok] ∧
    (nx (exec (.haltDone 0) halting0)).descs.map (·.phase) = [.done] := by decide

/-- A WAITV of the first word of cluster 0's SRAM. -/
def waiting0 (count : Word) : State := granted (at0 (enc 9 6 3 1 0 0) [0, sram, count])

/-- The same word while it waits. -/
def waiting1 : State := (waiting0 1).mapCore 0 fun c => { c with run := .waiting, wait := .waitv }

theorem watches0 : Watches (waiting0 1) 0 (enc 9 6 3 1 0 0) 0xF00000000000 := by
  refine ⟨by decide, permits_sram _ _ _ _ _ (by decide) ?_, ⟨by decide, by decide, ?_, by decide⟩⟩
  all_goals intro x hx; cases hx
  · exact ⟨by decide, by decide, by decide⟩
  · decide
theorem watches1 : Watches waiting1 0 (waiting1.core 0).fetched 0xF00000000000 := by
  refine ⟨by decide, permits_sram _ _ _ _ _ (by decide) ?_, ⟨by decide, by decide, ?_, by decide⟩⟩
  all_goals intro x hx; cases hx
  · exact ⟨by decide, by decide, by decide⟩
  · decide

theorem witness_waitv : (∃ (s : State) (w : Word) (o : Nat), s.Issues 0 w 0x906 (legalWaitv w) [insRd w, insRs1 w, insRs1 w + 1] ∧ (s.core 0).Fetchable 8 ∧
      ((s.core 0).greg (insRs1 w)).toNat % 8 = 0 ∧ Watches s 0 w o) ∧
    ∃ (s : State) (o : Nat), (s.core 0).run = .waiting ∧ (s.core 0).wait = .waitv ∧ (s.core 0).Fetchable 8 ∧ (s.core 0).pendingTraps = [] ∧
      Watches s 0 (s.core 0).fetched o :=
  ⟨⟨waiting0 1, enc 9 6 3 1 0 0, 0xF00000000000, by constructor <;> decide, fetch _ _ (by decide), by decide, watches0⟩,
   ⟨waiting1, 0xF00000000000, by decide, by decide, fetch _ _ (by decide), by decide,
    watches1⟩⟩

/-- R77: an equal value with a count of zero ends at once, with p7 = 0; with a count it waits. -/
theorem test_waitv_zero_count : ((nx (exec (.waitv 0 (enc 9 6 3 1 0 0)) (waiting0 0))).core 0).pc = 8 ∧
    ((nx (exec (.waitv 0 (enc 9 6 3 1 0 0)) (waiting0 1))).core 0).wait = .waitv := by decide

theorem witness_bwait : ∃ (s : State) (w : Word), s.Issues 0 w 0x907 (legalBwait w) [] ∧ (s.core 0).Fetchable 8 ∧ (s.core 0).queue.length ≤ insImm12 w :=
  ⟨at0 (enc 9 7 0 0 0 0) [], enc 9 7 0 0 0 0, by constructor <;> decide, fetch _ _ (by decide), by decide⟩

/-- A started LAUNCH of core 0 at 0x800 with arguments 11 to 14. -/
def launching0 : State :=
  { State.reset with launchQ := [⟨0, 0, 0⟩], descs := [⟨0, 0, [0x11, 0, 5, 0x80000, 11, 12, 13, 14], 0x11, .working, .ok, 0, 0, 0, none, [], [], false, false, 0⟩] }

theorem witness_launch : (∃ (s : State) (l : Launch) (d : Desc), s.nextLaunch 0 = some (l, d) ∧ ((s.core 0).run = .idle ∨ (s.core 0).run = .halted)) ∧
    ∃ (s : State) (l : Launch) (d : Desc), s.nextLaunch 0 = some (l, d) ∧
      ((s.core 0).run = .trapHalted ∨ (s.core 0).run = .fenced ∨ (s.core 0).run = .retired) :=
  ⟨⟨launching0, ⟨0, 0, 0⟩, ⟨0, 0, [0x11, 0, 5, 0x80000, 11, 12, 13, 14], 0x11, .working, .ok, 0, 0, 0, none, [], [], false, false, 0⟩, by decide, by decide⟩,
   ⟨launching0.mapCore 0 fun c => { c with run := .retired }, ⟨0, 0, 0⟩, ⟨0, 0, [0x11, 0, 5, 0x80000, 11, 12, 13, 14], 0x11, .working, .ok, 0, 0, 0, none, [], [], false, false, 0⟩,
    by decide, by decide⟩⟩

/-- R63, R206: g4 is the last argument word, the core starts at the entry, and runs. -/
theorem test_launch : ((nx (exec (.coreLaunch 0) launching0)).core 0).greg 4 = 14 ∧ ((nx (exec (.coreLaunch 0) launching0)).core 0).pc = 0x800 ∧
    ((nx (exec (.coreLaunch 0) launching0)).core 0).run = .running := by decide

/-! ### Witnesses: broad instructions, memory controllers, banks -/

/-- The words of a FARINV of all lines, a SYNC of barrier 0 with COUNT 1, a CWAIT. -/
def wFarinvAll : BroadWords := ⟨enc 0xF 0x34 0 0 0 0, 0, 0, 0⟩

/-- A queue entry with the words `w`. -/
def entry (w : BroadWords) (p : BPhase) (left : Nat) : Broad := ⟨0, 0x20, w, 0, 0, 0, 0, false, 0, 0, p, .ok, left, [], none, [], false, none⟩

/-- Core 0 at four words at address 0. -/
def broadAt (w : BroadWords) : State := (at0 w.w0 []).mapCore 0 fun c => { c with imem := [(0, w.w0), (1, w.w1), (2, w.w2), (3, w.w3)] }

theorem witness_broad_enters :
    (∃ e ∈ broadRows, ∃ (s : State) (b : BroadWords), IssuesBroad s 0 b e.2 ∧ (s.core 0).guard b.w0 = true ∧ s.regsReady 0 [b.ga, b.gb, b.gc, b.gd] = true ∧
      (s.core 0).queue.length < 8) ∧
    (∃ e ∈ broadRows, ∃ (s : State) (b : BroadWords), IssuesBroad s 0 b e.2 ∧ (s.core 0).guard b.w0 = false) ∧
    (∃ e ∈ broadRows, ∃ (s : State) (b : BroadWords), IssuesBroad s 0 b e.2 ∧ (s.core 0).guard b.w0 = true ∧ (s.core 0).queue.length = 8) ∧
    ∃ e ∈ broadRows, ∃ (s : State) (b : BroadWords), s.canIssue 0 b.w0 = true ∧ insCode b.w0 = 0xF00 + e.2 ∧ (s.core 0).pc.toNat % 32 ≠ 0 ∧
      (s.core 0).trapActive = false ∧ (s.core 0).tvec.getLsbD 0 = true := by
  have hm : ((.farinv, 0x34) : (CoreId → BroadWords → Instr) × Nat) ∈ broadRows := by simp [broadRows]
  refine ⟨⟨_, hm, broadAt wFarinvAll, wFarinvAll, ⟨by decide, by decide, by decide, by decide, by decide, by decide, fetch _ _ (by decide)⟩, by decide, by decide, by decide⟩,
    ⟨_, hm, broadAt ⟨enc 0xF 0x834 0 0 0 0, 0, 0, 0⟩, ⟨enc 0xF 0x834 0 0 0 0, 0, 0, 0⟩,
      ⟨by decide, by decide, by decide, by decide, by decide, by decide, fetch _ _ (by decide)⟩, by decide⟩,
    ⟨_, hm, (broadAt wFarinvAll).mapCore 0 fun c => { c with queue := List.replicate 8 (entry wFarinvAll .queued 0) }, wFarinvAll,
      ⟨by decide, by decide, by decide, by decide, by decide, by decide, fetch _ _ (by decide)⟩, by decide, by decide⟩,
    ⟨_, hm, (broadAt wFarinvAll).mapCore 0 fun c => { c with pc := 8, imem := [(1, wFarinvAll.w0)] }, wFarinvAll, by decide, by decide, by decide, by decide, by decide⟩⟩

/-- Core 0 runs with this queue. -/
def queued (q : List Broad) : State := (at0 0 []).mapCore 0 fun c => { c with queue := q }

theorem witness_broad_retires :
    (∃ (s : State) (b : Broad), (s.core 0).queue = [b] ∧ b.phase = .finished ∧ s.coresPaused = false ∧ b.status = .ok ∧ (s.core 0).halting = none ∧
      (s.core 0).wait ≠ .bwait) ∧
    ∃ (s : State) (b x : Broad), (s.core 0).queue = [b, x] ∧ b.phase = .finished ∧ x.phase = .queued ∧ s.coresPaused = false ∧ b.status ≠ .ok ∧
      (s.core 0).halting = none ∧ (s.core 0).run = .running ∧ (s.core 0).wait = .none ∧ (s.core 0).pendingTraps = [] ∧ (s.core 0).trapActive = false ∧
      (s.core 0).tvec.getLsbD 0 = true :=
  ⟨⟨queued [entry wFarinvAll .finished 0], entry wFarinvAll .finished 0, by decide, by decide, by decide, by decide, by decide, by decide⟩,
   ⟨queued [{ entry wFarinvAll .finished 0 with status := .format }, { entry wFarinvAll .queued 0 with id := 1 }], { entry wFarinvAll .finished 0 with status := .format },
    { entry wFarinvAll .queued 0 with id := 1 }, by decide, by decide, by decide, by decide, by decide, by decide, by decide, by decide, by decide, by decide, by decide⟩⟩

/-- R85: a FORMAT retirement discards the queued one and raises BROAD_FAULT, cause 9, at the instruction's own address. -/
theorem test_broad_fault :
    ((nx (exec (.broadRetire 0) (queued [{ entry wFarinvAll .finished 0 with status := .format }, { entry wFarinvAll .queued 0 with id := 1 }]))).core 0).cause = 9 ∧
    ((nx (exec (.broadRetire 0) (queued [{ entry wFarinvAll .finished 0 with status := .format }, { entry wFarinvAll .queued 0 with id := 1 }]))).core 0).bdiscard = 1 ∧
    ((nx (exec (.broadRetire 0) (queued [{ entry wFarinvAll .finished 0 with status := .format }, { entry wFarinvAll .queued 0 with id := 1 }]))).core 0).tinst = 0x20 := by
  decide

/-- A ready group of two members on devices 0 and 1, of which this is rank 0. -/
def grp0 : Group := ⟨0, some 0, 7, 0, 1, [(0, 0), (1, 1)], 0, 0, 0, 0, 2, 1, none, 0, 1, 0, [], 0, none, [], [], [], [], none⟩

theorem witness_broad_start :
    (∃ (s : State) (b : Broad), (s.core 0).queue = [b] ∧ b.phase = .queued ∧ b.w.op = 0x34 ∧ s.coresPaused = false ∧ b.w.dest = true) ∧
    (∃ (s : State) (b : Broad), (s.core 0).queue = [b] ∧ b.phase = .queued ∧ b.w.op = 0x34 ∧ s.coresPaused = false ∧ b.w.dest = false ∧ b.gb.toNat < 2 ^ 32) ∧
    (∃ (s : State) (b : Broad), (s.core 0).syncHead = some b) ∧
    ∃ (s : State) (b : Broad), (s.core 0).queue = [b] ∧ b.phase = .started ∧ b.w.op = 0x31 ∧
      s.cwait b.w.group (BitVec.ofNat 32 b.ga.toNat) b.w.spec b.gb.toNat b.gc.toNat = none :=
  ⟨⟨queued [entry ⟨enc 0xF 0x34 0 0 0 0, 0, 2 ^ 63, 0⟩ .queued 0], entry ⟨enc 0xF 0x34 0 0 0 0, 0, 2 ^ 63, 0⟩ .queued 0, by decide, by decide, by decide, by decide, by decide⟩,
   ⟨queued [entry wFarinvAll .queued 0], entry wFarinvAll .queued 0, by decide, by decide, by decide, by decide, by decide, by decide⟩,
   ⟨queued [entry ⟨enc 0xF 0x33 0 0 0 0, 0, 0, 0⟩ .started 1], entry ⟨enc 0xF 0x33 0 0 0 0, 0, 0, 0⟩ .started 1, by decide⟩,
   ⟨{ queued [{ entry ⟨enc 0xF 0x31 0 0 0 0, 0, 0, 0⟩ .started 0 with ga := 1 }] with groups := [grp0] }, { entry ⟨enc 0xF 0x31 0 0 0 0, 0, 0, 0⟩ .started 0 with ga := 1 }, by decide, by decide, by decide, by decide⟩⟩

/-- R125: a FARINV of all lines empties the cache and ends with OK. -/
theorem test_farinv_all : ((nx (exec (.broadStart 0) ((queued [entry ⟨enc 0xF 0x34 0 0 0 0, 0, 2 ^ 63, 0⟩ .queued 0]).mapCore 0 fun c =>
    { c with cache := [⟨1, 0, []⟩] }))).core 0).cache = [] := by decide

/-- SRAM unit 0 of cluster 0. -/
def unit0 : Nat := 0xF00000000000

theorem witness_scrub : ∃ (s : State) (u : Nat), Scrubbed s u ∧ s.sectors u = 0 :=
  ⟨State.reset.setReg Reg.MEM_SCRUB_CFG (-1), unit0, ⟨by decide, .inr (.inl ⟨0, by decide⟩), by decide, by decide, by decide, by decide, by decide⟩, by decide⟩
theorem witness_poison : ∃ (s : State) (u : Nat), u % 64 = 0 ∧ s.unitFenced u = false ∧ s.failsafe = false ∧ s.ecc = [] ∧ s.sectors u = 0 ∧ s.poisoned u = true :=
  ⟨{ State.reset with poison := [unit0] }, unit0, by decide, by decide, by decide, by decide, by decide, by decide⟩

/-- R175: a write of a whole poisoned unit clears POISON; a shorter one leaves it. -/
theorem test_poison_cleared : ((({ State.reset with poison := [unit0] }.store .ranger unit0 (List.replicate 64 9)).2).poisoned unit0) = false ∧
    ((({ State.reset with poison := [unit0] }.store .ranger unit0 (List.replicate 63 9)).2).poisoned unit0) = true := by decide

/-- R186: a refill adds half the rate, in half bytes, and stops at half the depth. -/
theorem test_refill : Maps.get 0 (nx (exec (.regulatorRetest 3 1 10) (State.reset.setFld (Reg.MEM_CTX 3) Reg.MEM_CTX_RATE 6 |>.setFld (Reg.MEM_CTX 3) Reg.MEM_CTX_DEPTH 1))).buckets 7 = 60 ∧
    Maps.get 0 (nx (exec (.regulatorRetest 3 1 10000) (State.reset.setFld (Reg.MEM_CTX 3) Reg.MEM_CTX_RATE 6 |>.setFld (Reg.MEM_CTX 3) Reg.MEM_CTX_DEPTH 1))).buckets 7 = 1024 := by
  decide

theorem witness_channel_fails :
    (∃ (s : State) (pc : PhysChan) (sp : Nat), s.mayUse .mgmt = true ∧ s.memChState pc = 0 ∧ s.freeSpare (dieOfPhys pc) = some sp ∧ sp ≠ pc) ∧
    (∃ (s : State) (pc : PhysChan) (l sp : Nat), s.memChState pc = 2 ∧ s.servedBy pc = some l ∧ s.freeSpare (dieOfPhys pc) = some sp) ∧
    ∃ (s : State) (pc : PhysChan) (l : Nat), s.memChState pc = 3 ∧ s.servedBy pc = some l :=
  ⟨⟨State.reset.setMemChState 48 1 |>.setMemChState 0 0, 0, 48, by decide, by decide, by decide, by decide⟩,
   ⟨(State.reset.setMemChState 48 1 |>.setMemChState 0 2), 0, 0, 48, by decide, by decide, by decide⟩,
   ⟨State.reset.setMemChState 48 3 |>.setFld (Reg.MEM_CHMAP 0) Reg.MEM_CHMAP_PHYS 48, 48, 0, by decide, by decide⟩⟩

/-- R185: the recalibrated spare of the own die serves the channel. -/
theorem test_spare : (nx (exec (.spareRecalibrated 0) (State.reset.setMemChState 48 1 |>.setMemChState 0 2))).pchan 0 = 48 := by decide

/-- R193: MODE is taken in state 4 and reads 0 in state 0. -/
theorem test_loopback : (nx (exec (.loopbackMode .mgmt 5 2) (State.reset.setMemChState 5 4))).fld (Reg.MEM_CH_LB 5) Reg.MEM_CH_LB_MODE = 2 ∧
    (nx (exec (.loopbackMode .mgmt 5 2) (State.reset.setMemChState 5 0))).fld (Reg.MEM_CH_LB 5) Reg.MEM_CH_LB_MODE = 0 := by decide

theorem witness_temperature : ∃ (s : State) (t : BitVec 8), (thermT s 2 : Int) ≤ t.toInt ∧ (∀ j, 2 < j → j ≤ 3 → t.toInt < (thermT s j : Int)) ∧
    Maps.get 0 s.power.pkg 25 = 0 ∧ s.power.west = 0 ∧ s.power.east = 0 ∧ s.fld (Reg.MEM_PKG_TEMP 25) Reg.MEM_PKG_TEMP_LEVEL = 0 :=
  ⟨State.reset.setReg Reg.MEM_THERM_CFG 0x5F554B05, 0x55, by decide, by intro j h1 h2; obtain rfl : j = 3 := by omega
                                                                        decide, by decide, by decide, by decide, by decide⟩

theorem witness_dirty :
    (∃ s : State, s.mayUse .mgmt = true ∧ s.fld Reg.SNAP_CFG Reg.SNAP_CFG_ENABLE = 0 ∧ s.fld Reg.MEM_DIRTY_CTRL Reg.MEM_DIRTY_CTRL_ENABLE = 0 ∧
      s.fld Reg.MEM_DIRTY_STATUS Reg.MEM_DIRTY_STATUS_BUSY = 0 ∧ s.fld Reg.MEM_DIRTY_BASE Reg.MEM_DIRTY_BASE_BASE * 4096 + 142976 ≤ lpddrTop) ∧
    ∃ s : State, s.mayUse .mgmt = true ∧ s.fld Reg.SNAP_CFG Reg.SNAP_CFG_ENABLE = 0 ∧ s.fld Reg.MEM_DIRTY_STATUS Reg.MEM_DIRTY_STATUS_BUSY = 1 :=
  ⟨⟨State.reset, by decide, by decide, by decide, by decide, by decide⟩,
   ⟨State.reset.setFld Reg.MEM_DIRTY_STATUS Reg.MEM_DIRTY_STATUS_BUSY 1, by decide, by decide, by decide⟩⟩

/-- Descriptor 0 of ring 0, at work, of type `typ`, its word 0x18 zero. -/
def work0 (typ : Byte) : Desc := ⟨0, 0, [typ.setWidth 64, 0, 0, 0, 0, 0, 0, 0], typ, .working, .ok, 0, 0, 0, none, [], [], false, false, if typ = 0x12 then 1 else 0⟩

/-- LPDDR6 answers, the dirty bitmap of the last SWAP still to be written. -/
def busy0 : State := (State.reset.setFld Reg.MEM_STATUS Reg.MEM_STATUS_LPDDR_UP 1).setFld Reg.MEM_DIRTY_STATUS Reg.MEM_DIRTY_STATUS_BUSY 1

theorem busy0_channels : ∀ l < 96, (busy0.fld (Reg.MEM_CH_STATE (busy0.fld (Reg.MEM_CHMAP l) Reg.MEM_CHMAP_PHYS)) Reg.MEM_CH_STATE_STATE) = 0 := by decide
theorem busy0_up : busy0.lpddrUp = true := by decide
theorem busy0_answers (u : Nat) (h : u < lpddrTop) : busy0.unitFenced u = false := by
  have hp : placeOf u = .lpddr := by simp [placeOf, h]
  have hl : lchan u < 96 := Nat.mod_lt _ (by decide)
  have hc := busy0_channels (lchan u) hl
  simp only [State.unitFenced, hp, busy0_up, State.pchan, hc]
  decide

theorem witness_bitmap_written : ∃ s : State, s.fld Reg.MEM_DIRTY_STATUS Reg.MEM_DIRTY_STATUS_BUSY = 1 ∧
    s.Clean .ranger (s.fld Reg.MEM_DIRTY_BASE Reg.MEM_DIRTY_BASE_BASE * 4096) 142976 := by
  refine ⟨busy0, by decide, ⟨fun u hu => ⟨busy0_answers u ?_, rfl⟩, rfl, fun x hx => (Auth.noConfusion hx), rfl⟩⟩
  have hb : busy0.fld Reg.MEM_DIRTY_BASE Reg.MEM_DIRTY_BASE_BASE = 0 := by decide
  rw [hb] at hu
  rw [unitsOf, if_neg (by decide), List.mem_map] at hu
  simp only [List.mem_range] at hu
  obtain ⟨i, hi, rfl⟩ := hu
  have : lpddrTop > 1000000 := by decide
  omega

theorem witness_table_flips :
    (∃ (s : State) (d : Desc), (s.core 0).flips = [⟨true, 0, none, some (0, 0)⟩] ∧ s.desc 0 0 = some d ∧ d.phase = .working ∧ d.typ = 0x12 ∧
      coreOf (d.words.getD 3 0) = 0) ∧
    (∃ s : State, (s.core 0).flips = [⟨true, 0, some 5, none⟩] ∧ (s.core 0).shadowStb.accepted = true) ∧
    (∃ s : State, (s.core 0).flips = [⟨true, 0, some 5, none⟩] ∧ (s.core 0).shadowStb.accepted = false) ∧
    (∃ (s : State) (d : Desc) (j : Nat), (s.core 0).stbLoading = true ∧ s.loadOn 0 0x12 = some d ∧ (s.core 0).shadowStb.check = .error j) ∧
    ∃ (s : State) (d : Desc) (hs : List Nat), (s.core 0).stbLoading = true ∧ s.loadOn 0 0x12 = some d ∧ (s.core 0).shadowStb.check = .ok hs ∧
      bits (d.words.getD 3 0) 8 8 = 0 :=
  ⟨⟨{ State.reset.mapCore 0 fun c => { c with flips := [⟨true, 0, none, some (0, 0)⟩] } with descs := [work0 0x12] }, work0 0x12, by decide, by decide, by decide, by decide, by decide⟩,
   ⟨State.reset.mapCore 0 fun c => { c.setShadowStb ⟨[], true, []⟩ with flips := [⟨true, 0, some 5, none⟩] }, by decide, by decide⟩,
   ⟨State.reset.mapCore 0 fun c => { c with flips := [⟨true, 0, some 5, none⟩] }, by decide, by decide⟩,
   ⟨{ State.reset.mapCore 0 fun c => { c.setShadowStb ⟨[(0, 1)], false, []⟩ with stbLoading := true } with descs := [work0 0x12] }, work0 0x12, 0, by decide, by decide, by rfl⟩,
   ⟨{ State.reset.mapCore 0 fun c => { c with stbLoading := true } with descs := [work0 0x12] }, work0 0x12, [], by decide, by decide, by rfl, by decide⟩⟩

/-- R130: an entry with neither a header nor a step before it is refused at its own index. -/
theorem test_bad_table : (nx (exec (.stepTableValidated 0) { State.reset.mapCore 0 fun c => { c.setShadowStb ⟨[(3, 1)], false, []⟩ with stbLoading := true } with
    descs := [work0 0x12] })).descs.map (fun d => (d.status, d.r0)) = [(.tableRejected, 3)] := by decide

theorem witness_slot_tables : ∃ (s : State) (d : Desc), ((s.core 0).slot 0).loading = true ∧ s.loadOn 0 0x13 = some d :=
  ⟨{ State.reset.mapCore 0 (fun c => c.mapSlot 0 fun sl => { sl with loading := true }) with descs := [work0 0x13] }, work0 0x13, by decide, by decide⟩

/-! ### Witnesses: the setup window and work rings -/

theorem witness_setup_window :
    (∃ (s : State) (src : Source) (off : BitVec 24) (r : RegName) (is : List Nat), s.mayUse src = true ∧ off.toNat % 8 = 0 ∧ regAt off.toNat = some (r, is) ∧
      r ∉ subjectRegs) ∧
    (∃ (s : State) (src : Source) (off : BitVec 24), s.mayUse src = true ∧ badAccess 8 off.toNat = true) ∧
    (∃ (s : State) (src : Source) (off : BitVec 24), s.mayUse src = true ∧ badAccess 8 off.toNat = false ∧ regAt (off.toNat / 8 * 8) = none) ∧
    ∃ off : BitVec 24, off.toNat % 8 = 0 ∧ off.toNat ≠ Reg.PRES_REQ :=
  ⟨⟨State.reset, .mgmt, BitVec.ofNat 24 Reg.MEM_SCRUB_CFG, .MEM_SCRUB_CFG, [], by decide, by decide, by decide, by decide⟩,
   ⟨State.reset, .mgmt, 4, by decide, by decide⟩, ⟨State.reset, .mgmt, 0xFFFFF8, by decide, by decide, by decide⟩, ⟨0, by decide, by decide⟩⟩

/-- R8, R442: an RWL field takes a write until SETUP_LOCK, and not after it. -/
theorem test_setup_lock : (nx (exec (.setupWrite .mgmt 8 (BitVec.ofNat 24 Reg.MEM_THERM_CFG) 0x5F554B05) State.reset)).reg Reg.MEM_THERM_CFG = 0x5F554B05 ∧
    (nx (exec (.setupWrite .mgmt 8 (BitVec.ofNat 24 Reg.MEM_THERM_CFG) 0) (nx (exec (.setupLock .mgmt) State.reset)))).reg Reg.MEM_THERM_CFG = State.reset.reg Reg.MEM_THERM_CFG := by
  decide

/-- Ring 0 is a system ring of `2 ^ 4` slots in cluster 0's SRAM, its slots at `sram`, its records 4 KiB on. -/
def ring0 : State :=
  (State.reset.setReg (Reg.RING_CFG 0) (BitVec.ofNat 64 (2 ^ 63 + 2 ^ 61 + 4 * 2 ^ 35 + 2 ^ 30))).setReg (Reg.RING_BASE 0) sram |>.setReg (Reg.RING_CPL 0) (sram + 4096)

/-- The first bytes of cluster 0's SRAM answer Ranger. -/
theorem answers_sram (s : State) (a : Auth) (o n : Nat) (h : ∀ u ∈ unitsOf o n, s.unitFenced u = false ∧ s.poisoned u = false) (he : s.ecc = [])
    (hf : s.failsafe = false) (ha : a = .ranger) : s.Clean a o n := ⟨h, he, fun _ hx => Auth.noConfusion (ha.symm.trans hx), hf⟩
theorem allows_ranger (s : State) (k : Kind) (b : Bool) (w : Who) (o n : Nat) (c : Nat) (hp : placeOfRange o n = .sram c) (hw : w.auth = .ranger) : s.Permits w k b o n :=
  ⟨.inr (.inl ⟨c, hp⟩), fun _ hx => Auth.noConfusion (hw.symm.trans hx)⟩

/-- A doorbell word of ring 0. -/
def bell (p : Nat) : Word := BitVec.ofNat 64 p

theorem witness_rings :
    (∃ (s : State) (v : Word), State.mayUse s .mgmt = true ∧ s.fld (Reg.RING_CFG 0) Reg.RING_CFG_ENABLE = 0 ∧ v.getLsbD 63 = true ∧
      (s.writeWord .RING_CFG [0] (Reg.RING_CFG 0) (setBit v 63 false) (-1)).ringOk 0 = true) ∧
    (∃ (s : State) (v : Word), State.mayUse s .mgmt = true ∧ s.fld (Reg.RING_CFG 0) Reg.RING_CFG_ENABLE = 0 ∧ v.getLsbD 63 = true ∧
      (s.writeWord .RING_CFG [0] (Reg.RING_CFG 0) (setBit v 63 false) (-1)).ringOk 0 = false) ∧
    (∃ (s : State) (v : Word), State.mayUse s .mgmt = true ∧ v.getLsbD 63 = false) ∧
    (∃ (s : State) (v : Word), State.mayUse s .mgmt = true ∧ v.getLsbD 63 = true ∧ s.fld (Reg.RING_EVT_CFG 64) Reg.RING_EVT_CFG_ENABLE = 0 ∧ 4 ≤ bits v 39 35 ∧ bits v 39 35 ≤ 20 ∧
      (s.reg (Reg.RING_EVT_BASE 64)).toNat % 32 = 0 ∧ (s.reg (Reg.RING_EVT_CIDX_ADDR 64)).toNat % 8 = 0) ∧
    (∃ (s : State) (p : Nat), State.sourceAuth s .ranger = s.ringAuth 0 ∧ s.fld (Reg.RING_CFG 0) Reg.RING_CFG_ENABLE = 1 ∧ bits (bell p) 63 48 = 0 ∧ bits (bell p) 47 32 = 0 ∧
      bits (bell p) 31 0 = 16 ∧ s.fld (Reg.RING_STATE 0) Reg.RING_STATE_PIDX = 0 ∧ s.fld (Reg.RING_STATE 0) Reg.RING_STATE_CIDX = 0 ∧ s.fld (Reg.RING_CFG 0) Reg.RING_CFG_LOG2SIZE = 4) ∧
    ∃ s : State, State.sourceAuth s (.agent 0) ≠ s.ringAuth 0 :=
  ⟨⟨State.reset, BitVec.ofNat 64 (2 ^ 63 + 4 * 2 ^ 35 + 2 ^ 30), by decide, by decide, by decide, by decide⟩,
   ⟨State.reset, BitVec.ofNat 64 (2 ^ 63 + 3 * 2 ^ 35 + 2 ^ 30), by decide, by decide, by decide, by decide⟩,
   ⟨State.reset, 0, by decide, by decide⟩,
   ⟨State.reset, BitVec.ofNat 64 (2 ^ 63 + 20 * 2 ^ 35), by decide, by decide, by decide, by decide, by decide, by decide, by decide⟩,
   ⟨ring0, 16, by decide, by decide, by decide, by decide, by decide, by decide, by decide, by decide⟩, ⟨ring0, by decide⟩⟩

/-- R199: an advance by the ring's size is taken, by one more is rejected, an advance by 0 changes nothing. -/
theorem test_doorbell : (nx (exec (.doorbell .ranger 0 0 8 (bell 16)) ring0)).fld (Reg.RING_STATE 0) Reg.RING_STATE_PIDX = 16 ∧
    (nx (exec (.doorbell .ranger 0 0 8 (bell 17)) ring0)).fld (Reg.RING_STATE 0) Reg.RING_STATE_PIDX = 0 := by decide

/-- The offset of `sram`. -/
def sram0 : Nat := 0xF00000000000

/-- A NOP in slot 0 of ring 0, its SEQ this byte, the producer index 1. -/
def slot0 (seq : Byte) : State := { ring0.setFld (Reg.RING_STATE 0) Reg.RING_STATE_PIDX 1 with mem := putBytes (putBytes [] sram0 [1]) (sram0 + 4) [seq] }

theorem slot0_answers (seq : Byte) (o n : Nat) (hp : placeOfRange o n = .sram 0) (hu : ∀ u ∈ unitsOf o n, placeOf u = .sram 0) :
    (slot0 seq).Permits ((slot0 seq).me ((slot0 seq).ringAuth 0)) .rd false o n ∧ (slot0 seq).Clean ((slot0 seq).ringAuth 0) o n := by
  have ha : (slot0 seq).ringAuth 0 = .ranger := (by decide : ring0.ringAuth 0 = .ranger)
  refine ⟨allows_ranger _ _ _ _ _ _ 0 hp (by rw [ha]; rfl), answers_sram _ _ _ _ (fun u h => ⟨?_, rfl⟩) rfl rfl ha⟩
  rw [State.unitFenced, hu u h]
  rfl

/-- Ring 0's oldest descriptor is a NOP that ended with BOUND. -/
def ended0 (flags : Nat) : State :=
  { ring0.setReg (Reg.RING_FLAGS 0) (BitVec.ofNat 64 flags) with descs := [{ work0 1 with phase := .done, status := .bound }] }

theorem witness_descriptor_start :
    (∃ (s : State) (o : Nat) (f : Fetch), s.decode (s.reg (Reg.RING_BASE 0) + BitVec.ofNat 64 (64 * ((s.nextIndex 0).toNat % 2 ^ s.fld (Reg.RING_CFG 0) Reg.RING_CFG_LOG2SIZE))) = .here o ∧
      s.Permits (s.me (s.ringAuth 0)) .rd false o 64 ∧ s.Clean (s.ringAuth 0) o 64 ∧ s.mayStart 0 = true ∧ slotSeq (wordsOf (s.bytes o 64)) = (s.nextIndex 0).toNat ∧
      slotFlags (wordsOf (s.bytes o 64)) % 2 = 0 ∧ f.ring = 0) ∧
    (∃ (s : State) (o : Nat), s.decode (s.reg (Reg.RING_BASE 0) + BitVec.ofNat 64 (64 * ((s.nextIndex 0).toNat % 2 ^ s.fld (Reg.RING_CFG 0) Reg.RING_CFG_LOG2SIZE))) = .here o ∧
      s.Permits (s.me (s.ringAuth 0)) .rd false o 64 ∧ s.Clean (s.ringAuth 0) o 64 ∧ s.mayStart 0 = true ∧ slotSeq (wordsOf (s.bytes o 64)) ≠ (s.nextIndex 0).toNat) ∧
    (∃ s : State, s.mayStart 0 = false) ∧
    (∃ (s : State) (f : Fetch), s.fetches.find? (fun f => f.ring = 0 && !f.reading) = some f ∧ f.idx = s.nextIndex 0 ∧
      slotSeq (wordsOf (s.bytes sram0 64)) ≠ (s.nextIndex 0).toNat) ∧
    ∃ (s : State) (ws : List Word), s.fld (Reg.RING_CFG 0) Reg.RING_CFG_STOP_ON_ERROR = 0 ∧ s.fld (Reg.RING_CFG 0) Reg.RING_CFG_SYSTEM = 1 ∧ s.engineFenced 0 = false ∧
      s.startStatus 0 ws = none :=
  ⟨⟨slot0 0, sram0, ⟨0, 0, [], false⟩, by decide, (slot0_answers 0 _ _ (by decide) (by decide)).1, (slot0_answers 0 _ _ (by decide) (by decide)).2, by decide, by decide, by decide, rfl⟩,
   ⟨slot0 1, sram0, by decide, (slot0_answers 1 _ _ (by decide) (by decide)).1, (slot0_answers 1 _ _ (by decide) (by decide)).2, by decide, by decide⟩, ⟨State.reset, by decide⟩,
   ⟨{ slot0 1 with fetches := [⟨0, 0, [], false⟩] }, ⟨0, 0, [], false⟩, by decide, by decide, by decide⟩, ⟨ring0, [1], by decide, by decide, by decide, by decide⟩⟩

theorem ended0_writes (flags : Nat) : (ended0 flags).Permits ((ended0 flags).me .ranger) .wr false (sram0 + 4096) 32 ∧
    (ended0 flags).Clean .ranger (sram0 + 4096) 32 :=
  ⟨allows_ranger _ _ _ _ _ _ 0 (by decide) rfl, answers_sram _ _ _ _ (by
    intro u hu
    obtain rfl : u = sram0 + 4096 := by simpa [unitsOf, sram0] using hu
    exact ⟨rfl, rfl⟩) rfl rfl rfl⟩

theorem witness_completions : ∃ (s : State) (d : Desc) (o : Nat), Oldest s 0 d ∧ d.phase = .done ∧ d.held = false ∧ s.failsafe = false ∧ d.typ ≠ 0x10 ∧
    s.fld (Reg.RING_CFG 0) Reg.RING_CFG_SYSTEM = 1 ∧
    s.decode (s.reg (Reg.RING_CPL 0) + BitVec.ofNat 64 (32 * (d.idx.toNat % 2 ^ s.fld (Reg.RING_CFG 0) Reg.RING_CFG_LOG2SIZE))) = .here o ∧ o % 32 = 0 ∧
    s.Permits (s.me .ranger) .wr false o 32 ∧ s.Clean .ranger o 32 ∧ s.fld (Reg.RING_FLAGS 0) Reg.RING_FLAGS_FAULTED = 0 ∧
    ∃ s' : State, Oldest s' 0 d ∧ s'.fld (Reg.RING_FLAGS 0) Reg.RING_FLAGS_FAULTED = 1 ∧ s'.mayUse .mgmt = true ∧
      s'.Permits (s'.me .ranger) .wr false o 32 ∧ s'.Clean .ranger o 32 :=
  ⟨ended0 0, { work0 1 with phase := .done, status := .bound }, sram0 + 4096, ⟨by decide, by decide, by decide⟩, by decide, by decide, by decide, by decide, by decide, by decide,
    by decide, (ended0_writes 0).1, (ended0_writes 0).2, by decide,
    ended0 (2 ^ Reg.RING_FLAGS_FAULTED.lo), ⟨by decide, by decide, by decide⟩, by decide, by decide, (ended0_writes _).1, (ended0_writes _).2⟩
theorem witness_stop_on_error : ∃ (s : State) (d : Desc), Oldest s 0 d ∧ d.typ ≠ 0x10 ∧ s.fld (Reg.RING_CFG 0) Reg.RING_CFG_SYSTEM = 1 ∧ d.status ≠ .ok ∧
    s.fld (Reg.RING_CFG 0) Reg.RING_CFG_STOP_ON_ERROR = 1 :=
  ⟨(ended0 0).setFld (Reg.RING_CFG 0) Reg.RING_CFG_STOP_ON_ERROR 1, { work0 1 with phase := .done, status := .bound }, ⟨by decide, by decide, by decide⟩, by decide, by decide, by decide, by decide⟩
theorem witness_lantern : (∃ s : State, s.fld Reg.RING_LANTERN Reg.RING_LANTERN_PERIOD_US = 0) ∧
    ∃ s : State, s.fld Reg.RING_LANTERN Reg.RING_LANTERN_PERIOD_US ≠ 0 ∧ s.failsafe = false :=
  ⟨⟨State.reset.setReg Reg.RING_LANTERN 0, by decide⟩, ⟨State.reset.setReg Reg.RING_LANTERN 1, by decide, by decide⟩⟩

/-- R195, R217: the NOP starts, and its record carries the BOUND of an ended descriptor. -/
theorem test_ring : (nx (exec (.descriptorStart 0) (slot0 0))).descs.map (fun d => (d.typ, d.phase)) = [(1, .started)] ∧
    (nx (exec (.descriptorFinish 0) (ended0 0))).fld (Reg.RING_STATE 0) Reg.RING_STATE_CIDX = 1 ∧
    (nx (exec (.descriptorFinish 0) (ended0 0))).descs = [] := by decide

/-! ### Witnesses: descriptors -/

/-- Ring 0 of `s` at work on one descriptor of type `typ` with the words `ws` from word 3 on. -/
def task (typ : Byte) (ph : DPhase) (ws : List Word) : Desc := { work0 typ with words := [typ.setWidth 64, 0, 0] ++ ws, phase := ph, aux := 0 }
def tasked (d : Desc) : State := { ring0 with descs := [d] }

/-- Nothing of cluster 0's SRAM is out of use, and ring 0 is Ranger's. -/
structure Whole (s : State) : Prop where
  auth : s.ringAuth 0 = .ranger
  fenced : s.fencedClusters = []
  poison : s.poison = []
  ecc : s.ecc = []
  failsafe : s.failsafe = false

theorem Whole.clean {s : State} (h : Whole s) (o n : Nat) (hu : ∀ u ∈ unitsOf o n, placeOf u = .sram 0) : s.Clean .ranger o n :=
  answers_sram _ _ _ _ (fun u m => ⟨by rw [State.unitFenced, hu u m]; simp [h.fenced], by rw [State.poisoned, h.poison]; rfl⟩) h.ecc h.failsafe rfl
theorem Whole.source {s : State} (h : Whole s) (reach : Bool) (a n o : Nat) (hl : s.locate reach a n = .here o) (hp : placeOfRange o n = .sram 0)
    (hu : ∀ u ∈ unitsOf o n, placeOf u = .sram 0) : Readable s 0 reach a n o :=
  ⟨hl, allows_ranger _ _ _ _ _ _ 0 hp (by simp [State.me, h.auth]), by rw [h.auth]; exact h.clean o n hu⟩
theorem Whole.dest {s : State} (h : Whole s) (reach : Bool) (a n o : Nat) (hl : s.locate reach a n = .here o) (hp : placeOfRange o n = .sram 0)
    (hu : ∀ u ∈ unitsOf o n, placeOf u = .sram 0) : Writable s 0 reach a n o :=
  ⟨hl, allows_ranger _ _ _ _ _ _ 0 hp (by simp [State.me, h.auth]), by rw [h.auth]; exact h.clean o n hu⟩
theorem tasked_whole (d : Desc) : Whole (tasked d) := ⟨(by decide : ring0.ringAuth 0 = .ranger), rfl, rfl, rfl, rfl⟩

/-- A WAIT for the word at `sram` to be 0, or to be 5. -/
def waitTask (ph : DPhase) (v : Word) : Desc := task 2 ph [sram, v, 0, 1, 0]

theorem witness_sequencer_descriptors :
    (∃ (s : State) (d : Desc), s.work 0 0 0x01 .started = some d ∧ (d.words.drop 3).all (· = 0) = true) ∧
    (∃ (s : State) (d : Desc) (o : Nat), Readable s 0 true (d.word 3).toNat 8 o ∧ s.work 0 0 0x02 .started = some d ∧ WaitFormed d) ∧
    (∃ (s : State) (d : Desc) (o : Nat), Readable s 0 true (d.word 3).toNat 8 o ∧ s.work 0 0 0x02 .working = some d ∧ d.left = 0) ∧
    (∃ (s : State) (d : Desc) (o : Nat), s.work 0 0 0x03 .started = some d ∧ (d.word 3).toNat % 8 = 0 ∧ d.word 5 = 0 ∧ d.word 6 = 0 ∧ d.word 7 = 0 ∧
      Writable s 0 true (d.word 3).toNat 8 o) ∧
    (∃ (s : State) (d : Desc), s.work 0 0 0x10 .started = some d ∧ bits (d.word 3) 63 26 = 0 ∧ bits (d.word 3) 7 7 = 0 ∧ bits (d.word 3) 10 8 = 0 ∧
      (s.core (coreOf (d.word 3))).run = .idle) ∧
    (∃ (s : State) (d : Desc), s.work 0 0 0x10 .started = some d ∧ bits (d.word 3) 63 26 = 0 ∧ bits (d.word 3) 7 7 = 0 ∧ bits (d.word 3) 10 8 = 0 ∧
      (s.core (coreOf (d.word 3))).run = .retired) :=
  ⟨⟨tasked (task 1 .started []), _, rfl, by decide⟩,
   ⟨tasked (waitTask .started 5), waitTask .started 5, sram0, (tasked_whole _).source _ _ _ _ (by decide) (by decide) (by decide), by decide, ⟨by decide, by decide, by decide, by decide⟩⟩,
   ⟨tasked (waitTask .working 5), waitTask .working 5, sram0, (tasked_whole _).source _ _ _ _ (by decide) (by decide) (by decide), by decide, by decide⟩,
   ⟨tasked (task 3 .started [sram, 7, 0, 0, 0]), task 3 .started [sram, 7, 0, 0, 0], sram0, by decide, by decide, by decide, by decide, by decide,
    (tasked_whole _).dest _ _ _ _ (by decide) (by decide) (by decide)⟩,
   ⟨tasked (task 0x10 .started [0, 0, 0, 0, 0]), task 0x10 .started [0, 0, 0, 0, 0], by decide, by decide, by decide, by decide, by decide⟩,
   ⟨(tasked (task 0x10 .started [0, 0, 0, 0, 0])).mapCore 0 fun c => { c with run := .retired }, task 0x10 .started [0, 0, 0, 0, 0], by decide, by decide, by decide, by decide, by decide⟩⟩

/-- A program of one word, a step table of one entry, a table of slot 2, all at `sram`. -/
def programTask : Desc := task 0x11 .started [0, sram, 8, 0, 0]
def stepTask : Desc := task 0x12 .started [0, sram, 16, 0, 0]
def sfnTask (mask : Nat) : Desc := task 0x13 .started [BitVec.ofNat 64 (mask * 2 ^ 16), sram, 0, 0, 0]

theorem witness_loads :
    (∃ (s : State) (d : Desc) (o : Nat), s.work 0 0 0x11 .started = some d ∧ d.left = 0 ∧ bits (d.word 3) 63 26 = 0 ∧ bits (d.word 3) 7 7 = 0 ∧ bits (d.word 3) 10 8 = 0 ∧
      bits (d.word 5) 63 32 = 0 ∧ d.word 6 = 0 ∧ d.word 7 = 0 ∧ bits (d.word 5) 31 0 = 8 ∧ bits (d.word 3) 25 11 = 0 ∧ (s.core (coreOf (d.word 3))).run = .idle ∧
      Readable s 0 true (d.word 4).toNat 8 o) ∧
    (∃ (s : State) (d : Desc) (o : Nat), s.work 0 0 0x12 .started = some d ∧ d.left = 0 ∧ d.aux = 0 ∧ bits (d.word 3) 63 9 = 0 ∧ bits (d.word 3) 7 7 = 0 ∧
      bits (d.word 5) 63 32 = 0 ∧ d.word 6 = 0 ∧ d.word 7 = 0 ∧ bits (d.word 5) 31 0 = 16 ∧ (s.core (coreOf (d.word 3))).run = .idle ∧
      (s.core (coreOf (d.word 3))).oldBound = 0 ∧ (s.core (coreOf (d.word 3))).stbLoading = false ∧ s.firstLoad d = true ∧ Readable s 0 true (d.word 4).toNat 16 o) ∧
    (∃ (s : State) (d : Desc), s.work 0 0 0x13 .started = some d ∧ d.left = 0 ∧ bits (d.word 3) 63 32 = 0 ∧ bits (d.word 3) 15 9 = 0 ∧ bits (d.word 3) 7 7 = 0 ∧ d.word 5 = 0 ∧
      d.word 6 = 0 ∧ d.word 7 = 0 ∧ bits (d.word 3) 31 16 = 0) ∧
    ∃ (s : State) (d : Desc) (o : Nat), s.work 0 0 0x13 .started = some d ∧ d.left = 0 ∧ bits (d.word 3) 63 32 = 0 ∧ bits (d.word 3) 15 9 = 0 ∧ bits (d.word 3) 7 7 = 0 ∧
      d.word 5 = 0 ∧ d.word 6 = 0 ∧ d.word 7 = 0 ∧ bits (d.word 3) 31 16 = 4 ∧ nextSlot 4 0 = 2 ∧ (s.core (coreOf (d.word 3))).run ≠ .fenced ∧
      (s.core (coreOf (d.word 3))).slotBound 2 = false ∧ ((s.core (coreOf (d.word 3))).slot 2).loading = false ∧ s.firstLoad d = true ∧
      Readable s 0 true (d.word 4).toNat 3136 o :=
  ⟨⟨tasked programTask, programTask, sram0, by decide, by decide, by decide, by decide, by decide, by decide, by decide, by decide, by decide, by decide, by decide,
      (tasked_whole _).source _ _ _ _ (by decide) (by decide) (by decide)⟩,
   ⟨tasked stepTask, stepTask, sram0, by decide, by decide, by decide, by decide, by decide, by decide, by decide, by decide, by decide, by decide, by decide, by decide, by decide,
      (tasked_whole _).source _ _ _ _ (by decide) (by decide) (by decide)⟩,
   ⟨tasked (sfnTask 0), sfnTask 0, by decide, by decide, by decide, by decide, by decide, by decide, by decide, by decide, by decide⟩,
   ⟨tasked (sfnTask 4), sfnTask 4, sram0, by decide, by decide, by decide, by decide, by decide, by decide, by decide, by decide, by decide, by decide, by decide, by decide,
      by decide, by decide, (tasked_whole _).source _ _ _ _ (by decide) (by decide) (by decide)⟩⟩

/-- A COPY of `rows` rows of `len` bytes, a FILL of `len` bytes. -/
def copyTask (a b : Word) (rows len : Nat) : Desc := task 0x20 .started [a, b, BitVec.ofNat 64 (rows * 2 ^ 32 + len), 0, 0]
def fillTask (len : Nat) : Desc := task 0x21 .started [sram, 0x0807060504030201, BitVec.ofNat 64 len, 0, 0]

theorem witness_copies :
    (∃ (s : State) (d : Desc) (so od : Nat), s.work 0 0 0x20 .started = some d ∧ d.left = 0 ∧ d.failPos = none ∧ d.word 7 = 0 ∧ bits (d.word 5) 63 32 = 1 ∧ bits (d.word 5) 31 0 = 1 ∧
      Readable s 0 true (d.word 3).toNat 1 so ∧ Writable s 0 true (d.word 4).toNat 1 od ∧ so + 1 ≤ od) ∧
    (∃ (s : State) (d : Desc), s.work 0 0 0x20 .started = some d ∧ d.word 7 = 0 ∧ bits (d.word 5) 63 32 * bits (d.word 5) 31 0 = 2 ^ 32) ∧
    (∃ (s : State) (d : Desc), s.work 0 0 0x20 .started = some d ∧ d.word 7 = 0 ∧ bits (d.word 5) 63 32 * bits (d.word 5) 31 0 = 0) ∧
    (∃ (s : State) (d : Desc), s.work 0 0 0x20 .started = some d ∧ d.word 7 = 0 ∧ bits (d.word 5) 63 32 * bits (d.word 5) 31 0 = 2 ∧
      (∀ p ∈ d.copyRows, s.locate true p.src p.len = .here sram0 ∧ s.locate true p.dst p.len = .here sram0) ∧
      ∃ p ∈ d.copyRows, ∃ q ∈ d.copyRows, s.rowsClash (p.src, p.len) (q.dst, q.len) = true) ∧
    (∃ (s : State) (d : Desc), s.work 0 0 0x20 .started = some d ∧ d.word 7 = 0 ∧ bits (d.word 5) 63 32 * bits (d.word 5) 31 0 = 2 ∧
      (∀ p ∈ d.copyRows, s.locate true p.src p.len = .here sram0 ∧ s.locate true p.dst p.len = .here (sram0 + 1)) ∧
      ∀ p ∈ d.copyRows, ∀ q ∈ d.copyRows, s.rowsClash (p.src, p.len) (q.dst, q.len) = false) ∧
    ∃ (s : State) (d : Desc) (od : Nat), s.work 0 0 0x21 .started = some d ∧ d.left = 0 ∧ d.failPos = none ∧ bits (d.word 5) 63 32 = 0 ∧ d.word 6 = 0 ∧ d.word 7 = 0 ∧
      (d.word 3).toNat % 8 = 0 ∧ bits (d.word 5) 31 0 = 16 ∧ Writable s 0 true (d.word 3).toNat 16 od :=
  ⟨⟨tasked (copyTask sram (sram + 1) 1 1), copyTask sram (sram + 1) 1 1, sram0, sram0 + 1, by decide, by decide, by decide, by decide, by decide, by decide,
      (tasked_whole _).source _ _ _ _ (by decide) (by decide) (by decide), (tasked_whole _).dest _ _ _ _ (by decide) (by decide) (by decide), by decide⟩,
   ⟨tasked (copyTask sram sram 2 (2 ^ 31)), copyTask sram sram 2 (2 ^ 31), by decide, by decide, by decide⟩,
   ⟨tasked (copyTask sram sram 0 9), copyTask sram sram 0 9, by decide, by decide, by decide⟩,
   ⟨tasked (copyTask sram sram 2 1), copyTask sram sram 2 1, by decide, by decide, by decide, by decide, by decide⟩,
   ⟨tasked (copyTask sram (sram + 1) 2 1), copyTask sram (sram + 1) 2 1, by decide, by decide, by decide, by decide, by decide⟩,
   ⟨tasked (fillTask 16), fillTask 16, sram0, by decide, by decide, by decide, by decide, by decide, by decide, by decide, by decide,
      (tasked_whole _).dest _ _ _ _ (by decide) (by decide) (by decide)⟩⟩

/-- R211: the eight bytes of a FILL repeat. R205: a WRITE stores its word. -/
theorem test_fill : (nx (exec (.fill 0 0) (tasked (fillTask 16)))).bytes sram0 17 = [1, 2, 3, 4, 5, 6, 7, 8, 1, 2, 3, 4, 5, 6, 7, 8, 0] ∧
    (nx (exec (.write 0 0) (tasked (task 3 .started [sram, 0x0102, 0, 0, 0])))).bytes sram0 3 = [2, 1, 0] := by decide

/-- A PUT and a GET of `len` bytes between `sram` and device 1. -/
def putTask (len : Nat) : Desc := task 0x30 .started [sram, far1, BitVec.ofNat 64 len, 0, 0]
def getTask (len : Nat) : Desc := task 0x31 .started [far1, sram, BitVec.ofNat 64 len, 0, 0]

theorem witness_messages :
    (∃ (s : State) (d : Desc), s.work 0 0 0x30 .started = some d ∧ s.putBad d = none ∧ bits (d.word 5) 31 0 = 0 ∧ d.word 6 = 0) ∧
    (∃ (s : State) (d : Desc), s.work 0 0 0x30 .started = some d ∧ s.putBad d = none ∧ bits (d.word 5) 31 0 = 8 ∧ s.republishSet 0 d = none ∧
      s.msgLoc (d.word 4).toNat 8 = .there 1 0 ∧ Readable s 0 false (d.word 3).toNat 8 sram0 ∧ s.fld Reg.ROUTE_CFG Reg.ROUTE_CFG_FCOMP = 0) ∧
    (∃ (s : State) (d : Desc), s.work 0 0 0x31 .started = some d ∧ bits (d.word 5) 63 32 = 0 ∧ d.word 6 = 0 ∧ d.word 7 = 0 ∧
      s.msgLoc (d.word 3).toNat (bits (d.word 5) 31 0) = .there 1 0 ∧ s.locate false (d.word 4).toNat (bits (d.word 5) 31 0) = .here sram0 ∧ bits (d.word 5) 31 0 = 0) ∧
    ∃ (s : State) (d : Desc), s.work 0 0 0x31 .started = some d ∧ bits (d.word 5) 63 32 = 0 ∧ d.word 6 = 0 ∧ d.word 7 = 0 ∧
      s.msgLoc (d.word 3).toNat (bits (d.word 5) 31 0) = .there 1 0 ∧ s.locate false (d.word 4).toNat (bits (d.word 5) 31 0) = .here sram0 ∧ bits (d.word 5) 31 0 = 8193 :=
  ⟨⟨meshed (tasked (putTask 0)), putTask 0, by decide, by decide, by decide, by decide⟩,
   ⟨(meshed (tasked (putTask 8))).setReg Reg.ROUTE_CFG 0, putTask 8, by decide, by decide, by decide, by decide, by decide,
      Whole.source ⟨by decide, rfl, rfl, rfl, rfl⟩ _ _ _ _ (by decide) (by decide) (by decide), by decide⟩,
   ⟨meshed (tasked (getTask 0)), getTask 0, by decide, by decide, by decide, by decide, by decide, by decide, by decide⟩,
   ⟨meshed (tasked (getTask 8193)), getTask 8193, by decide, by decide, by decide, by decide, by decide, by decide, by decide⟩⟩

/-- R212: a GET of 8,193 bytes asks for 8,192 and then for 1. -/
theorem test_get_cut : (nx (exec (.get 0 0) (meshed (tasked (getTask 8193))))).fab.waiting.map (fun r => (r.addr, r.rlen)) = [(0, 8192), (8192, 1)] := by decide

/-! ### Witnesses: requests at their destination -/

/-- A packet from device 1 to this one, of context 0, by its fields (R260). -/
def pk (cls op agent rlen tag addr : Nat) (operand : Word) (pl : List Byte) : Packet :=
  ⟨BitVec.ofNat 64 (cls + op * 2 ^ 8 + 2 ^ 28 + agent * 2 ^ 46), BitVec.ofNat 64 (pl.length + rlen * 2 ^ 14 + tag * 2 ^ 28), BitVec.ofNat 64 addr, operand, pl, 0⟩

/-- `u` with the packet `p` among the arrivals. -/
def arr (u : State) (p : Packet) : State := { u with fab := { u.fab with arrived := [⟨none, p⟩] } }

theorem arr_taken (u : State) (p : Packet) (h : u.fab.arrived = []) : (arr u p).takeArrived p = some u := by
  simp only [arr, State.takeArrived]
  simp
  rw [← h]

theorem arr_arrived (u : State) (p : Packet) (cls op : Nat) (h : u.fab.arrived = []) (hc : p.cls = cls) (ho : p.op = op) : Arrived (arr u p) u p cls op :=
  ⟨hc, ho, arr_taken u p h⟩

/-- The device whose next TAG of a pair with device 1 is 5, TAG 4 answered with BOUND. -/
def tags5 (cls : Nat) : State :=
  { State.reset with fab := { Fabric.reset with expected := [(pairKey cls 1, 5)], answered := [(pairKey cls 1, [(4, .bound)])] } }

theorem reset_reaches (u : State) (p : Packet) (k : Kind) (b : Bool) (n : Nat) (hw : (whoOf p).auth = .ranger) (hf : u.fencedClusters = []) (hp : u.poison = [])
    (he : u.ecc = []) (hs : u.failsafe = false) (hr : placeOfRange p.addr n = .sram 0) (hu : ∀ x ∈ unitsOf p.addr n, placeOf x = .sram 0) : Reaches u p k b n :=
  ⟨allows_ranger _ _ _ _ _ _ 0 hr hw, answers_sram _ _ _ _ (fun x m => ⟨by rw [State.unitFenced, hu x m]; simp [hf], by rw [State.poisoned, hp]; rfl⟩) he hs hw⟩

theorem witness_reads : ∃ e ∈ readRows, (∃ (s u : State) (p : Packet), Arrived s u p e.2.1 e.2.2.1 ∧ u.turnOf p = .now ∧ e.2.2.2 p = true ∧ Plain u p ∧ Reaches u p .rd false p.rlen) ∧
    (∃ (s u : State) (p : Packet), Arrived s u p e.2.1 e.2.2.1 ∧ u.turnOf p = .now ∧ e.2.2.2 p = false) ∧
    (∃ (s u : State) (p : Packet), Arrived s u p e.2.1 e.2.2.1 ∧ u.turnOf p = .passed .bound) ∧
    ∃ (s u : State) (p : Packet), Arrived s u p e.2.1 e.2.2.1 ∧ u.turnOf p = .beyond :=
  ⟨(.reqLoad, 0, 0x00, _), .head _,
   ⟨arr State.reset (pk 0 0 148 4096 9 sram0 0 []), State.reset, pk 0 0 148 4096 9 sram0 0 [], arr_arrived _ _ _ _ rfl (by decide) (by decide), by decide, by decide,
    ⟨by decide, by decide, by decide⟩, reset_reaches _ _ _ _ _ (by decide) rfl rfl rfl rfl (by decide) (by decide)⟩,
   ⟨arr State.reset (pk 0 0 148 4097 9 sram0 0 []), State.reset, pk 0 0 148 4097 9 sram0 0 [], arr_arrived _ _ _ _ rfl (by decide) (by decide), by decide, by decide⟩,
   ⟨arr (tags5 0) (pk 0 0 148 8 4 sram0 0 []), tags5 0, pk 0 0 148 8 4 sram0 0 [], arr_arrived _ _ _ _ rfl (by decide) (by decide), by decide⟩,
   ⟨arr (tags5 0) (pk 0 0 148 8 6 sram0 0 []), tags5 0, pk 0 0 148 8 6 sram0 0 [], arr_arrived _ _ _ _ rfl (by decide) (by decide), by decide⟩⟩

/-- A REQ store of two bytes. -/
def storePk : Packet := pk 0 1 148 0 5 sram0 0 [7, 9]

theorem witness_writes : (∃ e ∈ writeRows, (∃ (s u : State) (p : Packet), Arrived s u p e.2.1 e.2.2.1 ∧ p.cmp = false ∧ u.turnOf p = .now ∧ e.2.2.2 p = true ∧ Plain u p ∧
      Reaches u p .wr false p.payload.length) ∧
    (∃ (s u : State) (p : Packet), Arrived s u p e.2.1 e.2.2.1 ∧ p.cmp = false ∧ u.turnOf p = .now ∧ e.2.2.2 p = false) ∧
    (∃ (s u : State) (p : Packet), Arrived s u p e.2.1 e.2.2.1 ∧ p.cmp = false ∧ u.turnOf p = .passed .bound) ∧
    ∃ (s u : State) (p : Packet), Arrived s u p e.2.1 e.2.2.1 ∧ p.cmp = false ∧ u.turnOf p = .beyond) ∧
    (∃ (s u : State) (p : Packet), Arrived s u p 4 0x30 ∧ u.turnOf p = .now ∧ p.plen = 0 ∧ p.rlen = 8 ∧ badSetupAddr p = false ∧ p.agent = 148) ∧
    (∃ (s u : State) (p : Packet), Arrived s u p 4 0x30 ∧ u.turnOf p = .now ∧ p.plen = 0 ∧ p.rlen = 8 ∧ badSetupAddr p = false ∧ p.agent ≠ 148) ∧
    (∃ (s u : State) (p : Packet), Arrived s u p 4 0x31 ∧ u.turnOf p = .now ∧ p.plen = 8 ∧ p.rlen = 0 ∧ badSetupAddr p = false ∧ p.agent = 148) ∧
    ∃ (s u : State) (p : Packet), Arrived s u p 4 0x31 ∧ u.turnOf p = .now ∧ p.plen = 8 ∧ p.rlen = 0 ∧ badSetupAddr p = false ∧ p.agent ≠ 148 :=
  ⟨⟨(.reqStore, 0, 0x01, _), .head _,
   ⟨arr State.reset storePk, State.reset, storePk, arr_arrived _ _ _ _ rfl (by decide) (by decide), by decide, by decide, by decide,
    ⟨by decide, by decide, by decide⟩, reset_reaches _ _ _ _ _ (by decide) rfl rfl rfl rfl (by decide) (by decide)⟩,
   ⟨arr State.reset (pk 0 1 148 0 5 sram0 0 []), State.reset, pk 0 1 148 0 5 sram0 0 [], arr_arrived _ _ _ _ rfl (by decide) (by decide), by decide, by decide, by decide⟩,
   ⟨arr (tags5 0) (pk 0 1 148 0 4 sram0 0 [7]), tags5 0, pk 0 1 148 0 4 sram0 0 [7], arr_arrived _ _ _ _ rfl (by decide) (by decide), by decide, by decide⟩,
   ⟨arr (tags5 0) (pk 0 1 148 0 6 sram0 0 [7]), tags5 0, pk 0 1 148 0 6 sram0 0 [7], arr_arrived _ _ _ _ rfl (by decide) (by decide), by decide, by decide⟩⟩,
   ⟨arr State.reset (pk 4 0x30 148 8 5 8 0 []), State.reset, pk 4 0x30 148 8 5 8 0 [], arr_arrived _ _ _ _ rfl (by decide) (by decide), by decide, by decide, by decide, by decide, by decide⟩,
   ⟨arr State.reset (pk 4 0x30 3 8 5 8 0 []), State.reset, pk 4 0x30 3 8 5 8 0 [], arr_arrived _ _ _ _ rfl (by decide) (by decide), by decide, by decide, by decide, by decide, by decide⟩,
   ⟨arr State.reset (pk 4 0x31 148 0 5 0xFFFFF8 0 (leBytes 8 9)), State.reset, pk 4 0x31 148 0 5 0xFFFFF8 0 (leBytes 8 9), arr_arrived _ _ _ _ rfl (by decide) (by decide), by decide, by decide, by decide, by decide, by decide⟩,
   ⟨arr State.reset (pk 4 0x31 147 0 5 0xFFFFF8 0 (leBytes 8 9)), State.reset, pk 4 0x31 147 0 5 0xFFFFF8 0 (leBytes 8 9), arr_arrived _ _ _ _ rfl (by decide) (by decide), by decide, by decide, by decide, by decide, by decide⟩⟩

/-- R263, R282: the store's bytes are in memory; the duplicate changes nothing. -/
theorem test_req_store : (nx (exec (.reqStore storePk) (arr State.reset storePk))).bytes sram0 3 = [7, 9, 0] ∧
    (nx (exec (.reqStore (pk 0 1 148 0 4 sram0 0 [7])) (arr (tags5 0) (pk 0 1 148 0 4 sram0 0 [7])))).mem = [] := by decide

/-- A compressed PUT whose one granule came as it is (R266). -/
def wholePut : Packet := { pk 3 0x28 148 4096 5 sram0 0 [] with payload := List.replicate 4096 0, w0 := BitVec.ofNat 64 (3 + 128 + 0x28 * 2 ^ 8 + 2 ^ 28 + 148 * 2 ^ 46),
                                                                w1 := BitVec.ofNat 64 (4096 + 4096 * 2 ^ 14 + 5 * 2 ^ 28) }

theorem raw_granule (l : List Byte) (h : l.length = 4096) : fabricDecode l 0 4096 = some l := by
  simp [fabricDecode, h, List.take_of_length_le, List.drop_eq_nil_of_le]

theorem witness_compressed_put : ∃ (s u : State) (p : Packet) (bs : List Byte), Arrived s u p 3 0x28 ∧ u.turnOf p = .now ∧ p.cmp = true ∧ p.plen ≠ 0 ∧
    (p.rlen = 4096 ∨ p.rlen = 8192) ∧ fabricDecode p.payload p.gmask p.rlen = some bs ∧ Plain u p ∧ Reaches u p .wr false bs.length := by
  refine ⟨arr State.reset wholePut, State.reset, wholePut, List.replicate 4096 0, arr_arrived _ _ _ _ rfl (by decide) (by decide), by decide, by decide, by decide, .inl (by decide), ?_,
    ⟨by decide, by decide, by decide⟩, ?_⟩
  · rw [(by decide : wholePut.rlen = 4096), (by decide : wholePut.gmask = 0)]
    exact raw_granule _ (List.length_replicate ..)
  · rw [List.length_replicate]
    exact reset_reaches _ _ _ _ _ (by decide) rfl rfl rfl rfl (by decide) (by decide)

/-- An AADD of 3. -/
def aaddPk (tag : Nat) : Packet := pk 0 2 148 0 tag sram0 3 []

/-- An atomic request of operation `op` on zero bytes of cluster 0's SRAM. -/
def atomicPk (op : Nat) : Packet := pk 0 op 148 0 0 sram0 3 (if op = 9 then leBytes 8 1 else [])

theorem opWitness (op : Nat) (h : (atomicPk op).op = op) (g : (atomicPk op).cls = 0 ∧ State.reset.turnOf (atomicPk op) = .now ∧ (atomicPk op).plen = (if op = 9 then 8 else 0) ∧
    (atomicPk op).rlen = 0 ∧ (atomicPk op).addr = sram0 ∧ ofSnap (atomicPk op) = false ∧ ofMirror (atomicPk op) = false ∧ State.reset.isSource (whoOf (atomicPk op)).auth = false ∧
    whoOf (atomicPk op) = whoOf (aaddPk 0)) :
    ∃ (s u : State) (p : Packet), Arrived s u p 0 op ∧ u.turnOf p = .now ∧ p.plen = (if op = 9 then 8 else 0) ∧ p.rlen = 0 ∧ p.addr % 8 = 0 ∧ Plain u p ∧ Reaches u p .at_ false 8 := by
  obtain ⟨a, b, c, d, e, f, i, j, k⟩ := g
  have z : Reaches State.reset (aaddPk 0) .at_ false 8 := reset_reaches _ _ _ _ _ (by decide) rfl rfl rfl rfl (by decide) (by decide)
  refine ⟨arr State.reset (atomicPk op), State.reset, atomicPk op, arr_arrived _ _ _ _ rfl a h, b, c, d, by rw [e]; decide, ⟨f, i, j⟩, ?_⟩
  have w : (aaddPk 0).addr = sram0 := by decide
  exact ⟨by rw [k, e, ← w]; exact z.permitted, by rw [k, e, ← w]; exact z.answers⟩

theorem witness_atomics :
    (∀ q ∈ atomicRequests, ∃ (s u : State) (p : Packet), Arrived s u p 0 q.2.1 ∧ u.turnOf p = .now ∧ p.plen = (if q.2.1 = 9 then 8 else 0) ∧
      p.rlen = 0 ∧ p.addr % 8 = 0 ∧ Plain u p ∧ Reaches u p .at_ false 8) ∧
    (∃ q ∈ atomicRequests, ∃ (s u : State) (p : Packet) (d : Dedup), Arrived s u p 0 q.2.1 ∧ u.turnOf p = .passed .bound ∧
      u.fab.dedup.find? (fun d => d.src = p.src && d.tag = p.tag) = some d ∧ d.ctx = p.ctx ∧ d.op = q.2.1 ∧ d.addr = p.addr) ∧
    (∃ q ∈ atomicRequests, ∃ (s u : State) (p : Packet), Arrived s u p 0 q.2.1 ∧ u.turnOf p = .passed .bound ∧ u.fab.dedup.find? (fun d => d.src = p.src && d.tag = p.tag) = none) ∧
    (∃ (s u : State) (p : Packet), Arrived s u p 0 0x0A ∧ u.turnOf p = .now ∧ p.plen = 32 ∧ p.rlen = 0 ∧ p.operand = 0 ∧ p.addr % 16 = 0 ∧ Plain u p ∧ Reaches u p .at_ false 16) ∧
    ∃ (s u : State) (p : Packet), Arrived s u p 0 0x0B ∧ u.turnOf p = .now ∧ p.plen = 0 ∧ p.rlen = 0 ∧ p.operand.toNat < 2 ^ 32 ∧ p.addr % 4 = 0 ∧ Plain u p ∧
      Reaches u p .at_ false 4 :=
  ⟨fun q hq => by
      simp only [atomicRequests, List.mem_cons, List.not_mem_nil, or_false] at hq
      rcases hq with rfl | rfl | rfl | rfl | rfl | rfl | rfl | rfl
      · exact opWitness 2 rfl (by decide)
      · exact opWitness 3 rfl (by decide)
      · exact opWitness 4 rfl (by decide)
      · exact opWitness 5 rfl (by decide)
      · exact opWitness 6 rfl (by decide)
      · exact opWitness 7 rfl (by decide)
      · exact opWitness 8 rfl (by decide)
      · exact opWitness 9 rfl (by decide),
   ⟨(.reqAadd, 2, _), .head _, arr { tags5 0 with fab := { (tags5 0).fab with dedup := [⟨1, 0, 4, 2, sram0, .ok, [1], 0⟩] } } (aaddPk 4),
      { tags5 0 with fab := { (tags5 0).fab with dedup := [⟨1, 0, 4, 2, sram0, .ok, [1], 0⟩] } }, aaddPk 4, ⟨1, 0, 4, 2, sram0, .ok, [1], 0⟩,
      arr_arrived _ _ _ _ rfl (by decide) (by decide), by decide, by decide, by decide, by decide, by decide⟩,
   ⟨(.reqAadd, 2, _), .head _, arr (tags5 0) (aaddPk 4), tags5 0, aaddPk 4, arr_arrived _ _ _ _ rfl (by decide) (by decide), by decide, by decide⟩,
   ⟨arr State.reset (pk 0 0x0A 148 0 5 sram0 0 (leBytes 32 9)), State.reset, pk 0 0x0A 148 0 5 sram0 0 (leBytes 32 9), arr_arrived _ _ _ _ rfl (by decide) (by decide), by decide, by decide,
      by decide, by decide, by decide, ⟨by decide, by decide, by decide⟩, reset_reaches _ _ _ _ _ (by decide) rfl rfl rfl rfl (by decide) (by decide)⟩,
   ⟨arr State.reset (pk 0 0x0B 148 0 5 sram0 0xFFFFFFFF []), State.reset, pk 0 0x0B 148 0 5 sram0 0xFFFFFFFF [], arr_arrived _ _ _ _ rfl (by decide) (by decide), by decide, by decide,
      by decide, by decide, by decide, ⟨by decide, by decide, by decide⟩, reset_reaches _ _ _ _ _ (by decide) rfl rfl rfl rfl (by decide) (by decide)⟩⟩

/-- R294: an AADD of 3 on zero stores 3; R295: the duplicate does not store again. -/
theorem test_req_aadd : (nx (exec (.reqAadd (aaddPk 0)) (arr State.reset (aaddPk 0)))).bytes sram0 2 = [3, 0] ∧
    (nx (exec (.reqAadd (aaddPk 4)) (arr (tags5 0) (aaddPk 4)))).mem = [] := by decide

/-- A hole drain that resumes at TAG 6 and lists the first 64 bytes of cluster 0's SRAM as a system ring's. -/
def drainPk : Packet := pk 0 0x0C 148 0 0xFFFF 0 0 (drainPayload 6 [⟨sram0, 0, true, 64⟩])

/-- A republish of kind `kind`, set 0, of eight bytes at offset 8. -/
def rpPk (kind : Nat) (bs : List Byte) : Packet :=
  pk 0 0x0D 148 0 5 0 0 (leBytes 1 kind ++ leBytes 1 0 ++ leBytes 6 0 ++ leBytes 6 sram0 ++ leBytes 2 0 ++ leBytes 4 8 ++ List.replicate 12 0 ++ bs)

/-- Set 0, of devices 1 (its home) and 0, 4 KiB at `sram0`, is declared. -/
def declared0 : State :=
  ((State.reset.setReg (Reg.FAB_REPL_CFG 0) (BitVec.ofNat 64 (2 ^ 63 + 2))).setReg (Reg.FAB_REPL_BASE 0) (BitVec.ofNat 64 sram0)).setReg (Reg.FAB_REPL_LEN 0) 1
    |>.setReg (Reg.FAB_REPL_MEMBERS 0 0) 1

theorem witness_drains :
    (∃ (s u : State) (p : Packet), p.cls = 0 ∧ Arrived s u p p.cls 0x0C ∧ u.turnOf p = .now ∧ p.plen = 0) ∧
    (∃ (s u : State) (p : Packet), p.cls = 0 ∧ Arrived s u p p.cls 0x0C ∧ p.retry = false ∧ leAt p.payload 2 1 = 1 ∧ p.plen = 32 + 16 * 1 ∧ (lostAt p.payload 0).sys = true ∧
      (lostAt p.payload 0).len = 64 ∧ placeOfRange (lostAt p.payload 0).off 64 = .sram 0) ∧
    (∃ (s u : State) (p : Packet), Arrived s u p 0 0x0D ∧ u.turnOf p = .now ∧ rpOk p = true ∧ rpKind p = 0 ∧ rpSet p = 0 ∧ u.fld (Reg.FAB_REPL_CFG 0) Reg.FAB_REPL_CFG_VALID = 1 ∧
      u.member 0 0 = p.src ∧ (u.members 0).contains u.self = true ∧ (u.setRange 0).1 ≤ rpOffset p ∧
      rpOffset p + (p.payload.drop 32).length ≤ (u.setRange 0).1 + (u.setRange 0).2 ∧ u.Permits (whoOf p) .wr true (rpOffset p) (p.payload.drop 32).length ∧
      u.Clean (whoOf p).auth (rpOffset p) (p.payload.drop 32).length ∧ u.isSource (whoOf p).auth = false) ∧
    (∃ (s u : State) (p : Packet), Arrived s u p 0 0x0D ∧ u.turnOf p = .now ∧ rpOk p = true ∧ rpKind p = 0 ∧ u.fld (Reg.FAB_REPL_CFG (rpSet p)) Reg.FAB_REPL_CFG_VALID ≠ 1) ∧
    ∃ (s u : State) (p : Packet), Arrived s u p 0 0x0D ∧ u.turnOf p = .now ∧ rpOk p = true ∧ rpKind p = 1 ∧ u.fld (Reg.FAB_REPL_CFG (rpSet p)) Reg.FAB_REPL_CFG_VALID = 1 :=
  ⟨⟨arr State.reset (pk 0 0x0C 148 0 5 0 0 []), State.reset, pk 0 0x0C 148 0 5 0 0 [], by decide, arr_arrived _ _ _ _ rfl rfl (by decide), by decide, by decide⟩,
   ⟨arr State.reset drainPk, State.reset, drainPk, by decide, arr_arrived _ _ _ _ rfl rfl (by decide), by decide, by decide, by decide, by decide, by decide, by decide⟩,
   ⟨arr declared0 (rpPk 0 (leBytes 8 7)), declared0, rpPk 0 (leBytes 8 7), arr_arrived _ _ _ _ rfl (by decide) (by decide), by decide, by decide, by decide, by decide, by decide, by decide, by decide,
      by decide, by decide, allows_ranger _ _ _ _ _ _ 0 (by decide) (by decide),
      answers_sram _ _ _ _ (fun x m => by
        obtain rfl : x = sram0 := (by decide : ∀ x ∈ unitsOf (rpOffset (rpPk 0 (leBytes 8 7))) ((rpPk 0 (leBytes 8 7)).payload.drop 32).length, x = sram0) x m
        exact ⟨rfl, rfl⟩) rfl rfl (by decide), by decide⟩,
   ⟨arr State.reset (rpPk 0 (leBytes 8 7)), State.reset, rpPk 0 (leBytes 8 7), arr_arrived _ _ _ _ rfl (by decide) (by decide), by decide, by decide, by decide, by decide⟩,
   ⟨arr declared0 (rpPk 1 []), declared0, rpPk 1 [], arr_arrived _ _ _ _ rfl (by decide) (by decide), by decide, by decide, by decide, by decide⟩⟩

/-- R291: the unit is poisoned and TAG 6 is due. R303: a member writes what its home sends. -/
theorem test_drain : ((nx (exec (.drain drainPk) (arr State.reset drainPk))).poisoned sram0) = true ∧ (nx (exec (.drain drainPk) (arr State.reset drainPk))).expectedTag drainPk = 6 ∧
    (nx (exec (.republishData (rpPk 0 (leBytes 8 7))) (arr declared0 (rpPk 0 (leBytes 8 7))))).byte sram0 = 7 := by decide

/-! ### Witnesses: tables, replica sets, requests at their source -/

theorem sram_units (o n : Nat) (h0 : sramBase ≤ o) (h1 : o + n ≤ sramBase + 0x20000000) : ∀ u ∈ unitsOf o n, placeOf u = .sram 0 := by
  intro u hu
  rw [unitsOf] at hu
  split at hu
  · simp at hu
  · simp only [List.mem_map, List.mem_range] at hu
    obtain ⟨i, hi, rfl⟩ := hu
    have hb : sramBase = 0xF00000000000 := by decide
    have hl : lpddrTop = 0x022E00000000 := by decide
    rw [placeOf, if_neg (by omega), if_neg (by omega), if_pos (by omega), if_pos (by omega), hb]
    congr 1
    omega
theorem ring0_whole : Whole ring0 := ⟨by decide, rfl, rfl, rfl, rfl⟩
theorem Whole.ranger {s : State} (_ : Whole s) (k : Kind) (b : Bool) (o n : Nat) (hp : placeOfRange o n = .sram 0) : s.Permits (s.me .ranger) k b o n :=
  allows_ranger _ _ _ _ _ _ 0 hp rfl

/-- A load of the table at `sram` was asked for; a load is in progress, its table names the devices of the mask `m`. -/
def tblSrc : State := ring0.setReg Reg.ROUTE_TBL_SRC sram
def tblLoading (m : Byte) : State := { State.reset.setFld Reg.ROUTE_TBL_STATE Reg.ROUTE_TBL_STATE_LOADING 1 with fab := { Fabric.reset with loading := [(64, m)] } }

theorem witness_topology :
    (∃ s : State, s.mayUse .mgmt = true ∧ s.fld Reg.ROUTE_TBL_STATE Reg.ROUTE_TBL_STATE_LOADING = 1) ∧
    (∃ (s : State) (o : Nat), s.mayUse .mgmt = true ∧ ¬(s.fld Reg.ROUTE_TBL_STATE Reg.ROUTE_TBL_STATE_LOADING = 1 ∨ s.fld Reg.ROUTE_TBL_STATE Reg.ROUTE_TBL_STATE_DRAINING = 1 ∨
      (s.reg Reg.ROUTE_TBL_SRC).toNat % 64 ≠ 0) ∧ s.locate true (s.reg Reg.ROUTE_TBL_SRC).toNat 1664 = .here o ∧ s.Permits (s.me .ranger) .rd false o 1664 ∧ s.Clean .ranger o 1664) ∧
    (∃ (s : State) (off : Nat), s.fld Reg.ROUTE_TBL_STATE Reg.ROUTE_TBL_STATE_LOADING = 1 ∧ s.asks Owner.isTopo = false ∧ s.fab.loadFail = none ∧
      s.tableFault ⟨topoOf s.fab.loading, true, false⟩ = some off) ∧
    (∃ s : State, s.fld Reg.ROUTE_TBL_STATE Reg.ROUTE_TBL_STATE_LOADING = 1 ∧ s.asks Owner.isTopo = false ∧ s.fab.loadFail = none ∧
      s.tableFault ⟨topoOf s.fab.loading, true, false⟩ = none) ∧
    (∃ s : State, s.mayUse .mgmt = true ∧ s.fld Reg.ROUTE_TBL_STATE Reg.ROUTE_TBL_STATE_SHADOW_READY = 0) ∧
    (∃ s : State, s.mayUse .mgmt = true ∧ s.fld Reg.ROUTE_TBL_STATE Reg.ROUTE_TBL_STATE_SHADOW_READY = 1 ∧ s.busyPairs = []) ∧
    ∃ s : State, s.fld Reg.ROUTE_TBL_STATE Reg.ROUTE_TBL_STATE_DRAINING = 1 :=
  ⟨⟨tblLoading 1, by decide, by decide⟩,
   ⟨tblSrc, sram0, by decide, by decide, by decide, allows_ranger _ _ _ _ _ _ 0 (by decide) rfl,
      answers_sram _ _ _ _ (fun u h => ⟨by rw [State.unitFenced, sram_units _ _ (by decide) (by decide) u h]; rfl, rfl⟩) rfl rfl rfl⟩,
   ⟨tblLoading 3, 0x244, by decide, by decide, by decide, by decide⟩, ⟨tblLoading 1, by decide, by decide, by decide, by decide⟩, ⟨State.reset, by decide, by decide⟩,
   ⟨State.reset.setFld Reg.ROUTE_TBL_STATE Reg.ROUTE_TBL_STATE_SHADOW_READY 1, by decide, by decide, by decide⟩,
   ⟨State.reset.setFld Reg.ROUTE_TBL_STATE Reg.ROUTE_TBL_STATE_DRAINING 1, by decide⟩⟩

/-- R268: a present device without a route is the first bad field; a table of the own device alone is ready. -/
theorem test_table_check : (nx (exec .routeTblChecked (tblLoading 3))).fld Reg.ROUTE_TBL_STATE Reg.ROUTE_TBL_STATE_ERR_OFFSET = 0x244 ∧
    (nx (exec .routeTblChecked (tblLoading 1))).fld Reg.ROUTE_TBL_STATE Reg.ROUTE_TBL_STATE_SHADOW_READY = 1 := by decide

/-- The region tables are at the first byte of cluster 0's SRAM. -/
def rtBase : State := ring0.setReg Reg.FAB_RT_BASE (BitVec.ofNat 64 sram0)

/-- A load of context 3's table that ends with `new`. -/
def rtDone (new : Option (List Region)) : State :=
  { State.reset.setFld Reg.FAB_RT_STATUS Reg.FAB_RT_STATUS_BUSY 1 with fab := { Fabric.reset with regionLoad := [3], regionNew := [(3, new)] } }

/-- A PUT of context 0's ring 0 into set 0, of which this device is the home. -/
def homeTask : Desc := task 0x30 .started [sram, sram + 8, 8, 0, 0]
def home0 : State :=
  { ((State.reset.setReg (Reg.FAB_REPL_CFG 0) (BitVec.ofNat 64 (2 ^ 63 + 2))).setReg (Reg.FAB_REPL_BASE 0) (BitVec.ofNat 64 sram0)).setReg (Reg.FAB_REPL_LEN 0) 1
    |>.setReg (Reg.FAB_REPL_MEMBERS 0 0) 0x1000 with descs := [homeTask] }

theorem witness_regions_and_sets :
    (∃ (s : State) (v : Word), s.mayUse .mgmt = true ∧ s.fld Reg.FAB_RT_STATUS Reg.FAB_RT_STATUS_BUSY = 0 ∧ v.getLsbD 8 = true ∧ v.getLsbD 7 = false ∧
      s.Permits (s.me .ranger) .rd false (regionTable s (bits v 5 0)) 0x20000 ∧ s.Clean .ranger (regionTable s (bits v 5 0)) 0x20000) ∧
    (∃ (s : State) (x : Ctx), s.fld Reg.FAB_RT_STATUS Reg.FAB_RT_STATUS_BUSY = 1 ∧ s.fab.regionNew = [(x.val, some [])]) ∧
    (∃ (s : State) (x : Ctx), s.fld Reg.FAB_RT_STATUS Reg.FAB_RT_STATUS_BUSY = 1 ∧ s.fab.regionNew = [(x.val, none)]) ∧
    (∃ (s : State) (v : Word), s.mayUse .mgmt = true ∧ v.getLsbD 63 = true ∧ s.fld (Reg.FAB_REPL_CFG 0) Reg.FAB_REPL_CFG_VALID = 0) ∧
    (∃ (s : State) (d : Desc), s.work 0 0 0x30 .started = some d ∧ s.putBad d = none ∧ s.republishSet 0 d = some 0 ∧ s.whereIs (d.word 4).toNat = some (0, sram0 + 8) ∧
      s.locate false (d.word 3).toNat (bits (d.word 5) 31 0) = .here sram0 ∧ s.republishBusy 0 0 0 = false) ∧
    (∃ (s : State) (d : Desc), s.work 0 1 0x30 .started = some d ∧ s.putBad d = none ∧ s.republishSet 0 d = some 0 ∧ s.whereIs (d.word 4).toNat = some (0, sram0 + 8) ∧
      s.locate false (d.word 3).toNat (bits (d.word 5) 31 0) = .here sram0 ∧ s.republishBusy 0 1 0 = true) ∧
    ∃ s : State, s.Permits (s.me (s.ringAuth 0)) .rd false sram0 8 ∧ s.Clean (s.ringAuth 0) sram0 8 ∧ s.Permits (s.me (s.ringAuth 0)) .wr true (sram0 + 64) 8 ∧
      s.Clean (s.ringAuth 0) (sram0 + 64) 8 :=
  ⟨⟨rtBase, 0x100, by decide, by decide, by decide, by decide, allows_ranger _ _ _ _ _ _ 0 (by decide) rfl,
      answers_sram _ _ _ _ (fun u h => ⟨by rw [State.unitFenced, sram_units _ _ (by decide) (by decide) u h]; rfl, rfl⟩) rfl rfl rfl⟩,
   ⟨rtDone (some []), 3, by decide, by decide⟩, ⟨rtDone none, 3, by decide, by decide⟩, ⟨State.reset, 2 ^ 63, by decide, by decide, by decide⟩,
   ⟨home0, homeTask, by decide, by decide, by decide, by decide, by decide, by decide⟩,
   ⟨{ home0 with descs := [homeTask, { homeTask with idx := 1 }] }, { homeTask with idx := 1 }, by decide, by decide, by decide, by decide, by decide, by decide⟩,
   ⟨ring0, (ring0_whole.source true sram0 8 sram0 (by decide) (by decide) (by decide)).permitted, (ring0_whole.source true sram0 8 sram0 (by decide) (by decide) (by decide)).answers,
      allows_ranger _ _ _ _ _ _ 0 (by decide) (by decide), (ring0_whole.source true (sram0 + 64) 8 (sram0 + 64) (by decide) (by decide) (by decide)).answers⟩⟩

/-- R301: a declaration with no member is refused. -/
theorem test_repl : (nx (exec (.replDeclare .mgmt 0 (BitVec.ofNat 64 (2 ^ 63))) State.reset)).fld Reg.FAB_RT_STATUS Reg.FAB_RT_STATUS_REPL_ERR = 1 ∧
    (nx (exec (.replDeclare .mgmt 0 (BitVec.ofNat 64 (2 ^ 63 + 1))) ((State.reset.setReg (Reg.FAB_REPL_BASE 0) (BitVec.ofNat 64 sram0)).setReg (Reg.FAB_REPL_LEN 0) 1))).fld
      (Reg.FAB_REPL_CFG 0) Reg.FAB_REPL_CFG_VALID = 1 := by decide

/-- Core 0's load of g5 from device `d`, with its tag and retries; the device with such a load waiting, or outstanding. -/
def loadReq (d : Coord) (tag : BitVec 16) (n : Nat) : Req := { newReq 0 0 d 0 0 64 (.load 0 5 0x4001000000000040 8 false 0) with rlen := 8, tag := tag, retries := n }
def sending (p : Pair) (d : Coord) : State :=
  { meshed State.reset with fab := { (meshed State.reset).fab with waiting := [loadReq d 0 0], pairs := [(pairKey 0 d, p)] } }
def awaiting (n : Nat) : State := { meshed State.reset with fab := { (meshed State.reset).fab with outst := [loadReq 1 7 n] } }

/-- RDATA for that load, with this status. -/
def rdata7 (status op : Nat) : Packet :=
  ⟨BitVec.ofNat 64 (1 + op * 2 ^ 8 + 2 ^ 28 + status * 2 ^ 56), BitVec.ofNat 64 (8 + 7 * 2 ^ 28), 0, 0, leBytes 8 0x1122334455667788, 0⟩

theorem witness_injections : (∃ (s : State) (r : Req), s.fab.waiting.find? (fun r => r.cls = (0 : Fin 5).val && r.dst = 5) = some r ∧ s.suppresses r = false ∧ s.present 5 = false) ∧
    (∃ (s : State) (r : Req), s.fab.waiting.find? (fun r => r.cls = (0 : Fin 5).val && r.dst = 1) = some r ∧ s.suppresses r = false ∧ s.present 1 = true ∧ (s.pair 0 1).broken = true) ∧
    (∃ (s : State) (r : Req), s.fab.waiting.find? (fun r => r.cls = (0 : Fin 5).val && r.dst = 1) = some r ∧ s.suppresses r = false ∧ s.present 1 = true ∧ (s.pair 0 1).broken = false ∧
      (s.pair 0 1).hold = true) ∧
    (∃ (s : State) (r : Req), s.fab.waiting.find? (fun r => r.cls = (0 : Fin 5).val && r.dst = 1) = some r ∧ s.suppresses r = false ∧ s.present 1 = true ∧ (s.pair 0 1).broken = false ∧
      (s.pair 0 1).hold = false ∧ (s.pair 0 1).hole = false ∧ (s.pair 0 1).seeded = false) ∧
    (∃ (s : State) (r : Req), s.fab.waiting.find? (fun r => r.cls = (0 : Fin 5).val && r.dst = 1) = some r ∧ s.suppresses r = false ∧ s.present 1 = true ∧ (s.pair 0 1).broken = false ∧
      (s.pair 0 1).hold = false ∧ (s.pair 0 1).hole = false ∧ (s.pair 0 1).seeded = true ∧ s.mayInject r = true) ∧
    ∃ (s : State) (r : Req), s.fab.waiting.find? (fun r => r.cls = (0 : Fin 5).val && r.dst = 1) = some r ∧ s.suppresses r = false ∧ s.present 1 = true ∧ (s.pair 0 1).broken = false ∧
      (s.pair 0 1).hold = false ∧ (s.pair 0 1).hole = false ∧ (s.pair 0 1).seeded = true ∧ s.mayInject r = false :=
  ⟨⟨sending Pair.reset 5, loadReq 5 0 0, by decide, by decide, by decide⟩,
   ⟨sending { Pair.reset with broken := true } 1, loadReq 1 0 0, by decide, by decide, by decide, by decide⟩,
   ⟨sending { Pair.reset with hold := true } 1, loadReq 1 0 0, by decide, by decide, by decide, by decide, by decide⟩,
   ⟨sending Pair.reset 1, loadReq 1 0 0, by decide, by decide, by decide, by decide, by decide, by decide, by decide⟩,
   ⟨sending { Pair.reset with seeded := true } 1, loadReq 1 0 0, by decide, by decide, by decide, by decide, by decide, by decide, by decide, by decide⟩,
   ⟨{ sending { Pair.reset with seeded := true } 1 with fab := { (sending { Pair.reset with seeded := true } 1).fab with
        outst := (List.range 64).map (fun i => loadReq 1 (BitVec.ofNat 16 i) 0) } }, loadReq 1 0 0, by decide, by decide, by decide, by decide, by decide, by decide, by decide, by decide⟩⟩

theorem witness_answers : (∃ (s u : State) (p : Packet) (r : Req) (bs : List Byte), p.cls = 1 ∧ s.takeArrived p = some u ∧ p.rclass ≠ 2 ∧
      u.fab.outst.find? (fun r => r.cls = p.rclass && r.dst = p.src && r.tag = p.tag) = some r ∧ replyBytes p = some bs ∧ p.status ≠ .retryExhausted ∧ p.status ≠ .epoch ∧ p.op = 0x10) ∧
    (∃ (s u : State) (p : Packet) (r : Req) (bs : List Byte), p.cls = 1 ∧ s.takeArrived p = some u ∧ p.rclass ≠ 2 ∧
      u.fab.outst.find? (fun r => r.cls = p.rclass && r.dst = p.src && r.tag = p.tag) = some r ∧ replyBytes p = some bs ∧ p.status ≠ .retryExhausted ∧ p.status ≠ .epoch ∧ p.op = 0x11) ∧
    (∃ (s u : State) (p : Packet) (r : Req) (bs : List Byte), p.cls = 1 ∧ s.takeArrived p = some u ∧ p.rclass ≠ 2 ∧
      u.fab.outst.find? (fun r => r.cls = p.rclass && r.dst = p.src && r.tag = p.tag) = some r ∧ replyBytes p = some bs ∧ p.status = .retryExhausted ∧ p.op = 0x11) ∧
    (∃ r : Req, r.owner = .load 0 5 0x4001000000000040 8 false 0) ∧
    (∃ (s : State) (r : Req), s.fab.outst.find? (fun r => r.cls = (0 : Fin 5).val && r.dst = 1) = some r ∧ r.retries < s.fld Reg.ROUTE_CFG Reg.ROUTE_CFG_E2E_RETRIES) ∧
    ∃ (s : State) (r : Req), s.fab.outst.find? (fun r => r.cls = (0 : Fin 5).val && r.dst = 1) = some r ∧ s.fld Reg.ROUTE_CFG Reg.ROUTE_CFG_E2E_RETRIES ≤ r.retries :=
  ⟨⟨arr (awaiting 0) (rdata7 0 0x10), awaiting 0, rdata7 0 0x10, loadReq 1 7 0, _, by decide, arr_taken _ _ rfl, by decide, by decide, rfl, by decide, by decide, by decide⟩,
   ⟨arr (awaiting 0) (rdata7 0 0x11), awaiting 0, rdata7 0 0x11, loadReq 1 7 0, _, by decide, arr_taken _ _ rfl, by decide, by decide, rfl, by decide, by decide, by decide⟩,
   ⟨arr (awaiting 0) (rdata7 0x0E 0x11), awaiting 0, rdata7 0x0E 0x11, loadReq 1 7 0, _, by decide, arr_taken _ _ rfl, by decide, by decide, rfl, by decide, by decide⟩,
   ⟨loadReq 1 7 0, rfl⟩, ⟨awaiting 2, loadReq 1 7 2, by decide, by decide⟩, ⟨awaiting 3, loadReq 1 7 3, by decide, by decide⟩⟩

/-- R76: the reply's bytes are in g5. -/
theorem test_rdata : ((nx (exec (.rdata (rdata7 0 0x10) 0) (arr (awaiting 0) (rdata7 0 0x10)))).core 0).greg 5 = 0x1122334455667788 := by decide

/-! ### Witnesses: groups and collectives -/

/-- A COL packet from device 1 for group 7. -/
def colPk (op : Nat) (seq w3 : Nat) (pl : List Byte) : Packet :=
  ⟨BitVec.ofNat 64 (2 + op * 2 ^ 8 + 2 ^ 28), BitVec.ofNat 64 pl.length, BitVec.ofNat 64 (seq * 2 ^ 32 + 7), BitVec.ofNat 64 w3, pl, 0⟩
/-- A control packet with this opcode and these fields. -/
def ctlPk (op seq : Nat) (fs : List (Nat × Nat)) : Packet := colPk 0x22 seq 0 (fieldsOf ((0, op) :: fs))

/-- A ROLLCALL of devices 1 and 0 by the list at `sram`: weight 1, group 7. -/
def rollcallTask : Desc := task 0x40 .started [BitVec.ofNat 64 (7 * 2 ^ 32 + 2 * 2 ^ 16 + 2 ^ 12), sram, BitVec.ofNat 64 (2 ^ 48 + 100), 1, 0]
def rollcall0 : State :=
  { meshed (tasked rollcallTask) with mem := putBytes [] sram0 (leBytes 4 0x10001 ++ leBytes 4 0) }.setReg Reg.COLL_BUF_SIZE 4

/-- Group 7 forms by descriptor 0 of ring 0: `rank` is the own one. -/
def forming (rank before : Nat) (ms : List (Coord × Coord)) : Group := { grp0 with state := 1, rank := rank, forming := some (0, 0), newMembers := ms, before := before, members := ms }
def withGroup (g : Group) : State := { tasked (task 0x40 .working []) with groups := [g] }

/-- The JOIN of rank 1 that agrees with `forming`. -/
def joinPk (start : Nat) : Packet := ctlPk 1 0 [(8, 0), (16, 1), (18, 1), (20, 0), (22, 0), (24, start)]

theorem witness_group_bad_words : ∃ (s : State) (d : Desc), s.work 0 0 0x40 .started = some d ∧ rollcallBad d = true :=
  ⟨tasked (task 0x40 .started [0, 0, 0, 0, 0]), task 0x40 .started [0, 0, 0, 0, 0], by decide, by decide⟩
theorem rollcall_list : listOf (rollcall0.bytes sram0 (4 * bits (rollcallTask.word 3) 28 16)) = [(1, 1), (0, 0)] := by decide
theorem rollcall_present : ∀ m ∈ listOf (rollcall0.bytes sram0 (4 * bits (rollcallTask.word 3) 28 16)), m.1 = m.2 ∧ rollcall0.present m.1 = true := by
  rw [rollcall_list]
  simp only [List.forall_mem_cons, List.not_mem_nil, false_implies, implies_true, and_true, true_and]
  decide
theorem witness_group_reserves : ∃ (s : State) (d : Desc) (o rank h : Nat), s.work 0 0 0x40 .started = some d ∧ rollcallBad d = false ∧ Readable s 0 true (d.word 4).toNat (4 * bits (d.word 3) 28 16) o ∧
      (listOf (s.bytes o (4 * bits (d.word 3) 28 16))).findIdx? (fun m => m.1 = s.self) = some rank ∧ listOk (s.bytes o (4 * bits (d.word 3) 28 16)) = true ∧
      bits (d.word 3) 11 10 = 0 ∧ (∀ m ∈ listOf (s.bytes o (4 * bits (d.word 3) 28 16)), m.1 = m.2 ∧ s.present m.1 = true) ∧
      s.gidGroup (BitVec.ofNat 32 (bits (d.word 3) 63 32)) = none ∧ s.freeHandle = some h ∧ bits (d.word 5) 63 48 + bits (d.word 5) 47 32 ≤ s.freeUnits ∧ rank ≠ 0 :=
  ⟨rollcall0, rollcallTask, sram0, 1, 0, by decide, by decide, Whole.source ⟨by decide, rfl, rfl, rfl, rfl⟩ _ _ _ _ (by decide) (by decide) (by decide), by decide, by decide, by decide,
    rollcall_present, by decide, by decide, by decide, by decide⟩
theorem witness_group_join_early : ∃ (s u : State) (p : Packet), p.cls = 2 ∧ p.op = 0x22 ∧ ccop p = 1 ∧ s.takeArrived p = some u ∧ u.controlFull = false ∧ u.gidGroup (colGid p) = none :=
  ⟨arr State.reset (joinPk 1), State.reset, joinPk 1, by decide, by decide, by decide, arr_taken _ _ rfl, by decide, by decide⟩
theorem witness_group_join_missing : ∃ (s u : State) (p : Packet) (g : Group), p.cls = 2 ∧ p.op = 0x22 ∧ ccop p = 1 ∧ s.takeArrived p = some u ∧ u.controlFull = false ∧ u.gidGroup (colGid p) = some g ∧
      u.group g.handle = some g ∧ g.rank = 0 ∧ g.forming = some (0, 0) ∧
      ∃ r ∈ laterRanks g, ∀ j ∈ u.joins.filter (fun x => !(x.gid = colGid p && x.rank = leAt p.payload 16 2)) ++ [joinOf p], j.gid = g.gid → j.rank ≠ r :=
  ⟨arr (withGroup (forming 0 0 [(0, 0), (1, 1), (2, 2)])) (joinPk 1), withGroup (forming 0 0 [(0, 0), (1, 1), (2, 2)]), joinPk 1, forming 0 0 [(0, 0), (1, 1), (2, 2)],
    by decide, by decide, by decide, arr_taken _ _ rfl, by decide, by decide, by decide, by decide, by decide, by decide⟩
theorem witness_group_join_last : ∃ (s u : State) (p : Packet) (g : Group), p.cls = 2 ∧ p.op = 0x22 ∧ ccop p = 1 ∧ s.takeArrived p = some u ∧ u.controlFull = false ∧ u.gidGroup (colGid p) = some g ∧
      u.group g.handle = some g ∧ g.rank = 0 ∧ g.forming = some (0, 0) ∧
      ∀ r ∈ laterRanks g, ∃ j ∈ u.joins.filter (fun x => !(x.gid = colGid p && x.rank = leAt p.payload 16 2)) ++ [joinOf p], j.gid = g.gid ∧ j.rank = r ∧ j.digest = g.digest ∧
        j.start = g.start ∧ j.mode = g.mode :=
  ⟨arr (withGroup (forming 0 0 [(0, 0), (1, 1)])) (joinPk 1), withGroup (forming 0 0 [(0, 0), (1, 1)]), joinPk 1, forming 0 0 [(0, 0), (1, 1)],
    by decide, by decide, by decide, arr_taken _ _ rfl, by decide, by decide, by decide, by decide, by decide, by decide⟩
theorem witness_group_ready : ∃ (s u : State) (p : Packet) (g : Group), FromRank0 s u p 2 g 0 0 :=
  ⟨arr (withGroup (forming 1 0 [(1, 1), (0, 0)])) (ctlPk 2 0 [(8, 1), (12, 4096)]), withGroup (forming 1 0 [(1, 1), (0, 0)]), ctlPk 2 0 [(8, 1), (12, 4096)], forming 1 0 [(1, 1), (0, 0)],
    ⟨by decide, by decide, by decide, arr_taken _ _ rfl, by decide, by decide, by decide, by decide, by decide⟩⟩
theorem witness_group_mismatch_new : ∃ (s u : State) (p : Packet) (g : Group), FromRank0 s u p 3 g 0 0 ∧ g.before = 0 :=
  ⟨arr (withGroup (forming 1 0 [(1, 1), (0, 0)])) (ctlPk 3 0 []), withGroup (forming 1 0 [(1, 1), (0, 0)]), ctlPk 3 0 [], forming 1 0 [(1, 1), (0, 0)],
    ⟨by decide, by decide, by decide, arr_taken _ _ rfl, by decide, by decide, by decide, by decide, by decide⟩, by decide⟩
theorem witness_group_mismatch_replace : ∃ (s u : State) (p : Packet) (g : Group), FromRank0 s u p 3 g 0 0 ∧ g.before ≠ 0 :=
  ⟨arr (withGroup (forming 1 3 [(1, 1), (0, 0)])) (ctlPk 3 0 []), withGroup (forming 1 3 [(1, 1), (0, 0)]), ctlPk 3 0 [], forming 1 3 [(1, 1), (0, 0)],
    ⟨by decide, by decide, by decide, arr_taken _ _ rfl, by decide, by decide, by decide, by decide, by decide⟩, by decide⟩
theorem witness_group_forming_times_out : ∃ (s : State) (g : Group), s.groups.find? (fun g => g.forming = some ((0 : RingId), (0 : Index))) = some g ∧ g.forming = some (0, 0) :=
  ⟨withGroup (forming 1 0 []), forming 1 0 [], by decide, by decide⟩

/-- R309: the last JOIN completes the ROLLCALL with the handle; one with another START_SEQ does not. -/
theorem test_join : (nx (exec (.join (joinPk 1)) (arr (withGroup (forming 0 0 [(0, 0), (1, 1)])) (joinPk 1)))).descs.map (·.status) = [.ok] ∧
    (nx (exec (.join (joinPk 2)) (arr (withGroup (forming 0 0 [(0, 0), (1, 1)])) (joinPk 2)))).descs.map (·.status) = [.format] := by decide

/-- A DISBAND of handle 0. -/
def disbandTask : Desc := task 0x42 .started [0, 0, 0, 0, 0]
def disbanding (g : Group) : State := { tasked disbandTask with groups := [g] }

/-- A collective of sequence `n` of group 0, by descriptor 1 of ring 0. -/
def coll0 (n : Nat) : Coll :=
  ⟨0, 1, BitVec.ofNat 32 n, 1, 0, 0, false, false, false, 0, 0, 0, 0, 64, 0, 0, 0, .ok, [], [], [], [], [], [], 0, none, [], false, .ok⟩

theorem disband_zero : ∀ w ∈ disbandTask.words.drop 4, w = 0 := by simp [disbandTask, task]
theorem witness_disband : (∃ (s : State) (d : Desc) (g : Group), s.work 0 0 0x42 .started = some d ∧ bits (d.word 3) 63 8 = 0 ∧ (∀ w ∈ d.words.drop 4, w = 0) ∧
      s.group (bits (d.word 3) 7 0) = some g ∧ g.state ≠ 2 ∧ g.state ≠ 3) ∧
    (∃ (s : State) (d : Desc) (g : Group), s.work 0 0 0x42 .started = some d ∧ bits (d.word 3) 63 8 = 0 ∧ (∀ w ∈ d.words.drop 4, w = 0) ∧
      s.group (bits (d.word 3) 7 0) = some g ∧ g.state = 2 ∧ g.cur = none ∧ g.held = []) ∧
    ∃ (s : State) (d : Desc) (g : Group), s.work 0 0 0x42 .started = some d ∧ bits (d.word 3) 63 8 = 0 ∧ (∀ w ∈ d.words.drop 4, w = 0) ∧
      s.group (bits (d.word 3) 7 0) = some g ∧ g.state = 3 ∧ g.held ≠ [] :=
  ⟨⟨disbanding { grp0 with state := 1 }, disbandTask, { grp0 with state := 1 }, by decide, by decide, disband_zero, by decide, by decide, by decide⟩,
   ⟨disbanding grp0, disbandTask, grp0, by decide, by decide, disband_zero, by decide, by decide, by decide, by decide⟩,
   ⟨disbanding { grp0 with state := 3, held := [coll0 5] }, disbandTask, { grp0 with state := 3, held := [coll0 5] }, by decide, by decide, disband_zero, by decide, by decide, by decide⟩⟩

/-- A COLLECTIVE of sequence `n` by handle 0. -/
def collTask (n : Nat) : Desc := task 0x41 .started [BitVec.ofNat 64 (n * 2 ^ 32), sram, sram, 0, 0]
def collecting (n : Nat) (g : Group) : State := { tasked (collTask n) with groups := [g] }

theorem witness_collective :
    (∃ (s : State) (d : Desc), s.work 0 0 0x41 .started = some d ∧ s.activeGroup (bits (d.word 3) 31 24) = none) ∧
    (∃ (s : State) (d : Desc) (g : Group), s.work 0 0 0x41 .started = some d ∧ s.activeGroup (bits (d.word 3) 31 24) = some g ∧ seqBehind g.nextSeq (s.collOf 0 0 d).seq = true) ∧
    (∃ (s : State) (d : Desc) (g : Group), s.work 0 0 0x41 .started = some d ∧ s.activeGroup (bits (d.word 3) 31 24) = some g ∧ seqBehind g.nextSeq (s.collOf 0 0 d).seq = false ∧
      g.state ≠ 3 ∧ (s.collOf 0 0 d).seq = g.nextSeq ∧ g.cur = none) ∧
    (∃ (s : State) (d : Desc) (g : Group), s.work 0 0 0x41 .started = some d ∧ s.activeGroup (bits (d.word 3) 31 24) = some g ∧ seqBehind g.nextSeq (s.collOf 0 0 d).seq = false ∧
      g.state ≠ 3 ∧ (s.collOf 0 0 d).seq ≠ g.nextSeq) ∧
    (∃ (s : State) (g : Group) (c : Coll), s.group (0 : Fin 256) = some g ∧ g.cur = none ∧ g.held.find? (fun c => c.seq = g.nextSeq || seqBehind g.nextSeq c.seq) = some c ∧ c.seq = g.nextSeq) ∧
    ∃ (s : State) (g : Group) (c : Coll), s.group (0 : Fin 256) = some g ∧ g.cur = none ∧ g.held.find? (fun c => c.seq = g.nextSeq || seqBehind g.nextSeq c.seq) = some c ∧ c.seq ≠ g.nextSeq ∧
      g.disband = none :=
  ⟨⟨tasked (collTask 1), collTask 1, by decide, by decide⟩, ⟨collecting 0 grp0, collTask 0, grp0, by decide, by decide, by decide⟩,
   ⟨collecting 1 grp0, collTask 1, grp0, by decide, by decide, by decide, by decide, by decide, by decide⟩,
   ⟨collecting 2 grp0, collTask 2, grp0, by decide, by decide, by decide, by decide, by decide⟩,
   ⟨withGroup { grp0 with held := [coll0 1] }, { grp0 with held := [coll0 1] }, coll0 1, by decide, by decide, by decide, by decide⟩,
   ⟨withGroup { grp0 with held := [coll0 0] }, { grp0 with held := [coll0 0] }, coll0 0, by decide, by decide, by decide, by decide, by decide⟩⟩

/-- Group 7 runs collective 1 with one flow from rank 1 and one to it; `g` taken from a packet. -/
def edge10 : Edge := ⟨1, 0, 0, 0, 1, 0, 16⟩
def edge01 : Edge := ⟨0, 1, 0, 0, 1, 0, 16⟩
def busyGrp : Group := { grp0 with cur := some { coll0 1 with ins := [⟨edge10, 64, [], none⟩], outs := [⟨edge01, 0, 0, false⟩] } }
def takes (g : Group) (p : Packet) : State := arr (withGroup g) p

theorem from_rank1 (g : Group) (p : Packet) (op : Nat) (hc : p.cls = 2) (ho : p.op = op) (hf : colOk p = true) (hg : colGid p = 7) (h7 : g.gid = 7) (h0 : g.state ≠ 0) (h1 : g.rankOf p.src = some 1) :
    FromMember (takes g p) (withGroup g) p op g 1 :=
  ⟨hc, ho, arr_taken _ _ rfl, hf, by simp [withGroup, hg, h7, h0], by simp [State.group, withGroup], h1⟩

/-- The parameters of `coll0` in a GRANT, for the node of `edge01`. -/
def grantPk (seq kind : Nat) : Packet := ctlPk 4 seq [(8, 0), (10, 0), (12, 1), (16, 0), (20, 64), (24, kind), (28, 64)]

theorem witness_grants :
    (∃ (s u : State) (p : Packet) (g : Group) (r : Nat) (c : Coll) (f : OutFlow), FromMember s u p 0x22 g r ∧ ccop p = 4 ∧ g.seqIs (colSeq p) = .current c ∧ c.agrees p.payload = true ∧
      c.outs.find? (fun f => edgeIs f.edge r (leAt p.payload 8 1) (leAt p.payload 10 2) (leAt p.payload 12 2) true) = some f) ∧
    (∃ (s u : State) (p : Packet) (g : Group) (r : Nat) (c : Coll), FromMember s u p 0x22 g r ∧ ccop p = 4 ∧ g.seqIs (colSeq p) = .current c ∧ c.agrees p.payload = false) ∧
    (∃ (s u : State) (p : Packet) (g : Group) (r : Nat), FromMember s u p 0x22 g r ∧ ccop p = 4 ∧ g.seqIs (colSeq p) = .ahead ∧ u.controlFull = false) ∧
    ∃ (s u : State) (p : Packet) (g : Group) (r : Nat), FromMember s u p 0x22 g r ∧ ccop p = 4 ∧ g.seqIs (colSeq p) = .past none :=
  ⟨⟨takes busyGrp (grantPk 1 1), withGroup busyGrp, grantPk 1 1, busyGrp, 1, _, ⟨edge01, 0, 0, false⟩, from_rank1 _ _ _ (by decide) (by decide) (by decide) (by decide) (by decide) (by decide) (by decide),
      by decide, rfl, by decide, by decide⟩,
   ⟨takes busyGrp (grantPk 1 5), withGroup busyGrp, grantPk 1 5, busyGrp, 1, _, from_rank1 _ _ _ (by decide) (by decide) (by decide) (by decide) (by decide) (by decide) (by decide), by decide, rfl,
      by decide⟩,
   ⟨takes busyGrp (grantPk 2 1), withGroup busyGrp, grantPk 2 1, busyGrp, 1, from_rank1 _ _ _ (by decide) (by decide) (by decide) (by decide) (by decide) (by decide) (by decide), by decide, rfl,
      by decide⟩,
   ⟨takes busyGrp (grantPk 0 1), withGroup busyGrp, grantPk 0 1, busyGrp, 1, from_rank1 _ _ _ (by decide) (by decide) (by decide) (by decide) (by decide) (by decide) (by decide), by decide, rfl⟩⟩

/-- A chunk of the flow of `edge10`. -/
def chunkPk (seq : Nat) : Packet := colPk 0x20 seq (2 ^ 35) [1, 2, 3, 4]
def sentChunk (tries : Nat) : Group := { busyGrp with sent := [⟨{ chunkPk 1 with w0 := BitVec.ofNat 64 (2 + 0x20 * 2 ^ 8 + 2 ^ 16) }, tries⟩] }

theorem witness_chunks :
    (∃ (s u : State) (p : Packet) (g : Group) (r : Nat) (bs : List Byte) (c : Coll) (f : InFlow), FromMember s u p 0x20 g r ∧ chunkData p = some bs ∧ g.seqIs (colSeq p) = .current c ∧
      c.ins.find? (fun f => edgeIs f.edge r (colStage p) (colFirst p) (colCount p) false) = some f) ∧
    (∃ (s u : State) (p : Packet) (g : Group) (r : Nat) (bs : List Byte), FromMember s u p 0x20 g r ∧ chunkData p = some bs ∧ g.seqIs (colSeq p) = .ahead) ∧
    (∃ (s u : State) (p : Packet) (g : Group) (r : Nat), FromMember s u p 0x22 g r ∧ ccop p = 5) ∧
    (∃ (s : State) (g : Group) (x : Sent), s.group (0 : Fin 256) = some g ∧ (g.sent.filter (fun x => x.pkt.op = 0x20))[0]? = some x ∧
      x.tries < s.fld Reg.ROUTE_CFG Reg.ROUTE_CFG_E2E_RETRIES) ∧
    ∃ (s : State) (g : Group) (x : Sent), s.group (0 : Fin 256) = some g ∧ (g.sent.filter (fun x => x.pkt.op = 0x20))[0]? = some x ∧
      s.fld Reg.ROUTE_CFG Reg.ROUTE_CFG_E2E_RETRIES ≤ x.tries ∧ g.rankOf x.pkt.dst = some 1 :=
  ⟨⟨takes busyGrp (chunkPk 1), withGroup busyGrp, chunkPk 1, busyGrp, 1, _, _, ⟨edge10, 64, [], none⟩, from_rank1 _ _ _ (by decide) (by decide) (by decide) (by decide) (by decide) (by decide) (by decide),
      rfl, rfl, by decide⟩,
   ⟨takes busyGrp (chunkPk 2), withGroup busyGrp, chunkPk 2, busyGrp, 1, _, from_rank1 _ _ _ (by decide) (by decide) (by decide) (by decide) (by decide) (by decide) (by decide), rfl, rfl⟩,
   ⟨takes busyGrp (ctlPk 5 1 [(12, 1), (16, 64)]), withGroup busyGrp, ctlPk 5 1 [(12, 1), (16, 64)], busyGrp, 1,
      from_rank1 _ _ _ (by decide) (by decide) (by decide) (by decide) (by decide) (by decide) (by decide), by decide⟩,
   ⟨withGroup (sentChunk 2), sentChunk 2, _, by decide, rfl, by decide⟩, ⟨withGroup (sentChunk 3), sentChunk 3, _, by decide, rfl, by decide, by decide⟩⟩

/-- A tally packet: digest 0x55 for the node of `edge10`, or a verdict. -/
def tallyPk (verdict ok : Nat) : Packet := colPk 0x21 1 (2 ^ 35) (fieldsOf [(0, verdict), (8, 0x55 * (1 - verdict)), (24, ok)])
/-- The same group as seen by the device of rank 1, whose packets come from rank 0. -/
def asRank1 : Group := { busyGrp with rank := 1, members := [(1, 1), (0, 0)] }

theorem witness_ends :
    (∃ (s u : State) (p : Packet) (g : Group) (r : Nat), FromMember s u p 0x22 g r ∧ ccop p = 6 ∧ g.state = 2 ∧ g.cur = none ∧ g.held = []) ∧
    (∃ (s u : State) (p : Packet) (g : Group) (r : Nat) (c : Coll), FromMember s u p 0x22 g r ∧ ccop p = 7 ∧ g.seqIs (colSeq p) = .current c) ∧
    (∃ (s u : State) (p : Packet) (g : Group) (r : Nat), FromMember s u p 0x22 g r ∧ ccop p = 7 ∧ g.seqIs (colSeq p) = .ahead ∧ u.controlFull = false) ∧
    (∃ (s u : State) (p : Packet) (g : Group) (r : Nat) (c : Coll), FromMember s u p 0x21 g r ∧ g.seqIs (colSeq p) = .current c ∧ ccop p = 0 ∧ colCount p ≤ 1) ∧
    (∃ (s u : State) (p : Packet) (g : Group) (r : Nat) (c : Coll), FromMember s u p 0x21 g r ∧ g.seqIs (colSeq p) = .current c ∧ ccop p = 1 ∧ (g.parent g.rank).map (·.parent) = some r) ∧
    (∃ (s u : State) (p : Packet) (g : Group) (r : Nat) (c : Coll), FromMember s u p 0x21 g r ∧ g.seqIs (colSeq p) = .current c ∧ ccop p = 1 ∧ (g.parent g.rank).map (·.parent) ≠ some r ∧
      (g.children g.rank).any (fun l => l.child = r) = true ∧ (∀ v ∈ c.votes, v.1 ≠ r) ∧ g.cur = some c) ∧
    (∃ (s : State) (g : Group) (c : Coll), s.group (0 : Fin 256) = some g ∧ g.cur = some c ∧ s.isShadow (s.ringAuth c.ring) = false) ∧
    ∃ (s : State) (g : Group) (c : Coll), s.group g.handle = some g ∧ g.cur = some c ∧ g.disband = none ∧ s.isSource (s.ringAuth c.ring) = false :=
  ⟨⟨takes grp0 (ctlPk 6 0 []), withGroup grp0, ctlPk 6 0 [], grp0, 1, from_rank1 _ _ _ (by decide) (by decide) (by decide) (by decide) (by decide) (by decide) (by decide), by decide, by decide, by decide, by decide⟩,
   ⟨takes busyGrp (ctlPk 7 1 [(8, 9)]), withGroup busyGrp, ctlPk 7 1 [(8, 9)], busyGrp, 1, _, from_rank1 _ _ _ (by decide) (by decide) (by decide) (by decide) (by decide) (by decide) (by decide), by decide, rfl⟩,
   ⟨takes busyGrp (ctlPk 7 2 []), withGroup busyGrp, ctlPk 7 2 [], busyGrp, 1, from_rank1 _ _ _ (by decide) (by decide) (by decide) (by decide) (by decide) (by decide) (by decide), by decide, rfl, by decide⟩,
   ⟨takes busyGrp (tallyPk 0 0), withGroup busyGrp, tallyPk 0 0, busyGrp, 1, _, from_rank1 _ _ _ (by decide) (by decide) (by decide) (by decide) (by decide) (by decide) (by decide), rfl, by decide, by decide⟩,
   ⟨takes asRank1 (tallyPk 1 1), withGroup asRank1, tallyPk 1 1, asRank1, 0, _, ⟨by decide, by decide, arr_taken _ _ rfl, by decide, by decide, by decide, by decide⟩, rfl, by decide, by decide⟩,
   ⟨takes busyGrp (tallyPk 1 1), withGroup busyGrp, tallyPk 1 1, busyGrp, 1, _, from_rank1 _ _ _ (by decide) (by decide) (by decide) (by decide) (by decide) (by decide) (by decide), rfl, by decide, by decide,
      by decide, by decide, rfl⟩,
   ⟨withGroup busyGrp, busyGrp, _, by decide, rfl, by decide⟩, ⟨withGroup busyGrp, busyGrp, _, by decide, rfl, by decide, by decide⟩⟩

/-- R318: a GRANT of another kind ends the collective. R322: LOST makes the group LOST. -/
theorem test_grant : ((nx (exec (.grant (grantPk 1 5)) (takes busyGrp (grantPk 1 5)))).groups.map (fun g => g.cur.isSome)) = [false] ∧
    (nx (exec (.lost (ctlPk 6 0 [])) (takes grp0 (ctlPk 6 0 [])))).groups.map (·.state) = [3] := by decide

/-! ### Witnesses: faults, aborts, resets, dumps -/

/-- A reset of core 0, of cluster 0, in `ph`. -/
def rst (kind ph : Nat) (dump : Bool) (turn : Option Ctx) : Reset := ⟨kind, 0, dump, 0, false, ph, turn, none, []⟩
def resetting (r : Reset) : State := { State.reset with resets := [r] }

/-- Context 0's descriptor of ring 0 is held for its replay. -/
def suspected (r : Reset) (ph : DPhase) : State := { resetting r with descs := [{ work0 0x10 with held := true, phase := ph }] }
def replayOn (s : State) : State := (s.setFld Reg.ERR_HANG_CFG Reg.ERR_HANG_CFG_REPLAY_EN 1).setFld (Reg.ERR_CTX 0) Reg.ERR_CTX_REPLAY 1

theorem witness_domain_resets :
    (∃ s : State, s.mayUse .mgmt = true ∧ s.resets.any (fun r => r.covers 0 (0 : CoreId).val) = true) ∧
    (∃ s : State, s.mayUse .mgmt = true ∧ s.resets.any (fun r => r.covers 0 (127 : CoreId).val) = false) ∧ (∃ s : State, s.mayUse .mgmt = true ∧ s.resets = []) ∧
    (∃ (s : State) (r : Reset), s.resets = [r] ∧ r.phase = 1 ∧ r.dump = true) ∧ (∃ (s : State) (r : Reset), s.resets = [r] ∧ r.phase = 1 ∧ r.dump = false) ∧
    (∃ (s : State) (r : Reset), s.resets = [r] ∧ r.phase = 3 ∧ r.again = none ∧ r.kind = 0) ∧ (∃ (s : State) (r : Reset), s.resets = [r] ∧ r.phase = 3 ∧ r.again = none ∧ r.kind = 1) :=
  ⟨⟨resetting (rst 1 1 false none), by decide, by decide⟩, ⟨resetting (rst 1 1 false none), by decide, by decide⟩, ⟨State.reset, by decide, rfl⟩,
   ⟨resetting (rst 0 1 true none), _, rfl, rfl, rfl⟩, ⟨resetting (rst 0 1 false none), _, rfl, rfl, rfl⟩, ⟨resetting (rst 0 3 false none), _, rfl, rfl, rfl, rfl⟩,
   ⟨resetting (rst 1 3 false none), _, rfl, rfl, rfl, rfl⟩⟩

theorem witness_suspects :
    (∃ (s : State) (r : Reset) (x : Ctx), s.resets = [r] ∧ r.phase = 4 ∧ r.turn = none ∧ s.suspects.head? = some x ∧ s.fld Reg.ERR_HANG_CFG Reg.ERR_HANG_CFG_REPLAY_EN = 1 ∧
      s.fld (Reg.ERR_CTX x) Reg.ERR_CTX_REPLAY = 1) ∧
    (∃ (s : State) (r : Reset) (x : Ctx), s.resets = [r] ∧ r.phase = 4 ∧ r.turn = none ∧ s.suspects.head? = some x ∧ s.fld Reg.ERR_HANG_CFG Reg.ERR_HANG_CFG_REPLAY_EN = 0) ∧
    ∃ (s : State) (r : Reset) (x : Ctx), s.resets = [r] ∧ r.phase = 4 ∧ r.turn = some x ∧ ∀ d ∈ s.heldOf x, d.phase = .done :=
  ⟨⟨replayOn (suspected (rst 0 4 false none) .working), _, 0, rfl, rfl, rfl, by decide, by decide, by decide⟩,
   ⟨(suspected (rst 0 4 false none) .working).setFld Reg.ERR_HANG_CFG Reg.ERR_HANG_CFG_REPLAY_EN 0, _, 0, rfl, rfl, rfl, by decide, by decide⟩,
   ⟨suspected (rst 0 4 false (some 0)) .done, _, 0, rfl, rfl, rfl, by decide⟩⟩

theorem witness_hangs : (∃ s : State, s.fld Reg.ERR_HANG_CFG Reg.ERR_HANG_CFG_ENABLE = 1 ∧ s.engineBusy (.core 0) = true) ∧
    (∃ s : State, s.fld Reg.ERR_HANG_CFG Reg.ERR_HANG_CFG_ENABLE = 1 ∧ s.engineBusy (.dma 0) = true) ∧
    ∃ s : State, s.fld Reg.ERR_HANG_CFG Reg.ERR_HANG_CFG_ENABLE = 1 ∧ s.engineBusy (.device 0) = true :=
  ⟨⟨halting0.setFld Reg.ERR_HANG_CFG Reg.ERR_HANG_CFG_ENABLE 1, by decide, by decide⟩,
   ⟨((tasked (fillTask 16)).setFld Reg.ERR_HANG_CFG Reg.ERR_HANG_CFG_ENABLE 1).setFld (Reg.RING_CFG 0) Reg.RING_CFG_CLASS 1, by decide, by decide⟩,
   ⟨((tasked (putTask 16)).setFld Reg.ERR_HANG_CFG Reg.ERR_HANG_CFG_ENABLE 1).setFld (Reg.RING_CFG 0) Reg.RING_CFG_CLASS 2, by decide, by decide⟩⟩

/-- A dump of core 0 waits; its slots are in cluster 0's SRAM. -/
def dumping (busy : Nat) : State :=
  { ((State.reset.setReg Reg.ERR_DUMP_BASE (BitVec.ofNat 64 sram0)).setFld Reg.ERR_DUMP_CFG Reg.ERR_DUMP_CFG_HAMPER 0).setFld Reg.ERR_DUMP_STATE Reg.ERR_DUMP_STATE_BUSY busy with
    dumpQ := [⟨0, 0, 0⟩], resets := [rst 0 2 true none] }

theorem witness_dumps :
    (∃ (s : State) (r : DumpReq), s.dumpQ = [r] ∧ s.fld Reg.ERR_DUMP_STATE Reg.ERR_DUMP_STATE_BUSY = 0 ∧ s.failsafe = false ∧ s.hamperHeld = false ∧
      s.fld Reg.ERR_DUMP_CFG Reg.ERR_DUMP_CFG_HAMPER = 0 ∧
      (s.wrapInc Reg.ERR_DUMP_STATE Reg.ERR_DUMP_STATE_DUMPS).Permits ((s.wrapInc Reg.ERR_DUMP_STATE Reg.ERR_DUMP_STATE_DUMPS).me .ranger) .wr false
        (dumpPlace (s.wrapInc Reg.ERR_DUMP_STATE Reg.ERR_DUMP_STATE_DUMPS)) (dumpOf (s.wrapInc Reg.ERR_DUMP_STATE Reg.ERR_DUMP_STATE_DUMPS) r).length ∧
      (s.wrapInc Reg.ERR_DUMP_STATE Reg.ERR_DUMP_STATE_DUMPS).Clean .ranger (dumpPlace (s.wrapInc Reg.ERR_DUMP_STATE Reg.ERR_DUMP_STATE_DUMPS))
        (dumpOf (s.wrapInc Reg.ERR_DUMP_STATE Reg.ERR_DUMP_STATE_DUMPS) r).length) ∧
    ∃ (s : State) (r : DumpReq) (q : Reset), s.dumpQ = [r] ∧ s.fld Reg.ERR_DUMP_STATE Reg.ERR_DUMP_STATE_BUSY = 1 ∧ r.kind ≠ 2 ∧ s.resets = [q] ∧ q.phase = 2 ∧ q.kind = r.kind ∧
      q.index = r.index := by
  refine ⟨⟨dumping 0, ⟨0, 0, 0⟩, rfl, by decide, rfl, by decide, by decide, ?_, ?_⟩, ⟨dumping 1, ⟨0, 0, 0⟩, rst 0 2 true none, rfl, by decide, by decide, rfl, rfl, rfl, rfl⟩⟩
  · exact allows_ranger _ _ _ _ _ _ 0 (by decide) rfl
  · exact answers_sram _ _ _ _ (fun u h => ⟨by rw [State.unitFenced, sram_units _ _ (by decide) (by decide) u h]; rfl, rfl⟩) rfl rfl rfl

/-- R392: the finished dump is VALID and its reset goes on. -/
theorem test_dump_done : (nx (exec .dumpDone (dumping 1))).fld Reg.ERR_DUMP_STATE Reg.ERR_DUMP_STATE_VALID = 1 ∧ (nx (exec .dumpDone (dumping 1))).resets.map (·.phase) = [3] := by decide

/-- An ABORT notice of context 3's job 0, from device 2. -/
def abortPk (job : Nat) : Packet :=
  let q := pk 4 0x32 148 0 0 0 0 (leBytes 4 job ++ leBytes 2 3 ++ leBytes 2 9 ++ leBytes 8 2 ++ List.replicate 16 0)
  { q with pcrc := crc32c q.payload }

theorem witness_failsafe :
    (∃ s : State, s.failsafe = false) ∧ (∃ s : State, s.failsafe = true) ∧
    (∃ (s : State) (p : Fin 4), bit (s.reg Reg.ERR_STATUS) (48 + p.val) = true ∧ s.failsafe = false ∧ bits (s.reg Reg.ERR_STATUS) 51 48 = 2 ^ p.val) ∧
    (∃ (s : State) (p : Fin 4), bit (s.reg Reg.ERR_STATUS) (48 + p.val) = true ∧ s.failsafe = false ∧
      ((s.setReg Reg.ERR_STATUS (setBit (s.reg Reg.ERR_STATUS) (48 + p.val) false)).post (event 0x010C (BitVec.ofNat 48 p.val) none)).fld Reg.ERR_STATUS Reg.ERR_STATUS_PAIRS ≠ 0) ∧
    (∃ s : State, s.mayUse .mgmt = true ∧ s.dumpBit = false) ∧ (∃ s : State, s.mayUse .mgmt = true ∧ s.dumpBit = true ∧ s.failsafe = false ∧ s.resets = []) ∧
    (∃ s : State, s.mayUse .mgmt = true ∧ s.fld (Reg.OPTIC_ENG_STATE 0) Reg.OPTIC_ENG_STATE_STATE = 5) ∧ ∃ s : State, s.mayUse .mgmt = true ∧ s.fld (Reg.OPTIC_ENG_STATE 0) Reg.OPTIC_ENG_STATE_STATE ≠ 5 :=
  ⟨⟨State.reset, rfl⟩, ⟨{ State.reset with failsafe := true }, rfl⟩, ⟨State.reset.setReg Reg.ERR_STATUS (2 ^ 50), 2, by decide, by decide, by decide⟩,
   ⟨State.reset, 2, by decide, by decide, by decide⟩, ⟨State.reset.setReg Reg.ERR_RESET_CTRL 0, by decide, by decide⟩,
   ⟨State.reset.setFld Reg.ERR_RESET_CTRL Reg.ERR_RESET_CTRL_DUMP 1, by decide, by decide, rfl, rfl⟩,
   ⟨State.reset.setFld (Reg.OPTIC_ENG_STATE 0) Reg.OPTIC_ENG_STATE_STATE 5, by decide, by decide⟩, ⟨State.reset, by decide, by decide⟩⟩

/-- R381: the loss of the last pair enters fail-safe, the loss of another does not. -/
theorem test_last_pair : (nx (exec (.lockstepPair 2) (State.reset.setReg Reg.ERR_STATUS (2 ^ 50)))).failsafe = true ∧ (nx (exec (.lockstepPair 2) State.reset)).failsafe = false := by decide

theorem witness_aborts :
    (∃ (s u : State) (p : Packet), s.takeArrived p = some u ∧ p.op = 0x32 ∧ p.cls = 4 ∧ p.payload.length = 32 ∧ p.pcrcOk = true ∧ abortOk p.payload = true ∧ u.abortsSeen.contains (abOrigin p, abSeq p) = true) ∧
    (∃ (s u : State) (p : Packet), s.takeArrived p = some u ∧ p.op = 0x32 ∧ p.cls = 4 ∧ p.payload.length = 32 ∧ p.pcrcOk = true ∧ abortOk p.payload = true ∧ u.abortsSeen.contains (abOrigin p, abSeq p) = false ∧
      (u.jobOf (abCtx p)).toNat ≠ abJob p) ∧
    (∃ (s u : State) (p : Packet), s.takeArrived p = some u ∧ p.op = 0x32 ∧ p.cls = 4 ∧ p.payload.length = 32 ∧ p.pcrcOk = true ∧ abortOk p.payload = true ∧ u.abortsSeen.contains (abOrigin p, abSeq p) = false ∧
      (u.jobOf (abCtx p)).toNat = abJob p) ∧
    (∃ (s : State) (v : Word), s.mayUse .mgmt = true ∧ v.getLsbD 48 = true) ∧ (∃ (s : State) (v : Word), s.mayUse .mgmt = true ∧ v.getLsbD 48 = false) ∧
    (∃ (s : State) (d : Desc), s.groups = [] ∧ d ∈ s.descs ∧ s.ringAuth d.ring = .ctx 0 ∧ (0 : CoreId) ∈ s.coresOf 0) ∧
    (∃ s : State, s.mayUse .mgmt = true ∧ s.aborted 3 = true ∧ s.fld (Reg.ERR_CTX 3) Reg.ERR_CTX_DRAINING = 1) ∧
    ∃ s : State, s.mayUse .mgmt = true ∧ s.aborted 3 = true ∧ s.fld (Reg.ERR_CTX 3) Reg.ERR_CTX_DRAINING = 0 :=
  ⟨⟨arr { State.reset with abortsSeen := [(2, 9)] } (abortPk 0), { State.reset with abortsSeen := [(2, 9)] }, abortPk 0, arr_taken _ _ rfl, by decide, by decide, by decide, by decide, by decide, by decide⟩,
   ⟨arr State.reset (abortPk 1), State.reset, abortPk 1, arr_taken _ _ rfl, by decide, by decide, by decide, by decide, by decide, by decide, by decide⟩,
   ⟨arr State.reset (abortPk 0), State.reset, abortPk 0, arr_taken _ _ rfl, by decide, by decide, by decide, by decide, by decide, by decide, by decide⟩,
   ⟨State.reset, 2 ^ 48, by decide, by decide⟩, ⟨State.reset, 0, by decide, by decide⟩,
   ⟨halting0, _, rfl, .head _, by decide, by decide⟩,
   ⟨(State.reset.setFld (Reg.ERR_CTX 3) Reg.ERR_CTX_ABORTED 1).setFld (Reg.ERR_CTX 3) Reg.ERR_CTX_DRAINING 1, by decide, by decide, by decide⟩,
   ⟨State.reset.setFld (Reg.ERR_CTX 3) Reg.ERR_CTX_ABORTED 1, by decide, by decide, by decide⟩⟩

/-- R385, R386: a notice for the context's job sets ABORTED, one for another job does not; an aborted launch's core halts and its descriptor is ABORTED. -/
theorem test_abort : (nx (exec (.abort (abortPk 0)) (arr State.reset (abortPk 0)))).aborted 3 = true ∧ (nx (exec (.abort (abortPk 1)) (arr State.reset (abortPk 1)))).aborted 3 = false ∧
    ((halting0.abortAct 0 0).core 0).run = .halted ∧ (halting0.abortAct 0 0).descs.map (·.status) = [.aborted] := by decide

/-! ### Witnesses: flits -/

/-- A flit of type `kind` on line 0 from device 1's fiber 5, without credits, by its other fields (R253). -/
def flit (kind seq ack more : Nat) (pl : List Byte) : Flit :=
  let ctl : BitVec 128 := BitVec.ofNat 128 (kind + 5 * 2 ^ 8 + 2 ^ 14 + seq * 2 ^ 26 + ack * 2 ^ 50 + 31 * 2 ^ 75 + 31 * 2 ^ 92 + more)
  ⟨ctl, pl, crc32 (leBytes 16 ctl.toNat ++ pl)⟩

/-- Fiber pair 0 in STATE `st` toward device 1's fiber 5, its 16 channels in service, its receive line 0 locked. -/
def fiber0 (st : Nat) : State :=
  let s := (((State.reset.setFld (Reg.OPTIC_FIB_STATE 0) Reg.OPTIC_FIB_STATE_STATE st).setFld (Reg.OPTIC_FIB_STATE 0) Reg.OPTIC_FIB_STATE_FAR_COORD 1).setFld (Reg.OPTIC_FIB_STATE 0)
    Reg.OPTIC_FIB_STATE_FAR_FIBER 5).setChMap 0 true 255 |>.setChMap 0 false 255
  let s := (List.range 16).foldl (fun (s : State) c => s.setChState c 2) s
  { s with opt := { s.opt with locked := [8] }, fab := { s.fab with flipped := true } }
def sure (s : State) (f : Flit) : State := { s with opt := { s.opt with seen := Maps.set s.opt.seen 8 f.next, confirm := Maps.put 0 s.opt.confirm 8 (min 64 (Maps.get 0 s.opt.confirm 8 + 1)) } }

/-- The receive channel of line 0. -/
def rx0 : ChanId := 8

theorem flit_crc (kind seq ack more : Nat) (pl : List Byte) : (flit kind seq ack more pl).crcOk = true := by simp [Flit.crcOk, flit]
def pad320 (b : List Byte) : List Byte := b ++ List.replicate (320 - b.length) 0xFF

theorem witness_bad_flits : (∃ (s : State) (f : Flit) (n : Nat), chRx rx0 = true ∧ s.opt.locked.contains rx0.val = false ∧ n = 0 ∧ f.ftype = 1) ∧
    (∃ n : Nat, 8 < n) ∧ (∃ f : Flit, f.ftype = 0) ∧ ∃ f : Flit, 5 < f.ftype :=
  ⟨⟨State.reset, flit 1 0 0 0 [], 0, by decide, by decide, rfl, by decide⟩, ⟨9, by decide⟩, ⟨flit 0 0 0 0 [], by decide⟩, ⟨flit 6 0 0 0 [], by decide⟩⟩

theorem good_flit (s : State) (kind seq ack more : Nat) (pl : List Byte) (hl : s.opt.locked.contains 8 = true) (hf : (flit kind seq ack more pl).ftype = kind)
    (hk : 1 ≤ kind ∧ kind ≤ 5) (hp : pl.length = 320) (hw : (flit kind seq ack more pl).widx = 0)
    (hx : s.fibState 0 = 2 → (flit kind seq ack more pl).fidx = s.farFiber 0 ∧ (flit kind seq ack more pl).scoord = s.farCoord 0) (hs : s.fibState 0 = 2 → s.inMap 8 = true) :
    Good s (sure s (flit kind seq ack more pl)) rx0 (flit kind seq ack more pl) kind :=
  ⟨by decide, hl, flit_crc .., hf, hk, hp, hw, fun h _ => hx h, fun h => .inl (hs h), rfl⟩
theorem quiet_flit (s : State) (f : Flit) (hl : s.links = []) (hn : f.nak = false) (ha : 30 ≤ f.creditA.1) (hb : 30 ≤ f.creditB.1) (hh : s.fab.held = []) : Quiet s f :=
  ⟨(by rw [State.link, hl]; intro g hg; cases hg), hn, ⟨ha, hb⟩, hh⟩

/-- Channels 9 to 15 of the pair have told nothing of the sequence, so nothing is known to be lost; with line 0 alone in the map, its flit tells. -/
theorem not_lost (s : State) (f : Flit) (d : Coord) (h : d = 1) (h0 : s.opt.seen = []) (h9 : 9 ∈ s.rxChannels 1) : ¬Lost (sure s f) d := by
  subst h
  intro h
  obtain ⟨e, he, _⟩ := h.2.2 9 h9
  change (Maps.set s.opt.seen 8 f.next).find? _ = some e at he
  rw [h0] at he
  cases he
def lost0 : State := (fiber0 2).setChMap 0 true 1

/-- The bytes of an IDENT-sized packet: one unit, no payload. -/
def onePk : Packet := pk 0 0 0 8 5 0 0 []
def dataFlit (seq : Nat) : Flit := flit 1 seq 0 0 (onePk.bytes ++ List.replicate 288 0xFF)
/-- Data flit 1 of device 1 waits for data flit 0. -/
def waits1 : State := { fiber0 2 with links := [{ Link.reset 1 with early := [(8, dataFlit 1)] }] }
theorem onePk_length : (onePk.bytes ++ List.replicate 288 (0xFF : Byte)).length = 320 := by decide

theorem witness_data_flits :
    (∃ (s u : State) (f : Flit) (p : Packet), Good s u rx0 f 1 ∧ Quiet u f ∧ s.fibState (chFiber rx0) = 2 ∧ s.fab.flipped = true ∧ f.seq = (u.link f.scoord).rxSeq ∧ (u.link f.scoord).early = [] ∧
      (u.link f.scoord).lacks = 0 ∧ f.first = 0 ∧ p.payload = [] ∧ p.plen = 0 ∧ p.pcrc = 0 ∧ (∃ b ∈ p.bytes, b ≠ 0xFF) ∧ f.payload = p.bytes ++ List.replicate 288 0xFF) ∧
    (∃ (s u : State) (f : Flit), Good s u rx0 f 1 ∧ Quiet u f ∧ s.fibState (chFiber rx0) = 2 ∧ s.fab.flipped = true ∧ f.seq ≠ (u.link f.scoord).rxSeq ∧
      seqLe f.seq (u.link f.scoord).rxSeq = true) ∧
    (∃ (s u : State) (f : Flit) (x : Nat), Good s u rx0 f 1 ∧ Quiet u f ∧ s.fibState (chFiber rx0) = 2 ∧ s.fab.flipped = true ∧
      seqLe f.seq (u.link f.scoord).rxSeq = false ∧ Lost u f.scoord ∧ u.lane (chFiber rx0) = some x) ∧
    (∃ (s u : State) (f : Flit), Good s u rx0 f 1 ∧ Quiet u f ∧ s.fibState (chFiber rx0) = 2 ∧ s.fab.flipped = true ∧ seqLe f.seq (u.link f.scoord).rxSeq = false ∧
      (u.link f.scoord).nak = false ∧ ¬Lost u f.scoord ∧ (u.link f.scoord).early = []) ∧
    (∃ (s u : State) (f : Flit) (x : Nat), Good s u rx0 f 2 ∧ Quiet u f ∧ s.fibState (chFiber rx0) = 2 ∧ u.opt.fenced.contains (chFiber rx0) = false ∧ f.mapChg = false ∧
      Lost u f.scoord ∧ u.lane (chFiber rx0) = some x) ∧
    (∃ (s u : State) (f g : Flit) (p : Packet), Good s u rx0 f 1 ∧ Quiet u f ∧ s.fibState (chFiber rx0) = 2 ∧ s.fab.flipped = true ∧ f.seq = (u.link f.scoord).rxSeq ∧
      (u.link f.scoord).early = [(8, g)] ∧ g.seq = f.seq + 1 ∧ (u.link f.scoord).lacks = 0 ∧ f.first = 0 ∧ g.first = 0 ∧ p.payload = [] ∧ p.plen = 0 ∧ p.pcrc = 0 ∧
      (∃ b ∈ p.bytes, b ≠ 0xFF) ∧ f.payload = p.bytes ++ List.replicate 288 0xFF ∧ g.payload = p.bytes ++ List.replicate 288 0xFF) ∧
    (∃ (s u : State) (f : Flit), Good s u rx0 f 1 ∧ s.fab.flipped = false) ∧
    ∃ (s u : State) (f : Flit), Good s u rx0 f 2 ∧ s.fibState (chFiber rx0) = 2 ∧ u.opt.fenced.contains (chFiber rx0) = false ∧
      f.nak = false ∧ f.mapChg = false ∧ u.fab.held = [] ∧ ¬Lost u f.scoord ∧ seqLe f.ack (u.link f.scoord).txSeq = true ∧ 30 ≤ f.creditB.1 :=
  ⟨⟨fiber0 2, sure (fiber0 2) (dataFlit 0), dataFlit 0, onePk, good_flit _ _ _ _ _ _ (by decide) (by decide) (by decide) onePk_length (by decide) (by decide) (by decide),
      quiet_flit _ _ rfl (by decide) (by decide) (by decide) rfl, by decide, rfl, by decide, by decide, by decide, by decide, rfl, by decide, rfl, ⟨0, by decide, by decide⟩, rfl⟩,
   ⟨fiber0 2, sure (fiber0 2) (dataFlit (2 ^ 24 - 1)), dataFlit (2 ^ 24 - 1), good_flit _ _ _ _ _ _ (by decide) (by decide) (by decide) onePk_length (by decide) (by decide) (by decide),
      quiet_flit _ _ rfl (by decide) (by decide) (by decide) rfl, by decide, rfl, by decide, by decide⟩,
   ⟨lost0, sure lost0 (dataFlit 1), dataFlit 1, 0, good_flit _ _ _ _ _ _ (by decide) (by decide) (by decide) onePk_length (by decide) (by decide) (by decide),
      quiet_flit _ _ rfl (by decide) (by decide) (by decide) rfl, by decide, rfl, by decide, ⟨by decide, by decide, by decide⟩, by decide⟩,
   ⟨fiber0 2, sure (fiber0 2) (dataFlit 1), dataFlit 1, good_flit _ _ _ _ _ _ (by decide) (by decide) (by decide) onePk_length (by decide) (by decide) (by decide),
      quiet_flit _ _ rfl (by decide) (by decide) (by decide) rfl, by decide, rfl, by decide, by decide, not_lost _ _ _ (by decide) rfl (by decide), by decide⟩,
   ⟨lost0, sure lost0 (flit 2 1 0 0 (pad320 [])), flit 2 1 0 0 (pad320 []), 0, good_flit _ _ _ _ _ _ (by decide) (by decide) (by decide) (by decide) (by decide) (by decide) (by decide),
      quiet_flit _ _ rfl (by decide) (by decide) (by decide) rfl, by decide, by decide, by decide, ⟨by decide, by decide, by decide⟩, by decide⟩,
   ⟨waits1, sure waits1 (dataFlit 0), dataFlit 0, dataFlit 1, onePk, good_flit _ _ _ _ _ _ (by decide) (by decide) (by decide) onePk_length (by decide) (by decide) (by decide),
      ⟨by decide, by decide, by decide, rfl⟩, by decide, rfl, by decide, rfl, by decide, by decide, by decide, by decide, rfl, by decide, rfl, ⟨0, by decide, by decide⟩, rfl, rfl⟩,
   ⟨{ fiber0 2 with fab := Fabric.reset }, sure { fiber0 2 with fab := Fabric.reset } (dataFlit 0), dataFlit 0,
      good_flit _ _ _ _ _ _ (by decide) (by decide) (by decide) onePk_length (by decide) (by decide) (by decide), rfl⟩,
   ⟨fiber0 2, sure (fiber0 2) (flit 2 0 0 0 (pad320 [])), flit 2 0 0 0 (pad320 []), good_flit _ _ _ _ _ _ (by decide) (by decide) (by decide) (by decide) (by decide) (by decide) (by decide),
      by decide, by decide, by decide, by decide, rfl, not_lost _ _ _ (by decide) rfl (by decide), by decide, by decide⟩⟩

/-- An idle flit that changes a map. -/
def mapFlit (dir : Nat) (m : Nat) : Flit := flit 2 0 0 (2 ^ 109 + dir * 2 ^ 110 + m * 2 ^ 111) (pad320 [])
/-- The link to device 1 is fenced at the far end. -/
def fenced1 : State := { fiber0 2 with opt := { (fiber0 2).opt with fenced := [0] } }

theorem witness_idle_flits :
    (∃ (s u : State) (f : Flit), Good s u rx0 f 2 ∧ Quiet u f ∧ s.fibState (chFiber rx0) = 2 ∧ u.opt.fenced.contains (chFiber rx0) = false ∧ ¬Lost u f.scoord ∧ f.mapChg = false) ∧
    (∃ (s u : State) (f : Flit), Good s u rx0 f 2 ∧ Quiet u f ∧ s.fibState (chFiber rx0) = 2 ∧ u.opt.fenced.contains (chFiber rx0) = false ∧ ¬Lost u f.scoord ∧ f.mapChg = true ∧ f.mapDir = false ∧
      AllIn u (chFiber rx0) true) ∧
    (∃ (s u : State) (f : Flit), Good s u rx0 f 2 ∧ Quiet u f ∧ s.fibState (chFiber rx0) = 2 ∧ u.opt.fenced.contains (chFiber rx0) = false ∧ ¬Lost u f.scoord ∧ f.mapChg = true ∧ f.mapDir = true ∧
      AllIn u (chFiber rx0) false ∧ f.newMap ≠ 0 ∧ u.dark = false ∧ u.txOff (chFiber rx0) = false ∧ (u.link (u.farCoord (chFiber rx0))).owed = []) ∧
    ∃ (s u : State) (f : Flit), Good s u rx0 f 2 ∧ Quiet u f ∧ s.fibState (chFiber rx0) = 2 ∧ f.mapChg = false ∧ u.opt.fenced.contains (chFiber rx0) = true :=
  ⟨⟨fiber0 2, sure (fiber0 2) (flit 2 0 0 0 (pad320 [])), flit 2 0 0 0 (pad320 []), good_flit _ _ _ _ _ _ (by decide) (by decide) (by decide) (by decide) (by decide) (by decide) (by decide),
      quiet_flit _ _ rfl (by decide) (by decide) (by decide) rfl, by decide, by decide, not_lost _ _ _ (by decide) rfl (by decide), by decide⟩,
   ⟨fiber0 2, sure (fiber0 2) (mapFlit 0 0xF0), mapFlit 0 0xF0, good_flit _ _ _ _ _ _ (by decide) (by decide) (by decide) (by decide) (by decide) (by decide) (by decide),
      quiet_flit _ _ rfl (by decide) (by decide) (by decide) rfl, by decide, by decide, not_lost _ _ _ (by decide) rfl (by decide), by decide, by decide, ⟨by decide, by decide, by decide, by decide⟩⟩,
   ⟨fiber0 2, sure (fiber0 2) (mapFlit 1 1), mapFlit 1 1, good_flit _ _ _ _ _ _ (by decide) (by decide) (by decide) (by decide) (by decide) (by decide) (by decide),
      quiet_flit _ _ rfl (by decide) (by decide) (by decide) rfl, by decide, by decide, not_lost _ _ _ (by decide) rfl (by decide), by decide, by decide, ⟨by decide, by decide, by decide, by decide⟩, by decide, by decide, by decide, by decide⟩,
   ⟨fenced1, sure fenced1 (flit 2 0 0 0 (pad320 [])), flit 2 0 0 0 (pad320 []), good_flit _ _ _ _ _ _ (by decide) (by decide) (by decide) (by decide) (by decide) (by decide) (by decide),
      ⟨by decide, by decide, by decide, rfl⟩, by decide, by decide, by decide⟩⟩

/-- A training flit whose sender is at phase `ph`. -/
def trainFlit (ph : Byte) : Flit := flit 4 0 0 0 (pad320 [0, 0, 0, 0, ph])
/-- The pair trains; this end is at `mine`, the channel's good flits count `n`. -/
def training (mine n : Nat) : State :=
  let s := (((fiber0 1).setFld (Reg.OPTIC_ENG_STATE 0) Reg.OPTIC_ENG_STATE_STATE 1).setFld (Reg.OPTIC_LSM_STATE 0) Reg.OPTIC_LSM_STATE_LASER_EN 1).setFld
    (Reg.OPTIC_LSM_STATE 0) Reg.OPTIC_LSM_STATE_LINE_LIT 1
  { s with opt := { s.opt with tphase := Maps.put 0 [] 0 mine, confirm := Maps.put 0 [] 8 n } }

theorem witness_training_flits :
    (∃ (s u : State) (f : Flit), Good s u rx0 f 3 ∧ s.fibState (chFiber rx0) = 2 ∧ s.groups = [] ∧ s.fab.outst = [] ∧ u.farFenced (u.farCoord (chFiber rx0)) = false) ∧
    (∃ (s u : State) (f : Flit), Good s u rx0 f 3 ∧ s.fibState (chFiber rx0) = 2 ∧ u.farFenced (u.farCoord (chFiber rx0)) = true) ∧
    (∀ mine : Nat, mine = 0 ∨ mine = 1 ∨ mine = 2 → ∃ (s u : State) (f : Flit), Good s u rx0 f 4 ∧ s.fibState (chFiber rx0) = 1 ∧ s.stage < 3 ∧ u.fab.held = [] ∧ (u.link f.scoord).met = false ∧
      (s.pass (engOf (chFiber rx0))).cur = none ∧ s.fld (Reg.OPTIC_ENG_STATE (engOf (chFiber rx0))) Reg.OPTIC_ENG_STATE_STATE = 1 ∧
      (∀ x < 3, s.fld (Reg.OPTIC_SUBST x) Reg.OPTIC_SUBST_REQUESTED = 0) ∧ Maps.get 0 s.opt.tphase (chan (chFiber rx0) false (chLine rx0)) = mine ∧ f.byte 4 = mine ∧
      s.txLit (chan (chFiber rx0) false (chLine rx0)) = true ∧ (mine = 0 → Maps.get 0 u.opt.confirm rx0 = 64)) ∧
    (∃ (s u : State) (f : Flit), Good s u rx0 f 4 ∧ Maps.get 0 s.opt.tphase (chan (chFiber rx0) false (chLine rx0)) = 0 ∧ Maps.get 0 u.opt.confirm rx0 ≠ 64) ∧
    (∃ b : BitVec 2880, chRx rx0 = true ∧ bits b 63 0 = 0x9D2B6E41C7F0385A ∧ bits b 2879 2816 = 2 ^ 64 - 1 - 0x9D2B6E41C7F0385A) ∧
    ∃ b : BitVec 2880, ¬(bits b 63 0 = 0x9D2B6E41C7F0385A ∧ bits b 2879 2816 = 2 ^ 64 - 1 - 0x9D2B6E41C7F0385A) := by
  refine ⟨⟨fiber0 2, sure (fiber0 2) (flit 3 0 0 0 (pad320 [])), flit 3 0 0 0 (pad320 []), good_flit _ _ _ _ _ _ (by decide) (by decide) (by decide) (by decide) (by decide) (by decide) (by decide), by decide, rfl, rfl, by decide⟩,
    ⟨fenced1, sure fenced1 (flit 3 0 0 0 (pad320 [])), flit 3 0 0 0 (pad320 []), good_flit _ _ _ _ _ _ (by decide) (by decide) (by decide) (by decide) (by decide) (by decide) (by decide), by decide, by decide⟩, ?_,
    ⟨training 0 5, sure (training 0 5) (trainFlit 0), trainFlit 0, good_flit _ _ _ _ _ _ (by decide) (by decide) (by decide) (by decide) (by decide) (by decide) (by decide), by decide, by decide⟩,
    ⟨(0x62D491BE380FC7A5 : BitVec 64) ++ (0 : BitVec 2752) ++ (0x9D2B6E41C7F0385A : BitVec 64), by decide, by decide, by decide⟩, ⟨0, by decide⟩⟩
  rintro mine (rfl | rfl | rfl)
  · exact ⟨training 0 63, sure (training 0 63) (trainFlit 0), trainFlit 0, good_flit _ _ _ _ _ _ (by decide) (by decide) (by decide) (by decide) (by decide) (by decide) (by decide), by decide, by decide, rfl,
      by decide, by decide, by decide, by decide, by decide, by decide, by decide, by decide⟩
  · exact ⟨training 1 63, sure (training 1 63) (trainFlit 1), trainFlit 1, good_flit _ _ _ _ _ _ (by decide) (by decide) (by decide) (by decide) (by decide) (by decide) (by decide), by decide, by decide, rfl,
      by decide, by decide, by decide, by decide, by decide, by decide, by decide, by decide⟩
  · exact ⟨training 2 63, sure (training 2 63) (trainFlit 2), trainFlit 2, good_flit _ _ _ _ _ _ (by decide) (by decide) (by decide) (by decide) (by decide) (by decide) (by decide), by decide, by decide, rfl,
      by decide, by decide, by decide, by decide, by decide, by decide, by decide, by decide⟩

/-- R255: the third good alignment block in a row locks the channel, the second does not. -/
def alignBlock : BitVec 2880 := (0x62D491BE380FC7A5 : BitVec 64) ++ (0 : BitVec 2752) ++ (0x9D2B6E41C7F0385A : BitVec 64)
def aligned (n : Nat) : State := { State.reset with opt := { State.reset.opt with good := Maps.put 0 [] 8 n } }
theorem test_alignment : (nx (exec (.alignmentBlock rx0 alignBlock) (aligned 2))).opt.locked = [8] ∧ (nx (exec (.alignmentBlock rx0 alignBlock) (aligned 1))).opt.locked = [] := by decide

/-! ### Witnesses: control flits, link resets, packets at a hop -/

theorem control_flit (op : Nat) (bs : List Byte) (more : Nat) (hp : (pad320 bs).length = 320) (hf : (flit 5 0 0 more (pad320 bs)).ftype = 5)
    (hw : (flit 5 0 0 more (pad320 bs)).widx = 0) (hx : (flit 5 0 0 more (pad320 bs)).fidx = (fiber0 2).farFiber 0 ∧ (flit 5 0 0 more (pad320 bs)).scoord = (fiber0 2).farCoord 0)
    (hn : (flit 5 0 0 more (pad320 bs)).nak = false) (ha : 30 ≤ (flit 5 0 0 more (pad320 bs)).creditA.1) (hb : 30 ≤ (flit 5 0 0 more (pad320 bs)).creditB.1)
    (ho : (flit 5 0 0 more (pad320 bs)).byte 0 = op) : Control (fiber0 2) (sure (fiber0 2) (flit 5 0 0 more (pad320 bs))) rx0 (flit 5 0 0 more (pad320 bs)) op :=
  ⟨good_flit _ _ _ _ _ _ (by decide) hf (by decide) hp hw (fun _ => hx) (by decide), quiet_flit _ _ rfl hn ha hb rfl, not_lost _ _ _ (hx.2.trans (by decide)) rfl (by decide), ho⟩
theorem control0 (op : Byte) : Control (fiber0 2) (sure (fiber0 2) (flit 5 0 0 0 (pad320 [op]))) rx0 (flit 5 0 0 0 (pad320 [op])) op.toNat :=
  control_flit _ _ _ (by simp [pad320]) (by simp [flit, Flit.ftype]; decide) (by simp [flit, Flit.widx]; decide) ⟨by simp [flit, Flit.fidx]; decide, by simp [flit, Flit.scoord]; decide⟩
    (by simp [flit, Flit.nak]; decide) (by simp [flit, Flit.creditA]; decide) (by simp [flit, Flit.creditB]; decide) (by simp [flit, Flit.byte, pad320])

/-- The same fiber once the tone of line 3 is on line 2. -/
def toned (s : State) : State := { s with opt := { s.opt with tones := Maps.put 0 [] 2 8 } }
/-- A notice to device 1, sent `n` times. -/
def notified (n : Nat) : State := { fiber0 2 with links := [{ Link.reset 1 with ctrl := [⟨0, 3, [3, 0], n⟩] }] }

theorem witness_control_flits :
    (∃ (s u : State) (f : Flit), Control s u rx0 f 1 ∧ (Maps.get 0 u.opt.tones (chan (fiberOf rx0) false (f.byte 2 % 8))).testBit (f.byte 3 % 8) = false) ∧
    (∃ (s u : State) (f : Flit), Control s u rx0 f 2 ∧ u.chState (chan (fiberOf rx0) true (f.byte 2 % 8)) ≠ 6 ∧ u.chState (chan (fiberOf rx0) true (f.byte 2 % 8)) ≠ 7) ∧
    (∃ (s : State) (x : Nat), s.txOff 0 = false ∧ s.lane (0 : FiberId) = some x) ∧
    (∃ (s u : State) (f : Flit), Control s u rx0 f 3) ∧ (∃ (s u : State) (f : Flit), Control s u rx0 f 4) ∧ (∃ (s u : State) (f : Flit), Control s u rx0 f 5) ∧
    (∃ (s : State) (x : Ctrl), (s.link (s.farCoord 0)).ctrl = [x] ∧ x.fiber = 0 ∧ x.op = 3 ∧ x.sends < 8) ∧
    ∃ (s : State) (x : Ctrl), (s.link (s.farCoord 0)).ctrl = [x] ∧ x.fiber = 0 ∧ x.op = 3 ∧ 8 ≤ x.sends :=
  ⟨⟨_, _, _, control0 1, by decide⟩, ⟨_, _, _, control0 2, by decide, by decide⟩, ⟨fiber0 2, 0, by decide, by decide⟩, ⟨_, _, _, control0 3⟩,
   ⟨_, _, _, control0 4⟩, ⟨_, _, _, control0 5⟩, ⟨notified 7, _, rfl, rfl, rfl, by decide⟩, ⟨notified 8, _, rfl, rfl, rfl, by decide⟩⟩
theorem witness_mismatch : ∃ (s u : State) (f : Flit), Control s u rx0 f 1 ∧ (Maps.get 0 u.opt.tones (chan (fiberOf rx0) false (f.byte 2 % 8))).testBit (f.byte 3 % 8) = true :=
  ⟨toned (fiber0 2), sure (toned (fiber0 2)) (flit 5 0 0 0 (pad320 [1, 0, 2, 3])), flit 5 0 0 0 (pad320 [1, 0, 2, 3]),
   ⟨good_flit _ _ _ _ _ _ (by decide) (by decide) (by decide) (by decide) (by decide) (by decide) (by decide), quiet_flit _ _ rfl (by decide) (by decide) (by decide) rfl, not_lost _ _ _ (by decide) rfl (by decide), by decide⟩, by decide⟩

/-- The link to device 1 with an unacknowledged flit and packet. -/
def unacked1 (reset : Bool) (us : List (BitVec 24 × Packet)) : State :=
  { fiber0 2 with links := [{ Link.reset 1 with resetting := reset, replay := [dataFlit 0], txSeq := 1, unacked := us }] }
/-- One unit held for device 1. -/
def heldPk (up : Bool) (p : Packet) (via : Option (Coord × Packet)) : State :=
  { fiber0 (if up then 2 else 1) with fab := { (fiber0 2).fab with held := [⟨1, p, via⟩] } }

theorem witness_links :
    (∃ s : State, (s.link 1).replay ≠ [] ∧ (s.link 1).resetting = false) ∧ (∃ s : State, (s.link 1).replay = []) ∧
    (∃ s : State, (s.link 1).resetting = true ∧ s.txChannels 1 ≠ [] ∧ s.fab.held = []) ∧
    (∃ (s : State) (q : BitVec 24) (p : Packet), (s.link 1).resetting = true ∧ (∀ F < 64, ¬(s.fibState F = 1 ∧ s.farCoord F = 1)) ∧ (s.link 1).unacked = [(q, p)] ∧ p.cls ≠ 1) ∧
    (∃ (s : State) (q : BitVec 24) (p : Packet), (s.link 1).resetting = true ∧ (∀ F < 64, ¬(s.fibState F = 1 ∧ s.farCoord F = 1)) ∧ (s.link 1).unacked = [(q, p)] ∧ p.cls = 1) ∧
    (∃ s : State, (s.link 1).resetting = true ∧ (∀ F < 64, ¬(s.fibState F = 1 ∧ s.farCoord F = 1)) ∧ (s.link 1).unacked = []) :=
  ⟨⟨unacked1 false [], by decide, by decide⟩, ⟨State.reset, by decide⟩, ⟨unacked1 true [], by decide, by decide, rfl⟩,
   ⟨unacked1 true [(1, onePk)], 1, onePk, by decide, by decide, rfl, by decide⟩, ⟨unacked1 true [(1, rdata7 0 0x11)], 1, rdata7 0 0x11, by decide, by decide, rfl, by decide⟩,
   ⟨unacked1 true [], by decide, by decide, by decide⟩⟩
theorem witness_held :
    (∃ (s : State) (h : Held), s.fab.held = [h] ∧ h.nb = 1 ∧ s.linkUp 1 = true ∧ s.hasCredit 1 h.pkt = true ∧ h.pkt.cls ≤ 4) ∧
    (∃ (s : State) (h g : Held), h ∈ s.fab.held ∧ h.nb = 1 ∧ h.pkt.cls = 4 ∧ s.hasCredit 1 h.pkt = true ∧
      (∀ x ∈ s.fab.held, x.nb = 1 → x.pkt.cls = 4 → x ≠ h → poolOf x.pkt.cls x.pkt.leg x.pkt.hop ≠ poolOf h.pkt.cls h.pkt.leg h.pkt.hop) ∧ s.nextHeld 1 = some (g, [])) ∧
    (∃ (s : State) (h : Held), s.linkUp 1 = false ∧ s.fab.held.find? (fun h => h.nb = 1) = some h ∧ h.via = none ∧ h.pkt.cls ≠ 1) ∧
    (∃ (s : State) (h : Held), s.linkUp 1 = false ∧ s.fab.held.find? (fun h => h.nb = 1) = some h ∧ h.via = none ∧ h.pkt.cls = 1) ∧
    ∃ (s : State) (h : Held), s.linkUp 1 = false ∧ s.fab.held.find? (fun h => h.nb = 1) = some h ∧ h.via = some (2, onePk) ∧ h.pkt.cls ≠ 1 :=
  ⟨⟨heldPk true onePk none, _, rfl, rfl, by decide, by decide, by decide⟩,
   ⟨heldPk true (pk 4 0x30 148 8 5 8 0 []) none, ⟨1, pk 4 0x30 148 8 5 8 0 [], none⟩, ⟨1, pk 4 0x30 148 8 5 8 0 [], none⟩, .head _, rfl, by decide, by decide,
    by intro x hx _ _ hne; exact absurd (List.mem_singleton.1 hx) hne, by decide⟩,
   ⟨heldPk false onePk none, ⟨1, onePk, none⟩, by decide, by decide, rfl, by decide⟩, ⟨heldPk false (rdata7 0 0x11) none, ⟨1, rdata7 0 0x11, none⟩, by decide, by decide, rfl, by decide⟩,
   ⟨heldPk false onePk (some (2, onePk)), ⟨1, onePk, some (2, onePk)⟩, by decide, by decide, rfl, by decide⟩⟩

/-- COL packets of 64 bytes of the groups 7 and 8 wait for device 1, which may send `d` bytes of group 7 and none of group 8. -/
def colHeld (gid : Nat) : Held := ⟨1, { colPk 0x20 1 0 (List.replicate 64 0) with w2 := BitVec.ofNat 64 gid }, none⟩
def twoGroups (d : Nat) : State :=
  { fiber0 2 with fab := { (fiber0 2).fab with held := [colHeld 7, colHeld 8] }, links := [{ Link.reset 1 with deficit := [(7, d), (8, 0)] }] }
theorem witness_two_groups : ∀ d, ∃ (s : State) (a b : Held), s.fab.held = [a, b] ∧ a.nb = 1 ∧ b.nb = 1 ∧ a.pkt.cls = 2 ∧ b.pkt.cls = 2 ∧ (colGid a.pkt).toNat = 7 ∧
    (colGid b.pkt).toNat = 8 ∧ a.pkt.plen = 64 ∧ b.pkt.plen = 64 ∧ s.hasCredit 1 a.pkt = true ∧ s.hasCredit 1 b.pkt = true ∧ (s.link 1).deficit = [(7, d), (8, 0)] :=
  fun d => ⟨twoGroups d, colHeld 7, colHeld 8, rfl, rfl, rfl, by decide, by decide, by decide, by decide, by decide, by decide, rfl, rfl, rfl⟩
/-- R324: the group at the head of the round sends while its deficit lasts, and then the next one, by its quantum of 8,192. -/
theorem test_deficit : ((twoGroups 100).nextOf 1 2).map (·.2) = some [(7, 36), (8, 0)] ∧
    ((twoGroups 63).nextOf 1 2).map (·.2) = some [(8, 8128), (7, 63)] := by
  constructor <;> decide
theorem witness_replays : (∃ s : State, (s.link 1).replay ≠ [] ∧ 16 ≤ (s.link 1).replays) ∧ ∃ s : State, (s.link 1).replay ≠ [] ∧ (s.link 1).replays < 16 :=
  ⟨⟨{ fiber0 2 with links := [{ Link.reset 1 with replay := [dataFlit 0], replays := 16 }] }, by decide, by decide⟩, ⟨unacked1 false [], by decide, by decide⟩⟩

/-- A packet from device 2 to device `dst`, HOP `hop`, its check right. -/
def hopPk (dst hop leg rlen : Nat) (pl : List Byte) : Packet :=
  Packet.seal ⟨BitVec.ofNat 64 (hop * 8 + dst * 2 ^ 16 + 2 * 2 ^ 28), BitVec.ofNat 64 (pl.length + rlen * 2 ^ 14 + leg * 2 ^ 60), 0, 0, pl, 0⟩
/-- A table by which device 1 is the next hop to itself; `p` has come from `nb`. -/
def routing (nb : Coord) (p : Packet) (retired : Bool) : State :=
  { fiber0 2 with fab := { (fiber0 2).fab with topo0 := ⟨[(16, 3), (145, 0x80000001)], true, retired⟩, inbox := [(nb, p)] } }
def taken (s : State) : State := { s with fab := { s.fab with inbox := [] } }
theorem routing_whole (nb : Coord) (p : Packet) (r : Bool) : Claims.Whole (routing nb p r) (taken (routing nb p r)) nb p :=
  ⟨.head _, by simp [taken, routing], rfl⟩

theorem witness_forwarding :
    (∃ (s u : State) (p : Packet), Claims.Whole s u 2 p ∧ p.hchkOk = false) ∧ (∃ (s u : State) (p : Packet), Claims.Whole s u 2 p ∧ p.hchkOk = true ∧ (u.topo p.epoch).retired = true ∧ p.cls ≠ 1) ∧
    (∃ (s u : State) (p : Packet), Claims.Whole s u 2 p ∧ p.hchkOk = true ∧ (u.topo p.epoch).accepted = true ∧ (u.topo p.epoch).retired = false ∧ u.route p.epoch p.dst = .nowhere ∧ p.cls ≠ 1) ∧
    (∃ (s u : State) (p : Packet), Claims.Whole s u 2 p ∧ p.hchkOk = true ∧ (u.topo p.epoch).accepted = true ∧ (u.topo p.epoch).retired = false ∧ p.dst = u.self ∧ p.wellFormed = true ∧ p.pcrcOk = true) ∧
    (∃ (s u : State) (p : Packet), Claims.Whole s u 2 p ∧ p.hchkOk = true ∧ (u.topo p.epoch).accepted = true ∧ (u.topo p.epoch).retired = false ∧ p.dst = u.self ∧ p.wellFormed = false ∧ p.cls ≠ 1) ∧
    (∃ (s u : State) (p : Packet), Claims.Whole s u 2 p ∧ p.hchkOk = true ∧ (u.topo p.epoch).accepted = true ∧ (u.topo p.epoch).retired = false ∧ p.dst = u.self ∧ p.wellFormed = true ∧ p.pcrcOk = false ∧ p.cls ≠ 1) ∧
    (∃ (s u : State) (p : Packet), Claims.Whole s u 2 p ∧ p.hchkOk = true ∧ (u.topo p.epoch).accepted = true ∧ (u.topo p.epoch).retired = false ∧ (u.route p.epoch p.dst).next = some 1 ∧
      (!p.leg && blockOf 2 ≠ blockOf u.self && blockOf p.dst = blockOf u.self) = false ∧ p.leg = false ∧ p.hop < 2 ∧ u.linkUp 1 = true ∧ u.hasCredit 1 (u.marked 1 (onward p false)) = true ∧
      ∀ h ∈ u.fab.held, h.nb ≠ 1) ∧
    (∃ (s u : State) (p : Packet), Claims.Whole s u 0x102 p ∧ p.hchkOk = true ∧ (u.topo p.epoch).accepted = true ∧ (u.topo p.epoch).retired = false ∧ (u.route p.epoch p.dst).next = some 1 ∧
      (!p.leg && blockOf 0x102 ≠ blockOf u.self && blockOf p.dst = blockOf u.self) = true ∧ u.linkUp 1 = true ∧ u.hasCredit 1 (u.marked 1 (onward p true)) = true ∧ ∀ h ∈ u.fab.held, h.nb ≠ 1) ∧
    ∃ (s u : State) (p : Packet), Claims.Whole s u 2 p ∧ p.hchkOk = true ∧ (u.topo p.epoch).accepted = true ∧ (u.topo p.epoch).retired = false ∧ (u.route p.epoch p.dst).next = some 1 ∧
      (!p.leg && blockOf 2 ≠ blockOf u.self && blockOf p.dst = blockOf u.self) = false ∧ 2 ≤ p.hop ∧ p.cls ≠ 1 :=
  ⟨⟨_, _, { hopPk 1 0 0 8 [] with w2 := 8 }, routing_whole 2 _ false, by decide⟩, ⟨_, _, hopPk 1 0 0 8 [], routing_whole 2 _ true, by decide, by decide, by decide⟩,
   ⟨_, _, hopPk 3 0 0 8 [], routing_whole 2 _ false, by decide, by decide, by decide, by decide, by decide⟩,
   ⟨_, _, hopPk 0 0 0 8 [], routing_whole 2 _ false, by decide, by decide, by decide, by decide, by decide, by decide⟩,
   ⟨_, _, hopPk 0 0 0 8193 [], routing_whole 2 _ false, by decide, by decide, by decide, by decide, by decide, by decide⟩,
   ⟨_, _, hopPk 0 0 0 8 [1], routing_whole 2 _ false, by decide, by decide, by decide, by decide, by decide, by decide, by decide⟩,
   ⟨_, _, hopPk 1 1 0 8 [], routing_whole 2 _ false, by decide, by decide, by decide, by decide, by decide, by decide, by decide, by decide, by decide, by decide⟩,
   ⟨_, _, hopPk 1 2 0 8 [], routing_whole 0x102 _ false, by decide, by decide, by decide, by decide, by decide, by decide, by decide, by decide⟩,
   ⟨_, _, hopPk 1 2 0 8 [], routing_whole 2 _ false, by decide, by decide, by decide, by decide, by decide, by decide, by decide⟩⟩

/-- R265: a failed header check is counted. R272: the packet at its destination waits among the arrivals. -/
theorem test_forward : (nx (exec (.packetForward 2 { hopPk 1 0 0 8 [] with w2 := 8 }) (routing 2 { hopPk 1 0 0 8 [] with w2 := 8 } false))).fld Reg.ROUTE_DISCARDS
      Reg.ROUTE_DISCARDS_HCHK_FAIL = 1 ∧
    (nx (exec (.packetForward 2 (hopPk 0 0 0 8 [])) (routing 2 (hopPk 0 0 0 8 []) false))).fab.arrived.length = 1 := by decide

/-! ### Witnesses: light source modules, lock loops, calibration, sweeps -/

/-- Engine 0 in STATE `e`, module 0's state word `m`. -/
def lasers (e m : Nat) : State := (fiber0 2).setFld (Reg.OPTIC_ENG_STATE 0) Reg.OPTIC_ENG_STATE_STATE e |>.setReg (Reg.OPTIC_LSM_STATE 0) (BitVec.ofNat 64 m)
/-- A module's word: STATE, PRESENT, LASER_EN, all lines lit. -/
def lsmWord (st present en : Nat) : Nat := st + present * 2 ^ Reg.OPTIC_LSM_STATE_PRESENT.lo + en * 2 ^ Reg.OPTIC_LSM_STATE_LASER_EN.lo + 255 * 2 ^ Reg.OPTIC_LSM_STATE_LINE_LIT.lo
def settles (s : State) (w : Nat) : State := { s with opt := { s.opt with settling := Maps.put 8 [] 0 w } }

theorem witness_modules :
    (∃ s : State, s.txFenced = false) ∧ (∃ s : State, s.txFenced = true ∧ s.failsafe = false ∧ s.snap.salvage = false ∧ lsm s 0 Reg.OPTIC_LSM_STATE_LASER_EN = 1) ∧
    (∃ s : State, lsm s 0 Reg.OPTIC_LSM_STATE_PRESENT = 1 ∧ lsm s 0 Reg.OPTIC_LSM_STATE_STATE ≠ 4) ∧
    (∃ (s : State) (v : BitVec 16), lsm s 0 Reg.OPTIC_LSM_STATE_PRESENT = 1 ∧ s.fld (Reg.OPTIC_ENG_STATE 0) Reg.OPTIC_ENG_STATE_STATE ≠ 3 ∧
      s.fld (Reg.OPTIC_ENG_STATE 0) Reg.OPTIC_ENG_STATE_STATE ≠ 4 ∧ bits v 7 7 = 0 ∧ (bits v 15 8) &&& lsm s 0 Reg.OPTIC_LSM_STATE_LASER_FAULT = bits v 15 8) ∧
    (∃ (s : State) (v : BitVec 16), lsm s 0 Reg.OPTIC_LSM_STATE_PRESENT = 1 ∧ s.fld (Reg.OPTIC_ENG_STATE 0) Reg.OPTIC_ENG_STATE_STATE ≠ 3 ∧
      s.fld (Reg.OPTIC_ENG_STATE 0) Reg.OPTIC_ENG_STATE_STATE ≠ 4 ∧ bits v 7 7 = 0 ∧ bits v 15 8 = 2 ^ (7 : Fin 8).val ∧ lsm s 0 Reg.OPTIC_LSM_STATE_LASER_FAULT = 0 ∧
      lsm s 0 Reg.OPTIC_LSM_STATE_SPARE_USED = 0 ∧ Maps.get 8 s.opt.settling (0 : ModuleId) = 8) ∧
    (∃ (s : State) (v : BitVec 16), lsm s 0 Reg.OPTIC_LSM_STATE_PRESENT = 1 ∧ s.fld (Reg.OPTIC_ENG_STATE 0) Reg.OPTIC_ENG_STATE_STATE ≠ 3 ∧
      s.fld (Reg.OPTIC_ENG_STATE 0) Reg.OPTIC_ENG_STATE_STATE ≠ 4 ∧ bits v 7 7 = 0 ∧ bits v 15 8 = 2 ^ (7 : Fin 8).val ∧ lsm s 0 Reg.OPTIC_LSM_STATE_LASER_FAULT = 0 ∧
      lsm s 0 Reg.OPTIC_LSM_STATE_SPARE_USED = 1) ∧
    (∃ s : State, lsm s 0 Reg.OPTIC_LSM_STATE_PRESENT = 0 ∧ s.fld (Reg.OPTIC_LSM_CTRL 0) Reg.OPTIC_LSM_CTRL_ENABLE = 0 ∧ lsm s 0 Reg.OPTIC_LSM_STATE_LASER_EN = 0) ∧
    ∃ s : State, s.mayUse .mgmt = true ∧ Lightable (s.setFld (Reg.OPTIC_LSM_CTRL 0) Reg.OPTIC_LSM_CTRL_ENABLE 1) 0 ∧ lsm s 0 Reg.OPTIC_LSM_STATE_LASER_EN = 0 :=
  ⟨⟨State.reset, rfl⟩, ⟨{ lasers 2 (lsmWord 2 1 1) with txFenced := true }, rfl, rfl, rfl, by decide⟩, ⟨lasers 2 (lsmWord 2 1 1), by decide, by decide⟩,
   ⟨lasers 2 (lsmWord 2 1 1), 0, by decide, by decide, by decide, by decide, by decide⟩,
   ⟨lasers 2 (lsmWord 2 1 1), 0x8000, by decide, by decide, by decide, by decide, by decide, by decide, by decide, by decide⟩,
   ⟨lasers 2 (lsmWord 2 1 1 + 2 ^ Reg.OPTIC_LSM_STATE_SPARE_USED.lo), 0x8000, by decide, by decide, by decide, by decide, by decide, by decide, by decide⟩,
   ⟨(lasers 2 0).setReg (Reg.OPTIC_LSM_CTRL 0) 0, by decide, by decide, by decide⟩, ⟨lasers 1 (lsmWord 1 1 0), by decide, ⟨by decide, by decide, by decide, by decide, rfl, rfl, by decide⟩, by decide⟩⟩
theorem witness_spares :
    (∃ s : State, s.fld (Reg.OPTIC_ENG_STATE 0) Reg.OPTIC_ENG_STATE_STATE = 4) ∧
    (∃ s : State, s.fld (Reg.OPTIC_ENG_STATE 0) Reg.OPTIC_ENG_STATE_STATE = 2 ∧ s.chState (chan 0 false 0) ≠ 6 ∧ s.chState (chan 0 false 0) ≠ 7) ∧
    (∃ s : State, Maps.get 8 s.opt.settling (0 : ModuleId) < 8 ∧ lsm s 0 Reg.OPTIC_LSM_STATE_SPARE_FAULT = 0) ∧
    (∃ s : State, lsm s 0 Reg.OPTIC_LSM_STATE_SPARE_USED = 1 ∧ (∀ i < 8, chan i false (lsm s 0 Reg.OPTIC_LSM_STATE_SPARE_LINE) ∈ s.opt.frozen ∧
      s.chState (chan i false (lsm s 0 Reg.OPTIC_LSM_STATE_SPARE_LINE)) = 5)) ∧
    (∃ s : State, s.fibState (0 : FiberId) = 1) ∧ ∃ s : State, s.fibState (0 : FiberId) = 0 :=
  ⟨⟨lasers 4 0, by decide⟩, ⟨lasers 2 0, by decide, by decide, by decide⟩, ⟨settles (lasers 2 (lsmWord 2 1 1)) 7, by decide, by decide⟩,
   ⟨(List.range 8).foldl (fun (s : State) i => s.setChState (chan i false 0) 5)
      { lasers 2 (lsmWord 2 1 1 + 2 ^ Reg.OPTIC_LSM_STATE_SPARE_USED.lo) with opt := { Optics.reset with frozen := (List.range 8).map fun i => chan i false 0 } }, by decide, by decide⟩,
   ⟨fiber0 1, by decide⟩, ⟨State.reset, by decide⟩⟩

/-- R246: the spare takes line 7. R232: an enabled module with its engine in bring-up lights its lines. -/
theorem test_spare_laser : lsm (nx (exec (.spareSettled 0 true) (settles (lasers 2 (lsmWord 2 1 1)) 7))) 0 Reg.OPTIC_LSM_STATE_SPARE_LINE = 7 ∧
    lsm (nx (exec (.opticLsmEnable .mgmt 0 true (some 0x7405) 255) (lasers 1 (lsmWord 1 1 0)))) 0 Reg.OPTIC_LSM_STATE_STATE = 2 ∧
    lsm (nx (exec (.opticLsmEnable .mgmt 0 true (some 0x7406) 255) (lasers 1 (lsmWord 1 1 0)))) 0 Reg.OPTIC_LSM_STATE_LASER_EN = 0 := by decide

/-- Engine 0 lit and in service; a pass out at `cur`; a sweep. -/
def lit0 : State := lasers 2 (lsmWord 2 1 1)
def passing (cur : Option (Nat × Bool)) : State := { lit0 with opt := { lit0.opt with passes := Maps.put Pass.none [] 0 ⟨[], cur, true⟩ } }
def sweeping (w : Sweep) : State := { lit0 with opt := { lit0.opt with sweeps := [w] } }
/-- Transmit channel 0, line 0; line 2. -/
def tx0 : ChanId := 0
def tx2 : ChanId := 2

theorem witness_idles : (∃ s : State, chRx tx0.val = false ∧ s.txLit tx0.val = true ∧ s.inMap tx0.val = true ∧ s.fibState (chFiber tx0.val) = 2 ∧ s.opt.asked = [] ∧
      (s.link (s.farCoord (chFiber tx0.val))).owed = [] ∧ s.txOff (chFiber tx0.val) = false) ∧
    (∃ s : State, chRx tx0.val = false ∧ s.txLit tx0.val = true ∧ s.fibState (chFiber tx0.val) = 1) ∧
    (∃ s : State, tx0.val ∉ s.opt.frozen ∧ s.chState tx0.val ≠ 0 ∧ s.chState tx0.val ≠ 1) ∧ (∃ s : State, s.chState tx0.val = 0) ∧ (∃ s : State, s.fibState (0 : FiberId) ≠ 2) ∧
    ∃ (s : State) (l : List (BitVec 8)), s.fibState (0 : FiberId) = 2 ∧ (∀ w < 8, w ≠ 7 → toneAt l w = 2 ^ w) ∧ toneAt l 7 = 0 ∧ s.inMap (chan (0 : FiberId) false 7) = true ∧
      s.chState (chan (0 : FiberId) false 7) ≠ 6 ∧ s.chState (chan (0 : FiberId) false 7) ≠ 7 :=
  ⟨⟨lit0, by decide, by decide, by decide, by decide, rfl, by decide, by decide⟩, ⟨lit0.setFld (Reg.OPTIC_FIB_STATE 0) Reg.OPTIC_FIB_STATE_STATE 1, by decide, by decide, by decide⟩,
   ⟨lit0, by decide, by decide, by decide⟩, ⟨State.reset, by decide⟩, ⟨State.reset, by decide⟩,
   ⟨lit0, [1, 2, 4, 8, 16, 32, 64, 0], by decide, by decide, by decide, by decide, by decide, by decide⟩⟩
theorem witness_calibration :
    (∃ s : State, s.fld (Reg.OPTIC_ENG_STATE (0 : EngineId)) Reg.OPTIC_ENG_STATE_STATE = 2 ∧ (s.pass (0 : EngineId)).running = false ∧
      s.fld Reg.OPTIC_CAL_CFG Reg.OPTIC_CAL_CFG_ENABLE = 1 ∧ s.fld Reg.OPTIC_CAL_CFG Reg.OPTIC_CAL_CFG_PERIOD_MS ≠ 0 ∧ s.mayUse .mgmt = true ∧ s.opt.urgent = [] ∧ s.opt.frozen = [] ∧
      AllIn s 0 false ∧ s.fibState 0 = 2) ∧
    (∃ s : State, (s.pass (engOf (chFiber tx0))).cur = some (tx0.val % 128, false)) ∧
    (∃ (s : State) (n : Nat), s.fld Reg.OPTIC_CAL_CFG Reg.OPTIC_CAL_CFG_ENABLE = 1 ∧ n = s.fld Reg.OPTIC_CAL_CFG Reg.OPTIC_CAL_CFG_SER_LIMIT) ∧
    ∃ (s : State) (n : Nat), s.fld Reg.OPTIC_CAL_CFG Reg.OPTIC_CAL_CFG_ENABLE = 1 ∧ s.fld Reg.OPTIC_CAL_CFG Reg.OPTIC_CAL_CFG_SER_LIMIT ≠ 0 ∧
      s.fld Reg.OPTIC_CAL_CFG Reg.OPTIC_CAL_CFG_SER_LIMIT < n ∧ tx0.val ∉ s.opt.urgent ∧ (s.pass (engOf (chFiber tx0))).cur ≠ none ∧ s.opt.urgentAt.find? (fun a => a.1 = tx0.val) = none :=
  ⟨⟨lit0, by decide, by decide, by decide, by decide, by decide, rfl, rfl, ⟨by decide, by decide, by decide, by decide⟩, by decide⟩, ⟨passing (some (0, false)), by decide⟩,
   ⟨lit0, 256, by decide, by decide⟩, ⟨passing (some (5, false)), 257, by decide, by decide, by decide, by decide, by decide, by decide⟩⟩
theorem witness_sweeps :
    (∃ (s : State) (w : Sweep), Sweeping s tx2 w ∧ w.phase = 1) ∧
    (∃ (s : State) (w : Sweep), Sweeping s tx2 w ∧ w.phase = 2 ∧ s.lit (chan (chFiber tx2) (chRx tx2) (2 : Fin 8)) = true ∧
      w.count + 1 = ((List.range (chLine tx2)).filter (fun v => s.lit (chan (chFiber tx2) (chRx tx2) v))).length + 1) ∧
    (∃ (s : State) (w : Sweep), Sweeping s tx2 w ∧ w.phase = 2 ∧ s.lit (chan (chFiber tx2) (chRx tx2) (0 : Fin 8)) = true ∧
      w.count + 1 ≠ ((List.range (chLine tx2)).filter (fun v => s.lit (chan (chFiber tx2) (chRx tx2) v))).length + 1) ∧
    (∃ (s : State) (w : Sweep), Sweeping s tx2 w ∧ w.phase ≠ 0 ∧ 2 ≤ w.tries) ∧ ∃ (s : State) (w : Sweep), Sweeping s tx2 w ∧ w.phase ≠ 0 ∧ w.tries < 2 :=
  ⟨⟨sweeping ⟨2, 1, 0, 0⟩, _, ⟨rfl, rfl⟩, rfl⟩, ⟨sweeping ⟨2, 2, 2, 0⟩, ⟨2, 2, 2, 0⟩, ⟨rfl, rfl⟩, rfl, by decide, by decide⟩,
   ⟨sweeping ⟨2, 2, 0, 0⟩, ⟨2, 2, 0, 0⟩, ⟨rfl, rfl⟩, rfl, by decide, by decide⟩, ⟨sweeping ⟨2, 2, 0, 2⟩, ⟨2, 2, 0, 2⟩, ⟨rfl, rfl⟩, by decide, by decide⟩,
   ⟨sweeping ⟨2, 2, 0, 1⟩, ⟨2, 2, 0, 1⟩, ⟨rfl, rfl⟩, by decide, by decide⟩⟩

/-- R244: the third crossing locks the ring of line 2; the third failure is for good. -/
theorem test_sweep : (nx (exec (.sweepStep tx2 (.crossing 2 0x1234)) (sweeping ⟨2, 2, 2, 0⟩))).chState 2 = 4 ∧ (nx (exec (.sweepStep tx2 .failed) (sweeping ⟨2, 2, 0, 2⟩))).chState 2 = 6 := by
  decide

/-! ### Witnesses: spare fibers and engines -/

/-- Pair `F` needs a spare; all three are free, or only the first. -/
def short (F : FiberId) (only : Bool) : State :=
  let s := (State.reset.setFld Reg.OPTIC_SUBST_CFG Reg.OPTIC_SUBST_CFG_AUTO 1).setFld (Reg.OPTIC_FIB_STATE F) Reg.OPTIC_FIB_STATE_STATE 4
  if only then (s.setFld (Reg.OPTIC_SUBST 1) Reg.OPTIC_SUBST_PIN 1).setFld (Reg.OPTIC_SUBST 2) Reg.OPTIC_SUBST_PIN 1 else s
/-- Engine 0 in STATE `e`; device 1 hangs on it alone when the table says it is present. -/
def engine (e : Nat) (mesh : Bool) : State :=
  let s := lasers e (lsmWord 2 1 1)
  if mesh then { s.setFld Reg.ROUTE_TBL_STATE Reg.ROUTE_TBL_STATE_ACTIVE_VALID 1 with fab := { s.fab with topo0 := ⟨[(16, 3), (145, 0x80000001)], true, false⟩ } } else s

theorem witness_spare_fibers :
    (∃ (s : State) (F : FiberId) (x : Nat), s.fld Reg.OPTIC_SUBST_CFG Reg.OPTIC_SUBST_CFG_AUTO = 1 ∧ s.shortPair F = true ∧ s.spareOf F = none ∧ (∀ y < 3, spareFiber y ≠ F.val) ∧ x < 3 ∧
      s.spareFree x = true ∧ engOf (spareFiber x) ≠ engOf F ∧ ∀ y < x, s.spareFree y = false ∨ engOf (spareFiber y) = engOf F) ∧
    (∃ (s : State) (F : FiberId) (x : Nat), s.fld Reg.OPTIC_SUBST_CFG Reg.OPTIC_SUBST_CFG_AUTO = 1 ∧ s.shortPair F = true ∧ s.spareOf F = none ∧ (∀ y < 3, spareFiber y ≠ F.val) ∧ x < 3 ∧
      engOf (spareFiber x) = engOf F ∧ s.spareFree x = true ∧ ∀ y < 3, y ≠ x → s.spareFree y = false) ∧
    (∃ s : State, s.fld Reg.OPTIC_SUBST_CFG Reg.OPTIC_SUBST_CFG_AUTO = 0) ∧ (∃ s : State, s.fld (Reg.OPTIC_SUBST (0 : Fin 3)) Reg.OPTIC_SUBST_ACTIVE = 0) ∧
    ∃ s : State, s.fld (Reg.OPTIC_SUBST (0 : Fin 3)) Reg.OPTIC_SUBST_ACTIVE = 1 ∧ s.fld (Reg.OPTIC_SUBST (0 : Fin 3)) Reg.OPTIC_SUBST_FIBER ≠ spareFiber (0 : Fin 3) :=
  ⟨⟨short 0 false, 0, 0, by decide, by decide, by decide, by decide, by decide, by decide, by decide, by decide⟩,
   ⟨short 16 true, 16, 0, by decide, by decide, by decide, by decide, by decide, by decide, by decide, by decide⟩,
   ⟨State.reset.setReg Reg.OPTIC_SUBST_CFG 0, by decide⟩, ⟨State.reset, by decide⟩, ⟨State.reset.setFld (Reg.OPTIC_SUBST 0) Reg.OPTIC_SUBST_ACTIVE 1, by decide, by decide⟩⟩
theorem witness_engines :
    (∃ s : State, s.mayUse .mgmt = true ∧ EngState s 0 2 ∧ s.quiesceCuts (0 : EngineId) = true) ∧ (∃ s : State, s.mayUse .mgmt = true ∧ EngState s 0 1 ∧ s.quiesceCuts (0 : EngineId) = false) ∧
    (∃ s : State, EngState s 0 3) ∧ (∃ s : State, ¬EngState s 0 3) ∧ (∃ s : State, s.mayUse .mgmt = true ∧ EngState s 0 4) ∧ (∃ s : State, EngState s 0 1) ∧ ∃ s : State, ¬EngState s 0 1 :=
  ⟨⟨engine 2 true, by decide, by unfold EngState; decide, by decide⟩, ⟨engine 1 false, by decide, by unfold EngState; decide, by decide⟩, ⟨engine 3 false, by unfold EngState; decide⟩,
   ⟨engine 2 false, by unfold EngState; decide⟩, ⟨engine 4 false, by decide, by unfold EngState; decide⟩, ⟨engine 1 false, by unfold EngState; decide⟩,
   ⟨engine 2 false, by unfold EngState; decide⟩⟩

/-- R250: a wrong part reads 6, the right one 1. R249: an engine that alone reaches a device is not quiesced without FORCE. -/
theorem test_engine : (nx (exec (.engineBringUp .mgmt 0 0x7411) (engine 4 false))).fld (Reg.OPTIC_ENG_STATE 0) Reg.OPTIC_ENG_STATE_STATE = 6 ∧
    (nx (exec (.engineBringUp .mgmt 0 0x7410) (engine 4 false))).fld (Reg.OPTIC_ENG_STATE 0) Reg.OPTIC_ENG_STATE_STATE = 1 ∧
    (nx (exec (.quiesce .mgmt 0 false) (engine 2 true))).fld (Reg.OPTIC_ENG_STATE 0) Reg.OPTIC_ENG_STATE_STATE = 2 := by decide

/-! ### Witnesses: frames and device time -/

/-- Port 0 is up, its address 10.0.0.1, its MAC address 2; `r` is accepted and waits. -/
def port0 (rx : List (PortId × Rx)) : State :=
  let s := ((State.reset.setReg (Reg.FRONT_PORT_CFG 0) (BitVec.ofNat 64 (2 ^ 63 + 2))).setReg (Reg.FRONT_PORT_IP4 0) (BitVec.ofNat 64 0x0A000001)).setFld (Reg.FRONT_PORT_STATE 0) Reg.FRONT_PORT_STATE_LINK 1
  { s with front := { s.front with rx := rx } }
theorem port0_takes (r : Rx) : FromPort (port0 [(0, r)]) (port0 []) 0 r := ⟨.head _, by simp [port0]⟩

/-- Close a frame by its FCS. -/
def framed (g : List Byte) : List Byte := g ++ leBytes 4 (crc32 g).toNat
theorem framed_ok (g : List Byte) : fcsBad (framed g) = false := by
  have h : (leBytes 4 (crc32 g).toNat).length = 4 := by simp [leBytes]
  simp [fcsBad, framed, h]
/-- A broadcast ARP request for 10.0.0.1, unpadded to 60 bytes. -/
def arpRequest : List Byte :=
  padTo 60 (beBytes 6 0xFFFFFFFFFFFF ++ beBytes 6 3 ++ beBytes 2 0x0806 ++ beBytes 6 0x000108000604 ++ beBytes 2 1 ++ beBytes 6 3 ++ beBytes 4 0x0A000002 ++ beBytes 6 0 ++ beBytes 4 0x0A000001)
theorem framed_length (g : List Byte) (n : Nat) (h : g.length = n) : (framed g).length = n + 4 := by simp [framed, h, leBytes]
theorem framed_take (g : List Byte) : (framed g).take ((framed g).length - 4) = g := by simp [framed_length g _ rfl]; simp [framed]

theorem witness_frames :
    (∃ (s : State) (f : List Byte), s.portTakes 0 = true ∧ fcsBad f = false ∧ f.length < 64) ∧ (∃ (s : State) (f : List Byte), s.portTakes 0 = true ∧ fcsBad f = true) ∧
    (∃ (s : State) (f g : List Byte), s.portTakes 0 = true ∧ g = f.take (f.length - 4) ∧ fcsBad f = false ∧ f.length = 64 ∧ beAt g 0 6 = 0xFFFFFFFFFFFF ∧
      s.fld (Reg.FRONT_PORT_CFG (0 : PortId)) Reg.FRONT_PORT_CFG_VLAN_EN = 0 ∧ beAt g 12 2 = 0x0806 ∧ beAt g 14 6 = 0x000108000604 ∧ beAt g 20 2 = 1 ∧ s.portIp4 0 ≠ 0 ∧ beAt g 38 4 = s.portIp4 0) ∧
    (∃ s : State, s.portUp 0 = true ∧ s.quiesceDone (0 : PortId) = false ∧ s.failsafe = false) ∧ (∃ (s u : State) (g : List Byte), FromPort s u 0 (.resolve g) ∧ beAt g 12 2 = 0x0806) :=
  ⟨⟨port0 [], framed [], by decide, framed_ok _, by rw [framed_length [] 0 rfl]; decide⟩,
   ⟨port0 [], [1, 2, 3, 4, 5], by decide, by decide⟩,
   ⟨port0 [], framed arpRequest, arpRequest, by decide, (framed_take _).symm, framed_ok _, framed_length _ _ (by decide), by decide, by decide, by decide, by decide, by decide, by decide, by decide⟩,
   ⟨port0 [], by decide, by decide, rfl⟩, ⟨_, _, arpRequest, port0_takes _, by decide⟩⟩

/-- An echo request and an IGMP general query, as the device of 10.0.0.1 gets them: Ethernet header, IPv4 header, body. -/
def ipv4 (proto : Nat) (dst : Nat) (body : List Byte) : List Byte :=
  let h := [0x45, 0] ++ beBytes 2 (20 + body.length) ++ [0, 0, 0, 0, 64, BitVec.ofNat 8 proto] ++ [0, 0] ++ beBytes 4 0x0A000002 ++ beBytes 4 dst
  beBytes 6 2 ++ beBytes 6 3 ++ beBytes 2 0x0800 ++ withSum 0 10 h ++ body
def echoFrame : List Byte := ipv4 1 0x0A000001 (withSum 0 2 ([8, 0, 0, 0, 1, 2, 3, 4]))
def queryFrame : List Byte := ipv4 2 0xE0000001 (withSum 0 2 ([0x11, 100, 0, 0, 0, 0, 0, 0]))
/-- Time comes from the fabric, so that port 0 joins the group of one flow alone: 239.0.0.1 of any source. -/
def joins0 (rx : List (PortId × Rx)) : State :=
  let s := (port0 rx).setReg Reg.FRONT_TIME_CFG 1
  { s with front := { s.front with flows := [⟨0, some 0, [0, 4, 0x13, 0x88, 0, 0, 0, 0] ++ beBytes 4 0xEF000001 ++ List.replicate 116 0, [], none, 0, none⟩] } }

theorem witness_ip_services :
    (∃ (s u : State) (g : List Byte) (i : IpPacket), FromPort s u 0 (.echo g) ∧ ipOf (g.drop 14) = some i ∧ i.v6 = false ∧ (Maps.get (0, 0) s.front.echoes (0 : PortId)).2 = 0) ∧
    (∃ (s : State), (Maps.get (0, 0) s.front.echoes (0 : PortId)) = (s.devTime.toNat / 1000000000, 1000)) ∧
    (∃ (s u : State) (g : List Byte) (i : IpPacket) (a : BitVec 128), FromPort s u 0 (.query g) ∧ ipOf (g.drop 14) = some i ∧ i.v6 = false ∧ s.joined 0 = [(a, none)] ∧ isMapped a = true ∧
      beAt i.body 4 4 = 0) ∧
    ∃ (s u : State) (c : TcpConn) (l : List Byte), FromPort s u 0 (.tcp c l) :=
  ⟨⟨port0 [(0, .echo echoFrame)], port0 [], echoFrame, ⟨false, mapped 0x0A000002, mapped 0x0A000001, 1, withSum 0 2 ([8, 0, 0, 0, 1, 2, 3, 4])⟩, port0_takes _, by decide, rfl, by decide⟩,
   ⟨{ port0 [] with front := { (port0 []).front with echoes := Maps.put (0, 0) [] 0 ((port0 []).devTime.toNat / 1000000000, 1000) } }, by decide⟩,
   ⟨joins0 [(0, .query queryFrame)], joins0 [], queryFrame, ⟨false, mapped 0x0A000002, mapped 0xE0000001, 2, withSum 0 2 ([0x11, 100, 0, 0, 0, 0, 0, 0])⟩, mapped 0xEF000001,
    ⟨.head _, by simp [joins0, port0, State.setReg]⟩, by decide, rfl, by decide, by decide, by decide⟩,
   ⟨_, _, ⟨0, 0⟩, [1], port0_takes _⟩⟩

/-- R335: an ARP request is answered; the discarded short frame is counted. -/
theorem test_frames : ((nx (exec (.arpRequest 0 arpRequest) (port0 [(0, .resolve arpRequest)]))).out.length) = 1 ∧
    (nx (exec (.frameRx 0 (framed [])) (port0 []))).fld (Reg.FRONT_PORT_STATE 0) Reg.FRONT_PORT_STATE_DISCARDS = 1 := by decide

/-- A PTP message of `n` bytes, TYPE `typ`, from the clock whose identity is zero, its two-step flag `two`. -/
def ptp (typ n two : Nat) : PtpMessage := ⟨[BitVec.ofNat 8 typ, 2, 0, 0, 127, 0, BitVec.ofNat 8 (2 * two)] ++ List.replicate (n - 7) 0⟩
/-- Port 0 with the message waiting, its sender chosen, a measurement `y` under way. -/
def master0 (rx : List (PortId × Rx)) (y : Option PtpSync) : State :=
  let s := port0 rx
  { s with front := { s.front with chosen := some (0, List.replicate 10 0), sync := y } }
theorem from_master (m : PtpMessage) (y : Option PtpSync) (typ len : Nat) (hs : (port0 []).ptpOk m.bytes len = true) (ht : ptpType m.bytes = typ)
    (hi : ptpIdent m.bytes = List.replicate 10 0) : FromMaster (master0 [(0, .ptp m.bytes)] y) (master0 [] y) 0 m typ len :=
  ⟨⟨.head _, by simp [master0, port0]⟩, (by decide : (port0 []).fld Reg.FRONT_TIME_CFG Reg.FRONT_TIME_CFG_SOURCE = 0), hs, ht, by rw [hi]; rfl⟩
def sync0 (t1 : Option Int) (d : Option (BitVec 16)) : PtpSync := ⟨0, t1, 500, 0, d, 700⟩
/-- The Delay_Resp for the request of port 0 with sequence 0. -/
def delayResp : PtpMessage := ⟨(ptp 9 44 0).bytes ++ (port0 []).ptpSelf 0⟩

theorem witness_corrections : (∃ s : State, s.timeState ≠ 3) ∧
    (∃ (s u : State) (m : PtpMessage), FromPort s u 0 (.ptp m.bytes) ∧ s.fld Reg.FRONT_TIME_CFG Reg.FRONT_TIME_CFG_SOURCE = 0 ∧ s.ptpOk m.bytes 64 = true ∧ ptpType m.bytes = 0xB ∧
      s.front.masters = [] ∧ s.front.chosen = none ∧ s.timeState = 0) ∧
    (∃ (s u : State) (m : PtpMessage), FromMaster s u 0 m 0 44 ∧ bit (m.bytes.getD 6 0) 1 = true) ∧ (∃ (s u : State) (m : PtpMessage), FromMaster s u 0 m 0 44 ∧ bit (m.bytes.getD 6 0) 1 = false) ∧
    (∃ (s u : State) (m : PtpMessage) (y : PtpSync), FromMaster s u 0 m 8 44 ∧ s.front.sync = some y ∧ y.seq = ptpSeq m.bytes ∧ y.t1 = none) ∧
    (∃ (s u : State) (m : PtpMessage) (y : PtpSync) (t1 : Int), FromMaster s u 0 m 9 54 ∧ s.front.sync = some y ∧ (m.bytes.drop 44).take 10 = s.ptpSelf 0 ∧ y.dseq = some (ptpSeq m.bytes) ∧
      y.t1 = some t1) :=
  ⟨⟨State.reset, by decide⟩, ⟨_, _, ptp 0xB 64 0, port0_takes _, by decide, by decide, by decide, rfl, rfl, by decide⟩,
   ⟨_, _, ptp 0 44 1, from_master _ none 0 44 (by decide) (by decide) (by decide), by decide⟩, ⟨_, _, ptp 0 44 0, from_master _ none 0 44 (by decide) (by decide) (by decide), by decide⟩,
   ⟨_, _, ptp 8 44 0, sync0 none none, from_master _ _ 8 44 (by decide) (by decide) (by decide), rfl, by decide, rfl⟩,
   ⟨_, _, delayResp, sync0 (some 100) (some 0), 100, from_master _ _ 9 54 (by decide) (by decide) (by decide), rfl, by decide, by decide, rfl⟩⟩
theorem witness_time_sources :
    (∃ (s : State) (m : Master), s.fld Reg.FRONT_TIME_CFG Reg.FRONT_TIME_CFG_SOURCE = 0 ∧ s.front.masters = [m] ∧ s.front.chosen = some (m.port, m.ident) ∧ s.timeState ≠ 3) ∧
    (∃ (s u : State) (p : Packet), Arrived s u p 4 0x34 ∧ u.turnOf p = .now ∧ p.plen = 0 ∧ p.rlen = 32 ∧ p.addr = 0) ∧
    (∃ s : State, s.fld Reg.FRONT_TIME_CFG Reg.FRONT_TIME_CFG_SOURCE ≠ 1) ∧ (∃ s : State, s.fld Reg.FRONT_TIME_CFG Reg.FRONT_TIME_CFG_SOURCE = 1 ∧ s.front.misses < 16) ∧
    ∃ s : State, s.fld Reg.FRONT_TIME_CFG Reg.FRONT_TIME_CFG_SOURCE = 1 ∧ 16 ≤ s.front.misses :=
  ⟨⟨{ master0 [] none with front := { (master0 [] none).front with masters := [⟨0, List.replicate 10 0, [], 0⟩] } }, _, by decide, rfl, rfl, by decide⟩,
   ⟨arr State.reset (pk 4 0x34 148 32 5 0 0 []), State.reset, pk 4 0x34 148 32 5 0 0 [], arr_arrived _ _ _ _ rfl (by decide) (by decide), by decide, by decide, by decide, by decide⟩,
   ⟨State.reset, by decide⟩, ⟨State.reset.setReg Reg.FRONT_TIME_CFG 1, by decide, by decide⟩,
   ⟨{ State.reset.setReg Reg.FRONT_TIME_CFG 1 with front := { Front.reset with misses := 16 } }, by decide, by decide⟩⟩

/-- R336, R337: t1 = 100, t2 = 500, t3 = 700 and t4 = 0 give the offset (400 + 700) / 2 = 550, which is slewed back. -/
theorem test_offset : (nx (exec (.ptpDelayResp 0 delayResp) (master0 [(0, .ptp delayResp.bytes)] (sync0 (some 100) (some 0))))).slew = -550 ∧
    (nx (exec (.ptpDelayResp 0 delayResp) (master0 [(0, .ptp delayResp.bytes)] (sync0 (some 100) (some 0))))).timeState = 2 := by decide

/-! ### Witnesses: video flows and EXR requests -/

/-- A flow record of R341: port 0, 239.0.0.1:5000, payload type 96, one row of 2 pixels in E4M3, slots at `sram`, records 1 MiB and the consumer word 2 MiB on. -/
def flowRec : List Byte :=
  [0, 4] ++ beBytes 2 5000 ++ [96, 3, 1, 0] ++ beBytes 4 0xEF000001 ++ List.replicate 28 0 ++ leBytes 2 2 ++ leBytes 2 1 ++ leBytes 4 1 ++ leBytes 8 sram.toNat
    ++ leBytes 8 (sram.toNat + 0x100000) ++ leBytes 8 (sram.toNat + 0x200000) ++ leBytes 4 64 ++ leBytes 4 64 ++ [1, 0, 0, 0] ++ leBytes 4 0 ++ leBytes 4 0x3F800000 ++ leBytes 4 0
    ++ leBytes 4 0x3F800000 ++ List.replicate 28 0
/-- Flow 0 of that record, of Ranger. -/
def flow0 : Flow := ⟨0, none, flowRec, [], none, 0, none⟩
/-- A FLOW_OPEN of flow 0 with its record 3 MiB on; the record's words 0 to 15. -/
def flowTask (typ : Byte) : Desc := task typ .started [0, sram + 0x300000, 0, 0, 0]
def flowing (typ : Byte) (rec_ : List Byte) : State := { tasked (flowTask typ) with mem := putBytes [] (sram0 + 0x300000) rec_ }

theorem flow_may (s : State) (f : Flow) (o n : Nat) (hf : s.fencedClusters = []) (hp : s.poison = []) (he : s.ecc = []) (hs : s.failsafe = false) (ha : f.auth = .ranger)
    (hr : placeOfRange o n = .sram 0) (hu : ∀ u ∈ unitsOf o n, placeOf u = .sram 0) : FlowMay s f o n :=
  ⟨allows_ranger _ _ _ _ _ _ 0 hr (by simp [State.me, ha]),
   answers_sram _ _ _ _ (fun u m => ⟨by rw [State.unitFenced, hu u m]; simp [hf], by rw [State.poisoned, hp]; rfl⟩) he hs ha, by rw [ha]; rfl⟩

theorem witness_flow_open :
    (∃ (s : State) (d : Desc), s.work 0 0 0x60 .started = some d ∧ s.flowOpenBad d = true) ∧
    (∃ (s : State) (d : Desc) (o : Nat) (f : Flow), s.work 0 0 0x60 .started = some d ∧ s.flowOpenBad d = false ∧ Readable s 0 true (d.word 4).toNat 128 o ∧
      f = { num := bits (d.word 3) 6 0, ctx := s.ringEvtCtx 0, rec_ := s.bytes o 128, frames := [], newest := none, next := 0, mark := none } ∧ s.flowOk f = true ∧
      FlowMay s f (bits f.slotBase 47 0) (2 ^ f.k * f.slotSize) ∧ FlowMay s f (bits f.recBase 47 0) (2 ^ f.k * 32)) ∧
    (∃ (s : State) (d : Desc) (o : Nat) (f : Flow), s.work 0 0 0x60 .started = some d ∧ s.flowOpenBad d = false ∧ Readable s 0 true (d.word 4).toNat 128 o ∧
      f = { num := bits (d.word 3) 6 0, ctx := s.ringEvtCtx 0, rec_ := s.bytes o 128, frames := [], newest := none, next := 0, mark := none } ∧ s.flowOk f = false) ∧
    ∃ (s : State) (d : Desc) (f : Flow), s.work 0 0 0x61 .started = some d ∧ bits (d.word 3) 63 7 = 0 ∧ s.front.flows = [f] ∧ f.num = bits (d.word 3) 6 0 ∧ f.frames = [] :=
  ⟨⟨tasked (task 0x60 .started [128, 0, 0, 0, 0]), task 0x60 .started [128, 0, 0, 0, 0], by decide, by decide⟩,
   ⟨flowing 0x60 flowRec, flowTask 0x60, sram0 + 0x300000, _, by decide, by decide, Whole.source ⟨by decide, rfl, rfl, rfl, rfl⟩ _ _ _ _ (by decide) (by decide) (by decide), rfl, by decide,
    flow_may _ _ _ _ rfl rfl rfl rfl (by decide) (by decide) (by decide), flow_may _ _ _ _ rfl rfl rfl rfl (by decide) (by decide) (by decide)⟩,
   ⟨flowing 0x60 [], flowTask 0x60, sram0 + 0x300000, _, by decide, by decide, Whole.source ⟨by decide, rfl, rfl, rfl, rfl⟩ _ _ _ _ (by decide) (by decide) (by decide), rfl, by decide⟩,
   ⟨{ tasked (task 0x61 .started [0, 0, 0, 0, 0]) with front := { Front.reset with flows := [flow0] } }, task 0x61 .started [0, 0, 0, 0, 0], flow0, by decide, by decide, rfl, by decide, rfl⟩⟩

/-- R340: the flow opens. -/
theorem test_flow_open : (nx (exec (.flowOpen 0 0) (flowing 0x60 flowRec))).front.flows = [flow0] ∧ (nx (exec (.flowOpen 0 0) (flowing 0x60 []))).descs.map (·.status) = [.format] := by decide

/-- An RTP packet of the flow at timestamp `ts`: sequence number 7, one SRD of 5 bytes; its IPv4 datagram. -/
def rtp (pt : Nat) : List Byte := [0x80, BitVec.ofNat 8 pt] ++ beBytes 2 7 ++ beBytes 4 90000 ++ beBytes 4 0 ++ beBytes 2 0 ++ beBytes 2 5 ++ beBytes 2 0 ++ beBytes 2 0 ++ [1, 2, 3, 4, 5]
def rtpPacket (pt : Nat) : RtpPacket := ⟨(ipv4 17 0xEF000001 (beBytes 2 4000 ++ beBytes 2 5000 ++ beBytes 2 (8 + (rtp pt).length) ++ beBytes 2 0 ++ rtp pt)).drop 14⟩
def seen (newest : Option (BitVec 32)) : Flow := { flow0 with newest := newest }
def watching (f : Flow) (rx : List (PortId × Rx)) (used : List Byte) : State :=
  { ring0 with front := { Front.reset with flows := [f], rx := rx }, mem := putBytes [] (sram0 + 0x200000) used }
theorem watching_takes (f : Flow) (r : Rx) (b : List Byte) : FromPort (watching f [(0, r)] b) (watching f [] b) 0 r := ⟨.head _, by simp [watching]⟩
/-- What the datagram holds. -/
def rtpIp (pt : Nat) : IpPacket := ⟨false, mapped 0x0A000002, mapped 0xEF000001, 17, beBytes 2 4000 ++ beBytes 2 5000 ++ beBytes 2 (8 + (rtp pt).length) ++ beBytes 2 0 ++ rtp pt⟩
def rtpVideo : VideoPacket := ⟨90000, 7, false, [⟨0, 0, [1, 2, 3, 4, 5]⟩]⟩

theorem witness_video :
    (∃ (s u : State) (k : RtpPacket) (i : IpPacket) (sp dp : Nat) (data : List Byte) (f : Flow), FromPort s u 0 (.video k.bytes) ∧ ipOf k.bytes = some i ∧ udpOf i = some (sp, dp, data) ∧
      s.front.flows = [f] ∧ f.addressed 0 i dp = true ∧ f.frames = [] ∧ f.parse data = none) ∧
    (∃ (s u : State) (k : RtpPacket) (i : IpPacket) (sp dp : Nat) (data : List Byte) (f : Flow) (v : VideoPacket) (x : BitVec 32), FromPort s u 0 (.video k.bytes) ∧ ipOf k.bytes = some i ∧
      udpOf i = some (sp, dp, data) ∧ s.front.flows = [f] ∧ f.addressed 0 i dp = true ∧ f.frames = [] ∧ f.parse data = some v ∧ f.newest = some x ∧ newer v.ts x = false) ∧
    (∃ (s u : State) (k : RtpPacket) (i : IpPacket) (sp dp : Nat) (data : List Byte) (f : Flow) (v : VideoPacket), FromPort s u 0 (.video k.bytes) ∧ ipOf k.bytes = some i ∧
      udpOf i = some (sp, dp, data) ∧ s.front.flows = [f] ∧ f.addressed 0 i dp = true ∧ f.frames = [] ∧ f.parse data = some v ∧ f.newest = none ∧
      s.Permits (s.me f.auth) .rd false (bits f.cidx 47 0) 8 ∧ s.Clean f.auth (bits f.cidx 47 0) 8 ∧
      2 ^ f.k ≤ (f.next - BitVec.ofNat 32 (leAt (s.bytes (bits f.cidx 47 0) 8) 0 4)).toNat) :=
  ⟨⟨watching flow0 [(0, .video (rtpPacket 97).bytes)] [], watching flow0 [] [], rtpPacket 97, rtpIp 97, 4000, 5000, rtp 97, flow0, watching_takes _ _ _, by decide, by decide, rfl, by decide, rfl, by decide⟩,
   ⟨watching (seen (some 90000)) [(0, .video (rtpPacket 96).bytes)] [], watching (seen (some 90000)) [] [], rtpPacket 96, rtpIp 96, 4000, 5000, rtp 96, seen (some 90000), rtpVideo, 90000,
    watching_takes _ _ _, by decide, by decide, rfl, by decide, rfl, by decide, rfl, by decide⟩,
   ⟨watching flow0 [(0, .video (rtpPacket 96).bytes)] [1], watching flow0 [] [1], rtpPacket 96, rtpIp 96, 4000, 5000, rtp 96, flow0, rtpVideo, watching_takes _ _ _, by decide, by decide, rfl,
    by decide, rfl, by decide, rfl, allows_ranger _ _ _ _ _ _ 0 (by decide) rfl, (flow_may _ flow0 _ _ rfl rfl rfl rfl rfl (by decide) (by decide)).answers, by decide⟩⟩
theorem witness_video_frame : ∃ (s u : State) (k : RtpPacket) (i : IpPacket) (sp dp : Nat) (data : List Byte) (f : Flow) (v : VideoPacket) (d : Srd), FromPort s u 0 (.video k.bytes) ∧
    ipOf k.bytes = some i ∧ udpOf i = some (sp, dp, data) ∧ s.front.flows = [f] ∧ f.addressed 0 i dp = true ∧ f.frames = [] ∧ f.parse data = some v ∧ f.newest = none ∧
    s.Permits (s.me f.auth) .rd false (bits f.cidx 47 0) 8 ∧ s.Clean f.auth (bits f.cidx 47 0) 8 ∧
    (f.next - BitVec.ofNat 32 (leAt (s.bytes (bits f.cidx 47 0) 8) 0 4)).toNat < 2 ^ f.k ∧ v.srds = [d] ∧ v.marker = false ∧ f.mark = none ∧ PlanesMay s f (f.slotOff f.next) d := by
  refine ⟨watching flow0 [(0, .video (rtpPacket 96).bytes)] [], watching flow0 [] [], rtpPacket 96, rtpIp 96, 4000, 5000, rtp 96, flow0, rtpVideo, ⟨0, 0, [1, 2, 3, 4, 5]⟩, watching_takes _ _ _,
    by decide, by decide, rfl, by decide, rfl, by decide, rfl, allows_ranger _ _ _ _ _ _ 0 (by decide) rfl,
    (flow_may _ flow0 _ _ rfl rfl rfl rfl rfl (by decide) (by decide)).answers, by decide, rfl, rfl, rfl, ?_, by decide⟩
  intro x hx
  have h : ∀ x ∈ planes flow0 (flow0.slotOff flow0.next) ⟨0, 0, [1, 2, 3, 4, 5]⟩, placeOfRange x.1 x.2.length = .sram 0 ∧ ∀ u ∈ unitsOf x.1 x.2.length, placeOf u = .sram 0 := by decide
  exact flow_may _ _ _ _ rfl rfl rfl rfl rfl (h x hx).1 (h x hx).2

/-- A frame of flow 0 with one packet. -/
def frame0 : Frame := ⟨90000, 0, 7, 0, 0, [7], none, 2, false, .ok⟩
theorem witness_frame_timeout : ∃ (s : State) (f : Flow) (fr : Frame), OneFrame s (0 : Fin 128).val f fr ∧ fr.complete f = false ∧
    FlowMay s f (f.slotOff fr.idx + f.sizeY + 2 * f.sizeC) 16416 ∧ FlowMay s f (bits f.recBase 47 0 + 32 * (fr.idx.toNat % 2 ^ f.k)) 32 ∧
    f.slotOff fr.idx + f.sizeY + 2 * f.sizeC + 16416 ≤ bits f.recBase 47 0 + 32 * (fr.idx.toNat % 2 ^ f.k) :=
  ⟨watching { flow0 with frames := [frame0] } [] [], { flow0 with frames := [frame0] }, frame0, ⟨rfl, rfl, rfl, rfl⟩, by decide,
   flow_may _ _ _ _ rfl rfl rfl rfl rfl (by decide) (by decide), flow_may _ _ _ _ rfl rfl rfl rfl rfl (by decide) (by decide), by decide⟩

/-- R344, R346: the packet of the wrong payload type is BAD, the first one of a timestamp opens frame 0. -/
theorem test_video : (nx (exec (.videoPacket 0 (rtpPacket 97) 0) (watching flow0 [(0, .video (rtpPacket 97).bytes)] []))).fld (Reg.FRONT_FLOW_STATE 0) Reg.FRONT_FLOW_STATE_BAD = 1 ∧
    ((nx (exec (.videoPacket 0 (rtpPacket 96) 0) (watching flow0 [(0, .video (rtpPacket 96).bytes)] []))).front.flows.map (fun f => f.frames.map (·.pixels))) = [[2]] := by decide

/-- An endpoint of ring 0 for any client, 16 slots of 64 bytes 4 MiB on. -/
def endpoint0 (plen : Nat) : Endpoint :=
  ⟨[1, BitVec.ofNat 8 plen, 0, 0, 0, 0, 0, 0] ++ List.replicate 16 0 ++ [0, 0, 4, 0] ++ leBytes 4 64 ++ leBytes 8 sram.toNat ++ leBytes 8 (sram.toNat + 0x400000) ++
    leBytes 8 (sram.toNat + 0x500000) ++ List.replicate 8 0, [1] ++ List.replicate 63 0⟩
/-- An EXR request of `n` payload bytes to endpoint `ep` with operation `op`. -/
def exrData (op ep n : Nat) : List Byte := leBytes 2 0x5845 ++ [1, BitVec.ofNat 8 op, BitVec.ofNat 8 ep, 0] ++ leBytes 2 n ++ leBytes 8 77 ++ List.replicate 16 0 ++ List.replicate n 9
/-- The engine is enabled with these endpoints; `d` waits. -/
def exr0 (on : Nat) (es : List (Nat × Endpoint)) (recent : List Recent) (d : List Byte) : State :=
  { (ring0.setReg Reg.FRONT_EXR_CFG (BitVec.ofNat 64 (on * 2 ^ 63 + 5845))) with front := { Front.reset with endpoints := es, recent := recent, rx := [(0, .exr 3 (mapped 0x0A000002) 4000 d)] } }
def exr1 (s : State) : State := { s with front := { s.front with rx := [] } }
theorem exr_client (on : Nat) (es : List (Nat × Endpoint)) (recent : List Recent) (d : List Byte) :
    FromClient (exr0 on es recent d) (exr1 (exr0 on es recent d)) 0 3 (mapped 0x0A000002) 4000 d := ⟨rfl, rfl, by intro r h; cases h⟩
/-- Held key of that request. -/
def recent0 (r : Option (Status × Word × BitVec 32)) : Recent := ⟨⟨mapped 0x0A000002, 4000, 1, 77⟩, 0, 3, 0, r, false⟩

theorem request0 : Request (exrData 1 1 8) 1 := ⟨by decide, by decide, by decide, by decide, by decide⟩

theorem witness_exr_refusals :
    (∃ (s u : State) (a : BitVec 128) (q : BitVec 16) (d : List Byte), FromClient s u 0 3 a q d ∧ s.fld Reg.FRONT_EXR_CFG Reg.FRONT_EXR_CFG_ENABLE = 0) ∧
    (∃ (s u : State) (a : BitVec 128) (q : BitVec 16) (d : List Byte), FromClient s u 0 3 a q d ∧ s.fld Reg.FRONT_EXR_CFG Reg.FRONT_EXR_CFG_ENABLE = 1 ∧ d.length < 32) ∧
    (∃ (s u : State) (a : BitVec 128) (q : BitVec 16) (d : List Byte), FromClient s u 0 3 a q d ∧ s.fld Reg.FRONT_EXR_CFG Reg.FRONT_EXR_CFG_ENABLE = 1 ∧
      (32 ≤ d.length ∧ leAt d 0 2 = 0x5845 ∧ leAt d 2 1 = 1 ∧ leAt d 6 2 + 32 = d.length) ∧ leAt d 3 1 ≠ 1) ∧
    (∃ (s u : State) (a : BitVec 128) (q : BitVec 16) (d : List Byte), FromClient s u 0 3 a q d ∧ s.fld Reg.FRONT_EXR_CFG Reg.FRONT_EXR_CFG_ENABLE = 1 ∧ Request d 1 ∧ leAt d 6 2 ≤ 8192 ∧
      ∀ e ∈ s.front.endpoints, e.1 ≠ 1) ∧
    (∃ (s u : State) (a : BitVec 128) (q : BitVec 16) (d : List Byte) (e : Endpoint), FromClient s u 0 3 a q d ∧ s.fld Reg.FRONT_EXR_CFG Reg.FRONT_EXR_CFG_ENABLE = 1 ∧ Request d 1 ∧
      leAt d 6 2 ≤ 8192 ∧ s.front.endpoints = [(1, e)] ∧ e.admits a = false) ∧
    ∃ (s u : State) (a : BitVec 128) (q : BitVec 16) (d : List Byte) (e : Endpoint), FromClient s u 0 3 a q d ∧ s.fld Reg.FRONT_EXR_CFG Reg.FRONT_EXR_CFG_ENABLE = 1 ∧ Request d 1 ∧
      leAt d 6 2 ≤ 8192 ∧ s.front.endpoints = [(1, e)] ∧ e.admits a = true ∧ e.slotBytes < d.length :=
  ⟨⟨_, _, _, _, _, exr_client 0 [] [] (exrData 1 1 8), by decide⟩, ⟨_, _, _, _, _, exr_client 1 [] [] [1], by decide, by decide⟩,
   ⟨_, _, _, _, _, exr_client 1 [] [] (exrData 2 1 8), by decide, by decide, by decide⟩, ⟨_, _, _, _, _, exr_client 1 [] [] (exrData 1 1 8), by decide, request0, by decide, by decide⟩,
   ⟨_, _, _, _, _, endpoint0 128, exr_client 1 [(1, endpoint0 128)] [] (exrData 1 1 8), by decide, request0, by decide, rfl, by decide⟩,
   ⟨_, _, _, _, _, endpoint0 0, exr_client 1 [(1, endpoint0 0)] [] (exrData 1 1 33), by decide, ⟨by decide, by decide, by decide, by decide, by decide⟩, by decide, rfl, by decide, by decide⟩⟩
/-- A pair is its first part, shown, beside its second. -/
theorem pair_of_fst {A B : Type} {p : A × B} {a : A} (h : p.1 = a) : p = (a, p.2) := Prod.ext h rfl
theorem witness_exr_requests :
    (∃ (s u : State) (a : BitVec 128) (q : BitVec 16) (d : List Byte) (e : Endpoint) (r : Recent), FromClient s u 0 3 a q d ∧ s.fld Reg.FRONT_EXR_CFG Reg.FRONT_EXR_CFG_ENABLE = 1 ∧ Request d 1 ∧
      s.front.endpoints = [(1, e)] ∧ e.admits a = true ∧ d.length ≤ e.slotBytes ∧ s.front.recent = [r] ∧ r.key = ⟨a, q, BitVec.ofNat 8 1, wordAt d 8⟩ ∧ r.reply = none) ∧
    (∃ (s u : State) (a : BitVec 128) (q : BitVec 16) (d : List Byte) (e : Endpoint) (r : Recent), FromClient s u 0 3 a q d ∧ s.fld Reg.FRONT_EXR_CFG Reg.FRONT_EXR_CFG_ENABLE = 1 ∧ Request d 1 ∧
      s.front.endpoints = [(1, e)] ∧ e.admits a = true ∧ d.length ≤ e.slotBytes ∧ s.front.recent = [r] ∧ r.key = ⟨a, q, BitVec.ofNat 8 1, wordAt d 8⟩ ∧ r.reply = some (.ok, 1, 2)) ∧
    (∃ (s u : State) (a : BitVec 128) (q : BitVec 16) (d : List Byte) (e : Endpoint), FromClient s u 0 3 a q d ∧ s.fld Reg.FRONT_EXR_CFG Reg.FRONT_EXR_CFG_ENABLE = 1 ∧ Request d 1 ∧
      s.front.endpoints = [(1, e)] ∧ e.admits a = true ∧ d.length ≤ e.slotBytes ∧ s.front.recent = [] ∧ s.exrSlot 1 e = none) ∧
    ∃ (s u : State) (a : BitVec 128) (q : BitVec 16) (d : List Byte) (e : Endpoint) (slot : Nat) (v w : State), FromClient s u 0 3 a q d ∧ s.fld Reg.FRONT_EXR_CFG Reg.FRONT_EXR_CFG_ENABLE = 1 ∧
      Request d 1 ∧ s.front.endpoints = [(1, e)] ∧ e.admits a = true ∧ d.length ≤ e.slotBytes ∧ s.front.recent = [] ∧ s.exrSlot 1 e = some slot ∧ u.exrPost 1 e slot d = ((0, none), v) ∧
      v.doorbell (v.ringAuth e.ring) e.ring 0 8 1 = (.ok, w) ∧ w.front.recent = [] :=
  ⟨⟨_, _, _, _, _, endpoint0 0, recent0 none, exr_client 1 [(1, endpoint0 0)] [recent0 none] (exrData 1 1 8), by decide, request0, rfl, by decide, by decide, rfl, by decide, rfl⟩,
   ⟨_, _, _, _, _, endpoint0 0, recent0 (some (.ok, 1, 2)), exr_client 1 [(1, endpoint0 0)] [recent0 (some (.ok, 1, 2))] (exrData 1 1 8), by decide, request0, rfl, by decide, by decide, rfl, by decide, rfl⟩,
   ⟨(exr0 1 [(1, endpoint0 0)] [] (exrData 1 1 8)).setFld (Reg.RING_STATE 0) Reg.RING_STATE_PIDX 16, _, _, _, exrData 1 1 8, endpoint0 0, ⟨rfl, rfl, by intro r h; cases h⟩, by decide, request0, rfl, by decide, by decide,
    rfl, by decide⟩,
   ⟨_, _, _, _, _, endpoint0 0, 0, _, _, exr_client 1 [(1, endpoint0 0)] [] (exrData 1 1 8), by decide, request0, rfl, by decide, by decide, rfl, by decide,
    pair_of_fst (by decide), pair_of_fst (by decide), by decide⟩⟩
/-- A request in execution. -/
def exrReq (cpl : Option (Status × Word × BitVec 32)) : ExrReq := ⟨0, 0, 0, 1, 0, 3, mapped 0x0A000002, 4000, 77, 0, none, cpl⟩
/-- The ring of the request lies at `base`. -/
def exrAt (base : Word) : State := { (exr0 1 [(1, endpoint0 0)] [] (exrData 1 1 8)).setReg (Reg.RING_BASE 0) base with fab := (meshed ring0).fab }
theorem witness_exr_posts :
    (∃ (s u v : State) (a : BitVec 128) (q : BitVec 16) (d : List Byte) (e : Endpoint), FromClient s u 0 3 a q d ∧ s.front.recent = [] ∧ s.exrSlot 1 e = some 0 ∧
      u.exrPost 1 e 0 d = ((1, none), v)) ∧
    (∃ (s u v : State) (a : BitVec 128) (q : BitVec 16) (d : List Byte) (e : Endpoint), FromClient s u 0 3 a q d ∧ s.front.recent = [] ∧ s.exrSlot 1 e = some 0 ∧
      u.exrPost 1 e 0 d = ((0, some .format), v)) ∧
    (∃ s : State, ∃ r ∈ s.exr, r.left ≠ 0) ∧ ∃ (s : State) (r : ExrReq), s.exr = [r] ∧ r.fail = none ∧ 1 < r.left :=
  ⟨⟨exrAt far1, exr1 (exrAt far1), _, _, _, _, endpoint0 0, ⟨rfl, rfl, by intro r h; cases h⟩, rfl, by decide, Prod.ext (by decide) rfl⟩,
   ⟨exrAt (-1), exr1 (exrAt (-1)), _, _, _, _, endpoint0 0, ⟨rfl, rfl, by intro r h; cases h⟩, rfl, by decide, Prod.ext (by decide) rfl⟩,
   ⟨{ State.reset with exr := [{ exrReq none with left := 2 }] }, _, .head _, by decide⟩, ⟨{ State.reset with exr := [{ exrReq none with left := 2 }] }, _, rfl, rfl, by decide⟩⟩

/-- R352: a request posts a descriptor and rings its doorbell; one from outside the prefix does not. -/
theorem test_exr : (nx (exec (.exrDatagram 0 (mapped 0x0A000002) 4000 (exrData 1 1 8)) (exr0 1 [(1, endpoint0 0)] [] (exrData 1 1 8)))).fld (Reg.RING_STATE 0) Reg.RING_STATE_PIDX = 1 ∧
    (nx (exec (.exrDatagram 0 (mapped 0x0A000002) 4000 (exrData 1 1 8)) (exr0 1 [(1, endpoint0 128)] [] (exrData 1 1 8)))).fld (Reg.RING_STATE 0) Reg.RING_STATE_PIDX = 0 := by decide

def exrBusy (on : Nat) (cpl : Option (Status × Word × BitVec 32)) : State := { exr0 on [(1, endpoint0 0)] [recent0 none] [] with exr := [exrReq cpl] }

theorem witness_exr_engine :
    (∃ (s : State) (r : ExrReq), s.exr = [r] ∧ r.ring = 0 ∧ r.idx = 0 ∧ r.cpl = none) ∧
    (∃ (s : State) (r : ExrReq), s.exr = [r] ∧ r.ring = 0 ∧ r.idx = 0 ∧ r.cpl = some (.ok, 1, 2) ∧ s.fld Reg.FRONT_EXR_CFG Reg.FRONT_EXR_CFG_ENABLE = 0 ∧ s.portSends r.port = false) ∧
    (∃ (s : State) (v : Word) (es : List (Nat × Endpoint)) (w : State), s.mayUse .mgmt = true ∧ s.fld Reg.FRONT_EXR_STATE Reg.FRONT_EXR_STATE_DRAINING = 0 ∧ v.getLsbD 63 = true ∧
      s.fld Reg.FRONT_EXR_CFG Reg.FRONT_EXR_CFG_ENABLE = 0 ∧ (s.writeWord .FRONT_EXR_CFG [] Reg.FRONT_EXR_CFG (setBit v 63 false) (-1)).exrTable = (some es, w)) ∧
    (∃ (s : State) (v : Word) (w : State), s.mayUse .mgmt = true ∧ s.fld Reg.FRONT_EXR_STATE Reg.FRONT_EXR_STATE_DRAINING = 0 ∧ v.getLsbD 63 = true ∧
      s.fld Reg.FRONT_EXR_CFG Reg.FRONT_EXR_CFG_ENABLE = 0 ∧ (s.writeWord .FRONT_EXR_CFG [] Reg.FRONT_EXR_CFG (setBit v 63 false) (-1)).exrTable = (none, w)) ∧
    (∃ (s : State) (v : Word), s.mayUse .mgmt = true ∧ s.fld Reg.FRONT_EXR_STATE Reg.FRONT_EXR_STATE_DRAINING = 0 ∧ v.getLsbD 63 = false ∧ s.fld Reg.FRONT_EXR_CFG Reg.FRONT_EXR_CFG_ENABLE = 1) ∧
    (∃ s : State, s.mayUse .mgmt = true ∧ s.front.flows = [] ∧ s.front.chosen = none ∧ s.front.masters = []) ∧ (∃ s : State, s.quiesced 1 = true) ∧ ∃ s : State, s.quiesced 1 = false :=
  ⟨⟨exrBusy 1 none, _, rfl, rfl, rfl, rfl⟩, ⟨exrBusy 0 (some (.ok, 1, 2)), _, rfl, rfl, rfl, rfl, by decide, by decide⟩,
   ⟨ring0.setReg Reg.FRONT_EXR_TABLE sram, BitVec.ofNat 64 (2 ^ 63 + 5845), [], _, by decide, by decide, by decide, by decide, Prod.ext (by decide) rfl⟩,
   ⟨ring0, BitVec.ofNat 64 (2 ^ 63), _, by decide, by decide, by decide, by decide, Prod.ext (by decide) rfl⟩,
   ⟨exrBusy 1 none, 0, by decide, by decide, by decide, by decide⟩, ⟨State.reset, by decide, rfl, rfl, rfl⟩, ⟨State.reset.setReg Reg.FRONT_CTRL 2, by decide⟩, ⟨State.reset, by decide⟩⟩

/-! ### Heat, power and supply -/

/-- Every island at `c` °C, and the plate too by its fallback, so that no estimate moves at zero power. -/
def heated (c : Nat) : State :=
  { ((State.reset.setFld (Reg.THERM_TH 0) Reg.THERM_TH_FAULT 1).setFld Reg.THERM_CFG Reg.THERM_CFG_PLATE_FALLBACK c) with
    power := { Power.reset with islands := (List.range 148).map fun j => (j, { Island.reset j with tHat := c }) } }

theorem get_range {α : Type} (f g : Nat → α) (l : List Nat) (j : Nat) (h : j ∈ l) : Maps.get (f j) (l.map fun i => (i, g i)) j = g j := by
  induction l with
  | nil => cases h
  | cons a l ih =>
    by_cases e : a = j
    · subst e; simp [Maps.get]
    · have := ih (by simpa [Ne.symm e] using h)
      simpa [Maps.get, e] using this
theorem heated_island (c : Nat) : ∀ j < 148, (heated c).island j = { Island.reset j with tHat := c } := by
  intro j hj
  exact get_range Island.reset (fun j => { Island.reset j with tHat := (c : Rat) }) _ j (List.mem_range.2 hj)
theorem heated_next (c : Nat) (h : (heated c).plate = c) : ∀ j < 148, nextT (heated c) j (([] : List Nat).getD j 0) = c := by
  intro j hj
  have z : (0 : Rat) / 1000 = 0 := by rw [Rat.div_def, Rat.zero_mul]
  simp [nextT, steady, heated_island c j hj, h, Island.reset, z, Rat.mul_zero, Rat.add_zero, Rat.sub_self, Rat.zero_mul]
theorem heated_plate (c : Nat) (h : (heated c).fld Reg.THERM_CFG Reg.THERM_CFG_PLATE_FALLBACK = c := by decide) (h1 : (heated c).fld (Reg.THERM_TH 0) Reg.THERM_TH_FAULT = 1 := by decide) :
    (heated c).plate = c := by simp [State.plate, h, h1]
theorem upto (c d : Nat) (h : c ≤ d) : (c : Rat) ≤ (d : Rat) := by exact_mod_cast h
theorem below (c d : Nat) (h : c < d) : (c : Rat) < (d : Rat) := by exact_mod_cast h
theorem heated_est (c : Nat) (h : (heated c).plate = c) : ∀ j < 148, (steady (heated c) j (([] : List Nat).getD j 0) - nextT (heated c) j (([] : List Nat).getD j 0)) / Config.islandTau j = 0 := by
  intro j hj
  have z : (0 : Rat) / 1000 = 0 := by rw [Rat.div_def, Rat.zero_mul]
  rw [heated_next c h j hj]
  simp [steady, heated_island c j hj, h, Island.reset, z, Rat.mul_zero, Rat.add_zero, Rat.sub_self, Rat.div_def, Rat.zero_mul]
theorem witness_estimates : (∃ (s : State) (p : List Nat), (∀ j < 148, nextT s j (p.getD j 0) < (s.shutdownAt : Rat)) ∧ (∀ j < 148, nextT s j (p.getD j 0) < (s.warnSet : Rat)) ∧
      (∀ j < 148, nextT s j (p.getD j 0) ≤ (s.warnClr : Rat)) ∧ ∀ i < 128, (steady s i (p.getD i 0) - nextT s i (p.getD i 0)) / Config.islandTau i ≤ (s.riseLimit : Rat) ∧ (s.island i).riseD = 0) ∧
    (∃ (s : State) (p : List Nat), (∀ j < 148, nextT s j (p.getD j 0) < (s.shutdownAt : Rat)) ∧ (∀ j < 148, nextT s j (p.getD j 0) < (s.warnSet : Rat)) ∧
      ∀ j < 148, (s.warnClr : Rat) < nextT s j (p.getD j 0)) ∧
    (∃ (s : State) (p : List Nat), (∀ j < 148, nextT s j (p.getD j 0) < (s.shutdownAt : Rat)) ∧ (∀ j < 148, (s.warnSet : Rat) ≤ nextT s j (p.getD j 0)) ∧
      ∀ j < 148, nextT s j (p.getD j 0) < (s.throttleSet : Rat)) ∧
    (∃ (s : State) (p : List Nat), (∀ j < 148, nextT s j (p.getD j 0) < (s.shutdownAt : Rat)) ∧ (∀ j < 148, (s.throttleSet : Rat) ≤ nextT s j (p.getD j 0))) ∧
    ∃ (s : State) (p : List Nat), (s.shutdownAt : Rat) ≤ nextT s 0 (p.getD 0 0) := by
  have e := fun c (h : (heated c).plate = c) j hj => heated_next c h j hj
  have r := fun c (h : (heated c).plate = c) j hj => heated_est c h j hj
  have lim : ((0 : Nat) : Rat) ≤ ((heated 40).riseLimit : Nat) := upto _ _ (Nat.zero_le _)
  have rise0 : ∀ i < 128, ((heated 40).island i).riseD = 0 := fun i hi => by rw [heated_island 40 i (by omega)]; rfl
  refine ⟨⟨heated 40, [], fun j hj => ?_, fun j hj => ?_, fun j hj => ?_, fun i hi => ⟨?_, rise0 i hi⟩⟩, ⟨heated 93, [], fun j hj => ?_, fun j hj => ?_, fun j hj => ?_⟩,
    ⟨heated 97, [], fun j hj => ?_, fun j hj => ?_, fun j hj => ?_⟩, ⟨heated 102, [], fun j hj => ?_, fun j hj => ?_⟩, heated 115, [], ?_⟩
  all_goals first
    | (rw [e _ (heated_plate _) _ (by omega)]; first | exact below _ _ (by decide) | exact upto _ _ (by decide))
    | (rw [r _ (heated_plate _) _ (by omega)]; exact lim)

theorem witness_diodes : (∃ (s : State) (l : List Int), l = [400] ∧ ∀ d ∈ l, d < 16 * s.shutdownAt) ∧ (∃ (s : State) (l : List Int), ∃ d ∈ l, (16 * s.shutdownAt : Int) ≤ d) ∧
    (∃ r : List (Option Int), r.getD 1 none = some 1600 ∧ r.getD 2 none = some 1680 ∧ r.getD 3 none = none) ∧
    (∃ s : State, s.power.west ≤ 3 ∧ s.power.east ≤ 3 ∧ ∀ p < 26, Maps.get 0 s.power.pkg p ≤ 3) :=
  ⟨⟨State.reset, _, rfl, by decide⟩, ⟨State.reset, [1760], by decide⟩, ⟨[none, some 1600, some 1680], by decide⟩, State.reset, by decide, by decide, by decide⟩
theorem witness_levels : (∃ (lim : Nat) (d : Int), 16 * (lim : Int) - 48 < d) ∧ (∃ (lim : Nat) (d : Int), d ≤ 16 * (lim : Int) - 48) ∧
    (∃ (s : State) (j : IslandId), j.val < 132 ∧ s.throttled j = false) ∧ (∃ s : State, s.fld Reg.POLICY_THERM_CFG Reg.POLICY_THERM_CFG_WARN_ACT = 1 ∧ ∀ i < 16, s.throttled (132 + i) = false) ∧
    (∃ s : State, s.fld Reg.POLICY_THERM_CFG Reg.POLICY_THERM_CFG_WARN_ACT = 0) ∧ ∃ s : State, s.throttled (132 + 15) = true :=
  ⟨⟨85, 1313, by decide⟩, ⟨85, 1312, by decide⟩, ⟨State.reset, 131, by decide, by decide⟩, ⟨State.reset.setFld Reg.POLICY_THERM_CFG Reg.POLICY_THERM_CFG_WARN_ACT 1, by decide, by decide⟩,
   ⟨State.reset.setFld Reg.POLICY_THERM_CFG Reg.POLICY_THERM_CFG_WARN_ACT 0, by decide⟩, State.reset.setFld (Reg.THERM_ISL 147) Reg.THERM_ISL_THROTTLE 1, by decide⟩

/-- R401, R402: TH1 at 100 °C with its limit of 85 °C holds the west packages at level 3; 110 °C at a diode is fail-safe. -/
theorem test_thermistors : (nx (exec (.thermistorRead [none, some 1600, some 0, none]) (State.reset.setFld Reg.THERM_TH_CFG Reg.THERM_TH_CFG_LPDDR_LIMIT 85))).power.west = 3 ∧
    heldLevel 85 0 1359 = 0 ∧ heldLevel 85 0 1360 = 1 := by decide

/-- The supply at a stage, with the bulk supply up. -/
def staged (n : Nat) : State :=
  { (State.reset.setFld Reg.CLKPWR_SHED Reg.CLKPWR_SHED_STAGE n) with boot := { Boot.reset with bulk := true }, power := { Power.reset with measured := n } }

theorem witness_power : (∃ (s : State) (w : Nat), w < 65536 ∧ s.capW + 50 < w) ∧ (∃ (s : State) (w : Nat), w < 65536 ∧ w < s.capW) ∧ (∃ (s : State) (w : Nat), w < 65536 ∧ s.capW ≤ w ∧ w ≤ s.capW + 50) ∧
    (∃ (s : State) (w pin : Nat), s.power.samples = List.replicate 10 w ∧ s.fld Reg.POLICY_PWR_CFG Reg.POLICY_PWR_CFG_PIN_FREQ = pin ∧ pin ≠ 0) ∧
    (∃ (s : State) (w pin : Nat), s.power.samples = List.replicate 10 w ∧ s.fld Reg.POLICY_PWR_CFG Reg.POLICY_PWR_CFG_PIN_FREQ = pin ∧ pin = 0 ∧ s.capW < w) ∧
    (∃ (s : State) (w pin : Nat), s.power.samples = List.replicate 10 w ∧ s.fld Reg.POLICY_PWR_CFG Reg.POLICY_PWR_CFG_PIN_FREQ = pin ∧ pin = 0 ∧
      w + s.fld Reg.POLICY_PWR_CFG Reg.POLICY_PWR_CFG_HYST_W < s.capW) ∧
    ∃ (s : State) (w pin : Nat), s.power.samples = List.replicate 10 w ∧ s.fld Reg.POLICY_PWR_CFG Reg.POLICY_PWR_CFG_PIN_FREQ = pin ∧ pin = 0 ∧ w ≤ s.capW ∧
      s.capW ≤ w + s.fld Reg.POLICY_PWR_CFG Reg.POLICY_PWR_CFG_HYST_W :=
  ⟨⟨State.reset, 60000, by decide, by decide⟩, ⟨State.reset, 0, by decide, by decide⟩, ⟨State.reset, State.reset.capW + 50, by decide, by decide, by decide⟩,
   ⟨{ (State.reset.setFld Reg.POLICY_PWR_CFG Reg.POLICY_PWR_CFG_PIN_FREQ 40) with power := { Power.reset with samples := List.replicate 10 9 } }, 9, 40, rfl, by decide, by decide⟩,
   ⟨{ State.reset with power := { Power.reset with samples := List.replicate 10 60000 } }, 60000, 0, rfl, by decide, by decide, by decide⟩,
   ⟨{ State.reset with power := { Power.reset with samples := List.replicate 10 0 } }, 0, 0, rfl, by decide, by decide, by decide⟩,
   { State.reset with power := { Power.reset with samples := List.replicate 10 State.reset.capW } }, _, 0, rfl, by decide, by decide, by decide, by decide⟩
/-- A brown-out notice of device 5 at stage 4. -/
def notice4 : List Byte := [5, 0, 4] ++ List.replicate 29 0

theorem witness_supply : (∃ (s : State) (j : IslandId), j.val < 132 ∧ 2 ≤ (s.island j).lvl) ∧ (∃ j : IslandId, j.val < 132) ∧
    (∃ s : State, s.boot.bulk = true ∧ s.fld Reg.POLICY_SHED_CFG Reg.POLICY_SHED_CFG_PIN_STAGE = 0) ∧ (∃ (k : Fin 6) (mv : Nat), k.val = 5 ∧ mv < 36000) ∧
    (∃ (s : State) (k : Fin 6) (mv : Nat), s.boot.bulk = true ∧ s.fld Reg.POLICY_SHED_CFG Reg.POLICY_SHED_CFG_PIN_STAGE = 0 ∧ k.val = 4 ∧ mv < 46000 - 2000 * k.val ∧ s.power.measured < k.val ∧
      s.stage = s.power.measured) ∧
    (∃ (s : State) (k : Fin 6) (mv : Nat), s.boot.bulk = true ∧ s.fld Reg.POLICY_SHED_CFG Reg.POLICY_SHED_CFG_PIN_STAGE = 0 ∧ 1 ≤ k.val ∧ k.val ≤ 4 ∧ 46000 - 2000 * k.val ≤ mv) ∧
    (∃ (s : State) (mv : Nat), s.fld Reg.POLICY_SHED_CFG Reg.POLICY_SHED_CFG_PIN_STAGE = 0 ∧ s.stage = s.power.measured ∧ 1 ≤ s.power.measured ∧ s.power.measured ≤ 4 ∧
      46000 - 2000 * s.power.measured + 1000 < mv ∧ (1 < s.power.measured ∨ ∀ d ∈ s.descs, d.typ = 0x50 → d.phase ≠ .working)) ∧
    (∃ (s : State) (mv : Nat), s.fld Reg.POLICY_SHED_CFG Reg.POLICY_SHED_CFG_PIN_STAGE = 0 ∧ s.stage = s.power.measured ∧ 1 ≤ s.power.measured ∧ s.power.measured ≤ 4 ∧
      mv ≤ 46000 - 2000 * s.power.measured + 1000) ∧
    (∃ s : State, s.selfRefresh = true ∧ s.stage < 4) ∧ ∃ (s u : State) (p : Packet), Arrived s u p 4 0x33 ∧ p.payload.length = 32 ∧ p.pcrcOk = true ∧ brownoutOk p.payload = true :=
  ⟨⟨State.reset.mapIsland 0 fun x => { x with lvl := 2 }, 0, by decide, by decide⟩, ⟨131, by decide⟩, ⟨staged 0, rfl, by decide⟩, ⟨5, 35999, rfl, by decide⟩,
   ⟨staged 3, 4, 37999, rfl, by decide, rfl, by decide, by decide, by decide⟩, ⟨staged 0, 4, 38000, rfl, by decide, by decide, by decide, by decide⟩,
   ⟨staged 4, 39001, by decide, by decide, by decide, by decide, by decide, by decide⟩, ⟨staged 1, 45000, by decide, by decide, by decide, by decide, by decide⟩,
   ⟨{ (staged 3) with selfRefresh := true }, rfl, by decide⟩,
   arr State.reset { pk 4 0x33 148 0 0 0 0 notice4 with pcrc := crc32c notice4 }, State.reset, _, arr_arrived _ _ _ _ rfl (by decide) (by decide), by decide, by decide, by decide⟩

/-- R407: 39.9 V enters stage 3 (below 40 V), 40 V does not. -/
theorem test_stage : (nx (exec (.supplyStageEnter 3 39999 false) (staged 0))).stage = 3 ∧ (nx (exec (.supplyStageEnter 3 40000 false) (staged 0))).stage = 0 := by decide

/-! ### Snapshots -/

/-- A plan with one granule of cluster 0's SRAM in its keep list and device 1 as its keeper; its list stands 64 bytes on. -/
def plan1 : List Byte := leBytes 4 1 ++ leBytes 4 1 ++ leBytes 8 0 ++ leBytes 8 0x800000 ++ leBytes 4 0 ++ leBytes 4 2 ++ leBytes 1 0xFF ++ List.replicate 7 0 ++
  leBytes 8 0 ++ leBytes 8 0 ++ leBytes 8 (sram.toNat + 64)
def keep1 : List Byte := leBytes 8 (sram0 + granuleSize) ++ leBytes 8 granuleSize
/-- That plan in memory, snapshots enabled, and a task; Hamper is fenced. -/
def planned (d : Desc) : State :=
  meshed { ((tasked d).setFld Reg.SNAP_CFG Reg.SNAP_CFG_ENABLE 1) with mem := putBytes (putBytes [] sram0 plan1) (sram0 + 64) keep1, hamperFenced := true }
theorem planned_whole (d : Desc) : Whole (planned d) := ⟨(by decide : (planned (work0 1)).ringAuth 0 = .ranger), rfl, rfl, rfl, rfl⟩
theorem sram_unit (o n : Nat) (h : (unitsOf o n).all (fun u => placeOf u = .sram 0) = true) : ∀ u ∈ unitsOf o n, placeOf u = .sram 0 := by simpa using h
theorem planned_reads (d : Desc) (v : Word) (o n : Nat) (hl : (planned d).locate true v.toNat n = .here o) (hp : placeOfRange o n = .sram 0)
    (hu : (unitsOf o n).all (fun u => placeOf u = .sram 0) = true) : (planned d).readRing 0 v n = (.ok ((planned d).bytes o n), planned d) := by
  have r := (planned_whole d).source true v.toNat n o hl hp (sram_unit o n hu)
  rw [State.readRing, hl]
  simp only
  rw [State.readFor_clean true r.permitted r.answers]
theorem planned_plan (d : Desc) (whole : Bool) : PlanRead (planned d) (planned d) 0 sram whole plan1 keep1 := by
  have a := planned_reads d sram sram0 64 rfl (by decide) (by decide)
  have b := planned_reads d (sram + 64) (sram0 + 64) 16 rfl (by decide) (by decide)
  have pb : (planned d).bytes sram0 64 = plan1 := (by decide : (planned (work0 1)).bytes sram0 64 = plan1)
  have kb : (planned d).bytes (sram0 + 64) 16 = keep1 := (by decide : (planned (work0 1)).bytes (sram0 + 64) 16 = keep1)
  rw [pb] at a
  rw [kb] at b
  have w : wordAt plan1 0x38 = sram + 64 := by decide
  have n : planRanges plan1 = 1 := by decide
  have k : keepOk (keepOf keep1) = true := by decide
  have ok : (planned d).planOk plan1 (keepOf keep1) = true := by
    have e : (planned d).self = 0 := (by decide : (planned (work0 1)).self = 0)
    simp only [State.planOk, e]
    decide
  have pr : (planned d).present (planKeeper plan1) = true := (by decide : (planned (work0 1)).present (planKeeper plan1) = true)
  simp only [PlanRead, State.readPlan, a, n, w]
  simp only [b, k, ok, pr]
  cases whole <;> rfl

/-- A capture, a restore and a digest of that plan. -/
def capTask (w : Word) : Desc := task 0x50 .started [w, sram, 0, 0, 0]
def restoreTask (w : Word) : Desc := task 0x51 .started [w, sram, 0, 0, 0]
def digestTask (w : Word) : Desc := task 0x52 .started [w, sram, sram, 0, 0]

theorem witness_capture : (∃ (s : State) (d : Desc), s.work 0 0 0x50 .started = some d ∧ bits (d.word 3) 63 33 ≠ 0) ∧
    (∃ (s : State) (d : Desc), s.work 0 0 0x50 .started = some d ∧ bits (d.word 3) 63 33 = 0 ∧ (d.words.drop 5).all (· = 0) = true ∧ s.fld Reg.SNAP_CFG Reg.SNAP_CFG_ENABLE = 0) ∧
    (∃ (s : State) (d : Desc), s.work 0 0 0x50 .started = some d ∧ bits (d.word 3) 63 33 = 0 ∧ (d.words.drop 5).all (· = 0) = true ∧ s.fld Reg.SNAP_CFG Reg.SNAP_CFG_ENABLE = 1 ∧ 1 ≤ s.stage) ∧
    (∃ (s u : State) (d : Desc) (p l : List Byte), s.work 0 0 0x50 .started = some d ∧ bits (d.word 3) 63 33 = 0 ∧ (d.words.drop 5).all (· = 0) = true ∧ s.fld Reg.SNAP_CFG Reg.SNAP_CFG_ENABLE = 1 ∧
      s.stage = 0 ∧ s.snapBusy 0 0 0x50 = false ∧ s.fld Reg.MEM_DIRTY_STATUS Reg.MEM_DIRTY_STATUS_BUSY = 0 ∧ PlanRead s u 0 (d.word 4) true p l) ∧
    (∃ (s : State) (d : Desc) (h : SnapHeader), h ∈ d.headers ∧ h.holds (s.ringCtx 0) (planDigest d.keep) = true ∧ d.gen ≤ h.gen) ∧
    ∃ (s : State) (e : Desc), s.desc 0 0 = some e ∧ e.phase = .working :=
  ⟨⟨tasked (capTask (2 ^ 33)), capTask (2 ^ 33), by decide, by decide⟩, ⟨tasked (capTask 1), capTask 1, by decide, by decide, by decide, by decide⟩,
   ⟨(planned (capTask 1)).setFld Reg.CLKPWR_SHED Reg.CLKPWR_SHED_STAGE 1, capTask 1, by decide, by decide, by decide, by decide, by decide⟩,
   ⟨planned (capTask 1), planned (capTask 1), capTask 1, plan1, keep1, by decide, by decide, by decide, by decide, by decide, by decide, by decide, planned_plan _ _⟩,
   ⟨State.reset, { (capTask 1) with parts := [(posHeader, (SnapHeader.mk 2 0 0 5 0 0 0 (planDigest []) 0 0 0 0).bytes)] }, SnapHeader.mk 2 0 0 5 0 0 0 (planDigest []) 0 0 0 0, by decide, by decide, by decide⟩,
   ⟨tasked (work0 0x50), work0 0x50, by decide, by decide⟩⟩
theorem witness_restore : (∃ (s : State) (d : Desc), s.work 0 0 0x51 .started = some d ∧ bits (d.word 3) 63 35 ≠ 0) ∧
    (∃ (s u : State) (d : Desc) (p l : List Byte), s.work 0 0 0x51 .started = some d ∧ bits (d.word 3) 63 35 = 0 ∧ bits (d.word 5) 63 12 = 0 ∧ d.word 6 = 0 ∧ d.word 7 = 0 ∧
      PlanRead s u 0 (d.word 4) true p l ∧ u.descs = s.descs ∧ d.source = 1 ∧ u.hamperFenced = true) ∧
    (∃ (s u : State) (d : Desc) (p l : List Byte), s.work 0 0 0x51 .started = some d ∧ bits (d.word 3) 63 35 = 0 ∧ bits (d.word 5) 63 12 = 0 ∧ d.word 6 = 0 ∧ d.word 7 = 0 ∧
      PlanRead s u 0 (d.word 4) true p l ∧ u.descs = s.descs ∧ d.source = 0 ∧ d.left = 0) ∧
    ∃ (s : State) (d : Desc), d.source ≠ 4 ∧ ((d.joined posTable (posTable + 2 ^ 32)).drop 0).take 8 ≠ leBytes 8 (crc64 (d.joined 0 posHeader)).toNat ∧
      (keepGranules d.keep).getD 0 0 = sram0 + granuleSize ∧ s.Permits (s.me (s.ringAuth 0)) .wr false (sram0 + granuleSize) granuleSize :=
  ⟨⟨tasked (restoreTask (2 ^ 35)), restoreTask (2 ^ 35), by decide, by decide⟩,
   ⟨planned (restoreTask (2 ^ 32)), planned (restoreTask (2 ^ 32)), restoreTask (2 ^ 32), plan1, keep1, by decide, by decide, by decide, by decide, by decide, planned_plan _ _, rfl, by decide, rfl⟩,
   ⟨planned (restoreTask 0), planned (restoreTask 0), restoreTask 0, plan1, keep1, by decide, by decide, by decide, by decide, by decide, planned_plan _ _, rfl, by decide, rfl⟩,
   planned (restoreTask 0), { (restoreTask 0) with parts := [(atList, keep1)] }, by decide, by decide, by decide, allows_ranger _ _ _ _ _ _ 0 (by decide) (by simp [State.me, (planned_whole _).auth])⟩
theorem unit_range (o n u : Nat) (h : u ∈ unitsOf o n) : o / 64 * 64 ≤ u ∧ u < o + n := by
  unfold unitsOf at h
  split at h
  · cases h
  · obtain ⟨i, hi, rfl⟩ := List.mem_map.1 h
    rw [List.mem_range] at hi
    omega
/-- Cluster 0's second granule is its cluster's. -/
theorem granule_units : ∀ u ∈ unitsOf (sram0 + granuleSize) granuleSize, placeOf u = .sram 0 := by
  intro u h
  have r := unit_range _ _ _ h
  have a : (sram0 + granuleSize) / 64 * 64 = 0xF00000200000 := by decide
  have b : sram0 + granuleSize + granuleSize = 0xF00000400000 := by decide
  rw [a, b] at r
  unfold placeOf lpddrTop sramBase
  rw [if_neg (by omega), if_neg (by omega), if_pos (by omega), if_pos (by omega)]
  congr 1
  omega
theorem witness_digest : (∃ (s : State) (os : List Nat), os = [sram0 + granuleSize] ∧ ∀ o ∈ os, s.Permits (s.me (s.ringAuth 0)) .rd false o granuleSize ∧ s.Clean (s.ringAuth 0) o granuleSize) ∧
    (∃ (s : State) (d : Desc), s.work 0 0 0x52 .started = some d ∧ d.word 3 ≠ 0) ∧
    ∃ (s : State) (d : Desc) (p l tab : List Byte) (o : Nat), s.work 0 0 0x52 .started = some d ∧ d.word 3 = 0 ∧ d.word 7 = 0 ∧ (d.word 5).toNat % 8 = 0 ∧ d.word 6 = 0 ∧
      PlanRead s s 0 (d.word 4) false p l ∧ s.digestGranules 0 (keepGranules (keepOf l)) = (.ok tab, s) ∧ Writable s 0 true (d.word 5).toNat 8 o := by
  have h : (planned (digestTask 0)).Permits ((planned (digestTask 0)).me ((planned (digestTask 0)).ringAuth 0)) .rd false (sram0 + granuleSize) granuleSize :=
    allows_ranger _ _ _ _ _ _ 0 (by decide) (by simp [State.me, (planned_whole _).auth])
  have c : (planned (digestTask 0)).Clean ((planned (digestTask 0)).ringAuth 0) (sram0 + granuleSize) granuleSize := by
    rw [(planned_whole _).auth]; exact (planned_whole _).clean _ _ granule_units
  refine ⟨⟨planned (digestTask 0), _, rfl, fun o ho => ?_⟩, ⟨tasked (digestTask 1), digestTask 1, by decide, by decide⟩, planned (digestTask 0), digestTask 0, plan1, keep1,
    leBytes 8 (crc64 ((planned (digestTask 0)).bytes (sram0 + granuleSize) granuleSize)).toNat, sram0, by decide, by decide,
    by decide, by decide, by decide, planned_plan _ _, ?_, (planned_whole _).dest _ _ _ _ (by decide) (by decide) (by decide)⟩
  · obtain rfl : o = sram0 + granuleSize := by simpa using ho
    exact ⟨h, c⟩
  · have k : keepGranules (keepOf keep1) = [sram0 + granuleSize] := by decide
    have r := State.readFor_clean true h c
    simp only [k, State.digestGranules, r, List.append_nil]

/-- SNAP_SHADOW and SNAP_SALVAGE_QUERY of device 1. -/
def shadowTask (role peer : Nat) : Desc := task 0x53 .started [BitVec.ofNat 64 (peer + role * 2 ^ 12), 0, 0, 0, 0]
def queryTask (c : Nat) : Desc := task 0x54 .started [BitVec.ofNat 64 c, sram, 0, 0, 0]

theorem witness_shadow : (∃ (s : State) (d : Desc), s.work 0 0 0x53 .started = some d ∧ (d.words.drop 4).all (· = 0) = true ∧ (bits (d.word 3) 63 14 ≠ 0 ∨ bits (d.word 3) 13 12 = 3)) ∧
    (∃ (s : State) (d : Desc), s.work 0 0 0x53 .started = some d ∧ (d.words.drop 4).all (· = 0) = true ∧ bits (d.word 3) 63 14 = 0 ∧ bits (d.word 3) 13 12 = 2) ∧
    (∀ role < 2, ∃ (s : State) (d : Desc), s.work 0 0 0x53 .started = some d ∧ (d.words.drop 4).all (· = 0) = true ∧ bits (d.word 3) 63 14 = 0 ∧ bits (d.word 3) 13 12 = role ∧
      (BitVec.ofNat 12 (bits (d.word 3) 11 0) : Coord) = 1 ∧ blockOf (1 : Coord) = blockOf s.self ∧ (1 : Coord) ≠ s.self ∧ s.present 1 = true) ∧
    (∃ (s : State) (d : Desc), s.work 0 0 0x54 .started = some d ∧ (d.words.drop 5).all (· = 0) = true ∧ bits (d.word 3) 63 12 ≠ 0) ∧
    ∀ c < 3, c ≠ 0 → ∃ (s : State) (d : Desc), s.work 0 0 0x54 .started = some d ∧ (d.words.drop 5).all (· = 0) = true ∧ bits (d.word 3) 63 12 = 0 ∧
      s.locate true (d.word 4).toNat 8192 = .here sram0 ∧ s.present (BitVec.ofNat 12 (bits (d.word 3) 11 0)) = decide (c = 1) :=
  ⟨⟨tasked (shadowTask 3 0), shadowTask 3 0, by decide, by decide, by decide⟩, ⟨tasked (shadowTask 2 0), shadowTask 2 0, by decide, by decide, by decide, by decide⟩,
   fun role h => by
    match role, h with
    | 0, _ => exact ⟨meshed (tasked (shadowTask 0 1)), shadowTask 0 1, by decide, by decide, by decide, by decide, by decide, by decide, by decide, by decide⟩
    | 1, _ => exact ⟨meshed (tasked (shadowTask 1 1)), shadowTask 1 1, by decide, by decide, by decide, by decide, by decide, by decide, by decide, by decide⟩,
   ⟨tasked (queryTask 4096), queryTask 4096, by decide, by decide, by decide⟩,
   fun c h n => by
    match c, h, n with
    | 1, _, _ => exact ⟨meshed (tasked (queryTask 1)), queryTask 1, by decide, by decide, by decide, by decide, by decide⟩
    | 2, _, _ => exact ⟨meshed (tasked (queryTask 4095)), queryTask 4095, by decide, by decide, by decide, by decide, by decide⟩⟩

/-- R363, R373: a reserved bit of a capture gives FORMAT, ENABLE 0 FENCED; role 2 ends mirroring. -/
theorem test_capture : ((nx (exec (.snapCapture 0 0) (tasked (capTask (2 ^ 33))))).descs.map (·.status)) = [.format] ∧
    ((nx (exec (.snapCapture 0 0) (tasked (capTask 1)))).descs.map (·.status)) = [.fenced] := by decide

/-- Context 3 with layer-1 image 0 of generation 4, and image 2 of layer 2 of generation `g` where `g` is not 0. -/
def header4 (g : Nat) : List Byte := (SnapHeader.mk 2 3 0 g 0 0 1 0 0 0 0 0).bytes
def images (g : Nat) : SnapCtx := { SnapCtx.reset with plan := plan1, hdrs := (0, header4 4) :: (if g = 0 then [] else [(2, header4 g)]) }
def imaged (c : SnapCtx) : State := { State.reset.setFld Reg.SNAP_CFG Reg.SNAP_CFG_ENABLE 1 with snap := { Snap.reset with ctxs := [(3, c)] } }
/-- A plan with target 1 of the shared store. -/
def plan3 : List Byte := plan1.take 32 ++ [1] ++ plan1.drop 33

theorem witness_cascades : (∃ (s : State) (v : Word), s.mayUse .mgmt = true ∧ s.fld Reg.SNAP_CFG Reg.SNAP_CFG_ENABLE = 0 ∧
      (s.writeWord .SNAP_CFG [] Reg.SNAP_CFG v (-1)).fld Reg.SNAP_CFG Reg.SNAP_CFG_ENABLE = 1 ∧ s.fld Reg.MEM_DIRTY_CTRL Reg.MEM_DIRTY_CTRL_ENABLE = 0) ∧
    (∃ s : State, s.mayUse .mgmt = true ∧ s.fld Reg.SNAP_CFG Reg.SNAP_CFG_ENABLE = 1) ∧
    (∃ (s : State) (src dst : Nat), s.fld Reg.SNAP_CFG Reg.SNAP_CFG_ENABLE = 1 ∧ s.hamperFenced = false ∧ s.hamperHeld = false ∧ (s.snapCtx 3).layer2 = none ∧
      (s.snapCtx 3).cascade 0 2 = some (src, dst) ∧ (s.snapCtx 3).layer3.map (·.src) ≠ some dst) ∧
    (∃ s : State, s.fld Reg.SNAP_CFG Reg.SNAP_CFG_ENABLE = 1 ∧ s.hamperFenced = false ∧ s.hamperHeld = false ∧ (s.snapCtx 3).cascade 0 2 = none ∧ (s.snapCtx 3).cascade 2 4 ≠ none) ∧
    (∃ (s : State) (src dst : Nat), s.fld Reg.SNAP_CFG Reg.SNAP_CFG_ENABLE = 1 ∧ s.hamperFenced = false ∧ s.hamperHeld = false ∧ (s.snapCtx 3).layer3 = none ∧ (s.snapCtx 3).plan ≠ [] ∧
      planTarget (s.snapCtx 3).plan ≠ 0xFF ∧ (s.snapCtx 3).cascade 2 4 = some (src, dst) ∧
      ∃ t0, (s.snapCtx 3).third = some t0 ∧ s.fld Reg.SNAP_CFG Reg.SNAP_CFG_SHARED_PERIOD_S * 1000000000 ≤ (s.devTime - t0).toNat) ∧
    (∃ (s : State) (t0 : Word), s.fld Reg.SNAP_CFG Reg.SNAP_CFG_ENABLE = 1 ∧ s.hamperFenced = false ∧ s.hamperHeld = false ∧ (s.snapCtx 3).third = some t0 ∧
      (s.devTime - t0).toNat < s.fld Reg.SNAP_CFG Reg.SNAP_CFG_SHARED_PERIOD_S * 1000000000) ∧
    ∃ s : State, s.fld Reg.SNAP_CFG Reg.SNAP_CFG_ENABLE = 1 ∧ s.hamperFenced = false ∧ s.hamperHeld = false ∧ (s.snapCtx 3).cascade 2 4 = none :=
  ⟨⟨State.reset, 2 ^ 63, by decide, by decide, by decide, by decide⟩, ⟨imaged (images 0), by decide, by decide⟩,
   ⟨imaged (images 0), 0, 2, by decide, by decide, by decide, by decide, by decide, by decide⟩, ⟨imaged (images 4), by decide, by decide, by decide, by decide, by decide⟩,
   ⟨imaged { images 4 with plan := plan3, third := some 5 }, 2, 4, by decide, by decide, by decide, by decide, by decide, by decide, by decide, 5, by decide, by decide⟩,
   ⟨imaged { images 4 with third := some 0 }, 0, by decide, by decide, by decide, by decide, by decide⟩, imaged (images 0), by decide, by decide, by decide, by decide⟩
/-- Cascades of the context that are done or have failed. -/
def cascade0 (left : Nat) : Cascade := { src := 0, dst := 2, fail := none, header := header4 4, todo := [], left := left }

theorem witness_cascade_ends : (∃ (s : State) (k : Cascade), s.hamperHeld = false ∧ (s.snapCtx 3).layer2 = some k ∧ (k.dst = 2 ∨ k.dst = 3) ∧ k.left = 0 ∧ k.fail = none ∧ k.header.length = 64) ∧
    (∃ (s : State) (t0 : Word), (s.snapCtx 3).last = some t0 ∧ s.interval 3 * 1000000000 ≤ (s.devTime - t0).toNat ∧ s.fld (Reg.POLICY_SNAP_STATE 3) Reg.POLICY_SNAP_STATE_DUE = 0) ∧
    (∃ (s : State) (t0 : Word), (s.snapCtx 3).last = some t0 ∧ (s.devTime - t0).toNat < s.interval 3 * 1000000000) ∧
    (∃ s : State, (s.snapCtx 3).last ≠ none ∧ s.fld (Reg.POLICY_SNAP_STATE 3) Reg.POLICY_SNAP_STATE_DUE = 1) ∧
    (∃ c : SnapCtx, c.cascade 0 2 = some (0, 2)) ∧ (∃ s : State, s.coresOf 0 ≠ []) ∧ ∃ s : State, s.coresOf 3 = [] :=
  ⟨⟨imaged { images 0 with layer2 := some (cascade0 0) }, cascade0 0, by decide, by decide, by decide, by decide, by decide, by decide⟩,
   ⟨imaged { images 0 with last := some 5 }, 5, by decide, by decide, by decide⟩, ⟨imaged { images 0 with last := some 0 }, 0, by decide, by decide⟩, ⟨(imaged { images 0 with last := some 5 }).setFld (Reg.POLICY_SNAP_STATE 3) Reg.POLICY_SNAP_STATE_DUE 1, by decide, by decide⟩,
   ⟨images 0, by decide⟩, ⟨State.reset.mapCore 0 fun c => { c with run := .running, launch := some ⟨0, 0, 0⟩ }, by decide⟩, ⟨State.reset, by decide⟩⟩

/-- A device that has faulted and dumped. -/
def salvaging (salvage : Bool) : State :=
  { ((State.reset.setFld Reg.ERR_STATUS Reg.ERR_STATUS_FAULTED 1).setFld Reg.SNAP_CFG Reg.SNAP_CFG_SALVAGE_EN 1) with snap := { Snap.reset with salvage := salvage } }
/-- SALVAGE of context 3's headers from `agent`. -/
def salvagePk (agent : Nat) : Packet := pk 4 0x35 agent 128 5 0 0 (leBytes 1 3 ++ List.replicate 15 0)

theorem witness_salvage : (∃ s : State, s.fld Reg.ERR_STATUS Reg.ERR_STATUS_FAULTED = 1 ∧ s.failsafe = false ∧ s.fld Reg.ERR_DUMP_STATE Reg.ERR_DUMP_STATE_BUSY = 0 ∧ s.dumpQ = [] ∧
      s.fld Reg.SNAP_CFG Reg.SNAP_CFG_SALVAGE_EN = 1 ∧ s.hamperFenced = false ∧ s.snap.salvage = false ∧ Lightable { s with opt := { s.opt with shut := false } } 3) ∧
    (∃ s : State, s.fld Reg.ERR_STATUS Reg.ERR_STATUS_FAULTED = 0 ∨ s.fld Reg.SNAP_CFG Reg.SNAP_CFG_SALVAGE_EN = 0) ∧
    (∃ (s u : State) (p : Packet), Arrived s u p 4 0x35 ∧ u.turnOf p = .now ∧ p.payload.length = 16 ∧ p.addr = 0 ∧ leAt p.payload 0 1 ≤ 63 ∧ leAt p.payload 1 1 ≤ 1 ∧ leAt p.payload 2 2 = 0 ∧
      leAt p.payload 4 4 ≤ 8192 ∧ u.snap.salvage = false) ∧
    (∃ (s u : State) (p : Packet), Arrived s u p 4 0x35 ∧ u.turnOf p = .now ∧ p.payload.length = 16 ∧ p.addr = 0 ∧ leAt p.payload 0 1 ≤ 63 ∧ leAt p.payload 1 1 ≤ 1 ∧ leAt p.payload 2 2 = 0 ∧
      leAt p.payload 4 4 ≤ 8192 ∧ u.snap.salvage = true ∧ (p.agent ≠ agentRanger ∨ blockOf p.src ≠ blockOf u.self)) ∧
    ∃ (s u : State) (p : Packet), Arrived s u p 4 0x35 ∧ u.turnOf p = .now ∧ p.payload.length = 16 ∧ p.addr = 0 ∧ leAt p.payload 0 1 ≤ 63 ∧ leAt p.payload 1 1 ≤ 1 ∧ leAt p.payload 2 2 = 0 ∧
      leAt p.payload 4 4 ≤ 8192 ∧ u.snap.salvage = true ∧ p.agent = agentRanger ∧ blockOf p.src = blockOf u.self ∧ u.hamperFenced = false :=
  ⟨⟨((salvaging false).setFld (Reg.OPTIC_LSM_STATE 3) Reg.OPTIC_LSM_STATE_PRESENT 1).setFld (Reg.OPTIC_ENG_STATE 3) Reg.OPTIC_ENG_STATE_STATE 1 |>.setFld (Reg.OPTIC_LSM_CTRL 3) Reg.OPTIC_LSM_CTRL_ENABLE 1,
    by decide, rfl, by decide, rfl, by decide, rfl, rfl, ⟨by decide, by decide, by decide, by decide, by decide⟩⟩, ⟨State.reset, by decide⟩,
   ⟨arr (salvaging false) (salvagePk 148), salvaging false, salvagePk 148, arr_arrived _ _ _ _ rfl (by decide) (by decide), by decide, by decide, by decide, by decide, by decide, by decide, by decide, rfl⟩,
   ⟨arr (salvaging true) (salvagePk 147), salvaging true, salvagePk 147, arr_arrived _ _ _ _ rfl (by decide) (by decide), by decide, by decide, by decide, by decide, by decide, by decide, by decide, rfl, by decide⟩,
   arr (salvaging true) (salvagePk 148), salvaging true, salvagePk 148, arr_arrived _ _ _ _ rfl (by decide) (by decide), by decide, by decide, by decide, by decide, by decide, by decide, by decide, rfl, by decide, by decide, rfl⟩

/-- R361: a cascade from image 0 begins with STATE 1 in image 2's header; one that fails ends. -/
theorem test_cascade : (nx (exec (.layer2Cascade 3) (imaged (images 0)))).imageRead plan1 2 4 1 = [1] ∧
    ((nx (exec (.cascadeDone 3 2 false) (imaged { images 0 with layer2 := some (cascade0 0) }))).snapCtx 3).layer2.isNone = true := by decide

/-! ### Boot, updates, presence -/

/-- A device in the boot steps `r`, with the steps `e` behind it. -/
def booting (r e : List Nat) (bulk : Bool) : State := { State.reset with boot := { Boot.reset with started := true, bulk := bulk, running := r, ended := e } }
/-- An image of 256 bytes: SVN 0, key slot 0, VERSION 7. -/
def image0 : List Byte := leBytes 4 0x52464D57 ++ leBytes 4 7 ++ List.replicate 248 0
/-- A key in slot 0. -/
def key0 : List Byte := List.replicate 48 1
def keyed (s : State) : State := { s with fuses := { s.fuses with keys := [(0, key0)] } }
/-- A manifest of die `d` that offers nothing and needs `need`. -/
def manifest (d need : Nat) : List Byte :=
  let b := leBytes 4 0x4D414E49 ++ [1, 0] ++ leBytes 1 (if d < 4 then 1 else 2) ++ leBytes 1 (if d < 4 then d else d - 4) ++ leBytes 4 0 ++ leBytes 2 1 ++ leBytes 2 2 ++ leBytes 4 5 ++
    leBytes 4 need ++ List.replicate 224 0
  b ++ leBytes 8 (crc64 b).toNat

theorem witness_starts : (∃ s : State, s.boot.started = true) ∧ (∃ (s : State) (n : Nat), s.boot.started = false ∧ (∀ r ∈ s.trail, recStart r.bytes < n) ∧ (n = 1 ∨ ∃ r ∈ s.trail, recStart r.bytes + 1 = n) ∧ n < 2 ^ 32) ∧
    (∃ s : State, s.boot.bulk = true) ∧ (∃ s : State, s.boot.bulk = false ∧ 4 ∈ s.boot.ended ∧ 5 ∉ s.boot.ended ∧ s.boot.rom = false ∧ s.boot.running = [] ∧ s.failsafe = false) ∧
    (∃ s : State, s.boot.bulk = false ∧ 4 ∉ s.boot.ended) ∧ (∃ (s : State) (r : BootReport), s.failsafe = true ∨ s.boot.rom = true ∨ r.step.val ∉ s.boot.running) ∧
    (∃ s : State, AtStep s 1 ∧ s.fld Reg.ERR_STATUS Reg.ERR_STATUS_PAIRS = 15) ∧ (∃ s : State, AtStep s 4) ∧ (∃ s : State, AtStep s 8 ∧ s.altUnits 8 = []) ∧ (∃ s : State, AtStep s 15) ∧
    ∃ s : State, AtStep s 12 ∧ ∀ j ∈ [9, 10, 11, 13], j ∈ s.boot.ended :=
  ⟨⟨booting [] [] false, rfl⟩, ⟨State.reset, 1, rfl, by decide, by decide, by decide⟩, ⟨booting [] [] true, rfl⟩, ⟨booting [] [1, 2, 3, 4] false, rfl, by decide, by decide, rfl, rfl, rfl⟩,
   ⟨State.reset, rfl, by decide⟩, ⟨State.reset, ⟨1, true, [], []⟩, by decide⟩, ⟨booting [1] [] false, ⟨rfl, rfl, by decide⟩, by decide⟩, ⟨booting [4] [1, 2, 3] false, rfl, rfl, by decide⟩,
   ⟨booting [8] [] true, ⟨rfl, rfl, by decide⟩, by decide⟩, ⟨booting [15] [] true, rfl, rfl, by decide⟩, booting [12] [9, 10, 11, 13] true, ⟨rfl, rfl, by decide⟩, by decide⟩
theorem witness_adjacency : (∃ (s : State) (x y : List Byte), s.boot.bulk = true ∧ (∀ e ∈ s.boot.adj, e.1 ≠ (5 : Fin 8).val) ∧ manifestOk x (adjDies (5 : Fin 8)).1 = true ∧
      manifestOk y (adjDies (5 : Fin 8)).2 = true ∧ manifestsAgree x y = true) ∧
    (∃ (s : State) (x y : List Byte), s.boot.bulk = true ∧ (∀ e ∈ s.boot.adj, e.1 ≠ (5 : Fin 8).val) ∧ manifestsAgree x y = false) ∧
    (∃ vb vs : Nat, (if 40000 ≤ vb then 1 else if 11400 ≤ vs ∧ vs ≤ 12600 then 2 else if 36000 ≤ vb then 1 else 0) ≠ (0 : Nat)) ∧
    ∃ (s : State) (vb vs : Nat), (if 40000 ≤ vb then 1 else if 11400 ≤ vs ∧ vs ≤ 12600 then 2 else if 36000 ≤ vb then 1 else 0) = (0 : Nat) ∧ s.boot.source ≠ 0 :=
  ⟨⟨booting [] [] true, manifest 2 4, manifest 3 1, rfl, by decide, by decide +kernel, by decide +kernel, by decide⟩, ⟨booting [] [] true, manifest 2 2, manifest 3 0, rfl, by decide, by decide⟩,
   ⟨36000, 12601, by decide⟩, { State.reset with boot := { Boot.reset with source := 1 } }, 35999, 12601, by decide, by decide⟩

/-- R413, R432: standby release begins step 1, and step 12 alone does not begin step 14. -/
theorem test_boot : (nx (exec .standbyRelease State.reset)).boot.running = [1] ∧ (nx (exec (.bootStepDone ⟨12, true, [], []⟩) (booting [12] [9, 10] true))).boot.running = [] := by decide

/-- Ring 0's SRAM as the source of an update. -/
def updating (s : State) : State := s.setReg Reg.BOOT_UPD_SRC sram
/-- The bytes of a calibration set of 8 zero bytes and their check value. -/
def calibration : List Byte := List.replicate 8 0 ++ leBytes 8 (crc64 (List.replicate 8 0)).toNat
/-- Slot 1 valid with an image and its key. -/
def valid1 : State := keyed { (State.reset.setFld (Reg.BOOT_IMG 1) Reg.BOOT_IMG_STATE 1).setFld Reg.BOOT_STATE Reg.BOOT_STATE_IMAGE 0 with nor := (List.range 256).map fun i => (slotBase 1 + i, image0.getD i 0) }

/-- Where the free check of signatures accepts an image, it passes. -/
theorem witness_image (h : Config.verify key0 image0 = true) : (keyed State.reset).imageCheck image0 = .ok := by
  have e : (keyed State.reset).fuses.keys = [(0, key0)] := rfl
  have f : image0.length = 256 := by decide
  have k : imgKeySlot image0 = 0 := by decide
  have v : imgSvn image0 = 0 := by decide
  have a : leAt image0 0 4 = 0x52464D57 := by decide
  have c : leAt image0 0x10 4 = 0 := by decide
  have r : (keyed State.reset).fuses.revoked = [] := rfl
  have l : (keyed State.reset).fuses.floor = 0 := rfl
  have z : imgReservedOk image0 = true := by decide
  simp only [State.imageCheck, e, f, k, v, a, c, r, l, z]
  simp [h]
theorem witness_updates : (∃ s : State, s.mayUse .mgmt = true ∧ s.updPhase = 0) ∧
    (∃ (s : State) (len : BitVec 32) (o : Nat), s.mayUse .mgmt = true ∧ s.updPhase = 0 ∧ len ≠ 0 ∧ s.locate false (s.reg Reg.BOOT_UPD_SRC).toNat len.toNat = .here o ∧
      s.Permits (s.me .ranger) .rd false o len.toNat ∧ s.Clean .ranger o len.toNat ∧ (s.updateCheck 2 (s.bytes o len.toNat)).1 = .ok) ∧
    (∃ (s : State) (len : BitVec 32) (o : Nat), s.mayUse .mgmt = true ∧ s.updPhase = 0 ∧ len ≠ 0 ∧ s.locate false (s.reg Reg.BOOT_UPD_SRC).toNat len.toNat = .here o ∧
      s.Permits (s.me .ranger) .rd false o len.toNat ∧ s.Clean .ranger o len.toNat ∧ ∀ k < 3, (s.updateCheck k (s.bytes o len.toNat)).1 ≠ .ok) ∧
    (∃ (s : State) (b : List Byte), s.imageCheck b ≠ .ok) ∧
    (∃ s : State, s.mayUse .mgmt = true ∧ s.updPhase = 0 ∧ s.fld (Reg.BOOT_IMG s.idleSlot) Reg.BOOT_IMG_STATE ≠ 1) ∧
    (∃ s : State, s.updPhase ≠ 4) ∧ (∃ s : State, s.updPhase = 4) ∧ (∃ (s : State) (u : Update), s.boot.upd = some u ∧ u.target ≤ 1 ∧ u.data.length ≤ u.room) ∧
    (∃ (s : State) (b : List Byte), s.updPhase = 0 ∧ s.boot.checked = some (b.length, sha384 b)) ∧ ∃ s : State, s.updPhase = 0 ∧ s.boot.checked = none := by
  have u0 : ∀ u ∈ unitsOf sram0 16, placeOf u = .sram 0 := by decide
  have w (m : List Host.Cell) : Whole { updating ring0 with mem := m } := ⟨(by decide : (updating ring0).ringAuth 0 = .ranger), rfl, rfl, rfl, rfl⟩
  refine ⟨⟨State.reset, rfl, by decide⟩,
   ⟨{ updating ring0 with mem := putBytes [] sram0 calibration }, 16, sram0, rfl, by decide, by decide, by decide, allows_ranger _ _ _ _ _ _ 0 (by decide) rfl, (w _).clean _ _ u0, by decide⟩,
   ⟨{ updating ring0 with mem := putBytes [] sram0 [1] }, 16, sram0, rfl, by decide, by decide, by decide, allows_ranger _ _ _ _ _ _ 0 (by decide) rfl, (w _).clean _ _ u0, by decide⟩,
   ⟨State.reset, [], by decide⟩, ⟨State.reset, rfl, by decide, by decide⟩, ⟨State.reset, by decide⟩, ⟨State.reset.setUpdPhase 4, by decide⟩,
   ⟨{ State.reset with boot := { Boot.reset with upd := some ⟨0, 1, 7, image0, false⟩ } }, _, rfl, by decide, by decide⟩,
   ⟨{ State.reset with boot := { Boot.reset with checked := some (image0.length, sha384 image0) } }, image0, by decide, rfl⟩, State.reset, by decide, rfl⟩
theorem get_offset {α : Type} (d : α) (b : Nat) (g : Nat → α) (l : List Nat) (j : Nat) (h : j ∈ l) : Maps.get d (l.map fun i => (b + i, g i)) (b + j) = g j := by
  induction l with
  | nil => cases h
  | cons a l ih =>
    by_cases e : a = j
    · subst e; simp [Maps.get]
    · have := ih (by simpa [Ne.symm e] using h)
      have n : ¬b + a = b + j := by omega
      simpa [Maps.get, e, n] using this
theorem valid1_nor (n k : Nat) (hk : k + n ≤ 256) : valid1.norBytes (slotBase 1 + k) n = (List.range n).map fun i => image0.getD (k + i) 0 := by
  apply List.map_congr_left
  intro i hi
  rw [List.mem_range] at hi
  rw [Nat.add_assoc]
  exact get_offset 0xFF (slotBase 1) (fun i => image0.getD i 0) (List.range 256) (k + i) (List.mem_range.2 (by omega))
/-- Where the free check of signatures accepts its image, slot 1 can be switched to. -/
theorem witness_switch (h : Config.verify key0 image0 = true) : ∃ s : State, s.mayUse .mgmt = true ∧ s.updPhase = 0 ∧ s.fld (Reg.BOOT_IMG s.idleSlot) Reg.BOOT_IMG_STATE = 1 ∧
    s.fld Reg.ERR_STATUS Reg.ERR_STATUS_PAIRS = 15 ∧ s.fld Reg.ERR_RESET_STATE Reg.ERR_RESET_STATE_PHASE = 0 ∧ s.stage < 3 ∧ s.imageCheck (s.imageBytes s.idleSlot) = .ok := by
  refine ⟨valid1, rfl, by decide, by decide, by decide, by decide, by decide, ?_⟩
  have i : valid1.idleSlot = 1 := by decide
  have l : valid1.imageLen 1 = 256 := by
    rw [State.imageLen, valid1_nor 4 0x10 (by decide)]
    decide
  have e : valid1.imageBytes valid1.idleSlot = image0 := by
    have z := valid1_nor 256 0 (by decide)
    simp only [Nat.add_zero, Nat.zero_add] at z
    rw [i, State.imageBytes, l, Nat.min_eq_right (by decide), z]
    decide
  rw [e]
  exact witness_image h

/-- R423, R424: LENGTH 0 gives FORMAT; without a valid slot a switch is refused with FENCED; the data of an update that is written read back. -/
theorem test_updates : (nx (exec (.updateConfig .mgmt 0) State.reset)).fld Reg.BOOT_UPD_STATE Reg.BOOT_UPD_STATE_STATUS = Status.format.code ∧
    (nx (exec (.switch .mgmt) State.reset)).fld Reg.BOOT_UPD_STATE Reg.BOOT_UPD_STATE_STATUS = Status.fenced.code := by decide

/-- A presence argument block that begins with these bytes. -/
def argBlock (l : List Byte) : List Byte := l ++ List.replicate (256 - l.length) 0
/-- A presence window in this state, for the management port. -/
def windowed (win : Nat) (pending : Nat) : State :=
  ((State.reset.setFld Reg.PRES_STATE Reg.PRES_STATE_WINDOW win).setFld Reg.PRES_STATE Reg.PRES_STATE_OWNER_KIND 1).setFld Reg.PRES_STATE Reg.PRES_STATE_PENDING pending
def sealed : State := State.reset.setFld Reg.PRES_STATE Reg.PRES_STATE_SEAL_OPEN 1

theorem windowed_present (s : State) (h : (windowed 2 0).setup = s.setup := by rfl) : Present s .mgmt := by
  have w : (windowed 2 0).fld Reg.PRES_STATE Reg.PRES_STATE_WINDOW = 2 := by decide
  have k : (windowed 2 0).fld Reg.PRES_STATE Reg.PRES_STATE_OWNER_KIND = 1 := by decide
  have o : (windowed 2 0).fld Reg.PRES_STATE Reg.PRES_STATE_OWNER = 0 := by decide
  have c : (windowed 2 0).fld Reg.PRES_STATE Reg.PRES_STATE_SEAL_OPEN = 0 := by decide
  simp only [State.fld, State.reg, h] at w k o c
  exact ⟨rfl, w, k, o, c⟩
theorem args_ok : ∀ e ∈ [(1, [3]), (2, [1]), (3, []), (4, [9]), (5, [7]), (6, []), (7, [])], argOk e.1 (argBlock e.2) = true := by decide

theorem witness_presence_limits : (∃ (s : State) (a : List Byte), s.mayUse .mgmt = true ∧ ∀ c < 8, argOk c a = false) ∧
    (∃ s : State, s.mayUse .mgmt = true ∧ s.fld Reg.PRES_STATE Reg.PRES_STATE_SEAL_OPEN = 1) ∧
    (∃ s : State, s.mayUse .mgmt = true ∧ s.fld Reg.PRES_STATE Reg.PRES_STATE_SEAL_OPEN = 0 ∧ s.fld Reg.PRES_STATE Reg.PRES_STATE_WINDOW = 0) ∧
    (∃ s : State, s.mayUse .ranger = true ∧ s.fld Reg.PRES_STATE Reg.PRES_STATE_SEAL_OPEN = 0 ∧ s.fld Reg.PRES_STATE Reg.PRES_STATE_WINDOW ≠ 0 ∧
      s.fld Reg.PRES_STATE Reg.PRES_STATE_OWNER_KIND ≠ (s.sourceKind .ranger).1) ∧ ∀ c < 8, c = 3 ∨ c = 4 ∨ byJumper c = false :=
  ⟨⟨State.reset, [], rfl, by decide⟩, ⟨sealed, rfl, by decide⟩, ⟨State.reset, rfl, by decide, by decide⟩, ⟨windowed 1 5, rfl, by decide, by decide, by decide⟩, by decide⟩
theorem witness_presence_effects :
    (∃ (s : State) (a : List Byte), Present s .mgmt ∧ argOk 1 a = true ∧ ∀ k ∈ s.fuses.keys, k.1 ≠ leAt a 0 1) ∧
    (∃ (s : State) (a : List Byte), Present s .mgmt ∧ argOk 1 a = true ∧ ∃ k ∈ s.fuses.keys, k.1 = leAt a 0 1) ∧
    (∃ (s : State) (a : List Byte), Present s .mgmt ∧ argOk 2 a = true ∧ leAt (s.norBytes (slotBase s.runSlot) 256) 10 1 ≠ leAt a 0 1) ∧
    (∃ (s : State) (a : List Byte), Present s .mgmt ∧ argOk 2 a = true ∧ leAt (s.norBytes (slotBase s.runSlot) 256) 10 1 = leAt a 0 1) ∧
    (∃ (s : State) (a b : List Byte), Present s .mgmt ∧ argOk 5 a = true ∧ argOk 7 b = true ∧ argOk 6 b = true ∧ s.boot.loopOpen = false) ∧
    ∃ (s : State) (a b : List Byte), s.mayUse .mgmt = true ∧ s.fld Reg.PRES_STATE Reg.PRES_STATE_SEAL_OPEN = 0 ∧ argOk 3 a = true ∧ argOk 4 b = true :=
  ⟨⟨windowed 2 0, argBlock [3], windowed_present _, by decide, by decide⟩, ⟨keyed (windowed 2 0), argBlock [0], windowed_present _, by decide, by decide⟩,
   ⟨windowed 2 0, argBlock [1], windowed_present _, by decide, by decide⟩,
   ⟨{ windowed 2 0 with nor := [(slotBase 0 + 10, 1), (slotBase 1 + 10, 1)] }, argBlock [1], windowed_present _, by decide, by decide⟩,
   ⟨windowed 2 0, argBlock [7], argBlock [], windowed_present _, by decide, by decide, by decide, rfl⟩, State.reset, argBlock [], argBlock [9], rfl, by decide, by decide, by decide⟩
theorem witness_windows : (∃ s : State, s.fld Reg.PRES_STATE Reg.PRES_STATE_WINDOW ≠ 1) ∧
    (∃ s : State, s.fld Reg.PRES_STATE Reg.PRES_STATE_WINDOW = 1 ∧ s.fld Reg.PRES_STATE Reg.PRES_STATE_PENDING = 5) ∧
    (∃ s : State, s.fld Reg.PRES_STATE Reg.PRES_STATE_SEAL_OPEN = 0 ∧ s.fld Reg.PRES_STATE Reg.PRES_STATE_WINDOW = 0) ∧
    (∃ (s : State) (i : BitVec 32) (r : TrailRec), s.trail[i.toNat]? = some r) ∧ (∃ (s : State) (i : BitVec 32), s.trail.length ≤ i.toNat) ∧
    (∃ s : State, s.boot.rom = true) ∧ (∃ (s : State) (code : Byte) (a : List Byte), s.boot.rom = false ∧ argOk code.toNat a = false) ∧
    ∃ (s : State) (code : Byte) (a : List Byte), s.boot.rom = false ∧ argOk code.toNat a = true ∧ s.fld Reg.PRES_STATE Reg.PRES_STATE_SEAL_OPEN = 0 ∧
      s.fld Reg.PRES_STATE Reg.PRES_STATE_WINDOW = 0 :=
  ⟨⟨State.reset, by decide⟩, ⟨windowed 1 5, by decide, by decide⟩, ⟨State.reset, by decide, by decide⟩, ⟨{ State.reset with trail := [⟨0, [1]⟩] }, 0, _, rfl⟩, ⟨State.reset, 0, by decide⟩,
   ⟨{ State.reset with boot := { Boot.reset with rom := true } }, rfl⟩, ⟨State.reset, 9, argBlock [], rfl, by decide⟩, State.reset, 7, argBlock [], rfl, by decide, by decide, by decide⟩

/-- R426: without a window KEY_REVOKE waits for a press; R427: an open loop sets SEAL_OPEN. -/
theorem test_presence : (nx (exec (.keyRevoke .mgmt false (argBlock [1])) State.reset)).fld Reg.PRES_STATE Reg.PRES_STATE_PENDING = 2 ∧
    (nx (exec (.sealSample true) State.reset)).fld Reg.PRES_STATE Reg.PRES_STATE_SEAL_OPEN = 1 := by decide

/-! ### The whole device -/

theorem sound_one (l : List Instr) : ({ State.reset with pending := l } : State).Sound := ⟨rfl, rfl, by simp [State.reset]⟩
theorem witness_steps : (∃ s : State, s.pending = []) ∧ (∃ s : State, s.Sound) ∧ (∃ s t : State, s.Sound ∧ step s = .next t) :=
  ⟨⟨State.reset, rfl⟩, ⟨_, sound_one []⟩, { State.reset with pending := [.droopDip 0] }, _, sound_one _, rfl⟩
theorem witness_registers : (∃ (off : Nat) (r : RegName) (is : List Nat), regAt off = some (r, is) ∧ r ≠ .IDENT_SERIAL ∧ r ∉ subjectRegs) ∧
    (∃ off, regAt off = none ∧ off % 8 = 0) ∧ (∃ (s : State) (off : Nat), off % 8 = 0 ∧ s.mayUse .mgmt = true) ∧
    (∃ size off : Nat, ¬(size = 8 ∧ off % 8 = 0) ∧ ¬(size = 4 ∧ off % 4 = 0)) ∧ ∃ s : State, s.locked = false :=
  ⟨⟨Reg.THERM_CFG, .THERM_CFG, [], by decide, by decide, by decide⟩, ⟨0xFFFFF8, by decide, by decide⟩, ⟨State.reset, 8, by decide, rfl⟩, ⟨8, 4, by decide⟩, State.reset, by decide⟩

/-- R1, R443: the revision reads 0x00A1; a write of 4 bytes at an odd offset changes nothing but the events. -/
theorem test_window : (State.reset.setupRead 8 0x10).1 = 0x00A1 ∧ (nx (exec (.setupWrite .mgmt 4 0x12 0xFFFFFFFF) State.reset)).setupWord 0x10 = 0x00A1 := by decide
end Sys2Proof.Tests
end

section
/-! SUPPORT. The setup window's access rules (R7, R8, R443): where registers stand, and what a write does to one field, one word and
the window. -/
namespace Sys2Proof.Machine

open Sys2Proof Sys2Proof.Claims

/-! ### Where registers stand -/

/-- What divides every stride of an indexed register divides the distance from its base to each of its places. -/
theorem dvd_of_indexIn {n : Nat} (ds : List (Nat × Nat)) : ∀ {rem : Nat} {is : List Nat}, (∀ d ∈ ds, n ∣ d.1) →
    indexIn rem ds = some is → n ∣ rem := by
  induction ds with
  | nil =>
    intro rem is _ h
    cases rem with
    | zero => exact dvd_zero n
    | succ k => simp [indexIn] at h
  | cons d ds ih =>
    intro rem is hd h
    rw [indexIn] at h
    split at h
    · obtain ⟨js, hj, -⟩ := Option.map_eq_some_iff.mp h
      have hrest : n ∣ rem % d.1 := ih (fun e he => hd e (List.mem_cons_of_mem _ he)) hj
      exact (Nat.dvd_mod_iff (hd d List.mem_cons_self)).mp hrest
    · cases h

theorem RegName.base_aligned (r : RegName) : 8 ∣ r.base := by cases r <;> decide

theorem RegName.dims_aligned (r : RegName) : ∀ d ∈ r.dims, 8 ∣ d.1 := by cases r <;> decide

/-- A register found at an offset stands at the position that its base and its strides give. -/
theorem indexIn_of_regAt {off : Nat} {r : RegName} {is : List Nat} (h : regAt off = some (r, is)) :
    r.base ≤ off ∧ indexIn (off - r.base) r.dims = some is := by
  obtain ⟨q, -, hq⟩ := List.exists_of_findSome?_eq_some h
  split at hq
  · obtain ⟨js, hj, he⟩ := Option.map_eq_some_iff.mp hq
    obtain ⟨rfl, rfl⟩ := Prod.mk.inj he
    exact ⟨‹_›, hj⟩
  · cases hq

/-- R7: registers stand at multiples of 8. -/
theorem regAt_aligned {off : Nat} {r : RegName} {is : List Nat} (h : regAt off = some (r, is)) : off % 8 = 0 := by
  obtain ⟨hle, hi⟩ := indexIn_of_regAt h
  have hbase := r.base_aligned
  have hrest : 8 ∣ off - r.base := dvd_of_indexIn r.dims r.dims_aligned hi
  omega

theorem regAt_identLock : regAt Reg.IDENT_LOCK = some (.IDENT_LOCK, []) := by decide

theorem regAt_siliconRev : regAt Reg.IDENT_SILICON_REV = some (.IDENT_SILICON_REV, []) := by decide

/-! ### The fields of a word -/

/-- Fields that lie side by side in a 64-bit word, the most significant first. -/
def FieldsApart (fs : List FieldRow) : Prop :=
  (∀ f ∈ fs, f.fld.hi < 64) ∧ fs.Pairwise (fun f g => g.fld.hi < f.fld.lo)

theorem RegName.fields_apart (r : RegName) : FieldsApart r.fields := by
  unfold FieldsApart
  cases r <;> decide

theorem RegName.fieldsAt_apart (r : RegName) (is : List Nat) : FieldsApart (r.fieldsAt is) := by
  unfold RegName.fieldsAt
  split
  · split
    · simp [FieldsApart]
    · exact RegName.fields_apart _
  · split
    · exact RegName.fields_apart _
    · simp [FieldsApart]
  · exact RegName.fields_apart _

theorem Field.mask_getLsbD (f : Field) {b : Nat} (hb : b < 64) : f.mask.getLsbD b = decide (f.lo ≤ b ∧ b ≤ f.hi) := by
  simp only [Field.mask, BitVec.getLsbD_ofNat, Nat.testBit_mul_two_pow, Nat.testBit_two_pow_sub_one, hb, decide_true, Bool.true_and]
  rw [← Bool.decide_and, decide_eq_decide]
  omega

/-- R8: a write changes a field's own bits alone, those that it reaches, and by the field's access type. -/
theorem FieldRow.write_getLsbD (f : FieldRow) (locked on : Bool) (old v mask : Word) {b : Nat} (hb : b < 64) :
    (f.write locked on old v mask).getLsbD b =
      if (f.fld.lo ≤ b ∧ b ≤ f.fld.hi) ∧ mask.getLsbD b = true then bitAfter f.acc locked on (old.getLsbD b) (v.getLsbD b)
      else old.getLsbD b := by
  have hm : (f.fld.mask &&& mask).getLsbD b = decide ((f.fld.lo ≤ b ∧ b ≤ f.fld.hi) ∧ mask.getLsbD b = true) := by
    rw [BitVec.getLsbD_and, Field.mask_getLsbD _ hb]; simp
  unfold FieldRow.write
  generalize f.fld.mask &&& mask = m at hm
  by_cases hc : (f.fld.lo ≤ b ∧ b ≤ f.fld.hi) ∧ mask.getLsbD b = true
  · rw [decide_eq_true hc, BitVec.getLsbD_eq_getElem hb] at hm
    rw [if_pos hc]
    cases f.acc <;> simp [bitAfter, hb, hm, apply_ite (fun w : Word => w[b])]
  · rw [decide_eq_false hc, BitVec.getLsbD_eq_getElem hb] at hm
    rw [if_neg hc]
    cases f.acc <;> simp [hb, hm, apply_ite (fun w : Word => w[b])]

/-- A bit that no field of a list has is as it was after all of them are written. -/
theorem foldl_write_getLsbD_of_outside (fs : List FieldRow) (locked on : Bool) (v mask : Word) {b : Nat} (hb : b < 64)
    (hout : ∀ f ∈ fs, ¬(f.fld.lo ≤ b ∧ b ≤ f.fld.hi)) : ∀ old : Word,
    (fs.foldl (fun w f => f.write locked on w v mask) old).getLsbD b = old.getLsbD b := by
  induction fs with
  | nil => intro old; rfl
  | cons f fs ih =>
    intro old
    rw [List.foldl_cons, ih (fun g hg => hout g (List.mem_cons_of_mem _ hg)), FieldRow.write_getLsbD _ _ _ _ _ _ hb,
      if_neg (fun h => hout f List.mem_cons_self h.1)]

/-- A bit of one of a word's fields changes as that field does. -/
theorem foldl_write_getLsbD_of_inside (fs : List FieldRow) (locked on : Bool) (v mask : Word) {b : Nat} {f : FieldRow}
    (hfs : FieldsApart fs) (hf : f ∈ fs) (hlo : f.fld.lo ≤ b) (hhi : b ≤ f.fld.hi) : ∀ old : Word,
    (fs.foldl (fun w f => f.write locked on w v mask) old).getLsbD b = (f.write locked on old v mask).getLsbD b := by
  obtain ⟨hlt, hpw⟩ := hfs
  have hb : b < 64 := lt_of_le_of_lt hhi (hlt f hf)
  induction fs with
  | nil => cases hf
  | cons g fs ih =>
    intro old
    obtain ⟨hg, hrest⟩ := List.pairwise_cons.mp hpw
    rw [List.foldl_cons]
    rcases List.mem_cons.mp hf with rfl | hf'
    · exact foldl_write_getLsbD_of_outside fs locked on v mask hb (fun h hh hc => by have := hg h hh; omega) _
    · have hgf := hg f hf'
      have hkeep : (g.write locked on old v mask).getLsbD b = old.getLsbD b := by
        rw [FieldRow.write_getLsbD _ _ _ _ _ _ hb, if_neg (by omega)]
      rw [ih hf' (fun h hh => hlt h (List.mem_cons_of_mem _ hh)) hrest]
      simp only [FieldRow.write_getLsbD f _ _ _ _ _ hb, hkeep]

/-! ### A write of a register's word -/

/-- A register's word after a write of `v` through `mask` by the access types of its fields (R8). -/
def State.wordAfter (s : State) (r : RegName) (is : List Nat) (old v mask : Word) : Word :=
  (r.fieldsAt is).foldl (fun w f => f.write s.locked (s.unitOn r is) w v mask) old

theorem State.wordAfter_getLsbD_of_reserved (s : State) (r : RegName) (is : List Nat) (old v mask : Word) {b : Nat} (hb : b < 64)
    (hout : ∀ f ∈ r.fieldsAt is, ¬(f.fld.lo ≤ b ∧ b ≤ f.fld.hi)) : (s.wordAfter r is old v mask).getLsbD b = old.getLsbD b :=
  foldl_write_getLsbD_of_outside _ _ _ _ _ hb hout _

theorem State.wordAfter_getLsbD_of_field (s : State) (r : RegName) (is : List Nat) (old v mask : Word) {b : Nat} {f : FieldRow}
    (hf : f ∈ r.fieldsAt is) (hlo : f.fld.lo ≤ b) (hhi : b ≤ f.fld.hi) :
    (s.wordAfter r is old v mask).getLsbD b =
      if mask.getLsbD b = true then bitAfter f.acc s.locked (s.unitOn r is) (old.getLsbD b) (v.getLsbD b) else old.getLsbD b := by
  have hfs := r.fieldsAt_apart is
  have hb : b < 64 := lt_of_le_of_lt hhi (hfs.1 f hf)
  unfold State.wordAfter
  rw [foldl_write_getLsbD_of_inside _ _ _ _ _ hfs hf hlo hhi, FieldRow.write_getLsbD _ _ _ _ _ _ hb]
  simp [hlo, hhi]

/-- A write changes the setup window alone. -/
theorem State.writeWord_setup_only (s : State) (r : RegName) (is : List Nat) (off : Nat) (v mask : Word) :
    s.writeWord r is off v mask = { s with setup := (s.writeWord r is off v mask).setup } := by
  unfold State.writeWord
  dsimp only
  split <;> rfl

/-- R446: only a write that reaches an RWL field under the lock touches another register, the count of such writes. -/
theorem State.writeWord_cases (s : State) (r : RegName) (is : List Nat) (off : Nat) (v mask : Word) :
    s.writeWord r is off v mask = s.setReg off (s.wordAfter r is (s.reg off) v mask) ∨
    s.locked = true ∧ (∃ f ∈ r.fieldsAt is, f.acc = .rwl) ∧ s.writeWord r is off v mask =
      (s.setReg off (s.wordAfter r is (s.reg off) v mask)).bump Reg.IDENT_LOCK Reg.IDENT_LOCK_LOCKED_WRITES := by
  by_cases hc : (s.locked && (r.fieldsAt is).any (fun f => f.acc = .rwl && f.fld.mask &&& mask ≠ 0)) = true
  · obtain ⟨hl, hany⟩ := Bool.and_eq_true_iff.mp hc
    obtain ⟨f, hf, hrwl⟩ := List.any_eq_true.mp hany
    exact .inr ⟨hl, ⟨f, hf, by simpa using (Bool.and_eq_true_iff.mp hrwl).1⟩, if_pos hc⟩
  · exact .inl (if_neg hc)

/-- IDENT_LOCK has no RWL field, so a register with one stands elsewhere. -/
theorem ne_identLock_of_rwl {off : Nat} {r : RegName} {is : List Nat} (hr : regAt off = some (r, is))
    (hrwl : ∃ f ∈ r.fieldsAt is, f.acc = .rwl) : off ≠ Reg.IDENT_LOCK := by
  rintro rfl
  obtain ⟨rfl, rfl⟩ := Prod.mk.inj (Option.some.inj (regAt_identLock.symm.trans hr))
  revert hrwl
  decide

theorem State.writeWord_reg_same (s : State) {r : RegName} {is : List Nat} {off : Nat} (hr : regAt off = some (r, is)) (v mask : Word) :
    (s.writeWord r is off v mask).reg off = s.wordAfter r is (s.reg off) v mask := by
  rcases s.writeWord_cases r is off v mask with h | ⟨-, hrwl, h⟩
  · rw [h, State.setReg_reg_same]
  · rw [h, State.bump, State.setFld_reg_other _ _ _ _ _ (ne_identLock_of_rwl hr hrwl), State.setReg_reg_same]

theorem State.writeWord_reg_other (s : State) (r : RegName) (is : List Nat) {off o : Nat} (v mask : Word) (ho : o ≠ off)
    (hl : o = Reg.IDENT_LOCK → s.locked = false) : (s.writeWord r is off v mask).reg o = s.reg o := by
  rcases s.writeWord_cases r is off v mask with h | ⟨hlock, -, h⟩
  · rw [h, State.setReg_reg_other _ _ _ _ ho]
  · have hne : o ≠ Reg.IDENT_LOCK := fun he => by simp [hl he] at hlock
    rw [h, State.bump, State.setFld_reg_other _ _ _ _ _ hne, State.setReg_reg_other _ _ _ _ ho]

/-- R442: a register without a subject of its own is written by its fields' access types. -/
theorem State.writeReg_of_not_subject (s : State) (src : Source) {r : RegName} (is : List Nat) (off : Nat) (v mask : Word)
    (h : r ∉ subjectRegs) : s.writeReg src r is off v mask = s.writeWord r is off v mask := by
  -- every arm but the last is one of `subjectRegs`
  unfold State.writeReg
  split <;> simp [subjectRegs] at h ⊢

/-! ### An access of the window -/

theorem badAccess_eq_true {size off : Nat} (h8 : ¬(size = 8 ∧ off % 8 = 0)) (h4 : ¬(size = 4 ∧ off % 4 = 0)) :
    badAccess size off = true := by
  simp only [badAccess, ← Bool.decide_and, decide_eq_false h8, decide_eq_false h4]; rfl

theorem badAccess_eq_false {size off : Nat} (h : size = 8 ∧ off % 8 = 0 ∨ size = 4 ∧ off % 4 = 0) : badAccess size off = false := by
  simp only [badAccess, ← Bool.decide_and, ← Bool.decide_or, decide_eq_true h]; rfl

theorem State.setupRead_of_bad (s : State) {size off : Nat} (h : badAccess size off = true) :
    s.setupRead size off = (0, s.post (event 0x0001 (BitVec.ofNat 48 off) none)) := if_pos h

/-- A whole read gives the word of the register. -/
theorem State.setupRead_eight (s : State) {off : Nat} (h : off % 8 = 0) : s.setupRead 8 off = (s.setupWord off, s) := by
  have hword : off / 8 * 8 = off := by omega
  simp [State.setupRead, badAccess_eq_false (.inl ⟨rfl, h⟩), hword]

/-- A half read gives the half of the word that its offset names. -/
theorem State.setupRead_four (s : State) {off h : Nat} (hoff : off % 8 = 0) (hh : h < 2) :
    s.setupRead 4 (off + 4 * h) = (((s.setupWord off >>> (32 * h)).setWidth 32).setWidth 64, s) := by
  have hword : (off + 4 * h) / 8 * 8 = off := by omega
  have hlane : 8 * ((off + 4 * h) % 8) = 32 * h := by omega
  have hgood : badAccess 4 (off + 4 * h) = false := badAccess_eq_false (.inr ⟨rfl, by omega⟩)
  have hhalf : BitVec.ofNat 64 ((s.setupWord off).toNat / 2 ^ (32 * h) % 2 ^ 32) =
      ((s.setupWord off >>> (32 * h)).setWidth 32).setWidth 64 := by
    apply BitVec.eq_of_toNat_eq
    simp [BitVec.toNat_ushiftRight, Nat.shiftRight_eq_div_pow]
  simp only [State.setupRead, hgood, hword, hlane, hhalf]
  rfl

/-- The upper half of a word, extended with zeros, is the word shifted down. -/
theorem upperHalf_extended (w : Word) : ((w >>> 32).setWidth 32).setWidth 64 = w >>> 32 := by
  apply BitVec.eq_of_toNat_eq
  have := w.isLt
  simp only [BitVec.toNat_setWidth, BitVec.toNat_ushiftRight, Nat.shiftRight_eq_div_pow]
  omega

/-- R443: a good read where no register is gives zero. -/
theorem State.setupRead_of_regAt_eq_none (s : State) {size off : Nat} (h : badAccess size off = false)
    (hr : regAt (off / 8 * 8) = none) : s.setupRead size off = (0, s) := by
  have hword : s.setupWord (off / 8 * 8) = 0 := by simp [State.setupWord, hr]
  simp [State.setupRead, h, hword]

theorem exec_setupWrite_of_mayUse (s : State) {src : Source} (hu : s.mayUse src = true) (size : Nat) (off : BitVec 24) (v : Word) :
    exec (.setupWrite src size off v) s = .next (s.setupWrite src size off.toNat v) := by
  simp [execSetupWrite, State.windowWrite, hu]

theorem State.setupWrite_of_bad (s : State) (src : Source) {size off : Nat} (v : Word) (h : badAccess size off = true) :
    s.setupWrite src size off v = s.post (event 0x0001 (BitVec.ofNat 48 off) none) := if_pos h

theorem State.setupWrite_of_regAt_eq_none (s : State) (src : Source) {size off : Nat} (v : Word) (h : badAccess size off = false)
    (hr : regAt (off / 8 * 8) = none) : s.setupWrite src size off v = s := by
  simp [State.setupWrite, h, hr]

/-- A good access of a register without a subject writes the register's word in the lanes it reaches. -/
theorem State.setupWrite_of_not_subject (s : State) (src : Source) {size off : Nat} {r : RegName} {is : List Nat} (v : Word)
    (h : badAccess size off = false) (hr : regAt (off / 8 * 8) = some (r, is)) (hsub : r ∉ subjectRegs) :
    s.setupWrite src size off v = s.writeWord r is (off / 8 * 8) (laneValue size off v) (laneMask size off) := by
  simp [State.setupWrite, h, hr, State.writeReg_of_not_subject s src is _ _ _ hsub]

/-! ### Half writes -/

/-- The lanes of the two halves of a word. -/
theorem halfLanes_getLsbD : ∀ b < 64, (0x00000000FFFFFFFF : Word).getLsbD b = decide (b / 32 = 0) ∧
    (0xFFFFFFFF00000000 : Word).getLsbD b = decide (b / 32 = 1) := by decide

theorem laneMask_half_getLsbD {off h b : Nat} (hoff : off % 8 = 0) (hh : h < 2) (hb : b < 64) :
    (laneMask 4 (off + 4 * h)).getLsbD b = decide (b / 32 = h) := by
  obtain ⟨hlow, hhigh⟩ := halfLanes_getLsbD b hb
  obtain rfl | rfl : h = 0 ∨ h = 1 := by omega
  · simpa [laneMask, hoff] using hlow
  · have hodd : ¬(off + 4) % 8 = 0 := by omega
    simpa [laneMask, hodd] using hhigh

/-- In the half that a 4-byte write reaches, its lanes carry the value from bit 0 on. -/
theorem laneValue_half_getLsbD {off h b : Nat} (v : Word) (hoff : off % 8 = 0) (hh : h < 2) (hb : b < 64) (hin : b / 32 = h) :
    (laneValue 4 (off + 4 * h) v).getLsbD b = v.getLsbD (b - 32 * h) := by
  obtain rfl | rfl : h = 0 ∨ h = 1 := by omega
  · have hlow : laneValue 4 (off + 4 * 0) v = v &&& 0x00000000FFFFFFFF := by simp [laneValue, hoff]
    rw [hlow, BitVec.getLsbD_and, (halfLanes_getLsbD b hb).1, decide_eq_true hin, Bool.and_true]
    rfl
  · have hodd : ¬(off + 4) % 8 = 0 := by omega
    have hhigh : laneValue 4 (off + 4 * 1) v = v <<< 32 := by simp [laneValue, hodd]
    have hge : ¬b < 32 := by omega
    rw [hhigh, BitVec.getLsbD_shiftLeft, decide_eq_true hb, decide_eq_false hge]
    rfl

/-- R7, R8: in a word written by halves a field changes where the half has it, and the other half stays. -/
theorem State.wordAfter_half_getLsbD_of_field (s : State) (r : RegName) (is : List Nat) (old v : Word) {off h b : Nat} {f : FieldRow}
    (hoff : off % 8 = 0) (hh : h < 2) (hf : f ∈ r.fieldsAt is) (hlo : f.fld.lo ≤ b) (hhi : b ≤ f.fld.hi) :
    (s.wordAfter r is old (laneValue 4 (off + 4 * h) v) (laneMask 4 (off + 4 * h))).getLsbD b =
      if b / 32 = h then bitAfter f.acc s.locked (s.unitOn r is) (old.getLsbD b) (v.getLsbD (b - 32 * h)) else old.getLsbD b := by
  have hb : b < 64 := lt_of_le_of_lt hhi ((r.fieldsAt_apart is).1 f hf)
  rw [s.wordAfter_getLsbD_of_field r is _ _ _ hf hlo hhi, laneMask_half_getLsbD hoff hh hb]
  by_cases hin : b / 32 = h
  · rw [if_pos (decide_eq_true hin), if_pos hin, laneValue_half_getLsbD v hoff hh hb hin]
  · rw [if_neg (by simp [hin]), if_neg hin]

/-- R7: a 4-byte write at either half of a register without a subject writes that register's word in the lanes of the half. -/
theorem State.setupWrite_half (s : State) (src : Source) {off h : Nat} (v : Word) {r : RegName} {is : List Nat} (hh : h < 2)
    (hr : regAt off = some (r, is)) (hsub : r ∉ subjectRegs) :
    s.setupWrite src 4 (off + 4 * h) v = s.writeWord r is off (laneValue 4 (off + 4 * h) v) (laneMask 4 (off + 4 * h)) := by
  have hoff := regAt_aligned hr
  have hword : (off + 4 * h) / 8 * 8 = off := by omega
  rw [State.setupWrite_of_not_subject s src v (badAccess_eq_false (.inr ⟨rfl, by omega⟩)) (by rwa [hword]) hsub, hword]

/-- An aligned offset of 24 bits does not wrap on the way to its second half. -/
theorem toNat_halfOffset {off : BitVec 24} {h : Nat} (hoff : off.toNat % 8 = 0) (hh : h < 2) :
    (off + BitVec.ofNat 24 (4 * h)).toNat = off.toNat + 4 * h := by
  have := off.isLt
  rw [BitVec.toNat_add, BitVec.toNat_ofNat]
  omega

/-! ### IDENT_SILICON_REV -/

/-- The revision is a stored word, not one that a read computes. -/
theorem State.setupWord_siliconRev (s : State) : s.setupWord Reg.IDENT_SILICON_REV = s.reg Reg.IDENT_SILICON_REV := by
  simp [State.setupWord, regAt_siliconRev, State.coreWord]

/-- A device reset gives every register its reset value but the three of which it carries a field over. -/
theorem State.deviceReset_reg (s : State) (cause : Nat) {off : Nat} (hspare : off ≠ Reg.MEM_SPARE_CTRL) (herr : off ≠ Reg.ERR_STATUS)
    (hboot : off ≠ Reg.BOOT_CFG) : (s.deviceReset cause).reg off = State.reset.reg off := by
  unfold State.deviceReset
  dsimp only
  split
  · rw [State.setFld_reg_other _ _ _ _ _ hspare]; rfl
  · rw [State.setFld_reg_other _ _ _ _ _ hboot, State.setFld_reg_other _ _ _ _ _ herr, State.setFld_reg_other _ _ _ _ _ hspare]; rfl

/-- IDENT_SILICON_REV has one field, and it is read-only. -/
theorem State.wordAfter_siliconRev (s : State) (old v mask : Word) : s.wordAfter .IDENT_SILICON_REV [] old v mask = old := rfl

theorem reset_siliconRev : State.reset.reg Reg.IDENT_SILICON_REV = 0x00A1 := by decide

end Sys2Proof.Machine
end

section
namespace Sys2Proof.Claims

open Sys2Proof Sys2Proof.Machine

/-- Settles O47: the revision's register has only a read-only field, and a device reset carries no value over into it. -/
theorem siliconRevisionReadsA1 : Obligations.SiliconRevisionReadsA1 := by
  refine ⟨State.setupWord_siliconRev _ ▸ reset_siliconRev, fun s cause => ?_, fun s src v hu => ?_⟩
  · calc (s.deviceReset cause).setupWord Reg.IDENT_SILICON_REV
      _ = State.reset.reg Reg.IDENT_SILICON_REV := by
        rw [State.setupWord_siliconRev, State.deviceReset_reg s cause (by decide) (by decide) (by decide)]
      _ = 0x00A1 := reset_siliconRev
  · refine ⟨_, exec_setupWrite_of_mayUse s hu 8 0x10 v, ?_⟩
    have hwrite := State.setupWrite_of_not_subject s src (size := 8) (off := Reg.IDENT_SILICON_REV) v (by decide) regAt_siliconRev (by decide)
    calc (s.setupWrite src 8 Reg.IDENT_SILICON_REV v).setupWord Reg.IDENT_SILICON_REV
      _ = (s.setupWrite src 8 Reg.IDENT_SILICON_REV v).reg Reg.IDENT_SILICON_REV := State.setupWord_siliconRev _
      _ = s.reg Reg.IDENT_SILICON_REV := by
        rw [hwrite]
        exact (State.writeWord_reg_same s regAt_siliconRev _ _).trans (State.wordAfter_siliconRev _ _ _ _)
      _ = s.setupWord Reg.IDENT_SILICON_REV := (State.setupWord_siliconRev s).symm

/-- Settles O48: a good access is `State.setupRead_eight`, `State.setupRead_four` or a write of one register's word through the mask of its
half; any other is turned away before a register is looked up. -/
theorem registersAreReachedWholeOrByHalves : Obligations.RegistersAreReachedWholeOrByHalves := by
  refine ⟨fun off r is hr => regAt_aligned hr, fun s off hoff => ⟨s.setupRead_eight hoff, ?_, ?_⟩, ?_, ?_, ?_, ?_⟩
  · simpa using s.setupRead_four (h := 0) hoff (by decide)
  · rw [s.setupRead_four (h := 1) hoff (by decide), Nat.mul_one, upperHalf_extended]
  · intro s src off h v r is hu hoff hh hr hsub
    refine ⟨_, exec_setupWrite_of_mayUse s hu 4 _ v, ?_⟩
    rw [toNat_halfOffset hoff hh, s.setupWrite_half src v hh hr hsub]
    refine ⟨s.writeWord_setup_only .., fun f hf b hlo hhi => ?_, fun b hb hout => ?_, fun o ho hl => s.writeWord_reg_other r is _ _ ho hl⟩
    · rw [s.writeWord_reg_same hr, s.wordAfter_half_getLsbD_of_field r is _ v hoff hh hf hlo hhi]
    · rw [s.writeWord_reg_same hr, s.wordAfter_getLsbD_of_reserved r is _ _ _ hb hout]
  · intro s size off h8 h4
    exact s.setupRead_of_bad (badAccess_eq_true h8 h4)
  · intro s src size off v hu h8 h4
    rw [exec_setupWrite_of_mayUse s hu, s.setupWrite_of_bad src v (badAccess_eq_true h8 h4)]
  · intro s src size off v hu hnone hgood
    have hgood := badAccess_eq_false hgood
    exact ⟨s.setupRead_of_regAt_eq_none hgood hnone, by rw [exec_setupWrite_of_mayUse s hu, s.setupWrite_of_regAt_eq_none src v hgood hnone]⟩

end Sys2Proof.Claims
end

section
/-! SUPPORT. Integer arithmetic (R69, R104): the operations of the model are those of bit vectors, and each row runs its operation. -/
namespace Sys2Proof.Machine

open Sys2Proof Sys2Proof.Claims

/-! ### The operations in the arithmetic of bit vectors -/

/-- The 128-bit product of two signed words does not wrap. -/
theorem toInt_signExtend_mul (a b : Word) : (a.signExtend 128 * b.signExtend 128).toInt = a.toInt * b.toInt := by
  have hlo : -2 ^ 126 ≤ a.toInt * b.toInt := BitVec.le_toInt_mul_toInt
  have hhi : a.toInt * b.toInt ≤ 2 ^ 126 := BitVec.toInt_mul_toInt_le
  rw [BitVec.toInt_mul, BitVec.toInt_signExtend_of_le (by decide), BitVec.toInt_signExtend_of_le (by decide)]
  exact Int.bmod_eq_of_le_mul_two (by omega) (by omega)

/-- The high half of a 128-bit value, read as a signed number. -/
theorem extractLsb'_high_eq_ofInt (p : BitVec 128) : p.extractLsb' 64 64 = BitVec.ofInt 64 (p.toInt / 2 ^ 64) := by
  apply BitVec.eq_of_toNat_eq
  rw [BitVec.extractLsb'_toNat, BitVec.toNat_ofInt, BitVec.toInt_eq_toNat_cond, Nat.shiftRight_eq_div_pow]
  have := p.isLt
  split <;> omega

theorem aluMulhs_eq (a b : Word) : aluMulhs a b = (a.signExtend 128 * b.signExtend 128).extractLsb' 64 64 := by
  rw [extractLsb'_high_eq_ofInt, toInt_signExtend_mul]; rfl

theorem aluMulhu_eq (a b : Word) : aluMulhu a b = (a.setWidth 128 * b.setWidth 128).extractLsb' 64 64 := by
  have hlt : a.toNat * b.toNat < 2 ^ (64 + 64) := Nat.pow_add 2 64 64 ▸ Nat.mul_lt_mul'' a.isLt b.isLt
  apply BitVec.eq_of_toNat_eq
  rw [BitVec.extractLsb'_toNat, BitVec.toNat_mul, BitVec.toNat_setWidth_of_le (by decide), BitVec.toNat_setWidth_of_le (by decide),
    Nat.mod_eq_of_lt hlt, Nat.shiftRight_eq_div_pow]
  exact BitVec.toNat_ofNat ..

theorem ofInt_tdiv (a b : Word) : BitVec.ofInt 64 (a.toInt.tdiv b.toInt) = a.sdiv b :=
  BitVec.eq_of_toInt_eq (by rw [BitVec.toInt_ofInt, BitVec.toInt_sdiv])

theorem ofInt_tmod (a b : Word) : BitVec.ofInt 64 (a.toInt.tmod b.toInt) = a.srem b := by
  rw [← BitVec.toInt_srem, BitVec.ofInt_toInt]

theorem aluDivs_eq (a b : Word) : aluDivs a b = if b = 0 then BitVec.allOnes 64 else a.sdiv b := by
  rw [aluDivs, ofInt_tdiv]; rfl

theorem aluDivu_eq (a b : Word) : aluDivu a b = if b = 0 then BitVec.allOnes 64 else a.udiv b := by
  rw [aluDivu, BitVec.udiv_eq, BitVec.udiv_def]; rfl

theorem aluRems_eq (a b : Word) : aluRems a b = if b = 0 then a else a.srem b := by
  rw [aluRems, ofInt_tmod]

theorem aluRemu_eq (a b : Word) : aluRemu a b = if b = 0 then a else a.umod b := by
  rw [aluRemu, BitVec.umod_eq, BitVec.umod_def]

theorem aluMin_eq (a b : Word) : aluMin a b = if a.sle b then a else b := by
  rw [aluMin, BitVec.sle_eq_not_slt]; cases b.slt a <;> rfl

theorem aluMinu_eq (a b : Word) : aluMinu a b = if a.ule b then a else b := by
  rw [aluMinu, BitVec.ule_eq_not_ult]; cases b.ult a <;> rfl

/-- Where `a ≤ b` without `a < b` the two are equal, and either is the maximum. -/
theorem aluMax_eq (a b : Word) : aluMax a b = if a.sle b then b else a := by
  simp only [aluMax, BitVec.slt_iff_toInt_lt, BitVec.sle_iff_toInt_le]
  split_ifs with hlt hle hle
  · rfl
  · omega
  · exact BitVec.eq_of_toInt_eq (by omega)
  · rfl

theorem aluMaxu_eq (a b : Word) : aluMaxu a b = if a.ule b then b else a := by
  simp only [aluMaxu, BitVec.ult_iff_lt, BitVec.ule_iff_le, BitVec.lt_def, BitVec.le_def]
  split_ifs with hlt hle hle
  · rfl
  · omega
  · exact BitVec.eq_of_toNat_eq (by omega)
  · rfl

/-- The low bits of a word that a field of 32 bits reads. -/
theorem ofNat_bits_low (w : Word) : BitVec.ofNat 32 (bits w 31 0) = w.setWidth 32 := by
  apply BitVec.eq_of_toNat_eq
  rw [BitVec.toNat_ofNat, BitVec.toNat_setWidth, bits]
  omega

/-- The sign of imm32 is shifted out. -/
theorem aluInsh_eq (w a : Word) : aluInsh (insImm w) a = (w.setWidth 32 ++ a.setWidth 32 : BitVec 64) := by
  rw [insImm, ofNat_bits_low, aluInsh]
  generalize w.setWidth 32 = x
  apply BitVec.eq_of_getLsbD_eq
  intro i hi
  have hmask := (halfLanes_getLsbD i hi).1
  rw [BitVec.getLsbD_or, BitVec.getLsbD_and, hmask, BitVec.getLsbD_shiftLeft, BitVec.getLsbD_append, BitVec.getLsbD_setWidth]
  by_cases hlow : i < 32
  · have hz : i / 32 = 0 := by omega
    simp [hlow, hz]
  · have hz : ¬i / 32 = 0 := by omega
    have hin : i - 32 < 32 := by omega
    simp [hlow, hz, hi, hin, Nat.lt_of_le_of_lt (Nat.sub_le i 32) hi, BitVec.getElem_signExtend]

/-! ### The rows -/

/-- `intOps` by the names that the model gives the operations of more than one step. -/
theorem intOps_eq : intOps =
    [(0x00, fun a b => a + b), (0x01, fun a b => a - b), (0x02, fun a b => a &&& b), (0x03, fun a b => a ||| b), (0x04, fun a b => a ^^^ b),
     (0x05, fun a b => a <<< aluShift b), (0x06, fun a b => a >>> aluShift b), (0x07, fun a b => a.sshiftRight (aluShift b)),
     (0x08, fun a b => a * b), (0x09, aluMulhs), (0x0A, aluMulhu), (0x0B, aluDivs), (0x0C, aluDivu), (0x0D, aluRems), (0x0E, aluRemu),
     (0x0F, aluMin), (0x10, aluMax), (0x11, aluMinu), (0x12, aluMaxu)] := by
  simp only [intOps, ← aluMulhs_eq, ← aluMulhu_eq, ← aluDivs_eq, ← aluDivu_eq, ← aluRems_eq, ← aluRemu_eq, ← aluMin_eq, ← aluMax_eq,
    ← aluMinu_eq, ← aluMaxu_eq, aluShift]

/-- Each row of class 0x0 is its operation on two registers. -/
theorem exec_intRow : ∀ e ∈ intRows.zip intOps, ∀ (k : CoreId) (w : Word) (s : State),
    exec (e.1 k w) s = .next (s.aluR k w e.2.1 e.2.2) := by
  simp only [intOps_eq, intRows, List.zip_cons_cons, List.zip_nil_left, List.forall_mem_cons, List.not_mem_nil, false_imp_iff,
    implies_true, and_true]
  and_intros <;> intros <;> rfl

/-- Each row of class 0x1 is its operation on a register and imm32. -/
theorem exec_immRow : ∀ e ∈ immRows.zip intOps, ∀ (k : CoreId) (w : Word) (s : State),
    exec (e.1 k w) s = .next (s.aluI k w (0x100 + e.2.1) e.2.2) := by
  simp only [intOps_eq, immRows, List.zip_cons_cons, List.zip_nil_left, List.forall_mem_cons, List.not_mem_nil, false_imp_iff,
    implies_true, and_true]
  and_intros <;> intros <;> rfl

/-- A register operation that issues writes its result and goes on (R69). -/
theorem State.aluR_runs {s : State} {k : CoreId} {w : Word} {op : Nat} (f : Word → Word → Word)
    (h : s.Issues k w op (legalR3 w) [insRd w, insRs1 w, insRs2 w]) (hn : (s.core k).Fetchable 8) :
    s.aluR k w op f = s.setCore k (wroteG (s.core k) (insRd w) (f ((s.core k).greg (insRs1 w)) ((s.core k).greg (insRs2 w)))) :=
  (State.issue_runs h).trans (s.writeG_runs k _ _ hn h.faults)

/-- An immediate operation that issues writes its result and goes on (R69). -/
theorem State.aluI_runs {s : State} {k : CoreId} {w : Word} {op : Nat} (f : Word → Word → Word)
    (h : s.Issues k w op (legalI w) [insRd w, insRs1 w]) (hn : (s.core k).Fetchable 8) :
    s.aluI k w op f = s.setCore k (wroteG (s.core k) (insRd w) (f ((s.core k).greg (insRs1 w)) (insImm w))) :=
  (State.issue_runs h).trans (s.writeG_runs k _ _ hn h.faults)

end Sys2Proof.Machine
end

section
/-! SUPPORT. The registers of a core and its traps (R62, R79 to R81): what a predicate reads after a write, and where a trap goes. -/
namespace Sys2Proof.Machine

open Sys2Proof Sys2Proof.Claims

/-! ### Predicates (R62) -/

/-- One bit in its place. -/
theorem ofNat_bit_getLsbD {n : Nat} (i : Nat) {j : Nat} (v : Bool) (hj : j < n) :
    (BitVec.ofNat n (v.toNat * 2 ^ i)).getLsbD j = (decide (j = i) && v) := by
  cases v
  · simp
  · rw [Bool.toNat_true, one_mul, BitVec.getLsbD_ofNat, Nat.testBit_two_pow, decide_eq_true hj, Bool.true_and, Bool.and_true, decide_eq_decide]
    exact eq_comm

/-- A field of one bit, set to 0 or 1. -/
theorem setBits_one_getLsbD {n : Nat} (w : BitVec n) {i j : Nat} (v : Bool) (hj : j < n) :
    (setBits w i i (if v then 1 else 0)).getLsbD j = if j = i then v else w.getLsbD j := by
  have hmask : (2 ^ (i + 1 - i) - 1) * 2 ^ i = true.toNat * 2 ^ i := by rw [Nat.add_sub_cancel_left]; rfl
  have hval : (if v then 1 else 0) % 2 ^ (i + 1 - i) = v.toNat := by rw [Nat.add_sub_cancel_left]; cases v <;> rfl
  simp only [setBits, hmask, hval, BitVec.getLsbD_or, BitVec.getLsbD_and, BitVec.getLsbD_not, ofNat_bit_getLsbD _ _ hj, hj]
  by_cases hji : j = i <;> simp [hji]

theorem Core.setP_preg (c : Core) (r : BitVec 3) (v : Bool) (q : BitVec 3) :
    (c.setP r v).preg q = if q = r ∧ r ≠ 0 then v else c.preg q := by
  by_cases hr : r = 0
  · subst hr
    rw [Core.setP_zero, if_neg (fun h => h.2 rfl)]
  · have hq : q.toNat < 8 := q.isLt
    rw [Core.setP, if_neg hr, Core.preg, Core.preg, setBits_one_getLsbD _ _ hq]
    by_cases hqr : q = r
    · subst hqr
      rw [if_pos rfl, if_pos ⟨rfl, hr⟩, decide_eq_false hr, Bool.false_or]
    · rw [if_neg (fun e => hqr (BitVec.eq_of_toNat_eq e)), if_neg (fun h => hqr h.1)]

/-! ### Traps (R79 to R81) -/

/-- A trap that finds no way into its handler trap-halts the core, its record kept (R81). -/
theorem State.trap_halts (s : State) (k : CoreId) (t : Trap) (resume : BitVec 18)
    (h : (s.core k).trapActive = true ∨ (s.core k).tvec.getLsbD 0 = false) :
    s.trap k t resume = (s.setCore k { s.core k with lastTrap := some t }).trapHalt k t := by
  rw [State.trap, if_pos]
  · rfl
  · simpa using h

/-- The oldest imprecise fault of a core at a boundary, with no trap active, is taken there (R80). -/
theorem State.deliver_traps (s : State) (k : CoreId) {t : Trap} {fs : List Trap} (hp : (s.core k).pendingTraps = t :: fs)
    (hr : (s.core k).run = .running) (ha : (s.core k).trapActive = false) (hw : s.atomicPending k = false) :
    s.deliver k = (s.setCore k { s.core k with pendingTraps := fs }).trap k t (s.core k).pc := by
  simp [State.deliver, hp, hr, ha, hw, State.mapCore]

/-- RTE goes on at SYS_EPC with no trap active (R79). -/
theorem execRte_runs {s : State} {k : CoreId} {w : Word} (h : s.Issues k w 0x904 (legalNone w) [])
    (h8 : (s.core k).epc.toNat % 8 = 0) :
    execRte k w s = .next (s.setCore k ({ s.core k with trapActive := false }.at_ (s.core k).epc.toNat)) := by
  rw [execRte, State.issue_runs h, State.goto_runs _ k _ h8 (s.core k).epc.isLt (by simpa using h.faults)]
  simp [State.mapCore]

/-- TRAP enters an enabled handler with its imm12, to resume at the next word (R79). -/
theorem execTrap_runs {s : State} {k : CoreId} {w : Word} (h : s.Issues k w 0x903 (legalImm12 w) [])
    (ha : (s.core k).trapActive = false) (he : (s.core k).tvec.getLsbD 0 = true) :
    execTrap k w s = .next (s.setCore k
      ((s.core k).inHandler 0x0A .ok (s.core k).pc ((s.core k).pc + 8) (BitVec.ofNat 64 (insImm12 w)))) := by
  rw [execTrap, State.issue_runs h, State.trap_enters _ _ _ _ ha he]

end Sys2Proof.Machine
end

section
/-! SUPPORT. CORE_LAUNCH (R63, R206): the state in which a launch finds its core, and what it sets there. -/
namespace Sys2Proof.Maps

/-- Reading a table with a range of its keys cleared. -/
theorem get_clear {β : Type} (d : β) (m : List (Nat × β)) (lo hi a : Nat) :
    get d (clear m lo hi) a = if lo ≤ a ∧ a < hi then d else get d m a := by
  induction m with
  | nil => simp [clear, get]
  | cons e m ih =>
    unfold clear at ih ⊢
    by_cases hin : lo ≤ e.1 ∧ e.1 < hi
    · rw [List.filter_cons_of_neg (by simpa using hin), ih, get]
      by_cases ha : e.1 = a
      · rw [if_pos (ha ▸ hin), if_pos (ha ▸ hin)]
      · rw [if_neg ha]
    · rw [List.filter_cons_of_pos (by simpa [or_iff_not_imp_left] using hin), get, get, ih]
      by_cases ha : e.1 = a
      · rw [if_pos ha, if_neg (ha ▸ hin), if_pos ha]
      · rw [if_neg ha, if_neg ha]

end Sys2Proof.Maps

namespace Sys2Proof.Machine

open Sys2Proof Sys2Proof.Claims

/-! ### What a launch sets in a core -/

theorem Core.launchSet_greg (c : Core) (l : Launch) (job step : BitVec 32) (pc : BitVec 18) (args : List Word) (r : BitVec 5) :
    (c.launchSet l job step pc args).greg r = if r = 0 ∨ 4 < r.toNat then 0 else args.getD (r.toNat - 1) 0 := by
  by_cases hr : r = 0
  · rw [Core.greg, if_pos hr, if_pos (.inl hr)]
  · have hn : r.toNat ≠ 0 := fun e => hr (BitVec.eq_of_toNat_eq e)
    simp only [Core.greg, hr, if_false, false_or, Core.launchSet, Vector.getElem_set, Vector.getElem_replicate]
    by_cases h4 : 4 < r.toNat
    · rw [if_pos h4, if_neg (by omega), if_neg (by omega), if_neg (by omega), if_neg (by omega)]
    · obtain h | h | h | h : r.toNat = 1 ∨ r.toNat = 2 ∨ r.toNat = 3 ∨ r.toNat = 4 := by omega
      all_goals simp [h]

/-- Of the predicates that a launch sets, p0 alone reads 1. -/
theorem preg_one : ∀ r : BitVec 3, (r = 0 || (1 : BitVec 8).getLsbD r.toNat) = decide (r = 0) := by decide

theorem Core.launchSet_preg (c : Core) (l : Launch) (job step : BitVec 32) (pc : BitVec 18) (args : List Word) (r : BitVec 3) :
    (c.launchSet l job step pc args).preg r = decide (r = 0) := preg_one r

/-- An entry of 15 bits, in words, is a byte address of 18. -/
theorem toNat_ofNat_entry (w : Word) : (BitVec.ofNat 18 (bits w 25 11 * 8)).toNat = bits w 25 11 * 8 := by
  rw [BitVec.toNat_ofNat, bits]
  omega

/-! ### The state in which a launch finds its core -/

/-- The state in which a launch of `l` finds core `k`: `l` waits no longer, and what another context left in the core is zeroed. -/
def State.readied (s : State) (k : CoreId) (l : Launch) : State :=
  let s' := { s with launchQ := s.launchQ.filter (fun m => m ≠ l) }
  if (s.core k).prevCtx = some l.ctx then s' else s'.wipeCore k l.ctx

theorem State.readied_same {s : State} {k : CoreId} {l : Launch} (h : (s.core k).prevCtx = some l.ctx) :
    s.readied k l = { s with launchQ := s.launchQ.filter (fun m => m ≠ l) } := if_pos h

theorem State.readied_other {s : State} {k : CoreId} {l : Launch} (h : (s.core k).prevCtx ≠ some l.ctx) :
    s.readied k l = { s with launchQ := s.launchQ.filter (fun m => m ≠ l) }.wipeCore k l.ctx := if_neg h

/-- The launch that CORE_LAUNCH makes from the descriptor `d`. -/
def State.launched (s : State) (k : CoreId) (l : Launch) (d : Desc) : State :=
  (s.readied k l).mapCore k fun c => c.launchSet l (s.jobOf l.ctx) (BitVec.ofNat 32 (bits (d.words.getD 2 0) 31 0))
    (BitVec.ofNat 18 (bits (d.words.getD 3 0) 25 11 * 8)) (d.words.drop 4)

theorem execCoreLaunch_of_free {s : State} {k : CoreId} {l : Launch} {d : Desc} (h : s.nextLaunch k = some (l, d))
    (hr : (s.core k).run = .idle ∨ (s.core k).run = .halted) : execCoreLaunch k s = .next (s.launched k l d) := by
  rcases hr with hr | hr <;> simp only [execCoreLaunch, h, hr] <;> rfl

theorem execCoreLaunch_of_lost {s : State} {k : CoreId} {l : Launch} {d : Desc} (h : s.nextLaunch k = some (l, d))
    (hr : (s.core k).run = .trapHalted ∨ (s.core k).run = .fenced ∨ (s.core k).run = .retired) :
    execCoreLaunch k s = .next ({ s with launchQ := s.launchQ.filter (fun m => m ≠ l) }.endDesc l.ring l.idx .fenced 0 0) := by
  rcases hr with hr | hr | hr <;> simp only [execCoreLaunch, h, hr]

/-- What a launch finds of everything but the core, its tray and its own place in the queue. -/
theorem State.readied_frame (s : State) (k : CoreId) (l : Launch) :
    (s.readied k l).setup = s.setup ∧ (s.readied k l).descs = s.descs ∧
    (s.readied k l).launchQ = s.launchQ.filter (fun m => m ≠ l) ∧ ((s.readied k l).core k).lastTrap = (s.core k).lastTrap ∧
    ∀ j, j ≠ k → (s.readied k l).core j = s.core j := by
  by_cases h : (s.core k).prevCtx = some l.ctx
  · rw [State.readied_same h]
    exact ⟨rfl, rfl, rfl, rfl, fun _ _ => rfl⟩
  · rw [State.readied_other h, State.wipeCore, State.mapCore_core]
    exact ⟨rfl, rfl, rfl, rfl, fun j hj => State.mapCore_core_other _ _ _ _ hj⟩

/-- R63: a core that last ran the same context is found as it was, its tray included. -/
theorem State.readied_kept {s : State} {k : CoreId} {l : Launch} (h : (s.core k).prevCtx = some l.ctx) :
    (s.readied k l).mem = s.mem ∧ (s.readied k l).core k = s.core k := by
  rw [State.readied_same h]
  exact ⟨rfl, rfl⟩

/-- R63: a core that last ran another context is found without tiles, accumulators and far-read lines, its tray zeroed. -/
theorem State.readied_wiped {s : State} {k : CoreId} {l : Launch} (h : (s.core k).prevCtx ≠ some l.ctx) :
    ((s.readied k l).core k).tiles = [] ∧ ((s.readied k l).core k).acc = [] ∧ ((s.readied k l).core k).cache = [] ∧
    ∀ a, (s.readied k l).byte a = if trayOf k ≤ a ∧ a < trayOf k + 0x400000 then 0 else s.byte a := by
  rw [State.readied_other h, State.wipeCore, State.mapCore_core]
  exact ⟨rfl, rfl, rfl, fun a => Maps.get_clear 0 s.mem _ _ a⟩

theorem State.launched_core (s : State) (k : CoreId) (l : Launch) (d : Desc) :
    (s.launched k l d).core k = ((s.readied k l).core k).launchSet l (s.jobOf l.ctx) (BitVec.ofNat 32 (bits (d.words.getD 2 0) 31 0))
      (BitVec.ofNat 18 (bits (d.words.getD 3 0) 25 11 * 8)) (d.words.drop 4) := State.mapCore_core ..

theorem State.launched_core_other (s : State) (k : CoreId) (l : Launch) (d : Desc) {j : CoreId} (hj : j ≠ k) :
    (s.launched k l d).core j = (s.readied k l).core j := State.mapCore_core_other _ _ _ _ hj

end Sys2Proof.Machine
end

section
namespace Sys2Proof.Claims

open Sys2Proof Sys2Proof.Machine

/-- Settles O2: a write is read back by `Core.setG_greg` and `Core.setP_preg`, at register 0 and at every other. -/
theorem registerZeroDiscardsWrites : Obligations.RegisterZeroDiscardsWrites := by
  refine fun c => ⟨fun v => ⟨c.greg_zero, c.setG_zero v⟩, fun r v hr => ⟨?_, fun q hq => ?_⟩,
    fun v => ⟨c.preg_zero, c.setP_zero v⟩, fun r v hr => ⟨?_, fun q hq => ?_⟩⟩
  · rw [Core.setG_greg, if_pos (by simpa using hr)]
  · rw [Core.setG_greg, if_neg (by simp [hq])]
  · rw [Core.setP_preg, if_pos ⟨rfl, hr⟩]
  · rw [Core.setP_preg, if_neg (fun h => hq h.1)]

/-- Settles O3: TRAP and RTE run, and a trap enters its handler (`State.trap_enters`) or halts the core (`State.trap_halts`). -/
theorem trapEntersHandlerAndRteReturns : Obligations.TrapEntersHandlerAndRteReturns := by
  refine ⟨fun s k w h ha he => execTrap_runs h ha he, fun s k w h h8 => execRte_runs h h8, fun s k t r => ⟨?_, ?_, ?_, ?_⟩⟩
  · exact s.trap_halts k t r
  · exact s.trap_enters k t r
  · exact fun cause st bad => rfl
  · exact fun fs hp hr ha hw => s.deliver_traps k hp hr ha hw

/-- Settles O8: a free core is set by `Core.launchSet` in the state `State.readied`; a core that can run nothing ends the descriptor. -/
theorem launchSetsTheCore : Obligations.LaunchSetsTheCore := by
  intro s k l d h
  refine ⟨fun hr => ⟨s.launched k l d, execCoreLaunch_of_free h hr, ?_⟩, fun hr => execCoreLaunch_of_lost h hr⟩
  obtain ⟨hsetup, hdescs, hqueue, htrap, hcores⟩ := s.readied_frame k l
  rw [s.launched_core]
  refine ⟨fun r => Core.launchSet_greg .., fun r => Core.launchSet_preg .., rfl, rfl, rfl, ofNat_bits_low _, toNat_ofNat_entry _,
    rfl, rfl, rfl, rfl, rfl, rfl, rfl, rfl, rfl, rfl, htrap, fun j hj => (s.launched_core_other k l d hj).trans (hcores j hj),
    hsetup, hdescs, hqueue, fun hsame => ?_, fun hother => ?_⟩
  · obtain ⟨hmem, hcore⟩ := State.readied_kept hsame
    exact ⟨hmem, (congrArg Core.tiles hcore :), (congrArg Core.acc hcore :), (congrArg Core.cache hcore :)⟩
  · exact State.readied_wiped hother

/-- Settles O49: every row runs its bit-vector operation (`exec_intRow`, `exec_immRow`), and an operation that issues writes its result. -/
theorem integerArithmeticResults : Obligations.IntegerArithmeticResults := by
  refine ⟨fun e he s k w h hn => ?_, fun e he s k w h hn => ?_, fun s k w h hn => ?_⟩
  · rw [exec_intRow e he, State.aluR_runs e.2.2 h hn]
  · rw [exec_immRow e he, State.aluI_runs e.2.2 h hn]
  · rw [exec_insh, execInsh, State.aluI_runs _ h hn, aluInsh_eq]

end Sys2Proof.Claims
end
